-- ==== Sys2Proof/Word.lean ====
section
/-!
DEFINITION. The plain words of the FQ-740: the 40-bit native word of R8 and R9, the byte, and the 80-bit cell.
Only the types and their plainest conversions stand here; every bit-field helper stands in Machine/Bits.lean.
-/

namespace Sys2Proof

/-- A byte of device or host memory. -/
abbrev Byte := BitVec 8

/-- The native 40-bit word: a register of R9, an X register of the operator cores, a device address of R16. -/
abbrev Word := BitVec 40

/-- A 64-bit word: a payload word of R73, a STATUS word of R66, a completion word of R81. -/
abbrev Word64 := BitVec 64

/-- An 80-bit cell of the cell file (R235) and an 80-bit Junction key or mask (R279). -/
abbrev Cell80 := BitVec 80

/-- Number of an operator core, 0 to 31, or of the Signal Box core, 32. -/
abbrev CoreIx := Fin 33

/-- Number of a virtual port (R102). -/
abbrev PortIx := Fin 256

/-- Number of a ring within its port (R64). -/
abbrev RingIx := Fin 512

/-- Identifier of a running Consist (R169). -/
abbrev ConsistIx := Fin 1024

end Sys2Proof
end

