-- ==== Sys2Proof/Machine/Bits.lean ====
section
/-!
DEFINITION. Bit fields, sign extension and byte order: the helpers that every unit of the machine uses on words
(R7, R8).
-/

namespace Sys2Proof.Machine

/-- Bits [hi:lo] of a number, as a number (R8). -/
def bitsOf (n hi lo : Nat) : Nat := (n >>> lo) % 2 ^ (hi + 1 - lo)

/-- Bit i of a number as 0 or 1. -/
def bitOf (n i : Nat) : Nat := (n >>> i) % 2

/-- The 40-bit mask with ones in [hi:lo]. -/
def maskW (hi lo : Nat) : Word := (BitVec.allOnes 40 >>> (39 + lo - hi)) <<< lo

/-- The word with bits [hi:lo] replaced by v, every other bit kept (R8). -/
def setBitsW (w : Word) (hi lo v : Nat) : Word :=
  (w &&& ~~~ maskW hi lo) ||| ((BitVec.ofNat 40 v <<< lo) &&& maskW hi lo)

/-- 1 for true, 0 for false. -/
def b2n (b : Bool) : Nat := if b then 1 else 0

/-- The k bytes of a number, least significant byte first (R7). -/
def toLE : Nat → Nat → List Byte
  | 0, _ => []
  | k + 1, v => BitVec.ofNat 8 v :: toLE k (v / 256)

/-- The number whose bytes stand least significant first (R7). -/
def ofLE : List Byte → Nat
  | [] => 0
  | b :: bs => b.toNat + 256 * ofLE bs

/-- The k bytes of a number, most significant byte first: the byte order inside SHA-384 and ECDSA values. -/
def toBE (k v : Nat) : List Byte := (toLE k v).reverse

/-- The number whose bytes stand most significant first. -/
def ofBE (bs : List Byte) : Nat := ofLE bs.reverse

/-- A run of k zero bytes. -/
def zeros (k : Nat) : List Byte := List.replicate k 0

/-- Bytes [at, at+len) of a list, with zeros past its end. -/
def sliceB (bs : List Byte) (start len : Nat) : List Byte :=
  let t := (bs.drop start).take len
  t ++ zeros (len - t.length)

/-- The little-endian number in bytes [start, start+len) of a list. -/
def leAt (bs : List Byte) (start len : Nat) : Nat := ofLE (sliceB bs start len)

/-- n rounded up to a multiple of m. -/
def roundUp (n m : Nat) : Nat := (n + m - 1) / m * m

/-- ceil (n / m). -/
def ceilDiv (n m : Nat) : Nat := (n + m - 1) / m

/-- Sign extension of a k-bit number into a 40-bit word (R210, R213). -/
def sextW (k v : Nat) : Word :=
  if bitOf v (k - 1) = 1 then BitVec.ofInt 40 ((v % 2 ^ k : Nat) - (2 ^ k : Nat) : Int)
  else BitVec.ofNat 40 (v % 2 ^ k)

/-- A saturating 40-bit counter step (the RC counters of the register blocks). -/
def satAdd (w : Word) (n : Nat) : Word :=
  if w.toNat + n < 2 ^ 40 then BitVec.ofNat 40 (w.toNat + n) else BitVec.allOnes 40

/-- The indexes i below n for which p holds, in rising order. -/
def idxWhere (n : Nat) (p : Nat → Bool) : List Nat := (List.range n).filter p

/-- The first index i below n for which p holds. -/
def firstIdx (n : Nat) (p : Nat → Bool) : Option Nat := (List.range n).find? p

/-- H40 of a native word (R160, R211). -/
def h40 (k : Nat) : Nat :=
  let x := k * 0xC6A4A7935B % 2 ^ 40
  (x ^^^ (x >>> 19)) % 2 ^ 40

/-- Set bits of a k-bit number. -/
def popcN : Nat → Nat → Nat
  | 0, _ => 0
  | k + 1, v => v % 2 + popcN k (v / 2)

end Sys2Proof.Machine
end

