-- ==== Sys2Proof/Config.lean ====
section
/-!
DEFINITION. What the spec leaves to the part or leaves open: every constant here is opaque, so no proof can see its
value. A free value is one of these functions applied to the counter that State.dev.fresh holds, or to the operands it
depends on.
-/

namespace Sys2Proof.Config

/-- A fresh value that the spec states no number for, by the reading of State's counter. -/
opaque freeWord : Nat → BitVec 64

/-- The TRNG output that SBOX_NONCE and the debug nonce take (R414, R416, R481): free. -/
opaque trng : Nat → BitVec 64

/-- What SBOX_NONCE holds from a reset until BOOT draws its first value (R11, R420): random, so free. -/
opaque resetNonce : BitVec 40

/-- The attestation and seal signing key of the part (R414): free. -/
opaque signKey : BitVec 384

/-- The per-signature secret number of ECDSA (FIPS 186), by the reading of State's counter: free. -/
opaque signNonce : Nat → BitVec 384

/-- IEEE 754 lets the implementation detect tininess after rounding or before it, and R247 does not choose: free. -/
opaque tinyAfterRounding : Bool

/-- IEEE 754 leaves open whether a fused multiply-add of zero, infinity and a quiet NaN is invalid, and R247 does not choose:
free. -/
opaque fmaNanInvalid : Bool

/-- The UF and NX flags of a result that FZ flushes to zero, by the operands (R247 states no flag for a flush): free. -/
opaque flushFlags : List Nat → BitVec 2

/-- COREBASE on the Signal Box core, whose n no rule states (R226, R233): free. -/
opaque sboxCoreBase : BitVec 40

/-- The debug public key in ROM (R414, R416): free. -/
opaque debugKeyX : BitVec 384
opaque debugKeyY : BitVec 384

/-- The 10 check bits of the extended Hamming code over 32 bytes, whose matrix R375 does not give: free. -/
opaque eccCode : List (BitVec 8) → BitVec 10

/-- DENSITY, CLAMSHELL, RATE, ECC and the exclusion fields that firmware writes to MC_GLOBAL for its board (R387): bits [22:0], free. -/
opaque boardGlobal : BitVec 23

/-- The device mode register values that firmware writes for its board (R387): free. -/
opaque modeValue : Nat → BitVec 12

/-- MC_LANE values that training finds, by the register's index and a fresh number (R387): free. -/
opaque laneValue : Nat → Nat → BitVec 24

/-- The content of an alignment-marker block, which carries its logical lane number (R30), and of a clock-compensation block (R29): the spec gives
no layout, so free. -/
opaque alignMarker : Nat → BitVec 64
opaque compensation : BitVec 64

/-- The scrambler's bits of a lane that comes up (R30), by the lane and a fresh number: free. -/
opaque scramSeed : Nat → Nat → BitVec 58

end Sys2Proof.Config
end

