-- ==== Sys2Proof/Machine/Maps.lean ====
section
/-!
DEFINITION. Sparse arrays as plain data: a list of keys and values in one canonical form, keys strictly rising and
no value equal to what an unlisted key reads as. Registers, memory, cores, rings, queues are held in this form, so
that equal machines are equal data.
-/

namespace Sys2Proof.Machine

/-- A sparse array: entries by rising key. -/
abbrev SMap (α : Type) := List (Nat × α)

/-- The value at key k, or d where k is not listed. -/
def mget {α : Type} (d : α) : SMap α → Nat → α
  | [], _ => d
  | (k', v) :: m, k => if k = k' then v else if k < k' then d else mget d m k

/-- Drops leading entries whose key is at most k. -/
def mskip {α : Type} (k : Nat) : SMap α → SMap α
  | [] => []
  | (k', v) :: m => if k' ≤ k then mskip k m else (k', v) :: m

/-- The array with value v at key k; an entry equal to the default d is not listed. -/
def mset {α : Type} [DecidableEq α] (d : α) : SMap α → Nat → α → SMap α
  | [], k, v => if v = d then [] else [(k, v)]
  | (k', v') :: m, k, v =>
    if k < k' then (if v = d then (k', v') :: m else (k, v) :: (k', v') :: m)
    else if k = k' then (if v = d then mskip k m else (k, v) :: m)
    else (k', v') :: mset d m k v

/-- The array with the value at key k replaced by its image under f. -/
def mmod {α : Type} [DecidableEq α] (d : α) (m : SMap α) (k : Nat) (f : α → α) : SMap α :=
  mset d m k (f (mget d m k))

/-- Keys rise strictly from above `lo` and no listed value is the default. -/
def mwfFrom {α : Type} [DecidableEq α] (d : α) : Option Nat → SMap α → Bool
  | _, [] => true
  | lo, (k, v) :: m => (match lo with | none => true | some l => decide (l < k)) && decide (v ≠ d) && mwfFrom d (some k) m

/-- The canonical form of a sparse array. -/
def mwf {α : Type} [DecidableEq α] (d : α) (m : SMap α) : Bool := mwfFrom d none m

/-- Keys of the listed entries. -/
def mkeys {α : Type} (m : SMap α) : List Nat := m.map Prod.fst

/-- A set of numbers as a rising list without repeats: insertion. -/
def sins : List Nat → Nat → List Nat
  | [], k => [k]
  | x :: xs, k => if k < x then k :: x :: xs else if k = x then x :: xs else x :: sins xs k

/-- Removal from a rising list. -/
def sdel (xs : List Nat) (k : Nat) : List Nat := xs.filter (fun x => decide (x ≠ k))

end Sys2Proof.Machine
end

