-- ==== Sys2Proof/Machine/RegTable.lean ====
section
/-!
DEFINITION. The register tables of the spec (R469 to R482 and the field tables of R63, R101, R115, R200, R234, R278,
R302, R318, R338, R339, R369, R391, R419 to R421, R447 and R468): name, address, reset value and access codes of every register.
-/

namespace Sys2Proof.Machine

/-- The registers by name; an array of registers is one name with an index. -/
inductive Reg where
  /-- LINK_CTRL. -/
  | linkCtrl
  /-- LINK_STATUS. -/
  | linkStatus
  /-- LINK_EQ. -/
  | linkEq
  /-- LINK_CREDIT. -/
  | linkCredit
  /-- LINK_ERR_CNT. -/
  | linkErrCnt
  /-- RING_CTRL. -/
  | ringCtrl
  /-- RING_CTX_BASE. -/
  | ringCtxBase
  /-- RING_STATUS. -/
  | ringStatus
  /-- RING_ERR. -/
  | ringErr
  /-- RING_CNT. -/
  | ringCnt
  /-- PORT0_SUMMARY_LO. -/
  | port0SummaryLo
  /-- PORT0_SUMMARY_HI. -/
  | port0SummaryHi
  /-- PORT0_ROSTER_LO. -/
  | port0RosterLo
  /-- PORT0_ROSTER_HI. -/
  | port0RosterHi
  /-- PORT_STATE. -/
  | portState
  /-- PORT_LIMIT. -/
  | portLimit
  /-- PORT_JUNCTION. -/
  | portJunction
  /-- PORT_USE. -/
  | portUse
  /-- DISP_CTRL. -/
  | dispCtrl
  /-- DISP_FLOW_BASE. -/
  | dispFlowBase
  /-- DISP_STATUS. -/
  | dispStatus
  /-- DISP_STATUS2. -/
  | dispStatus2
  /-- DISP_ERR. -/
  | dispErr
  /-- DISP_CNT. -/
  | dispCnt
  /-- DISP_CORE. -/
  | dispCore
  /-- DISP_CONSIST. -/
  | dispConsist
  /-- CORE_CTRL. -/
  | coreCtrl
  /-- CORE_RESET_PC. -/
  | coreResetPc
  /-- CORE_MSG. -/
  | coreMsg
  /-- CORE_STATUS. -/
  | coreStatus
  /-- CORE_FAULT. -/
  | coreFault
  /-- CORE_FAULT_PC. -/
  | coreFaultPc
  /-- CORE_CNT. -/
  | coreCnt
  /-- PLANE_CTRL. -/
  | planeCtrl
  /-- PLANE_STATUS. -/
  | planeStatus
  /-- PLANE_ERR. -/
  | planeErr
  /-- PLANE_ERR_ADDR. -/
  | planeErrAddr
  /-- PLANE_CNT. -/
  | planeCnt
  /-- JUNC_CTRL. -/
  | juncCtrl
  /-- JUNC_STATUS. -/
  | juncStatus
  /-- JUNC_ERR. -/
  | juncErr
  /-- JUNC_ERR_ADDR. -/
  | juncErrAddr
  /-- JUNC_CNT. -/
  | juncCnt
  /-- JUNC_TABLE. -/
  | juncTable
  /-- HUMP_STATUS. -/
  | humpStatus
  /-- HUMP_ERR. -/
  | humpErr
  /-- HUMP_ERR_ADDR. -/
  | humpErrAddr
  /-- HUMP_CNT. -/
  | humpCnt
  /-- CACHE_CTRL. -/
  | cacheCtrl
  /-- CACHE_STATUS. -/
  | cacheStatus
  /-- CACHE_MAINT. -/
  | cacheMaint
  /-- CACHE_MAINT_ADDR. -/
  | cacheMaintAddr
  /-- CACHE_MAINT_END. -/
  | cacheMaintEnd
  /-- CACHE_CNT. -/
  | cacheCnt
  /-- CACHE_WAYS. -/
  | cacheWays
  /-- YARD_CLEAR. -/
  | yardClear
  /-- YARD_STATUS. -/
  | yardStatus
  /-- MEM_ERR. -/
  | memErr
  /-- MEM_ERR_ADDR. -/
  | memErrAddr
  /-- YARD_CNT. -/
  | yardCnt
  /-- SHUNT_CTRL. -/
  | shuntCtrl
  /-- SHUNT_STAGE. -/
  | shuntStage
  /-- SHUNT_STATUS. -/
  | shuntStatus
  /-- SHUNT_GATE. -/
  | shuntGate
  /-- SHUNT_IRQ. -/
  | shuntIrq
  /-- SHUNT_IRQ_EN. -/
  | shuntIrqEn
  /-- SHUNT_ERR. -/
  | shuntErr
  /-- SHUNT_ERR_ADDR. -/
  | shuntErrAddr
  /-- SHUNT_CNT. -/
  | shuntCnt
  /-- SHUNT_CH_STATE. -/
  | shuntChState
  /-- SHUNT_CH_PROG. -/
  | shuntChProg
  /-- SHUNT_CH_BYTES. -/
  | shuntChBytes
  /-- MC_GLOBAL. -/
  | mcGlobal
  /-- MC_USABLE. -/
  | mcUsable
  /-- MC_CTRL. -/
  | mcCtrl
  /-- MC_TIMING0. -/
  | mcTiming0
  /-- MC_TIMING1. -/
  | mcTiming1
  /-- MC_ERR. -/
  | mcErr
  /-- MC_ERR_ADDR. -/
  | mcErrAddr
  /-- MC_STATUS. -/
  | mcStatus
  /-- MC_TRAIN_CTRL. -/
  | mcTrainCtrl
  /-- MC_TRAIN_PAT. -/
  | mcTrainPat
  /-- MC_TRAIN_RES. -/
  | mcTrainRes
  /-- MC_LANE. -/
  | mcLane
  /-- MC_CNT. -/
  | mcCnt
  /-- CHIP_ID. -/
  | chipId
  /-- CHIP_SERIAL_LO. -/
  | chipSerialLo
  /-- CHIP_SERIAL_HI. -/
  | chipSerialHi
  /-- CHIP_LIFECYCLE. -/
  | chipLifecycle
  /-- SBOX_EVENT. -/
  | sboxEvent
  /-- SBOX_EVENT_EN. -/
  | sboxEventEn
  /-- SBOX_FW. -/
  | sboxFw
  /-- SBOX_JOURNAL. -/
  | sboxJournal
  /-- SBOX_LOG. -/
  | sboxLog
  /-- SBOX_NONCE. -/
  | sboxNonce
  /-- SBOX_PUBKEY. -/
  | sboxPubkey
  /-- SBOX_SENSOR. -/
  | sboxSensor
  /-- CIPHER_CTRL. -/
  | cipherCtrl
  /-- CIPHER_STATUS. -/
  | cipherStatus
  /-- CIPHER_SIGN. -/
  | cipherSign
  /-- CIPHER_SIGN_STATUS. -/
  | cipherSignStatus
  /-- PWR_CTRL. -/
  | pwrCtrl
  /-- PWR_STATUS. -/
  | pwrStatus
  /-- RETAIN_MASK. -/
  | retainMask
  /-- SLEEP_STATUS. -/
  | sleepStatus
  /-- WAKE_CTRL. -/
  | wakeCtrl
  /-- WAKE_CAUSE. -/
  | wakeCause
  /-- PAD_HOLD. -/
  | padHold
  /-- RESET_CTRL. -/
  | resetCtrl
  /-- RESET_CAUSE. -/
  | resetCause
  /-- RESET_PC. -/
  | resetPc
  /-- AO_TIME. -/
  | aoTime
  /-- AO_ALARM. -/
  | aoAlarm
  /-- PWR_DOMAIN. -/
  | pwrDomain
  /-- GPIO_OUT. -/
  | gpioOut
  /-- GPIO_OE. -/
  | gpioOe
  /-- GPIO_IN. -/
  | gpioIn
  /-- PM_SMB. -/
  | pmSmb
  deriving DecidableEq, Repr

/-- Key of instance i of a register in the register file of State. -/
def Reg.key (r : Reg) (i : Nat) : Nat := r.ctorIdx * 4096 + i

/-- Registers of the blocks CHIP, LINK, RING, PORT and DISPATCH: offset from 0xF0_0000_0000, stride, instances (R471 to R474, R477 to R479, R481,
R482). -/
def linRegsLo : List (Nat × Nat × Nat × Reg) :=
  [(0x100000, 0x8, 1, Reg.linkCtrl),
   (0x100008, 0x8, 1, Reg.linkStatus),
   (0x100010, 0x8, 1, Reg.linkEq),
   (0x100018, 0x8, 1, Reg.linkCredit),
   (0x100020, 0x8, 4, Reg.linkErrCnt),
   (0x200000, 0x8, 1, Reg.ringCtrl),
   (0x200008, 0x8, 1, Reg.ringCtxBase),
   (0x200010, 0x8, 1, Reg.ringStatus),
   (0x200018, 0x8, 1, Reg.ringErr),
   (0x200020, 0x8, 4, Reg.ringCnt),
   (0x300000, 0x8, 1, Reg.port0SummaryLo),
   (0x300008, 0x8, 1, Reg.port0SummaryHi),
   (0x300010, 0x8, 1, Reg.port0RosterLo),
   (0x300018, 0x8, 1, Reg.port0RosterHi),
   (0x301000, 0x20, 256, Reg.portState),
   (0x301008, 0x20, 256, Reg.portLimit),
   (0x301010, 0x20, 256, Reg.portJunction),
   (0x301018, 0x20, 256, Reg.portUse),
   (0x400000, 0x8, 1, Reg.dispCtrl),
   (0x400008, 0x8, 1, Reg.dispFlowBase),
   (0x400010, 0x8, 1, Reg.dispStatus),
   (0x400018, 0x8, 1, Reg.dispStatus2),
   (0x400020, 0x8, 1, Reg.dispErr),
   (0x400040, 0x8, 8, Reg.dispCnt),
   (0x400100, 0x8, 32, Reg.dispCore),
   (0x401000, 0x8, 1024, Reg.dispConsist),
   (0x0, 0x8, 1, Reg.chipId),
   (0x8, 0x8, 1, Reg.chipSerialLo),
   (0x10, 0x8, 1, Reg.chipSerialHi),
   (0x18, 0x8, 1, Reg.chipLifecycle)]

/-- Registers of the blocks JUNCTION, HUMP, CACHE, YARD and SHUNT: offset from 0xF0_0000_0000, stride, instances (R471 to R474, R477 to R479, R481,
R482). -/
def linRegsMid : List (Nat × Nat × Nat × Reg) :=
  [(0x700000, 0x8, 1, Reg.juncCtrl),
   (0x700008, 0x8, 1, Reg.juncStatus),
   (0x700010, 0x8, 1, Reg.juncErr),
   (0x700018, 0x8, 1, Reg.juncErrAddr),
   (0x700040, 0x8, 8, Reg.juncCnt),
   (0x701000, 0x8, 1024, Reg.juncTable),
   (0x800000, 0x8, 1, Reg.humpStatus),
   (0x800008, 0x8, 1, Reg.humpErr),
   (0x800010, 0x8, 1, Reg.humpErrAddr),
   (0x800040, 0x8, 4, Reg.humpCnt),
   (0x900000, 0x8, 1, Reg.cacheCtrl),
   (0x900008, 0x8, 1, Reg.cacheStatus),
   (0x900010, 0x8, 1, Reg.cacheMaint),
   (0x900018, 0x8, 1, Reg.cacheMaintAddr),
   (0x900020, 0x8, 1, Reg.cacheMaintEnd),
   (0x900040, 0x8, 8, Reg.cacheCnt),
   (0x900100, 0x8, 51, Reg.cacheWays),
   (0xA00000, 0x8, 1, Reg.yardClear),
   (0xA00008, 0x8, 1, Reg.yardStatus),
   (0xA00010, 0x8, 1, Reg.memErr),
   (0xA00018, 0x8, 1, Reg.memErrAddr),
   (0xA00040, 0x8, 4, Reg.yardCnt),
   (0xB00000, 0x8, 1, Reg.shuntCtrl),
   (0xB00008, 0x8, 1, Reg.shuntStage),
   (0xB00010, 0x8, 1, Reg.shuntStatus),
   (0xB00018, 0x8, 1, Reg.shuntGate),
   (0xB00020, 0x8, 1, Reg.shuntIrq),
   (0xB00028, 0x8, 1, Reg.shuntIrqEn),
   (0xB00030, 0x8, 1, Reg.shuntErr),
   (0xB00038, 0x8, 1, Reg.shuntErrAddr),
   (0xB00040, 0x8, 4, Reg.shuntCnt),
   (0xB01000, 0x20, 16, Reg.shuntChState),
   (0xB01008, 0x20, 16, Reg.shuntChProg),
   (0xB01010, 0x20, 16, Reg.shuntChBytes)]

/-- Registers of the blocks CIPHER, SBOX and AOPWR: offset from 0xF0_0000_0000, stride, instances (R471 to R474, R477 to R479, R481,
R482). -/
def linRegsHi : List (Nat × Nat × Nat × Reg) :=
  [(0xE00000, 0x8, 1, Reg.sboxEvent),
   (0xE00008, 0x8, 1, Reg.sboxEventEn),
   (0xE00010, 0x8, 1, Reg.sboxFw),
   (0xE00018, 0x8, 1, Reg.sboxJournal),
   (0xE00020, 0x8, 1, Reg.sboxLog),
   (0xE00028, 0x8, 1, Reg.sboxNonce),
   (0xE00100, 0x8, 20, Reg.sboxPubkey),
   (0xE00200, 0x8, 41, Reg.sboxSensor),
   (0xD00000, 0x8, 1, Reg.cipherCtrl),
   (0xD00008, 0x8, 1, Reg.cipherStatus),
   (0xD00010, 0x8, 1, Reg.cipherSign),
   (0xD00018, 0x8, 1, Reg.cipherSignStatus),
   (0xF00000, 0x8, 1, Reg.pwrCtrl),
   (0xF00008, 0x8, 1, Reg.pwrStatus),
   (0xF00010, 0x8, 1, Reg.retainMask),
   (0xF00018, 0x8, 1, Reg.sleepStatus),
   (0xF00020, 0x8, 1, Reg.wakeCtrl),
   (0xF00028, 0x8, 1, Reg.wakeCause),
   (0xF00030, 0x8, 1, Reg.padHold),
   (0xF00038, 0x8, 1, Reg.resetCtrl),
   (0xF00040, 0x8, 1, Reg.resetCause),
   (0xF00048, 0x8, 1, Reg.resetPc),
   (0xF00050, 0x8, 1, Reg.aoTime),
   (0xF00058, 0x8, 1, Reg.aoAlarm),
   (0xF00100, 0x8, 24, Reg.pwrDomain),
   (0xF00060, 0x8, 1, Reg.gpioOut),
   (0xF00068, 0x8, 1, Reg.gpioOe),
   (0xF00070, 0x8, 1, Reg.gpioIn),
   (0xF00078, 0x8, 1, Reg.pmSmb)]

/-- The registers of every block but RAKE, PLANE and MC. -/
def linRegs : List (Nat × Nat × Nat × Reg) := linRegsLo ++ (linRegsMid ++ linRegsHi)

/-- Registers of one core within its RAKE unit: offset, instances (R475). -/
def rakeRegs : List (Nat × Nat × Reg) :=
  [(0x0, 1, Reg.coreCtrl), (0x8, 1, Reg.coreResetPc), (0x10, 1, Reg.coreMsg), (0x18, 1, Reg.coreStatus), (0x20, 1, Reg.coreFault), (0x28, 1, Reg.coreFaultPc), (0x40, 4, Reg.coreCnt)]

/-- Registers of one Plane Scanner: offset, instances (R476). -/
def planeRegs : List (Nat × Nat × Reg) :=
  [(0x0, 1, Reg.planeCtrl), (0x8, 1, Reg.planeStatus), (0x10, 1, Reg.planeErr), (0x18, 1, Reg.planeErrAddr), (0x40, 4, Reg.planeCnt)]

/-- Registers of one memory controller below 0x1000: offset, instances (R480). -/
def mcRegs : List (Nat × Nat × Reg) :=
  [(0x0, 1, Reg.mcGlobal), (0x8, 1, Reg.mcUsable), (0x10, 1, Reg.mcCtrl), (0x18, 1, Reg.mcTiming0), (0x20, 1, Reg.mcTiming1), (0x28, 1, Reg.mcErr), (0x30, 1, Reg.mcErrAddr)]

/-- Registers of one channel of a controller, from 0x1000: offset, instances (R480). -/
def mcChRegs : List (Nat × Nat × Reg) :=
  [(0x1000, 1, Reg.mcStatus), (0x1008, 1, Reg.mcTrainCtrl), (0x1010, 1, Reg.mcTrainPat), (0x1018, 1, Reg.mcTrainRes), (0x1100, 31, Reg.mcLane), (0x1200, 10, Reg.mcCnt)]

/-- Reset value of instance i of a register (R11, R471 to R482). Fields marked OTP, AO or random, and the values that
regLive computes, stand as zero here. -/
def Reg.resetVal (r : Reg) (i : Nat) : Word :=
  match r with
  | .linkCtrl => 0x0000001400#40
  | .linkStatus => 0x0000003000#40
  | .ringCtrl => 0x00000003E8#40
  | .dispCtrl => 0x0000000400#40
  | .coreCtrl => 0x0000000001#40
  | .coreResetPc => BitVec.ofNat 40 (0x810080E000 + i * 0x1000000)
  | .coreStatus => 0x0200000000#40
  | .planeCtrl => 0x0000000040#40
  | .juncCtrl => 0x00000000A0#40
  | .cacheCtrl => 0x0000000042#40
  | .cacheWays => 0x000000FFFF#40
  | .shuntCtrl => 0x000000F000#40
  | .shuntStage => 0x0000040FC0#40
  | .shuntChState => 0x1800000000#40
  | .mcGlobal => 0x0000000014#40
  | .mcCtrl => 0x0000000300#40
  | .mcTiming0 => 0x180A434346#40
  | .mcTiming1 => 0xDAE581292D#40
  | .mcTrainCtrl => 0x0000010000#40
  | .mcTrainPat => 0x0000000001#40
  | .mcLane => 0x0000800000#40
  | .chipId => 0x074000000F#40
  | .pwrCtrl => 0x7310000000#40
  | .pwrStatus => 0x0800000000#40
  | .wakeCtrl => 0x0000000031#40
  | .aoAlarm => 0xFFFFFFFFFF#40
  | .pwrDomain => if 4 ≤ i ∧ i ≤ 14 then 0x1003E800A0#40 else 0x1000000000#40
  | .gpioOe => 0x000000FF00#40
  | .pmSmb => 0x0000000003#40
  | .sboxNonce => Config.resetNonce
  | .linkEq | .linkCredit | .linkErrCnt | .ringCtxBase | .ringStatus | .ringErr | .ringCnt | .port0SummaryLo | .port0SummaryHi | .port0RosterLo | .port0RosterHi | .portState | .portLimit | .portJunction | .portUse | .dispFlowBase | .dispStatus | .dispStatus2 | .dispErr | .dispCnt | .dispCore | .dispConsist | .coreMsg | .coreFault | .coreFaultPc | .coreCnt | .planeStatus | .planeErr | .planeErrAddr | .planeCnt | .juncStatus | .juncErr | .juncErrAddr | .juncCnt | .juncTable | .humpStatus | .humpErr | .humpErrAddr | .humpCnt | .cacheStatus | .cacheMaint | .cacheMaintAddr | .cacheMaintEnd | .cacheCnt | .yardClear | .yardStatus | .memErr | .memErrAddr | .yardCnt | .shuntStatus | .shuntGate | .shuntIrq | .shuntIrqEn | .shuntErr | .shuntErrAddr | .shuntCnt | .shuntChProg | .shuntChBytes | .mcUsable | .mcErr | .mcErrAddr | .mcStatus | .mcTrainRes | .mcCnt | .chipSerialLo | .chipSerialHi | .chipLifecycle | .sboxEvent | .sboxEventEn | .sboxFw | .sboxJournal | .sboxLog | .sboxPubkey | .sboxSensor | .cipherCtrl | .cipherStatus | .cipherSign | .cipherSignStatus | .retainMask | .sleepStatus | .wakeCause | .padHold | .resetCtrl | .resetCause | .resetPc | .aoTime | .gpioOut | .gpioIn => 0#40

/-- Bits of the RW fields (R12). -/
def Reg.rwMask (r : Reg) : Word :=
  match r with
  | .linkCtrl => 0x0000FFFF03#40
  | .linkEq => 0x0000000177#40
  | .ringCtrl => 0x000001FFFF#40
  | .ringCtxBase => 0xFFFFE00000#40
  | .port0SummaryLo => 0xFFFFFFFFC0#40
  | .port0SummaryHi => 0x0000FFFFFF#40
  | .port0RosterLo => 0xFFFFFFFFC0#40
  | .port0RosterHi => 0x0000FFFFFF#40
  | .dispCtrl => 0x0000007FFF#40
  | .dispFlowBase => 0xFFFFE00001#40
  | .coreCtrl => 0x0000000007#40
  | .coreResetPc => 0xFFFFFFFFFC#40
  | .coreMsg => 0xFFFFFFFFFF#40
  | .planeCtrl => 0x000000007F#40
  | .juncCtrl => 0x00000000F3#40
  | .juncTable => 0xE1FFFFFFFF#40
  | .cacheCtrl => 0x00000000F3#40
  | .cacheMaintAddr => 0xFFFFFFFFC0#40
  | .cacheMaintEnd => 0xFFFFFFFFC0#40
  | .cacheWays => 0x000000FFFF#40
  | .shuntCtrl => 0x000001FFFF#40
  | .shuntStage => 0x0001FFFFFF#40
  | .shuntIrqEn => 0x000000FFFF#40
  | .mcGlobal => 0x0000FFFFDF#40
  | .mcCtrl => 0x0000000F8F#40
  | .mcTiming0 => 0xFFFFFFFFFF#40
  | .mcTiming1 => 0xFFFFFFFFFF#40
  | .mcTrainCtrl => 0x00FFFFFF00#40
  | .mcTrainPat => 0xFFFFFFFFFF#40
  | .mcLane => 0x0000FFFFFF#40
  | .sboxEventEn => 0x0000000FFF#40
  | .pwrCtrl => 0xFFFFFF0003#40
  | .retainMask => 0x1FFFFFFFFF#40
  | .wakeCtrl => 0x000000007F#40
  | .aoTime => 0xFFFFFFFFFF#40
  | .aoAlarm => 0xFFFFFFFFFF#40
  | .pwrDomain => 0x10FFFFFFF0#40
  | .gpioOut => 0x00000000FF#40
  | .gpioOe => 0x000000FFFF#40
  | .pmSmb => 0x0000000003#40
  | .linkStatus | .linkCredit | .linkErrCnt | .ringStatus | .ringErr | .ringCnt | .portState | .portLimit | .portJunction | .portUse
  | .dispStatus | .dispStatus2 | .dispErr | .dispCnt | .dispCore | .dispConsist | .coreStatus | .coreFault | .coreFaultPc | .coreCnt
  | .planeStatus | .planeErr | .planeErrAddr | .planeCnt | .juncStatus | .juncErr | .juncErrAddr | .juncCnt | .humpStatus | .humpErr
  | .humpErrAddr | .humpCnt | .cacheStatus | .cacheMaint | .cacheCnt | .yardClear | .yardStatus | .memErr | .memErrAddr | .yardCnt
  | .shuntStatus | .shuntGate | .shuntIrq | .shuntErr | .shuntErrAddr | .shuntCnt | .shuntChState | .shuntChProg | .shuntChBytes | .mcUsable
  | .mcErr | .mcErrAddr | .mcStatus | .mcTrainRes | .mcCnt | .chipId | .chipSerialLo | .chipSerialHi | .chipLifecycle | .sboxEvent
  | .sboxFw | .sboxJournal | .sboxLog | .sboxNonce | .sboxPubkey | .sboxSensor | .cipherCtrl | .cipherStatus | .cipherSign | .cipherSignStatus
  | .pwrStatus | .sleepStatus | .wakeCause | .padHold | .resetCtrl | .resetCause | .resetPc | .gpioIn => 0#40

/-- Bits of the W1C fields (R12). -/
def Reg.w1cMask (r : Reg) : Word :=
  match r with
  | .linkStatus => 0x0020000000#40
  | .ringErr => 0x8000000000#40
  | .dispErr => 0x8000000000#40
  | .coreFault => 0x8000000000#40
  | .planeErr => 0x8000000000#40
  | .juncErr => 0x8000000000#40
  | .humpErr => 0x8000000000#40
  | .cacheStatus => 0x4000000000#40
  | .yardStatus => 0x4000000000#40
  | .memErr => 0x8000000000#40
  | .shuntIrq => 0x000000FFFF#40
  | .shuntErr => 0x8000000000#40
  | .mcErr => 0x8000000000#40
  | .sboxEvent => 0x0000000FFF#40
  | .cipherSignStatus => 0x4000000000#40
  | .sleepStatus => 0x8000000000#40
  | .wakeCause => 0x000000003F#40
  | .linkCtrl | .linkEq | .linkCredit | .linkErrCnt | .ringCtrl | .ringCtxBase | .ringStatus | .ringCnt | .port0SummaryLo | .port0SummaryHi
  | .port0RosterLo | .port0RosterHi | .portState | .portLimit | .portJunction | .portUse | .dispCtrl | .dispFlowBase | .dispStatus | .dispStatus2
  | .dispCnt | .dispCore | .dispConsist | .coreCtrl | .coreResetPc | .coreMsg | .coreStatus | .coreFaultPc | .coreCnt | .planeCtrl
  | .planeStatus | .planeErrAddr | .planeCnt | .juncCtrl | .juncStatus | .juncErrAddr | .juncCnt | .juncTable | .humpStatus | .humpErrAddr
  | .humpCnt | .cacheCtrl | .cacheMaint | .cacheMaintAddr | .cacheMaintEnd | .cacheCnt | .cacheWays | .yardClear | .memErrAddr | .yardCnt
  | .shuntCtrl | .shuntStage | .shuntStatus | .shuntGate | .shuntIrqEn | .shuntErrAddr | .shuntCnt | .shuntChState | .shuntChProg | .shuntChBytes
  | .mcGlobal | .mcUsable | .mcCtrl | .mcTiming0 | .mcTiming1 | .mcErrAddr | .mcStatus | .mcTrainCtrl | .mcTrainPat | .mcTrainRes
  | .mcLane | .mcCnt | .chipId | .chipSerialLo | .chipSerialHi | .chipLifecycle | .sboxEventEn | .sboxFw | .sboxJournal | .sboxLog
  | .sboxNonce | .sboxPubkey | .sboxSensor | .cipherCtrl | .cipherStatus | .cipherSign | .pwrCtrl | .pwrStatus | .retainMask | .wakeCtrl
  | .padHold | .resetCtrl | .resetCause | .resetPc | .aoTime | .aoAlarm | .pwrDomain | .gpioOut | .gpioOe | .gpioIn
  | .pmSmb => 0#40

/-- Bits of the W1S fields (R12). -/
def Reg.w1sMask (r : Reg) : Word :=
  match r with
  | .shuntGate => 0x000000FFFF#40
  | .mcGlobal => 0x0001000000#40
  | .linkCtrl | .linkStatus | .linkEq | .linkCredit | .linkErrCnt | .ringCtrl | .ringCtxBase | .ringStatus | .ringErr | .ringCnt
  | .port0SummaryLo | .port0SummaryHi | .port0RosterLo | .port0RosterHi | .portState | .portLimit | .portJunction | .portUse | .dispCtrl | .dispFlowBase
  | .dispStatus | .dispStatus2 | .dispErr | .dispCnt | .dispCore | .dispConsist | .coreCtrl | .coreResetPc | .coreMsg | .coreStatus
  | .coreFault | .coreFaultPc | .coreCnt | .planeCtrl | .planeStatus | .planeErr | .planeErrAddr | .planeCnt | .juncCtrl | .juncStatus
  | .juncErr | .juncErrAddr | .juncCnt | .juncTable | .humpStatus | .humpErr | .humpErrAddr | .humpCnt | .cacheCtrl | .cacheStatus
  | .cacheMaint | .cacheMaintAddr | .cacheMaintEnd | .cacheCnt | .cacheWays | .yardClear | .yardStatus | .memErr | .memErrAddr | .yardCnt
  | .shuntCtrl | .shuntStage | .shuntStatus | .shuntIrq | .shuntIrqEn | .shuntErr | .shuntErrAddr | .shuntCnt | .shuntChState | .shuntChProg
  | .shuntChBytes | .mcUsable | .mcCtrl | .mcTiming0 | .mcTiming1 | .mcErr | .mcErrAddr | .mcStatus | .mcTrainCtrl | .mcTrainPat
  | .mcTrainRes | .mcLane | .mcCnt | .chipId | .chipSerialLo | .chipSerialHi | .chipLifecycle | .sboxEvent | .sboxEventEn | .sboxFw
  | .sboxJournal | .sboxLog | .sboxNonce | .sboxPubkey | .sboxSensor | .cipherCtrl | .cipherStatus | .cipherSign | .cipherSignStatus | .pwrCtrl
  | .pwrStatus | .retainMask | .sleepStatus | .wakeCtrl | .wakeCause | .padHold | .resetCtrl | .resetCause | .resetPc | .aoTime
  | .aoAlarm | .pwrDomain | .gpioOut | .gpioOe | .gpioIn | .pmSmb => 0#40

/-- Bits of the RC fields (R12). -/
def Reg.rcMask (r : Reg) : Word :=
  match r with
  | .linkErrCnt => 0x00FFFFFFFF#40
  | .ringCnt => 0xFFFFFFFFFF#40
  | .dispCnt => 0xFFFFFFFFFF#40
  | .coreCnt => 0xFFFFFFFFFF#40
  | .planeCnt => 0xFFFFFFFFFF#40
  | .juncCnt => 0xFFFFFFFFFF#40
  | .humpCnt => 0xFFFFFFFFFF#40
  | .cacheCnt => 0xFFFFFFFFFF#40
  | .yardCnt => 0xFFFFFFFFFF#40
  | .shuntCnt => 0xFFFFFFFFFF#40
  | .mcCnt => 0xFFFFFFFFFF#40
  | .linkCtrl | .linkStatus | .linkEq | .linkCredit | .ringCtrl | .ringCtxBase | .ringStatus | .ringErr | .port0SummaryLo | .port0SummaryHi
  | .port0RosterLo | .port0RosterHi | .portState | .portLimit | .portJunction | .portUse | .dispCtrl | .dispFlowBase | .dispStatus | .dispStatus2
  | .dispErr | .dispCore | .dispConsist | .coreCtrl | .coreResetPc | .coreMsg | .coreStatus | .coreFault | .coreFaultPc | .planeCtrl
  | .planeStatus | .planeErr | .planeErrAddr | .juncCtrl | .juncStatus | .juncErr | .juncErrAddr | .juncTable | .humpStatus | .humpErr
  | .humpErrAddr | .cacheCtrl | .cacheStatus | .cacheMaint | .cacheMaintAddr | .cacheMaintEnd | .cacheWays | .yardClear | .yardStatus | .memErr
  | .memErrAddr | .shuntCtrl | .shuntStage | .shuntStatus | .shuntGate | .shuntIrq | .shuntIrqEn | .shuntErr | .shuntErrAddr | .shuntChState
  | .shuntChProg | .shuntChBytes | .mcGlobal | .mcUsable | .mcCtrl | .mcTiming0 | .mcTiming1 | .mcErr | .mcErrAddr | .mcStatus
  | .mcTrainCtrl | .mcTrainPat | .mcTrainRes | .mcLane | .chipId | .chipSerialLo | .chipSerialHi | .chipLifecycle | .sboxEvent | .sboxEventEn
  | .sboxFw | .sboxJournal | .sboxLog | .sboxNonce | .sboxPubkey | .sboxSensor | .cipherCtrl | .cipherStatus | .cipherSign | .cipherSignStatus
  | .pwrCtrl | .pwrStatus | .retainMask | .sleepStatus | .wakeCtrl | .wakeCause | .padHold | .resetCtrl | .resetCause | .resetPc
  | .aoTime | .aoAlarm | .pwrDomain | .gpioOut | .gpioOe | .gpioIn | .pmSmb => 0#40

/-- Looks an offset up in a table of one unit: the register and the index within the unit. -/
def unitFind (t : List (Nat × Nat × Reg)) (o : Nat) : Option (Reg × Nat × Nat) :=
  match t.find? (fun e => decide (e.1 ≤ o ∧ o < e.1 + 8 * e.2.1)) with
  | some e => some (e.2.2, (o - e.1) / 8, e.2.1)
  | none => none

/-- The register that an 8-byte aligned offset from 0xF0_0000_0000 names, with its index (R20, R469, R470). In RAKE
the index is the core, in PLANE the scanner, in MC the controller or the channel, times the array's length plus the
array index. -/
def regAt (off : Nat) : Option (Reg × Nat) :=
  let b := off / 0x100000
  let o := off % 0x100000
  if b = 5 then
    if o < 0x80000 ∧ o % 0x10000 < 0x400 then
      (unitFind rakeRegs (o % 0x100)).map (fun e => (e.1, (o / 0x10000 * 4 + o % 0x10000 / 0x100) * e.2.2 + e.2.1))
    else none
  else if b = 6 then
    if o < 0x1000 then (unitFind planeRegs (o % 0x100)).map (fun e => (e.1, (o / 0x100) * e.2.2 + e.2.1)) else none
  else if b = 12 then
    if 0x80000 ≤ o then none
    else
      let k := o / 0x10000
      let u := o % 0x10000
      if u < 0x1000 then
        match unitFind mcRegs u with
        | some (r, j, c) => if (r = .mcGlobal ∨ r = .mcUsable) ∧ k ≠ 0 then none else some (r, k * c + j)
        | none => none
      else if u < 0x2000 then
        (unitFind mcChRegs (0x1000 + u % 0x800)).map (fun e => (e.1, (2 * k + (u - 0x1000) / 0x800) * e.2.2 + e.2.1))
      else none
  else
    match linRegs.find? (fun e => decide (e.1 ≤ off ∧ off < e.1 + e.2.1 * e.2.2.1 ∧ (off - e.1) % e.2.1 = 0)) with
    | some e => some (e.2.2.2, (off - e.1) / e.2.1)
    | none => none

/-- Block of R20 that an offset from 0xF0_0000_0000 lies in, 0 CHIP to 15 AOPWR. -/
def regBlock (off : Nat) : Nat := off / 0x100000

/-- Domain number of R422 that a register offset belongs to; none beyond the last unit of RAKE, PLANE and MC, and
none for CHIP and AOPWR, which are always reachable (R20, R21, R425). -/
def regDomain (off : Nat) : Option Nat :=
  let o := off % 0x100000
  match regBlock off with
  | 0 => none
  | 1 => some 2
  | 5 => if o < 0x80000 then some (4 + o / 0x10000) else none
  | 6 => if o < 0x1000 then some (4 + o / 0x100 / 2) else none
  | 7 => some 12
  | 8 => some 13
  | 11 => some 14
  | 12 => if o < 0x80000 then some (15 + o / 0x10000) else none
  | 13 => some 23
  | 14 => some 1
  | 15 => none
  | _ => some 3

end Sys2Proof.Machine
end

