-- ==== Sys2Proof/Syntax.lean ====
section
/-!
DEFINITION. The commands the block takes: one constructor of Instr for each row of the opcode table, and the types of
their operands. What a command means is said in Machine/<Family>.lean alone.
-/

namespace Sys2Proof

/-- Who makes a register access (R22, R483, R485). -/
inductive Requester where
  /-- A register transaction of port 0 over the Abdom Link. -/
  | port0
  /-- The Signal Box core. -/
  | sbox
  /-- The TAP's debug access, with the Signal Box's rights. -/
  | dbg
  /-- Operator core n at S. -/
  | core (n : Fin 32)
  deriving DecidableEq, Repr

/-- The acknowledgement fields of a received flit header (R38). -/
structure FlitAck where
  /-- ACK_SEQ. -/
  ackSeq : BitVec 8
  /-- ACK_VALID. -/
  ackValid : Bool
  /-- NAK. -/
  nak : Bool
  deriving DecidableEq, Repr

/-- A 66-bit block of a lane: its sync header and its scrambled content, the bit sent first in bit 0 (R30). -/
structure Block where
  /-- Sync header. -/
  sync : BitVec 2
  /-- Content. -/
  content : BitVec 64
  deriving DecidableEq, Repr

/-- What a logical lane in use has received of a flit (R30). -/
structure LaneRx where
  /-- The 58 bits of block content that the lane received just before, the newest in bit 0. -/
  before : BitVec 58
  /-- The blocks, oldest first. -/
  blocks : List Block
  deriving DecidableEq, Repr

/-- A sample of a sensor (R400, R401): its value, whether the clock it watches has stopped, whether the sensor has failed. -/
structure SensorIn where
  value : BitVec 16
  stopped : Bool := false
  failed : Bool := false
  deriving DecidableEq, Repr

/-- A scan of the test access port (R460, R461): the code shifted into the instruction register, and for DBG_ACCESS the data register. -/
structure TapScan where
  ir : BitVec 5 := 0x18
  dr : BitVec 81 := 0
  deriving DecidableEq, Repr

/-- What the lanes and the bridge report during a training or retrain (R32 to R36, R43), which the device cannot
choose: the environment's part of the step. -/
structure LaneReport where
  /-- Lanes whose far receiver was sensed, locked and identified, by physical lane. -/
  present : BitVec 4
  /-- Lanes that the bridge's receiver passed, by logical lane. -/
  txPass : BitVec 4
  /-- Lanes that the device's receiver passed in a check of one preset pair, by logical lane. -/
  rxPass : BitVec 4
  /-- Receive lanes with inverted polarity, by physical lane. -/
  polarity : BitVec 4
  /-- The receive lanes arrive in reverse order. -/
  reversed : Bool
  /-- Preset that the bridge's receiver chose for the device transmitter. -/
  txPreset : BitVec 3
  /-- Posted credits the bridge advertises. -/
  credP : BitVec 10
  /-- Non-posted credits the bridge advertises. -/
  credNP : BitVec 10
  /-- Completion credits the bridge advertises. -/
  credCPL : BitVec 10
  deriving DecidableEq, Repr

/-- A read that reaches its slice of the Column Cache (R326, R327): where a unit has issued a read of that line with that requester number,
that one; otherwise one of a requester that the model does not hold, as the operands give it. -/
structure CacheReq where
  /-- Device address. -/
  addr : Word
  /-- Bytes asked for, within one line. -/
  len : Fin 65
  /-- Requester number of R151, 0 to 50 allocating; 51 to 55 are the looking class and 56 to 63 the bypassing one, which never allocate. -/
  req : Fin 64
  /-- Port whose GDDR6 windows a prefetch is checked against. -/
  port : Fin 256
  /-- The Consist whose own request it is (R166). -/
  consist : Option (Fin 1024)
  /-- The data array corrects an error in the line that is hit (R333). -/
  corrected : Bool
  /-- Whether an array error is met in the looked-up set (R333), with the way that fails. -/
  arrayError : Option (Fin 16)
  deriving DecidableEq, Repr

/-- How a slice meets a write (R166, R333): the Consist whose write it is, if it is one's, and the way whose tag error its lookup meets, if it meets
one. -/
structure WriteMeet where
  consist : Option ConsistIx := none
  err : Option (Fin 16) := none
  deriving DecidableEq, Repr

/-- What a GDDR6 read return meets (R382 to R386), which the device cannot choose: whether the EDC CRC of the burst matches, the bits of the
line that arrive wrong, and those of its check word and of the mirror copy. -/
structure ReadCheck where
  /-- The EDC CRC matches. -/
  edcOk : Bool
  /-- Bits of the 64 ciphertext bytes that arrive inverted. -/
  flips : List (Fin 512)
  /-- Bits of the check word that arrive inverted. -/
  word : BitVec 32
  /-- Bits of the mirror copy that arrive inverted. -/
  mirror : BitVec 32
  deriving DecidableEq, Repr


/-- One constructor for each row of the opcode table: a host command of a submission ring, a step of an engine,
an instruction of the Fjarq ISA, a register write with an effect of its own, or an event on a pin.
Host commands carry the fetch number of the command in flight, whose payload words State holds; instructions carry
the core and the 32-bit instruction word, from which Operands.lean reads their fields. The instruction rows stand first. -/
inductive Instr where
  /-- ADD (R211): rd = ra + rb. -/
  | add (n : CoreIx) (w : BitVec 32)
  /-- SUB (R211): rd = ra − rb. -/
  | sub (n : CoreIx) (w : BitVec 32)
  /-- AND (R211): rd = ra AND rb. -/
  | andd (n : CoreIx) (w : BitVec 32)
  /-- OR (R211): rd = ra OR rb. -/
  | orr (n : CoreIx) (w : BitVec 32)
  /-- XOR (R211): rd = ra XOR rb. -/
  | xorr (n : CoreIx) (w : BitVec 32)
  /-- SLL (R211): Logical shift left by rb mod 40. -/
  | sll (n : CoreIx) (w : BitVec 32)
  /-- SRL (R211): Logical shift right by rb mod 40. -/
  | srl (n : CoreIx) (w : BitVec 32)
  /-- SRA (R211): Arithmetic shift right by rb mod 40. -/
  | sra (n : CoreIx) (w : BitVec 32)
  /-- SLT (R211): Signed set-less-than. -/
  | slt (n : CoreIx) (w : BitVec 32)
  /-- SLTU (R211): Unsigned set-less-than. -/
  | sltu (n : CoreIx) (w : BitVec 32)
  /-- MIN (R211): Signed minimum. -/
  | min (n : CoreIx) (w : BitVec 32)
  /-- MAX (R211): Signed maximum. -/
  | max (n : CoreIx) (w : BitVec 32)
  /-- MINU (R211): Unsigned minimum. -/
  | minu (n : CoreIx) (w : BitVec 32)
  /-- MAXU (R211): Unsigned maximum. -/
  | maxu (n : CoreIx) (w : BitVec 32)
  /-- MUL (R211): Low 40 bits of the product. -/
  | mul (n : CoreIx) (w : BitVec 32)
  /-- MULH (R211): High 40 bits of the signed product. -/
  | mulh (n : CoreIx) (w : BitVec 32)
  /-- MULHU (R211): High 40 bits of the unsigned product. -/
  | mulhu (n : CoreIx) (w : BitVec 32)
  /-- DIV (R212): Signed division with defined corner cases and the optional cause 0x0A. -/
  | div (n : CoreIx) (w : BitVec 32)
  /-- DIVU (R212): Unsigned division. -/
  | divu (n : CoreIx) (w : BitVec 32)
  /-- REM (R212): Signed remainder. -/
  | rem (n : CoreIx) (w : BitVec 32)
  /-- REMU (R212): Unsigned remainder. -/
  | remu (n : CoreIx) (w : BitVec 32)
  /-- CLZ (R211): Counts leading zeros. -/
  | clz (n : CoreIx) (w : BitVec 32)
  /-- CTZ (R211): Counts trailing zeros. -/
  | ctz (n : CoreIx) (w : BitVec 32)
  /-- POPC (R211): Counts set bits. -/
  | popc (n : CoreIx) (w : BitVec 32)
  /-- H40 (R211): Computes the H40 hash of ra. -/
  | h40 (n : CoreIx) (w : BitVec 32)
  /-- ADDI (R210): rd = ra + sext(imm16). -/
  | addi (n : CoreIx) (w : BitVec 32)
  /-- ANDI (R210): rd = ra AND zext(imm16). -/
  | andi (n : CoreIx) (w : BitVec 32)
  /-- ORI (R210): rd = ra OR zext(imm16). -/
  | ori (n : CoreIx) (w : BitVec 32)
  /-- XORI (R210): rd = ra XOR zext(imm16). -/
  | xori (n : CoreIx) (w : BitVec 32)
  /-- SLTI (R210): Signed compare with an immediate. -/
  | slti (n : CoreIx) (w : BitVec 32)
  /-- SLTIU (R210): Unsigned compare with an immediate. -/
  | sltiu (n : CoreIx) (w : BitVec 32)
  /-- SLLI (R210): Shift left by an immediate. -/
  | slli (n : CoreIx) (w : BitVec 32)
  /-- SRLI (R210): Logical shift right by an immediate. -/
  | srli (n : CoreIx) (w : BitVec 32)
  /-- SRAI (R210): Arithmetic shift right by an immediate. -/
  | srai (n : CoreIx) (w : BitVec 32)
  /-- LUI (R210): Sets bits [39:19] from imm21. -/
  | lui (n : CoreIx) (w : BitVec 32)
  /-- ORL (R210): ORs imm21[18:0] into rd. -/
  | orl (n : CoreIx) (w : BitVec 32)
  /-- LB (R215): Loads a sign-extended byte. -/
  | lb (n : CoreIx) (w : BitVec 32)
  /-- LBU (R215): Loads a zero-extended byte. -/
  | lbu (n : CoreIx) (w : BitVec 32)
  /-- LH (R215): Loads a sign-extended half-word. -/
  | lh (n : CoreIx) (w : BitVec 32)
  /-- LHU (R215): Loads a zero-extended half-word. -/
  | lhu (n : CoreIx) (w : BitVec 32)
  /-- LW (R215): Loads a sign-extended word. -/
  | lw (n : CoreIx) (w : BitVec 32)
  /-- LWU (R215): Loads a zero-extended word. -/
  | lwu (n : CoreIx) (w : BitVec 32)
  /-- LN (R214): Loads a native word, or reads a register at S. -/
  | ln (n : CoreIx) (w : BitVec 32)
  /-- LNF (R210): Loads the NULL bit of a native slot. -/
  | lnf (n : CoreIx) (w : BitVec 32)
  /-- SB (R215): Stores a byte. -/
  | sb (n : CoreIx) (w : BitVec 32)
  /-- SH (R215): Stores a half-word. -/
  | sh (n : CoreIx) (w : BitVec 32)
  /-- SW (R215): Stores a word. -/
  | sw (n : CoreIx) (w : BitVec 32)
  /-- SN (R122): Stores a native word and leaves the trailer unchanged; may ring a bell. -/
  | sn (n : CoreIx) (w : BitVec 32)
  /-- BEQ (R210): Branches if equal. -/
  | beq (n : CoreIx) (w : BitVec 32)
  /-- BNE (R210): Branches if not equal. -/
  | bne (n : CoreIx) (w : BitVec 32)
  /-- BLT (R210): Branches if less, signed. -/
  | blt (n : CoreIx) (w : BitVec 32)
  /-- BGE (R210): Branches if greater or equal, signed. -/
  | bge (n : CoreIx) (w : BitVec 32)
  /-- BLTU (R210): Branches if less, unsigned. -/
  | bltu (n : CoreIx) (w : BitVec 32)
  /-- BGEU (R210): Branches if greater or equal, unsigned. -/
  | bgeu (n : CoreIx) (w : BitVec 32)
  /-- JAL (R210): Jumps by off21 and links. -/
  | jal (n : CoreIx) (w : BitVec 32)
  /-- JALR (R210): Jumps to a register plus offset and links. -/
  | jalr (n : CoreIx) (w : BitVec 32)
  /-- WAITW (R220): Releases the Wagon in service and waits for a hand-over. -/
  | waitw (n : CoreIx) (w : BitVec 32)
  /-- DONEW (R191): Releases the Wagon in service. -/
  | donew (n : CoreIx) (w : BitVec 32)
  /-- EMITW (R190): Emits the Wagon in X10 to X13 to the Dispatcher. -/
  | emitw (n : CoreIx) (w : BitVec 32)
  /-- EMITWK (R190): Emits a keyed Wagon with key X14. -/
  | emitwk (n : CoreIx) (w : BitVec 32)
  /-- DROPW (R220): Ends service of the Wagon without the effects of a release. -/
  | dropw (n : CoreIx) (w : BitVec 32)
  /-- FAULTW (R223): Records a terminating event for the Wagon's Consist, then acts as DROPW. -/
  | faultw (n : CoreIx) (w : BitVec 32)
  /-- MFC (R225): Reads a control register. -/
  | mfc (n : CoreIx) (w : BitVec 32)
  /-- MTC (R225): Swaps a control register with ra. -/
  | mtc (n : CoreIx) (w : BitVec 32)
  /-- MSET (R225): Sets bits of a control register. -/
  | mset (n : CoreIx) (w : BitVec 32)
  /-- MCLR (R225): Clears bits of a control register. -/
  | mclr (n : CoreIx) (w : BitVec 32)
  /-- ERET (R229): Returns from an exception level. -/
  | eret (n : CoreIx) (w : BitVec 32)
  /-- BRK (R225): Takes cause 0x0C. -/
  | brk (n : CoreIx) (w : BitVec 32)
  /-- WAITI (R225): Stops issue until an enabled interrupt or cause 0x12 is pending. -/
  | waiti (n : CoreIx) (w : BitVec 32)
  /-- TRAP (R210): Takes cause 0x0B with EADDR from imm16. -/
  | trap (n : CoreIx) (w : BitVec 32)
  /-- VADD (R245): Vector add. -/
  | vadd (n : CoreIx) (w : BitVec 32)
  /-- VSUB (R245): Vector subtract. -/
  | vsub (n : CoreIx) (w : BitVec 32)
  /-- VAND (R245): Vector AND. -/
  | vand (n : CoreIx) (w : BitVec 32)
  /-- VOR (R245): Vector OR. -/
  | vor (n : CoreIx) (w : BitVec 32)
  /-- VXOR (R245): Vector XOR. -/
  | vxor (n : CoreIx) (w : BitVec 32)
  /-- VSLL (R245): Vector shift left. -/
  | vsll (n : CoreIx) (w : BitVec 32)
  /-- VSRL (R245): Vector logical shift right. -/
  | vsrl (n : CoreIx) (w : BitVec 32)
  /-- VSRA (R245): Vector arithmetic shift right. -/
  | vsra (n : CoreIx) (w : BitVec 32)
  /-- VMIN (R245): Vector signed minimum. -/
  | vmin (n : CoreIx) (w : BitVec 32)
  /-- VMAX (R245): Vector signed maximum. -/
  | vmax (n : CoreIx) (w : BitVec 32)
  /-- VMINU (R245): Vector unsigned minimum. -/
  | vminu (n : CoreIx) (w : BitVec 32)
  /-- VMAXU (R245): Vector unsigned maximum. -/
  | vmaxu (n : CoreIx) (w : BitVec 32)
  /-- VMUL (R245): Vector multiply, low 40 bits. -/
  | vmul (n : CoreIx) (w : BitVec 32)
  /-- VMULHU (R245): Vector multiply, high unsigned 40 bits. -/
  | vmulhu (n : CoreIx) (w : BitVec 32)
  /-- VH40 (R245): Vector H40 hash. -/
  | vh40 (n : CoreIx) (w : BitVec 32)
  /-- VSEL (R245): Selects elements by a qualifier. -/
  | vsel (n : CoreIx) (w : BitVec 32)
  /-- FADD (R246): Floating-point add, vector or scalar. -/
  | fadd (n : CoreIx) (w : BitVec 32)
  /-- FSUB (R246): Floating-point subtract. -/
  | fsub (n : CoreIx) (w : BitVec 32)
  /-- FMUL (R246): Floating-point multiply. -/
  | fmul (n : CoreIx) (w : BitVec 32)
  /-- FDIV (R246): Floating-point divide. -/
  | fdiv (n : CoreIx) (w : BitVec 32)
  /-- FMIN (R247): Floating-point minimum. -/
  | fmin (n : CoreIx) (w : BitVec 32)
  /-- FMAX (R247): Floating-point maximum. -/
  | fmax (n : CoreIx) (w : BitVec 32)
  /-- FSQRT (R246): Floating-point square root. -/
  | fsqrt (n : CoreIx) (w : BitVec 32)
  /-- FMA (R246): Fused multiply-add into the destination. -/
  | fma (n : CoreIx) (w : BitVec 32)
  /-- FCVTFX (R246): Converts an integer to float. -/
  | fcvtfx (n : CoreIx) (w : BitVec 32)
  /-- FCVTXF (R247): Converts a float to a 40-bit integer. -/
  | fcvtxf (n : CoreIx) (w : BitVec 32)
  /-- FABS (R246): Floating-point absolute value. -/
  | fabs (n : CoreIx) (w : BitVec 32)
  /-- FNEG (R246): Floating-point negate. -/
  | fneg (n : CoreIx) (w : BitVec 32)
  /-- FCVTP (R246): Converts between binary32 and binary64. -/
  | fcvtp (n : CoreIx) (w : BitVec 32)
  /-- FMVXF (R246): Moves F cell bits to an X register. -/
  | fmvxf (n : CoreIx) (w : BitVec 32)
  /-- FMVFX (R246): Moves an X register to an F register. -/
  | fmvfx (n : CoreIx) (w : BitVec 32)
  /-- VEQ (R248): Compares for equality into a qualifier. -/
  | veq (n : CoreIx) (w : BitVec 32)
  /-- VNE (R248): Compares for inequality into a qualifier. -/
  | vne (n : CoreIx) (w : BitVec 32)
  /-- VLT (R248): Signed less-than into a qualifier. -/
  | vlt (n : CoreIx) (w : BitVec 32)
  /-- VGE (R248): Signed greater-or-equal into a qualifier. -/
  | vge (n : CoreIx) (w : BitVec 32)
  /-- VLTU (R248): Unsigned less-than into a qualifier. -/
  | vltu (n : CoreIx) (w : BitVec 32)
  /-- VGEU (R248): Unsigned greater-or-equal into a qualifier. -/
  | vgeu (n : CoreIx) (w : BitVec 32)
  /-- FLT (R248): binary32 less-than into a qualifier. -/
  | flt (n : CoreIx) (w : BitVec 32)
  /-- FGE (R248): binary32 greater-or-equal into a qualifier. -/
  | fge (n : CoreIx) (w : BitVec 32)
  /-- VRSUM (R249): Integer sum reduction. -/
  | vrsum (n : CoreIx) (w : BitVec 32)
  /-- VRMIN (R249): Signed minimum reduction. -/
  | vrmin (n : CoreIx) (w : BitVec 32)
  /-- VRMAX (R249): Signed maximum reduction. -/
  | vrmax (n : CoreIx) (w : BitVec 32)
  /-- VRMINU (R249): Unsigned minimum reduction. -/
  | vrminu (n : CoreIx) (w : BitVec 32)
  /-- VRMAXU (R249): Unsigned maximum reduction. -/
  | vrmaxu (n : CoreIx) (w : BitVec 32)
  /-- VRAND (R249): AND reduction. -/
  | vrand (n : CoreIx) (w : BitVec 32)
  /-- VROR (R249): OR reduction. -/
  | vror (n : CoreIx) (w : BitVec 32)
  /-- VRXOR (R249): XOR reduction. -/
  | vrxor (n : CoreIx) (w : BitVec 32)
  /-- FRSUM (R249): Ordered floating-point sum reduction. -/
  | frsum (n : CoreIx) (w : BitVec 32)
  /-- FRMIN (R249): Floating-point minimum reduction. -/
  | frmin (n : CoreIx) (w : BitVec 32)
  /-- FRMAX (R249): Floating-point maximum reduction. -/
  | frmax (n : CoreIx) (w : BitVec 32)
  /-- VCOMPRESS (R250): Packs the active elements to the front. -/
  | vcompress (n : CoreIx) (w : BitVec 32)
  /-- VEXPAND (R250): Spreads elements to the active positions. -/
  | vexpand (n : CoreIx) (w : BitVec 32)
  /-- VID (R250): Writes a base plus the element index. -/
  | vid (n : CoreIx) (w : BitVec 32)
  /-- VSPLAT (R250): Broadcasts an X register to the elements. -/
  | vsplat (n : CoreIx) (w : BitVec 32)
  /-- VMOV (R250): Copies the active elements. -/
  | vmov (n : CoreIx) (w : BitVec 32)
  /-- VEXT (R250): Extracts one element to an X register. -/
  | vext (n : CoreIx) (w : BitVec 32)
  /-- VINS (R250): Inserts an X register into one element. -/
  | vins (n : CoreIx) (w : BitVec 32)
  /-- VLN (R252): Unit-stride native load. -/
  | vln (n : CoreIx) (w : BitVec 32)
  /-- VLNQ (R252): Loads NULL bits into a qualifier. -/
  | vlnq (n : CoreIx) (w : BitVec 32)
  /-- VLP (R252): Loads packed 5-byte elements. -/
  | vlp (n : CoreIx) (w : BitVec 32)
  /-- VLW (R252): Loads 32-bit elements. -/
  | vlw (n : CoreIx) (w : BitVec 32)
  /-- VSN (R252): Unit-stride native store. -/
  | vsn (n : CoreIx) (w : BitVec 32)
  /-- VSP (R252): Stores packed 5-byte elements. -/
  | vsp (n : CoreIx) (w : BitVec 32)
  /-- VSW (R252): Stores 32-bit elements. -/
  | vsw (n : CoreIx) (w : BitVec 32)
  /-- VGN (R253): Gathers native words by index. -/
  | vgn (n : CoreIx) (w : BitVec 32)
  /-- VGNQ (R253): Gathers NULL bits into a qualifier. -/
  | vgnq (n : CoreIx) (w : BitVec 32)
  /-- VGW (R253): Gathers 32-bit words. -/
  | vgw (n : CoreIx) (w : BitVec 32)
  /-- VSCN (R256): Scatters native words. -/
  | vscn (n : CoreIx) (w : BitVec 32)
  /-- VSCW (R256): Scatters 32-bit words. -/
  | vscw (n : CoreIx) (w : BitVec 32)
  /-- QBOTH (R251): Qualifier AND. -/
  | qboth (n : CoreIx) (w : BitVec 32)
  /-- QEITHER (R251): Qualifier OR. -/
  | qeither (n : CoreIx) (w : BitVec 32)
  /-- QDIFF (R251): Qualifier XOR. -/
  | qdiff (n : CoreIx) (w : BitVec 32)
  /-- QTRIM (R251): Qualifier AND NOT. -/
  | qtrim (n : CoreIx) (w : BitVec 32)
  /-- QFLIP (R251): Qualifier NOT. -/
  | qflip (n : CoreIx) (w : BitVec 32)
  /-- QCOUNT (R251): Counts the set qualifier bits below n. -/
  | qcount (n : CoreIx) (w : BitVec 32)
  /-- QFROMX (R251): Builds a qualifier from X registers. -/
  | qfromx (n : CoreIx) (w : BitVec 32)
  /-- QLOW (R251): Reads qualifier bits [39:0]. -/
  | qlow (n : CoreIx) (w : BitVec 32)
  /-- QHIGH (R251): Reads qualifier bits [63:40]. -/
  | qhigh (n : CoreIx) (w : BitVec 32)
  /-- QLEAD (R251): Finds the lowest set qualifier bit. -/
  | qlead (n : CoreIx) (w : BitVec 32)
  /-- SETVL (R251): Sets VL from an X register. -/
  | setvl (n : CoreIx) (w : BitVec 32)
  /-- QFILL (R251): Sets a qualifier to all ones. -/
  | qfill (n : CoreIx) (w : BitVec 32)
  /-- QLD (R252): Loads a qualifier from 8 bytes. -/
  | qld (n : CoreIx) (w : BitVec 32)
  /-- QST (R252): Stores a qualifier to 8 bytes. -/
  | qst (n : CoreIx) (w : BitVec 32)
  /-- FLW (R244): Loads 32 bits into an F register. -/
  | flw (n : CoreIx) (w : BitVec 32)
  /-- FSW (R244): Stores 32 bits from an F register. -/
  | fsw (n : CoreIx) (w : BitVec 32)
  /-- FLD (R244): Loads 64 bits into an F register. -/
  | fld (n : CoreIx) (w : BitVec 32)
  /-- FSD (R244): Stores 64 bits from an F register. -/
  | fsd (n : CoreIx) (w : BitVec 32)
  /-- UNDEFINED_OPCODE (R209): An instruction with an undefined major opcode or an undefined fn takes cause 0x02 with EADDR equal to the instruction word. -/
  | undefinedOpcode (n : CoreIx) (w : BitVec 32)
  /-- NOP (R84): Host command that does nothing and completes DONE with RESULT 0. -/
  | nop (id : Nat)
  /-- FENCE (R93): Host command that completes once every earlier entry of its SQ, and with SCOPE 1 every earlier-fetched entry of the port, has completed. -/
  | fence (id : Nat)
  /-- LOAD_TIMETABLE (R155): Copies a Timetable image to HOME, computes the load digest and totals, and allocates a handle. -/
  | loadTimetable (id : Nat)
  /-- DROP_TIMETABLE (R158): Releases a loaded Timetable handle without touching its image. -/
  | dropTimetable (id : Nat)
  /-- RUN_CONSIST (R169): Checks a Consist against device state, takes an id and reservation, and starts its wake, parameter read and start digest. -/
  | runConsist (id : Nat)
  /-- ABORT_CONSIST (R99): Ends the target RUN_CONSIST of the port as ABORTED, or makes a fetched but unstarted target complete ABORTED. -/
  | abortConsist (id : Nat)
  /-- INGEST (R138): Moves data into GDDR6 by copy or by channel program, ahead of the frame walk and the optional seed. -/
  | ingest (id : Nat)
  /-- SNAPSHOT (R141): Waits for earlier-checked INGESTs of the table and returns its HIGH_EPOCH. -/
  | snapshot (id : Nat)
  /-- RETIRE_EPOCH (R142): Sets RETIRING and waits for earlier INGESTs before retiring frames at or before EPOCH. -/
  | retireEpoch (id : Nat)
  /-- DMA_RUN (R341): Starts a channel program on the named Shunting Engine channel. -/
  | dmaRun (id : Nat)
  /-- READ_BACK (R341): Copies bytes from GDDR6 to host memory as a single COPY command move. -/
  | readBack (id : Nat)
  /-- WRITE_DOWN (R341): Copies bytes from host memory to GDDR6 as a single COPY command move. -/
  | writeDown (id : Nat)
  /-- JUNCTION_UPDATE (R287): Applies a list of update records to a Junction table. -/
  | junctionUpdate (id : Nat)
  /-- JUNCTION_SEARCH_BATCH (R287): Searches a batch of keys in a Junction table and writes the results. -/
  | junctionSearchBatch (id : Nat)
  /-- SORT (R312): Queues a Hump sort job for key and payload pairs. -/
  | sort (id : Nat)
  /-- JOURNAL_APPEND (R406): Appends record bodies to the Sealed Journal, sealing every 64th record. -/
  | journalAppend (id : Nat)
  /-- JOURNAL_EXPORT (R408): Writes the export images of sealed Journal blocks and marks them EXPORTED. -/
  | journalExport (id : Nat)
  /-- JOURNAL_EXPORT_ACK (R409): Marks exported Journal blocks as acknowledged so that they may be overwritten. -/
  | journalExportAck (id : Nat)
  /-- TIME_SET (R413): Sets AO time from a signed time-authority token and marks it trusted. -/
  | timeSet (id : Nat)
  /-- PORT_CREATE (R104): Creates a data port with every window disabled and every allowance zero, and starts polling it. -/
  | portCreate (id : Nat)
  /-- PORT_DESTROY (R114): Stops polling a port, waits for its commands, then releases its rings, handles, windows and allowances. -/
  | portDestroy (id : Nat)
  /-- PORT_WINDOW (R106): Sets, enables or disables one GDDR6 or host window of a data port. -/
  | portWindow (id : Nat)
  /-- PORT_QUOTA (R110): Sets all four allowances of a data port at once. -/
  | portQuota (id : Nat)
  /-- FW_UPDATE_CHUNK (R412): Writes a chunk of firmware image into the inactive slot, and verifies the image on the LAST chunk. -/
  | fwUpdateChunk (id : Nat)
  /-- FW_ACTIVATE (R412): Selects the verified inactive slot for a trial boot, with an optional warm reset. -/
  | fwActivate (id : Nat)
  /-- POWER_REQUEST (R435): Requests a device power state and profile, carried out by Signal Box firmware and the sequencer. -/
  | powerRequest (id : Nat)
  /-- LOG_READ (R402): Copies Log Book entries out and reports the index of the newest entry. -/
  | logRead (id : Nat)
  /-- SENSOR_READ (R401): Writes 8-byte records of the selected sensors. -/
  | sensorRead (id : Nat)
  /-- UNKNOWN_OPCODE (R80): An unlisted opcode, or a port 0 opcode on another port, completes UNKNOWN_OPCODE with no side effect. -/
  | unknownOpcode (id : Nat)
  /-- SUMMARY_LINE_POLL (R69): On each port's turn in the poll interval, reads its summary line and the doorbell words of the flagged rings. -/
  | summaryLinePoll (p : PortIx)
  /-- RING_DESCRIPTOR_REREAD (R70): Once the ring's commands have completed, releases the old context, reads the descriptor and writes ACTIVE, REFUSED or INACTIVE. -/
  | ringDescriptorReread (p : PortIx) (r : RingIx)
  /-- SQ_FETCH (R90): Reserves CQ places and reads up to WEIGHT submission entries of an SQ in one read. -/
  | sqFetch (p : PortIx) (r : RingIx)
  /-- SUBMISSION_ENTRIES_ARRIVE (R90): Fetched submission entries arrive and their commands start in ring order, subject to FENCE. -/
  | submissionEntriesArrive (p : PortIx) (r : RingIx)
  /-- COMPLETION_WRITE (R82): Writes a 16-byte completion entry with the CQ's PHASE and counts it toward moderation. -/
  | completionWrite (id : Nat)
  /-- CQ_MODERATION_TIMER (R94): The CQ moderation timer reaches MOD_TIME and a MSG_INT is sent. -/
  | cqModerationTimer (p : PortIx) (r : RingIx)
  /-- MEM_RD_TIMEOUT (R52): A device MEM_RD whose data has not fully arrived 1 ms after the request fails by timeout. -/
  | memRdTimeout (tag : BitVec 10)
  /-- COMMAND_READ_FAILURE (R52): After a failed read, waits for the command's reads and ends it by the failed read with the lowest address. -/
  | commandReadFailure (id : Nat)
  /-- FLIT_RECEIVE (R40): Receives a data flit whole: checks CRC and sequence, takes acknowledgements and credits, and delivers its packets. -/
  | flitReceive (line : List LaneRx)
  /-- ACK (R42): Receives an ACK control flit carrying ACK_SEQ and, if set, NAK. -/
  | ack (h : FlitAck)
  /-- COAST (R55): Receives a COAST control flit; the far side enters L-Coast. -/
  | coast (h : FlitAck)
  /-- PARK_REQ (R56): Receives a PARK_REQ and answers PARK_ACK or PARK_REFUSE. -/
  | parkReq (h : FlitAck)
  /-- PARK_ACK (R56): Receives a PARK_ACK and enters L-Park. -/
  | parkAck (h : FlitAck)
  /-- PARK_REFUSE (R56): Receives a PARK_REFUSE; during a drain the LINK domain answers REFUSE. -/
  | parkRefuse (h : FlitAck)
  /-- PARK_REQ_RETRY (R42): A PARK_REQ unanswered for 1 µs is sent again. -/
  | parkReqRetry
  /-- ACK_TIMEOUT_REPLAY (R41): No acknowledgement within 128 flit times of the oldest unacknowledged flit starts a replay. -/
  | ackTimeoutReplay
  /-- RETRAIN (R41): Runs Lock, Identify, a preset check and Configure while keeping the replay buffer, sequence numbers and credits. -/
  | retrain (rep : LaneReport)
  /-- RETRAIN_TIMEOUT (R41): A retrain that has not reached L0 within 2 ms has failed; the third consecutive failure puts the link down. -/
  | retrainTimeout
  /-- LANE_LOCK_LOSS (R36): A lane that loses block lock in L0 starts a retrain. -/
  | laneLockLoss (lane : Fin 4)
  /-- LINK_TRAINING (R32): Runs a full training from Detect through Configure and chooses the width. -/
  | linkTraining (rep : LaneReport)
  /-- PRESET_TRIAL_END (R34): Ends the 500 µs error count of one preset trial in the Equalise step. -/
  | presetTrialEnd (errs : List Nat)
  /-- TRAINING_STEP_TIMEOUT (R32): A training step that exceeds its time limit fails the training attempt. -/
  | trainingStepTimeout
  /-- TRAINING_RETRY_TIMER (R59): While the LINK domain is powered and the link is down, starts a full training every 10 ms. -/
  | trainingRetryTimer
  /-- LINK_DOWN (R60): Discards link state, aborts Consists, ends commands in flight, and carries out the on-chip effects of the dropped completions. -/
  | linkDown
  /-- COAST_IDLE_EXPIRY (R55): After COAST_IDLE of idle time, sends COAST and enters L-Coast. -/
  | coastIdleExpiry
  /-- COAST_EXIT (R55): A packet to send ends L-Coast after the 2 µs exit. -/
  | coastExit
  /-- PARK_IDLE_EXPIRY (R56): After PARK_IDLE in L-Coast, with reads complete and flits acknowledged, sends PARK_REQ. -/
  | parkIdleExpiry
  /-- REG_RD (R50): Executes a received register read in arrival order and returns CPL_D. -/
  | regRd
  /-- REG_WR (R50): Executes a received register write in arrival order. -/
  | regWr
  /-- COMPLETION_RECEIVE (R47): Receives a CPL or CPL_D for an outstanding MEM_RD tag. -/
  | completionReceive
  /-- BEACON_DETECT (R57): The AO detector recognises a beacon on physical receive lane 0. -/
  | beaconDetect
  /-- LINK_RETRAIN_WRITE (R63): Writing LINK_CTRL.RETRAIN starts a retrain. -/
  | linkRetrainWrite (who : Requester) (v : Word)
  /-- LINK_WIDTH_WRITE (R36): A write that changes LINK_CTRL.WIDTH starts a retrain. -/
  | linkWidthWrite (who : Requester) (v : Word)
  /-- RING_ENABLE_WRITE (R103): Writing RING_CTRL.EN enables or stops polling, sampling the port 0 addresses on a 0 to 1 change. -/
  | ringEnableWrite (who : Requester) (v : Word)
  /-- CONSIST_RAKE_READY (R169): As each Rake becomes ready, copies its kernels and parameters. -/
  | consistRakeReady (c : ConsistIx) (r : Fin 8)
  /-- CONSIST_DOMAINS_READY (R169): When every domain is ready, carves JUNCTION claims and writes way masks. -/
  | consistDomainsReady (c : ConsistIx)
  /-- CONSIST_SEED_PLACEMENT (R169): When the start is done, places list seeds and held INGEST seeds and the Consist runs. -/
  | consistSeedPlacement (c : ConsistIx)
  /-- START_DIGEST_DONE (R169): The SHA-384 start digest over the image completes. -/
  | startDigestDone (c : ConsistIx)
  /-- CONSIST_FINISH (R170): A Consist with no Wagon or unit work left and its INGEST seeds received finishes and goes to signing or completion. -/
  | consistFinish (c : ConsistIx)
  /-- ATTESTATION_SIGN (R172): Signs the attestation record, writes it to ATTEST_AT, then writes the completion. -/
  | attestationSign (c : ConsistIx)
  /-- CONSIST_WATCHDOG (R171): The watchdog records TIMEOUT for a Consist that has run WATCHDOG ms. -/
  | consistWatchdog (c : ConsistIx)
  /-- TERMINATING_EVENT (R99): A terminating event discards the Consist's Wagons, interrupts its cores and ends it once unit work finishes. -/
  | terminatingEvent (c : ConsistIx)
  /-- INGEST_WALK (R139): After the data move, stamps and links the frames written, updates the directory and places the seed. -/
  | ingestWalk (id : Nat)
  /-- RETIRE_WALK (R142): Once earlier INGESTs complete, marks and unlinks the retired frames and updates the directory. -/
  | retireWalk (id : Nat)
  /-- SNAPSHOT_RESULT (R141): Once the earlier INGESTs have completed, completes the SNAPSHOT with HIGH_EPOCH. -/
  | snapshotResult (id : Nat)
  /-- WAGON_ACCEPTANCE (R182): Accepts an offered Wagon onto its list on chip or into its Siding, or routes it to the result path. -/
  | wagonAcceptance
  /-- SIDING_MOVE (R184): Moves up to 24 Wagons from the Siding head to the list's on-chip tail. -/
  | sidingMove (c : ConsistIx) (st : Fin 64)
  /-- PRODUCER_STALL_RELEASE (R185): A stalled producer's Wagon is accepted once the list or Siding has room. -/
  | producerStallRelease
  /-- HAND_OVER (R188): Once per cc, chooses one ready Wagon and a waiting core by rotation, credit and affinity. -/
  | handOver
  /-- FLOW_SPILL_READ_RETURN (R198): A flow spill entry read returns and the context is restored on a tag match. -/
  | flowSpillReadReturn
  /-- AFFINITY_HOLD_EXPIRY (R194): An ATOMIC Wagon's AFF_HOLD expires and it migrates to the longest-waiting candidate. -/
  | affinityHoldExpiry (c : ConsistIx) (st : Fin 64)
  /-- WAGON_DELIVERY (R221): The handed-over Wagon arrives in X10 to X13 and the WC registers load, taking cause 0x11 when CURKEY changes. -/
  | wagonDelivery (n : Fin 32)
  /-- WAGON_RELEASE_EFFECT (R191): A release frees the flow, marks the reorder window and updates the Consist count. -/
  | wagonReleaseEffect
  /-- RESULT_PATH_COPY (R167): Copies a result Wagon's rows into the result ring and hashes them. -/
  | resultPathCopy
  /-- LOAD_RETURN (R204): The data of an outstanding load arrives and is written to its destination, or it faults with cause 0x08. -/
  | loadReturn (n : CoreIx) (i : Fin 8)
  /-- STORE_COMPLETION (R261): A buffered store writes its target; a native store to a bell address rings its unit. -/
  | storeCompletion (n : CoreIx)
  /-- INTERRUPT_ENTRY (R231): Takes a pending, enabled interrupt at an instruction boundary at level 0. -/
  | interruptEntry (n : CoreIx)
  /-- TIMER_COMPARE (R231): CYCLE reaching TCMP makes cause 0x10 pending. -/
  | timerCompare (n : CoreIx)
  /-- CORE_RESET_WRITE (R490): Writing CORE_CTRL.RESET resets a core and aborts the Consist of its Wagon. -/
  | coreResetWrite (who : Requester) (n : Fin 32) (v : Word)
  /-- CORE_RUN_WRITE (R490): Writing CORE_CTRL.RUN releases a core from reset, or holds a running core in reset. -/
  | coreRunWrite (who : Requester) (n : Fin 32) (v : Word)
  /-- CORE_MSG_WRITE (R231): Writing CORE_MSG stores the word and makes cause 0x14 pending. -/
  | coreMsgWrite (who : Requester) (n : Fin 32) (v : Word)
  /-- PLANE_RING_CAPTURE (R262): Captures a scan-bell ring, or drops it. -/
  | planeRingCapture (m : Fin 16)
  /-- PLANE_PROGRAM_START (R264): Starts the next captured scan program and reads its header and steps. -/
  | planeProgramStart (m : Fin 16)
  /-- PLANE_LINE_ARRIVAL (R271): A plane, null or source line arrives and the live rows are evaluated and decided. -/
  | planeLineArrival (m : Fin 16) (i : Nat)
  /-- PLANE_SEGMENT_OPEN (R277): Issues a line read that opens a segment or continues one, at one read per cc. -/
  | planeSegmentOpen (m : Fin 16)
  /-- PLANE_PROGRAM_COMPLETE (R275): Writes SELECTED, LINES and DONE and offers the completion Wagon. -/
  | planeProgramComplete (m : Fin 16)
  /-- JUNCTION_RING_CAPTURE (R288): Captures a Junction-bell ring, or drops it. -/
  | junctionRingCapture
  /-- JUNCTION_QUEUE_ENTRY (R289): A program enters the program queue and its header is read once. -/
  | junctionQueueEntry
  /-- JUNCTION_PROGRAM_START (R293): Starts the oldest program that is free to start in a free active place. -/
  | junctionProgramStart
  /-- JUNCTION_LINE_ARRIVAL (R301): A key or record line arrives at the Junction loader. -/
  | junctionLineArrival (i : Nat)
  /-- JUNCTION_SLOT (R295): Each bank slot goes to scrub, an update, a search or nothing. -/
  | junctionSlot
  /-- JUNCTION_SEARCH_RESULT (R281): A search result is ready and is verified against the ECC copy. -/
  | junctionSearchResult (i : Nat)
  /-- JUNCTION_PROGRAM_COMPLETE (R292): Writes TALLY and DONE and offers the completion Wagon. -/
  | junctionProgramComplete (i : Nat)
  /-- HUMP_RING_CAPTURE (R313): Captures a Hump-bell ring, or drops it. -/
  | humpRingCapture
  /-- HUMP_JOB_START (R311): Starts the next job in the job queue. -/
  | humpJobStart
  /-- HUMP_LINE_ARRIVAL (R317): An input or scratch line arrives at the Hump. -/
  | humpLineArrival
  /-- HUMP_PASS_START (R308): Starts the next merge pass after the previous pass has written its last line. -/
  | humpPassStart
  /-- HUMP_JOB_COMPLETE (R316): Writes WRITTEN and DONE, offers the Wagon, or completes the SORT. -/
  | humpJobComplete
  /-- SHUNT_RING_CAPTURE (R342): Captures a Shunting-bell ring and reads CHANNEL and NO_WAGON. -/
  | shuntRingCapture
  /-- SHUNT_PROGRAM_START (R340): Starts a program on its channel once the channel is idle or its SERIAL turn comes. -/
  | shuntProgramStart (ch : Fin 16)
  /-- COMMAND_MOVE_CHANNEL (R341): A waiting command move takes the lowest idle channel allowed by CMD_MASK. -/
  | commandMoveChannel
  /-- PROGRAM_LINE_ARRIVAL (R343): A channel program line arrives and is kept. -/
  | programLineArrival (ch : Fin 16)
  /-- MOVE (R345): Moves and transforms data in pieces. -/
  | shMove (ch : Fin 16)
  /-- LOOP (R348): Opens a loop or skips its body. -/
  | shLoop (ch : Fin 16)
  /-- ENDLOOP (R348): Closes the innermost loop. -/
  | shEndloop (ch : Fin 16)
  /-- WAIT (R349): Waits for earlier writes, a gate and a delay. -/
  | shWait (ch : Fin 16)
  /-- WAIT_RESUME (R349): A WAIT's writes complete, gate sets or delay ends, and the channel continues. -/
  | waitResume (ch : Fin 16)
  /-- SIGNAL (R350): Offers a Wagon after earlier writes complete and then sets a gate. -/
  | shSignal (ch : Fin 16)
  /-- END (R364): Ends a program and completes it once its writes are done. -/
  | shEnd (ch : Fin 16)
  /-- SHUNT_PIECE_READ (R361): The read engine picks a channel by arbitration and reads its next piece into staging. -/
  | shuntPieceRead
  /-- SHUNT_PIECE_STAGED (R360): A staged piece is transformed and written. -/
  | shuntPieceStaged
  /-- MOVE_COUNT_END (R365): The last write of a MOVE completes and sets SHUNT_IRQ when IRQ is 1. -/
  | moveCountEnd (ch : Fin 16)
  /-- SHUNT_PROGRAM_COMPLETE (R364): A program's writes complete and its completion, WRITTEN, DONE or Wagon follows. -/
  | shuntProgramComplete (ch : Fin 16)
  /-- SHUNT_ARB_WRITE (R362): A change of SHARED and SERIAL is held until every channel is idle. -/
  | shuntArbWrite (who : Requester) (v : Word)
  /-- SHUNT_ARB_SWITCH (R23): The pending arbitration mode takes effect when every channel is idle. -/
  | shuntArbSwitch
  /-- CACHE_LOOKUP (R327): A GDDR6 request reaches its slice and hits, misses or opens a fill. -/
  | cacheLookup (q : CacheReq)
  /-- FILL_HALF_ARRIVAL (R329): A half line of a fill arrives and is delivered to waiting requesters. -/
  | fillHalfArrival (line : Word)
  /-- CACHE_WRITE_ACCEPT (R328): The slice accepts a write, updates a present line and queues it for GDDR6. -/
  | cacheWriteAccept (a : Word) (data : List Byte) (by_ : WriteMeet)
  /-- INVALIDATE_ADDR (R334): Invalidates one cache line. -/
  | invalidateAddr (who : Requester) (v : Word)
  /-- INVALIDATE_RANGE (R334): Invalidates a range of cache lines. -/
  | invalidateRange (who : Requester) (v : Word)
  /-- INVALIDATE_ALL (R334): Invalidates every cache line. -/
  | invalidateAll (who : Requester) (v : Word)
  /-- CACHE_MAINT_DONE (R336): Maintenance completes once every slice has finished and the marked fills have returned. -/
  | cacheMaintDone
  /-- CACHE_ENABLE_WRITE (R337): Writing CACHE_CTRL.EN enables or disables lookup and allocation. -/
  | cacheEnableWrite (who : Requester) (v : Word)
  /-- ONCHIP_ECC_WRITEBACK (R325): Writes back a corrected on-chip unit at the bank's next idle cc. -/
  | onchipEccWriteback (line : Word)
  /-- YARD_CLEAR (R324): Starts zeroing a range of Yard buffers. -/
  | yardClear (who : Requester) (v : Word)
  /-- YARD_CLEAR_DONE (R324): The last buffer of a clear has been zeroed. -/
  | yardClearDone
  /-- MC_SLOT_ISSUE (R380): Gives a channel slot to a reserved, read or write request, or leaves it idle. -/
  | mcSlotIssue (ch : Fin 16)
  /-- FRAME_BOUNDARY (R379): A 256-slot frame ends and reservations and the SCHED change take effect. -/
  | frameBoundary (ch : Fin 16)
  /-- MC_READ_RETURN (R382): Read data returns and is checked by EDC and ECC before deciphering. -/
  | mcReadReturn (ch : Fin 16) (e : ReadCheck)
  /-- REFRESH (R383): The refresh interval expires and a per-bank or all-bank refresh is issued. -/
  | refresh (ch : Fin 16)
  /-- ROW_DISTURB_REFRESH (R384): A row counter reaches the threshold and the neighbour rows are refreshed. -/
  | rowDisturbRefresh (ch : Fin 16) (bank : Fin 16)
  /-- ROW_COUNTER_CLEAR (R384): Clears every row-counter table every 32 ms. -/
  | rowCounterClear
  /-- DEVICE_TEMP_READ (R383): Reads the device temperature every 32 ms and adjusts refresh. -/
  | deviceTempRead (ch : Fin 16) (temp : Byte)
  /-- MODE_REGISTER_WRITE (R387): Training helper OP 1 writes a device mode register. -/
  | modeRegisterWrite (who : Requester) (ch : Fin 16) (v : Word)
  /-- CA_TRAINING (R387): Training helper OP 2 trains the CA lanes. -/
  | caTraining (who : Requester) (ch : Fin 16) (v : Word)
  /-- WCK_ALIGNMENT (R387): Training helper OP 3 finds the WCK-to-CK phase. -/
  | wckAlignment (who : Requester) (ch : Fin 16) (v : Word)
  /-- READ_TRAINING (R387): Training helper OP 4 runs read training. -/
  | readTraining (who : Requester) (ch : Fin 16) (v : Word)
  /-- WRITE_TRAINING (R387): Training helper OP 5 runs write training. -/
  | writeTraining (who : Requester) (ch : Fin 16) (v : Word)
  /-- VERIFY (R387): Training helper OP 6 writes and checks row ARG of every bank. -/
  | verify (who : Requester) (ch : Fin 16) (v : Word)
  /-- TEMPERATURE_READ (R387): Training helper OP 7 reads the device temperature. -/
  | temperatureRead (who : Requester) (ch : Fin 16) (v : Word)
  /-- MC_TRAIN_DONE (R387): A helper operation ends and sets FAIL. -/
  | mcTrainDone (ch : Fin 16) (fail : BitVec 20) (found : Byte)
  /-- MC_RESET_RELEASE (R387): CK_EN and RESET_REL bring a channel into training once CK is stable. -/
  | mcResetRelease (who : Requester) (k : Fin 8) (v : Word)
  /-- TRAFFIC_EN (R387): Setting TRAFFIC_EN lets requests reach the controllers and locks the ECC mode. -/
  | trafficEn (who : Requester) (v : Word)
  /-- MC_CONFIG_WRITE (R374): Writes exclusion, density or clamshell, which act only while every channel is in STATE 0. -/
  | mcConfigWrite (who : Requester) (v : Word)
  /-- SELF_REF (R389): Writing SELF_REF enters or exits self-refresh after the queues drain. -/
  | selfRef (who : Requester) (k : Fin 8) (v : Word)
  /-- RATE_DONE (R391): Writing RATE_DONE returns the channels from STATE 4 to STATE 2. -/
  | rateDone (who : Requester) (k : Fin 8) (v : Word)
  /-- SENSOR_SAMPLE (R400): Samples the 41 sensors each ms and changes warning and alarm states. -/
  | sensorSample (samples : List SensorIn)
  /-- GOVERNOR_TICK (R431): Each ms, throttles or restores the core clock and slot issue by temperature. -/
  | governorTick
  /-- TAMPER_RESPONSE (R415): A mesh break zeroises keys, burns TAMPERED, logs and resets. -/
  | tamperResponse (mesh : BitVec 16)
  /-- SIGN (R421): Signing engine OP 1 signs a digest. -/
  | sign (who : Requester) (v : Word)
  /-- VERIFY_SIGNATURE (R421): Signing engine OP 2 verifies a signature. -/
  | verifySignature (who : Requester) (v : Word)
  /-- TIME_TOKEN_CHECK (R413): Signing engine OP 3 checks a TIME_SET token and sets trusted AO time. -/
  | timeTokenCheck (who : Requester) (v : Word)
  /-- SIGN_DONE (R491): A signing-engine operation ends and sets DONE, OK and SIGN_DONE. -/
  | signDone
  /-- JOURNAL_SEAL (R405): Writes a signed seal record once its signature is made. -/
  | journalSeal
  /-- ZEROISE (R421): Zeroises the memory keys and the working signing key. -/
  | zeroise (who : Requester) (v : Word)
  /-- GEN_MEM (R421): Makes fresh memory keys from the TRNG. -/
  | genMem (who : Requester) (v : Word)
  /-- BOOT (R398): The Signal Box leaves reset and runs the ROM and firmware boot steps. -/
  | boot
  /-- FW_CONFIRM (R399): Writing SBOX_FW.CONFIRM clears TRIAL and raises the rollback counter. -/
  | fwConfirm (who : Requester) (v : Word)
  /-- LIFECYCLE_ADVANCE (R417): A confirmed CHIP_LIFECYCLE write advances the lifecycle state. -/
  | lifecycleAdvance (who : Requester) (v : Word)
  /-- DBG_TOKEN (R461): Update-DR of DBG_TOKEN starts the debug token check. -/
  | dbgToken (token : List Byte)
  /-- DEBUG_UNLOCK (R416): A verified token zeroises keys, sets DEBUG and resets. -/
  | debugUnlock
  /-- DBG_ACCESS (R461): Update-DR makes one register access with the Signal Box's rights. -/
  | dbgAccess (dr : TapScan)
  /-- EXTEST (R460): TAP instruction that drives pins from boundary scan. -/
  | extest
  /-- SAMPLE_PRELOAD (R460): TAP instruction that samples or preloads boundary scan. -/
  | samplePreload
  /-- IDCODE (R460): TAP instruction that selects the 32-bit IDCODE. -/
  | idcode
  /-- CLAMP (R460): TAP instruction that holds pins at boundary-scan values. -/
  | clamp
  /-- HIGHZ (R460): TAP instruction that floats every output. -/
  | highz
  /-- BYPASS (R460): TAP instruction that selects the 1-bit bypass register. -/
  | bypass
  /-- AO_MS_TICK (R413): AO time advances by 1 ms at each crossing of 32.768 AO ticks. -/
  | aoMsTick
  /-- PPS_EDGE (R413): A PPS rising edge sets the divisor and slews the ms phase. -/
  | ppsEdge
  /-- PPS_LOSS (R413): No PPS pulse for 3 s clears PPS_OK. -/
  | ppsLoss
  /-- AO_TIME_WRITE (R413): A direct write sets AO time and clears TIME_TRUSTED. -/
  | aoTimeWrite (who : Requester) (v : Word)
  /-- XTAL_STOP (R429): The crystal stops and AO switches to the internal oscillator. -/
  | xtalStop
  /-- WAKE_IGN (R439): A recognised ignition level wakes the device. -/
  | wakeIgn
  /-- WAKE_AUX (R439): A WAKE_AUX level or edge wakes the device. -/
  | wakeAux
  /-- PMIC_WAKE (R439): PM_INT_N low wakes the device. -/
  | pmicWake
  /-- STANDING_ACCESS_WAKE (R487): A register access in Standing ends Standing and stalls until the target is ready. -/
  | standingAccessWake
  /-- STANDING_EXIT (R441): Restarts the stopped domains and resumes Running within 15 µs. -/
  | standingExit
  /-- STABLED_WAKE (R443): A wake from Stabled boots with retained keys, rows and banks. -/
  | stabledWake
  /-- SLEEP (R435): Writing PWR_CTRL.SLEEP starts phase 1, asking each domain to drain. -/
  | sleep (who : Requester) (v : Word)
  /-- DOMAIN_DRAIN_AGREE (R436): A drained domain stops its clock and answers AGREE. -/
  | domainDrainAgree
  /-- DRAIN_LIMIT_REFUSE (R435): A domain not drained within DRAIN_LIMIT answers REFUSE. -/
  | drainLimitRefuse
  /-- SLEEP_PHASE2 (R438): At the AO tick boundary, latches pads and removes power. -/
  | sleepPhase2
  /-- PWR_EN_RAISE (R433): After PGOOD and 100 µs, raises the next power enable. -/
  | pwrEnRaise
  /-- RAIL_FAULT (R433): PGOOD not high 2 ms after an enable lowers every enable and records cause 9. -/
  | railFault
  /-- PGOOD_LOW (R457): PGOOD low recognised while enables are high is a rail fault. -/
  | pgoodLow
  /-- RESET_N_LOW (R457): RESET_N low latches the pads and lowers the enables. -/
  | resetNLow
  /-- RESET_N_RELEASE (R457): RESET_N high runs the power sequence and boot with cause 1. -/
  | resetNRelease
  /-- POWER_ON_RESET (R445): Loss and return of VDD_AO resets everything, including AO time. -/
  | powerOnReset
  /-- WARM (R445): RESET_CTRL.WARM with CONFIRM makes a reset of cause 2. -/
  | warm (who : Requester) (v : Word)
  /-- IDLE_GATE_EXPIRY (R424): A domain idle for IDLE_GATE is clock-gated. -/
  | idleGateExpiry (d : Fin 24)
  /-- IDLE_OFF_EXPIRY (R424): A domain idle for IDLE_OFF starts its power-down. -/
  | idleOffExpiry (d : Fin 24)
  /-- POWER_DOWN_COMPLETE (R424): A power-down ends 5 µs later and any waiting access wakes the domain. -/
  | powerDownComplete (d : Fin 24)
  /-- DOMAIN_WAKE (R425): An access to a domain that is not ON, with AUTOWAKE 1, wakes it and stalls. -/
  | domainWake (d : Fin 24)
  /-- DOMAIN_READY (R423): A waking domain becomes ready after its wake time. -/
  | domainReady (d : Fin 24)
  /-- PWR_DOMAIN_WAKE (R486): Writing PWR_DOMAIN.WAKE wakes the domain whatever AUTOWAKE holds. -/
  | pwrDomainWake (who : Requester) (d : Fin 24) (v : Word)
  /-- PROFILE (R430): Writing PWR_CTRL.PROFILE applies a profile and loads the AUTOWAKE defaults. -/
  | profile (who : Requester) (v : Word)
  /-- PROFILE_LOWER_IN_FORCE (R430): When the Rakes fit and the slew and rate change end, a lower profile is in force. -/
  | profileLowerInForce
  /-- PROFILE_RAISE_READY (R430): PGOOD and PM_INT_N stable for 1 ms put a higher profile in force. -/
  | profileRaiseReady
  /-- PROFILE_RAISE_TIMEOUT (R430): Rails not ready within 10 ms leave the old profile and refuse the request. -/
  | profileRaiseTimeout
  /-- CORE_PLL_SLEW (R429): The core PLL steps its frequency by 100 MHz per 10 µs. -/
  | corePllSlew
  /-- PAD_HOLD_RELEASE (R444): Writing PAD_HOLD.RELEASE lets a held pad group follow its controller. -/
  | padHoldRelease (who : Requester) (v : Word)
  /-- RC_FIELD_READ (R13): A read of an RC field returns and clears it, except for operator-core reads. -/
  | rcFieldRead (who : Requester) (a : Word)
  /-- REGISTER_WRITE (R12): A write to a register with no row of its own acts by its field access codes. -/
  | registerWrite (who : Requester) (a : Word) (v : Word)
  /-- L_PARK_EXIT (R56): The link leaves L-Park when either side sends a beacon on its lane 0, and relocks to L0 in 40 µs. -/
  | lParkExit
  /-- XTAL_START (R429): The 32.768 kHz crystal starts or restarts and takes over the AO clock from the internal oscillator, setting XTAL_OK. -/
  | xtalStart
  /-- INSTRUCTION_FETCH_FAULT (R202): A fetch outside the core's own instruction memory takes cause 0x01, and a fetch from an uncorrectable line takes cause 0x08. -/
  | instructionFetchFault (n : CoreIx)
  /-- RETURNED_WRITE_CRC (R385): The EDC CRC that GDDR6 returns for a write burst arrives; on failure the write is repeated, and when retries are exhausted MC_ERR records reason 2. -/
  | returnedWriteCrc (ch : Fin 16) (ok : Bool)
  deriving DecidableEq, Repr

end Sys2Proof
end

