-- ==== Sys2Proof/Machine/State.lean ====
section
/-!
DEFINITION. The state of the FQ-740: the queue of waiting commands, the fuses, and the device. Every piece of state that
the spec names has its home here, as plain data. Sparse arrays stand in the canonical form of Maps.lean.
-/

namespace Sys2Proof.Machine

/-- The data key and the tweak key of the inline cipher (R377). -/
structure MemKeys where
  data : BitVec 256 := 0
  tweak : BitVec 256 := 0
  deriving DecidableEq, Repr

/-! ## Power and clocks -/

/-- State of a power domain (R423). -/
inductive DomState where
  | on | gated | offRetain | off | waking
  deriving DecidableEq, Repr

/-- One power domain of R422. -/
structure Dom where
  /-- State of R423. -/
  st : DomState := .on
  /-- While waking: the state the domain left, which says what it kept. -/
  prev : DomState := .on
  /-- An idle power-down is in progress (R424). -/
  falling : Bool := false
  /-- The cc at which that power-down began. -/
  fallAt : Nat := 0
  /-- An access waits for the power-down to end, and then wakes the domain (R424). -/
  wanted : Bool := false
  deriving DecidableEq, Repr

/-- Device power state (R432), with the power sequence of R433 and the held reset of R457. -/
inductive PowerMode where
  | running | standing | stabled | laidUp
  /-- PWR_EN is being raised step by step, and boot follows (R433). -/
  | raising
  /-- RESET_N is held low (R457). -/
  | pinReset
  deriving DecidableEq, Repr

/-- A profile change in progress (R430). -/
structure ProfileReq where
  /-- The profile asked for. -/
  want : Nat := 0
  /-- True where the change lowers the cap. -/
  lower : Bool := false
  /-- The fetch number of the POWER_REQUEST that asked, if a command did. -/
  cmd : Option Nat := none
  /-- The sleep state that the same command asked for, 0 none. -/
  sleep : Nat := 0
  deriving DecidableEq, Repr

/-- The sleep sequence (R435 to R438). -/
structure SleepSeq where
  /-- A sequence is in progress. -/
  active : Bool := false
  /-- Target state: 1 Standing, 2 Stabled, 3 Laid-up. -/
  target : Nat := 0
  /-- Domains still to be asked, in stop order; the first has been asked. -/
  toAsk : List Nat := []
  /-- Domains that this sequence stopped, last first. -/
  stopped : List Nat := []
  /-- Every domain has agreed and phase 2 waits for the AO tick boundary. -/
  agreed : Bool := false
  /-- The fetch number of the POWER_REQUEST, if a command asked. -/
  cmd : Option Nat := none
  deriving DecidableEq, Repr

/-- Power, clock, wake and AO state outside the registers (R422 to R447, R413). -/
structure PwrSt where
  /-- Domains by number of R422. -/
  doms : SMap Dom := []
  /-- Device power state. -/
  mode : PowerMode := .running
  /-- PWR_EN[3:0] as driven (R433). -/
  pwrEn : Nat := 15
  /-- The enable raised last. -/
  pwrStep : Nat := 3
  /-- A rail fault has stopped the device, and no boot has followed yet (R433). -/
  railFault : Bool := false
  /-- The Signal Box has left reset and BOOT is due (R398). -/
  bootDue : Bool := true
  /-- The boot under way starts from Stabled (R443). -/
  fromStabled : Bool := false
  /-- The memory keys that wait in the AO key store (R432). -/
  aoKeys : Option MemKeys := none
  /-- The sleep sequence. -/
  sleep : SleepSeq := {}
  /-- Profile change in progress. -/
  profile : Option ProfileReq := none
  /-- Core clock steps that the governor has taken: MHz steps of 100 (R431). -/
  throttleSteps : Nat := 0
  /-- The governor also limits slot issue to 1 in 2 (R431). -/
  slotHalf : Bool := false
  /-- What is left of a Signal Box cycle at the last cc, in units of 1 / core MHz of 600ths (R3, R233). -/
  scPart : Nat := 0
  /-- The data rate at which the controllers run, in Gbit/s (R389). -/
  rateNow : Nat := 20
  /-- Step of the governor's change of that rate: 0 none, 1 self-refresh is awaited, 2 to 4 OP 3, OP 4 and OP 5 run (R389). -/
  rateStep : Nat := 0
  /-- Milliseconds for which every thermal sensor has been cool (R431). -/
  coolMs : Nat := 0
  /-- Divisor of the ms count, in units of 1/1000 tick: 32,768 nominal (R413). -/
  aoDiv : Nat := 32768
  /-- Milliseconds since the last PPS edge (R413). -/
  ppsMs : Nat := 0
  /-- Ticks counted since the last PPS edge, in units of 1/1000 tick (R413). -/
  ppsTicks : Nat := 0
  /-- A PPS edge has been seen since power-on (R413). -/
  ppsSeen : Bool := false
  /-- The next ms increment is withheld (R413). -/
  ppsSkip : Bool := false
  /-- A wake waits for a sleep entry to complete (R440): bits of WAKE_CAUSE. -/
  wakeDue : List Nat := []
  /-- The pads are latched for Stabled or Laid-up, and the wake logic is not armed yet (R58, R440). -/
  window : Bool := false
  /-- Output values of the held pad groups at the latch: GPIO_OUT and GPIO_OE (R444, R468). -/
  padGpio : Nat := 0
  /-- Rakes whose wake waits for the CAP15 limit (R427). -/
  rakeWait : List Nat := []
  /-- THERM_ALERT_N is asserted (R400). -/
  thermAlert : Bool := false
  /-- THERM_ALERT_N asserted as the pad latch holds it (R444). -/
  padTherm : Bool := false
  /-- Four bits for each controller, the lowest for MC0, as the pad latch holds its group's pins: CK_EN, RESET_REL, and self-refresh as CKE_n of each
  of its two channels shows it (R444). -/
  padMc : Nat := 0
  /-- The bit that TAMPER_A drives (R452, R458). -/
  tamperA : Bool := false
  /-- The power state that a rail fault ended, 0 Running, 1 Standing, 2 Stabled, until the next boot has logged it (R403, R433). -/
  fell : Option Nat := none
  /-- Domains that restart after a refusal and are not ready yet (R437, R447). -/
  rollback : List Nat := []
  /-- A tamper response taken without the Signal Box, whose Log Book entry waits for the next boot: the value of sensor 40 (R415). -/
  tamperDue : Option Nat := none
  /-- AO time of the last sensor samples (R401). -/
  sampleTime : Nat := 0
  /-- A POWER_REQUEST for Standing completes first after the return to Running (R438). -/
  standingDone : Option Nat := none
  deriving DecidableEq, Repr

/-! ## Abdom Link -/

/-- A transaction packet of R45 and R46. -/
structure Packet where
  /-- TYPE. -/
  ty : Nat := 0
  /-- STATUS. -/
  status : Nat := 0
  /-- LENGTH. -/
  len : Nat := 0
  /-- TAG. -/
  tag : Nat := 0
  /-- PORT. -/
  port : Nat := 0
  /-- ADDRESS (H1). -/
  addr : Nat := 0
  /-- Data. -/
  data : List Byte := []
  /-- A MEM_WR of the Shunting Engine: its channel, and the execution of the MOVE whose write it is (R349). -/
  chan : Option (Nat × Nat) := none
  /-- The register instance whose RC field the read that it answers has cleared, with what the field held (R13). -/
  back : Option (Reg × Nat × Word) := none
  /-- A received packet: its place in the order of arrival (R48). -/
  num : Nat := 0
  /-- A register transaction that has ended Standing: it waits for its target as for AUTOWAKE 1 (R487). -/
  woke : Bool := false
  deriving DecidableEq, Repr

/-- A sent data flit in the replay buffer (R40, R41). -/
structure SentFlit where
  /-- The 256 bytes as sent. -/
  bytes : List Byte := []
  /-- Times it has been replayed. -/
  replays : Nat := 0
  deriving DecidableEq, Repr

/-- Who a device read of host memory is for. -/
inductive Owner where
  /-- The summary line of a port (R69). -/
  | summary (p : Nat)
  /-- The doorbell word of a ring (R67). -/
  | doorbell (p r : Nat)
  /-- The roster descriptor of a ring without a context, read to learn DBELL (R70). -/
  | roster (p r : Nat)
  /-- The roster descriptor read at a RESET (R70 step 3). -/
  | descriptor (p r : Nat)
  /-- Submission entries (R90). -/
  | entries (p r : Nat)
  /-- Data of the command with this fetch number, at an offset of its stream. -/
  | command (id off : Nat)
  /-- A piece of a Shunting Engine channel (R361). -/
  | shunt (ch piece off : Nat)
  /-- Lines of a Junction program of a host command (R287). -/
  | junction (prog off : Nat)
  /-- The parameter block of a Consist (R162). -/
  | params (c : Nat)
  /-- Given up while its data was on the way: the data is discarded (R52). -/
  | abandoned
  deriving DecidableEq, Repr

/-- State of a device read of host memory. -/
inductive ReadSt where
  /-- Waits for a tag and completion-buffer room (R44). -/
  | queued
  /-- Sent as a MEM_RD and not complete. -/
  | sent
  /-- All data has arrived. -/
  | done
  /-- Ended STATUS 1 or 2 (R52). -/
  | refused
  /-- Timed out (R52). -/
  | timedOut
  deriving DecidableEq, Repr

/-- A device read of host memory (R47, R52). -/
structure HostRead where
  /-- Tag while sent. -/
  tag : Nat := 0
  /-- Virtual port. -/
  port : Nat := 0
  /-- Host address. -/
  addr : Nat := 0
  /-- Bytes asked for. -/
  len : Nat := 0
  /-- Who asked. -/
  owner : Owner
  /-- Data that has arrived. -/
  got : List Byte := []
  /-- State. -/
  st : ReadSt := .queued
  deriving DecidableEq, Repr

/-- A training or retrain in progress (R32, R34, R41). -/
structure Training where
  /-- 0 Detect, 1 Lock, 2 Identify, 3 Equalise, 4 Configure. -/
  step : Nat := 0
  /-- Index of the preset trial in the order of R34. -/
  trial : Nat := 0
  /-- Errors per lane of the trials done, first trial first. -/
  errs : List (List Nat) := []
  /-- This is a retrain, which never sweeps. -/
  retrain : Bool := false
  /-- SAVED_TX and SAVED_RX, where USE_SAVED was 1 when the training started (R35). -/
  saved : Option (Nat × Nat) := none
  deriving DecidableEq, Repr

/-- A logical lane of the transmitter (R29, R30). -/
structure LaneTx where
  /-- The last 58 scrambled bits, the newest in bit 0. -/
  scram : BitVec 58 := 0
  /-- Blocks sent since the lane came up. -/
  count : Nat := 0
  /-- The blocks of the flit sent last. -/
  out : List Block := []
  deriving DecidableEq, Repr

/-- The Abdom Link controller outside its registers (R28 to R63). -/
structure LinkSt where
  /-- Training in progress. -/
  train : Option Training := none
  /-- Consecutive failed retrains (R41). -/
  fails : Nat := 0
  /-- Logical lanes in use, rising (R36). -/
  lanes : List Nat := []
  /-- The four logical lanes of the transmitter (R30). -/
  tx : List LaneTx := [{}, {}, {}, {}]
  /-- Width code of the last training that came up, which a link that goes down does not forget (R36). -/
  lastWidth : Option Nat := none
  /-- SEQ of the next data flit sent (R40). -/
  txSeq : BitVec 8 := 0
  /-- SEQ of the next data flit expected (R40). -/
  rxSeq : BitVec 8 := 0
  /-- A data flit has been received good since the sequence numbers were set. -/
  rxAny : Bool := false
  /-- Data flits are discarded until the replayed flit arrives (R40). -/
  discarding : Bool := false
  /-- Replay buffer, oldest first (R40). -/
  replay : List SentFlit := []
  /-- Credits left toward the bridge, by class P, NP, CPL (R43). -/
  credP : Nat := 0
  credNP : Nat := 0
  credCPL : Nat := 0
  /-- Credits owed to the bridge, by class. -/
  oweP : Nat := 0
  oweNP : Nat := 0
  oweCPL : Nat := 0
  /-- Credits that the device advertised in Configure, by class (R43). -/
  advP : Nat := 0
  advNP : Nat := 0
  advCPL : Nat := 0
  /-- Of these, the credits that the bridge may still use, by class (R43, R44). -/
  farP : Nat := 0
  farNP : Nat := 0
  farCPL : Nat := 0
  /-- Bytes of a received packet that continues in the next data flit (R45). -/
  partialPkt : List Byte := []
  /-- REG_RD and REG_WR received and not executed, in arrival order (R50). -/
  rxReg : List Packet := []
  /-- CPL and CPL_D received and not taken (R47). -/
  rxCpl : List Packet := []
  /-- Packets received since the link came up (R48). -/
  rxNum : Nat := 0
  /-- Packets that wait for credits or the link, in order (R44, R48). -/
  txq : List Packet := []
  /-- Device reads of host memory, oldest first. -/
  reads : List HostRead := []
  /-- The last control flit sent (R42). -/
  ctlOut : List Byte := []
  /-- PARK_REQ has been sent and not answered (R42, R56). -/
  parkAsked : Bool := false
  deriving DecidableEq, Repr

/-! ## Ports and rings -/

/-- A window of a data port (R106). -/
structure Window where
  /-- ENABLE. -/
  en : Bool := false
  /-- BASE, a multiple of 4 KiB. -/
  base : Nat := 0
  /-- SIZE, a multiple of 4 KiB. -/
  size : Nat := 0
  deriving DecidableEq, Repr

/-- Progress of a RESET of a ring (R70). -/
inductive ResetPh where
  /-- No RESET seen. -/
  | none
  /-- RESET_SEEN, and commands in flight are awaited (step 2). -/
  | waiting
  /-- The descriptor is being read (step 3). -/
  | reading
  /-- STATUS has been written and the ring is held (step 4). -/
  | held
  deriving DecidableEq, Repr

/-- What the port table holds for one ring, with or without a context (R66, R70). -/
structure RingSlot where
  /-- RESET progress; RESET_SEEN is 1 outside .none. -/
  reset : ResetPh := .none
  /-- GEN of the descriptor's STATUS word. -/
  gen : Nat := 0
  /-- STATE of the STATUS word last written: 0 INACTIVE, 1 ACTIVE, 2 REFUSED, 3 ERROR. -/
  state : Nat := 0
  deriving DecidableEq, Repr

/-- A virtual port (R102 to R114). -/
structure Port where
  /-- EXISTS, for a data port. -/
  exists_ : Bool := false
  /-- The PORT_CREATE has completed and the port is polled (R104). -/
  live : Bool := false
  /-- A PORT_DESTROY has passed its check (R114). -/
  destroying : Bool := false
  /-- Summary line host address, as sampled for port 0. -/
  summary : Nat := 0
  /-- Roster host address. -/
  roster : Nat := 0
  /-- GDDR6 windows by index. -/
  gwin : SMap Window := []
  /-- Host windows by index. -/
  hwin : SMap Window := []
  /-- Allowances of R109. -/
  rings : Nat := 0
  cores : Nat := 0
  junction : Nat := 0
  yard : Nat := 0
  /-- A poll of the port is in progress: its summary line has been asked for (R69). -/
  polling : Bool := false
  /-- Flagged rings of the poll in progress whose doorbell words are still to be asked for (R69). -/
  flagged : List Nat := []
  /-- Ring after which the round robin of R90 goes on. -/
  rr : Nat := 511
  deriving DecidableEq, Repr

/-- The context of an active ring (R65, R70, R72, R82, R94). -/
structure RingCtx where
  /-- The ring has a context. -/
  valid : Bool := false
  /-- True for a submission ring, false for a completion ring. -/
  sq : Bool := false
  /-- BASE. -/
  base : Nat := 0
  /-- DBELL. -/
  dbell : Nat := 0
  /-- LOG2SIZE as it behaves, 6 to 16. -/
  log2 : Nat := 6
  /-- TARGET: the CQ of an SQ, or the vector of a CQ. -/
  target : Nat := 0
  /-- WEIGHT or MOD_COUNT as it behaves, 1 to 255. -/
  weight : Nat := 1
  /-- IEN. -/
  ien : Bool := false
  /-- MOD_TIME. -/
  modTime : Nat := 0
  /-- The ring is in ERROR. -/
  error : Bool := false
  /-- SQ: next entry to fetch. CQ: next entry to write. -/
  idx : Nat := 0
  /-- SQ: the tail. CQ: the head that host software has consumed up to. -/
  index : Nat := 0
  /-- SQ: entries being fetched, with the fetch number of the first. -/
  fetching : Nat := 0
  fetchId : Nat := 0
  /-- CQ: PHASE of the next entry. -/
  phase : Bool := true
  /-- CQ: places reserved (R83). -/
  reserved : Nat := 0
  /-- CQ: pending count and timer of R94. -/
  pending : Nat := 0
  timer : Bool := false
  /-- SQ: fetch numbers of entries that completed with a failure since the last FENCE entry (R92). -/
  failed : List Nat := []
  deriving DecidableEq, Repr

/-- The copy of a context in the 2 MiB context area (R72): its place there, the context it stands for, and its 64 bytes, whose layout the spec
does not give. -/
structure CtxCopy where
  place : Nat := 0
  ctx : RingCtx := {}
  bytes : List Byte := []
  deriving DecidableEq, Repr

/-- State of a fetched command. -/
inductive CmdSt where
  /-- Fetched and not started. -/
  | fetched
  /-- Checked and started. -/
  | running
  /-- Ended; the completion is not written. -/
  | done (status result : Nat)
  deriving DecidableEq, Repr

/-- Where a walk along frames waits for the slices, which hold its next access (R139, R142, R328, R329). -/
inductive Walk where
  /-- It has not begun. -/
  | start
  /-- An INGEST's: at the head of its output at `a`, with the first and the last frame so far, 0 for none. -/
  | head (a first last : Nat)
  /-- An INGEST's, past its last head: its frames are to be linked. -/
  | link (first last : Nat)
  /-- A RETIRE_EPOCH's: at RETIRING in GDDR6 of its table number i. -/
  | bits (i : Nat)
  /-- At the directory entry of its table number i. -/
  | table (i : Nat)
  /-- At frame `a` of that table's chain, behind frame `prev` that stays, with how many frames it still looks at. -/
  | frame (i a prev left : Nat)
  /-- At RETIRE_MARK of its table number i. -/
  | mark (i : Nat)
  /-- At clearing RETIRING of its table number i; the command then ends with this status and RESULT. -/
  | clear (i status result : Nat)
  deriving DecidableEq, Repr

/-- A fetched, uncompleted command (R73, R90). -/
structure Cmd where
  /-- Fetch number: rises in fetch order over the device. -/
  id : Nat := 0
  port : Nat := 0
  sq : Nat := 0
  cid : Nat := 0
  opcode : Nat := 0
  fence : Bool := false
  halt : Bool := false
  urgent : Bool := false
  space : Nat := 0
  /-- P1 to P7. -/
  p : List Nat := []
  /-- Progress. -/
  st : CmdSt := .fetched
  /-- Bytes or items done, as the command's rule counts them. -/
  pos : Nat := 0
  /-- Further progress of the command's own rule. -/
  aux : List Nat := []
  /-- Where the walk of an INGEST or a RETIRE_EPOCH stands. -/
  walk : Walk := .start
  /-- Failed reads: host address and completing status (R52). -/
  bad : List (Nat × Nat) := []
  /-- The link has gone down: its writes to host memory and its completion entry are dropped (R60). -/
  dropped : Bool := false
  deriving DecidableEq, Repr

/-- The ring engine outside its registers (R64 to R101). -/
structure RingSt where
  /-- Rings with a context, by 512 × port + ring. -/
  ctx : SMap RingCtx := []
  /-- Port-table entries of rings, by 512 × port + ring. -/
  slots : SMap RingSlot := []
  /-- Context cache, most recently used first (R72). -/
  cached : List Nat := []
  /-- The copies in the context area of GDDR6, by 512 × port + ring (R72). -/
  copies : SMap CtxCopy := []
  /-- Fetched, uncompleted commands, oldest first. -/
  cmds : List Cmd := []
  /-- Fetch number of the next entry. -/
  nextId : Nat := 0
  /-- Port whose SQs were served last (R90). -/
  rr : Nat := 255
  /-- Tables whose RETIRING bit is set on chip, rising (R488). -/
  retiring : List Nat := []
  deriving DecidableEq, Repr

/-! ## Timetables and Consists -/

/-- A loaded Timetable handle with its load totals (R155, R159). -/
structure Handle where
  valid : Bool := false
  port : Nat := 0
  home : Nat := 0
  bytes : Nat := 0
  /-- Load digest. -/
  digest : List Byte := []
  stages : Nat := 0
  resultStage : Nat := 0
  domains : Nat := 0
  /-- Counted use of R153. -/
  cores : Nat := 0
  yard : Nat := 0
  junction : Nat := 0
  deriving DecidableEq, Repr

/-- A Wagon: W0 to W3 (R176). -/
structure Wagon where
  w0 : Word := 0
  w1 : Word := 0
  w2 : Word := 0
  w3 : Word := 0
  deriving DecidableEq, Repr

/-- State of a Consist (R173). -/
inductive ConsistPh where
  | starting | running | signing | completing
  deriving DecidableEq, Repr

/-- A running Consist (R169). -/
structure Consist where
  /-- The id is in use. -/
  valid : Bool := false
  /-- Fetch number of the RUN_CONSIST. -/
  cmd : Nat := 0
  port : Nat := 0
  handle : Nat := 0
  /-- From the handle (R159). -/
  home : Nat := 0
  bytes : Nat := 0
  digest : List Byte := []
  stages : Nat := 0
  resultStage : Nat := 0
  domains : Nat := 0
  cores : Nat := 0
  yard : Nat := 0
  junction : Nat := 0
  /-- From the header as it stands (R159). -/
  rowBytes : Nat := 0
  claimOff : Nat := 0
  claimCount : Nat := 0
  seedOff : Nat := 0
  seedCount : Nat := 0
  ingestSeeds : Nat := 0
  /-- From the command (R75). -/
  nparams : Nat := 0
  attest : Bool := false
  resultHost : Bool := false
  result : Nat := 0
  resultBytes : Nat := 0
  attestHost : Bool := false
  attestAt : Nat := 0
  snapshot : Nat := 0
  watchdog : Nat := 0
  /-- State of R173. -/
  ph : ConsistPh := .starting
  /-- Status code of the first terminating event, 0 while none, with its RESULT (R98). -/
  event : Nat := 0
  evResult : Nat := 0
  /-- The cc in which it was recorded (R98). -/
  eventAt : Nat := 0
  /-- Whole milliseconds since the check (R171). -/
  ms : Nat := 0
  /-- DRAM slot frame, 512 bytes; empty where none is reserved (R165). -/
  frame : List Byte := []
  /-- The parameter block as copied, once read (R162). -/
  params : Option (List Byte) := none
  /-- The start digest, once made (R169). -/
  startDigest : Option (List Byte) := none
  /-- Yard buffers that its stages and claims name: first buffer and count (R150, R153). -/
  yardRanges : List (Nat × Nat) := []
  /-- Rakes whose kernels and parameters are copied. -/
  rakes : List Nat := []
  /-- Claims are carved and way masks written. -/
  carved : Bool := false
  /-- Its carves have taken their place: the number of the program queue's next program then, and their tables (R283). -/
  carving : Option (Nat × List Nat) := none
  /-- The seeds have been offered to the Dispatcher. -/
  seedsOut : Bool := false
  /-- Seeds accepted so far. -/
  seeded : Nat := 0
  /-- INGEST seeds held while starting (R154). -/
  held : List (Nat × Wagon) := []
  /-- INGEST seeds received (R170). -/
  gotSeeds : Nat := 0
  /-- Unit work started on its behalf and not finished (R170). -/
  work : Nat := 0
  /-- ROWS (R97). -/
  rows : Nat := 0
  /-- Result bytes written, in order (R172). -/
  written : List Byte := []
  /-- The result ring filled (R97). -/
  truncated : Bool := false
  deriving DecidableEq, Repr

/-! ## Dispatcher -/

/-- Producers of Wagons, in the order of R179. -/
inductive Producer where
  | seed (c : Nat)
  /-- An INGEST seed, with the fetch number of its INGEST. -/
  | ingest (id : Nat)
  | core (n : Nat)
  /-- An output held behind the reorder window of list k, now released (R196), of the core that emitted it. -/
  | window (k n : Nat)
  | scanner (m : Nat)
  | junction
  | hump
  | shunt (ch : Nat)
  deriving DecidableEq, Repr

/-- A Wagon offered to the Dispatcher and not accepted. -/
structure Offer where
  prod : Producer
  w : Wagon := {}
  /-- The key of a keyed emission (R190). -/
  key : Option Nat := none
  /-- The cc in which the Wagon reached the Dispatcher (R179). -/
  time : Nat := 0
  /-- The offer stalls under R185. -/
  stalled : Bool := false
  /-- Of an output released from a reorder window: the number of the service that emitted it (R179, R196). -/
  serial : Nat := 0
  deriving DecidableEq, Repr

/-- A Wagon on a ready list on chip, with its eligible_at (R194). -/
structure ListWagon where
  w : Wagon := {}
  eligible : Option Nat := none
  deriving DecidableEq, Repr

/-- A ready list (R181 to R184, R188). -/
structure ReadyList where
  /-- The list exists. -/
  valid : Bool := false
  cores : Nat := 0
  weight : Nat := 1
  order : Nat := 0
  affHold : Nat := 0
  ptBits : Nat := 0
  ptOff : Nat := 0
  sidingBase : Nat := 0
  sidingLog2 : Nat := 0
  /-- The start copies a kernel or the parameters to the cores of the stage (R161, R162). -/
  copies : Bool := false
  /-- On-chip Wagons, oldest first. -/
  chip : List ListWagon := []
  /-- SPILLED. -/
  spilled : Bool := false
  /-- Wagons written to the Siding and Wagons moved from it, since the start. -/
  written : Nat := 0
  moved : Nat := 0
  /-- The Wagons written to the Siding line that was written last (R183). -/
  tail : List Wagon := []
  credit : Nat := 0
  deriving DecidableEq, Repr

/-- A flow context (R197). -/
structure FlowCtx where
  c : Nat := 0
  s : Nat := 0
  f : Nat := 0
  last : Option Nat := none
  /-- A Wagon of the flow is in service. -/
  inServ : Bool := false
  deriving DecidableEq, Repr

/-- A Wagon held behind the reorder window, or one for the result path (R196). -/
structure HeldOut where
  w : Wagon := {}
  /-- The core whose EMITW to RESULT_STAGE waits for the copy. -/
  core : Option Nat := none
  /-- Bytes of a result Wagon that the result path has copied (R167). -/
  copied : Nat := 0
  deriving DecidableEq, Repr

/-- An entry of a reorder window (R195, R196). -/
structure WinEntry where
  /-- The core that serves the Wagon. -/
  core : Nat := 0
  /-- Number of the service, so that one core's services stay apart. -/
  serial : Nat := 0
  released : Bool := false
  held : List HeldOut := []
  deriving DecidableEq, Repr

/-- A Wagon in service, or its release on the way (R191). -/
structure Service where
  w : Wagon := {}
  core : Nat := 0
  serial : Nat := 0
  deriving DecidableEq, Repr

/-- The Dispatcher outside its registers (R176 to R200). -/
structure DispSt where
  /-- Ready lists by 64 × consist + stage. -/
  lists : SMap ReadyList := []
  /-- ROT of R188: a key of `lists`. -/
  rot : Nat := 0
  /-- Waiting cores with the cc at which they became waiting, longest first. -/
  waiting : List (Nat × Nat) := []
  /-- Flow contexts, most recently used first (R197). -/
  flows : List FlowCtx := []
  /-- Flow spill reads not returned: consist, stage, flow and the entry's address (R198, R200). -/
  flowReads : List (Nat × Nat × Nat × Nat) := []
  /-- Reorder windows by 64 × consist + stage, oldest entry first. -/
  windows : SMap (List WinEntry) := []
  /-- Offers not accepted, oldest first. -/
  offers : List Offer := []
  /-- Wagons handed over and not yet in X10 to X13 (R189). -/
  delivering : List Service := []
  /-- Wagons in service. -/
  service : List Service := []
  /-- Releases that have not taken effect (R189). -/
  releasing : List Service := []
  /-- Wagons on the result path, in arrival order (R167). -/
  resultQ : List HeldOut := []
  /-- Number of the next service. -/
  serial : Nat := 0
  deriving DecidableEq, Repr

/-! ## Column Cache and Yard -/

/-- What stands wrong in the arrays of a way (R333): nothing, data bits that the code corrects, data bits that it does not, or the tag's parity. -/
inductive CFlaw where
  | sound | soft | bad | tag
  deriving DecidableEq, Repr

/-- A valid line of the Column Cache (R327, R331). -/
structure CWay where
  /-- Way, 0 to 15. -/
  way : Nat := 0
  /-- Line address. -/
  line : Nat := 0
  /-- A stream tracker brought it in, for this requester, and no demand access has hit it (R332). -/
  pf : Option Nat := none
  /-- An error in its arrays that no access has met yet. DESIGN CHOICE: a state that no row brings about, as a weak cell comes about (log entry 136). -/
  flaw : CFlaw := .sound
  deriving DecidableEq, Repr

/-- Who waits for a read of GDDR6, or for a line of it. -/
inductive GOwner where
  /-- A requester that the model does not hold: its data leaves the device's own units. -/
  | nobody
  /-- Load number `num` of a core. -/
  | load (n num : Nat)
  /-- Segment `seg` of program `prog` of Plane Scanner m. -/
  | scan (m prog seg : Nat)
  /-- The Junction loader, for a program by its number. -/
  | junc (num : Nat)
  /-- The Hump, for tree `tree` of its job. -/
  | hump (tree : Nat)
  /-- The program lines of a channel of the Shunting Engine. -/
  | prog (ch : Nat)
  /-- A piece of a channel of the Shunting Engine, by the number that names it. -/
  | piece (ch id : Nat)
  /-- The result path. -/
  | result
  deriving DecidableEq, Repr

/-- How far a read of GDDR6 has come (R326 to R330). -/
inductive GSt where
  /-- Issued, and not yet looked up by its slice. -/
  | waiting
  /-- In the fill entry of its line (R329). -/
  | filling
  /-- Read from GDDR6 past the cache, while EN is 0 or for the bypassing class (R326, R337). -/
  | direct
  /-- Its data has arrived. -/
  | served
  /-- Its line has come back uncorrectable (R330, R385, R386). -/
  | failed
  deriving DecidableEq, Repr

/-- A read of bytes of one GDDR6 line by a requester (R326, R329). -/
structure GReq where
  own : GOwner := .nobody
  /-- Requester number of R151; one above 50 is of a class that never allocates. -/
  req : Nat := 51
  /-- Port whose windows a prefetch is checked against. -/
  port : Nat := 0
  /-- The Consist whose own request it is (R166). -/
  consist : Option Nat := none
  /-- First byte, and bytes within the line. -/
  addr : Nat := 0
  len : Nat := 0
  st : GSt := .waiting
  /-- The bytes, once served or once fixed by the slice's order (R328). -/
  data : List Byte := []
  deriving DecidableEq, Repr

/-- An open fill entry (R329, R330, R335). -/
structure CFill where
  line : Nat := 0
  /-- Requester whose miss opened it, or whose tracker prefetched it. -/
  opener : Nat := 0
  /-- A tracker opened it, and no demand miss has joined it. -/
  prefetch : Bool := false
  /-- The critical half. -/
  crit : Nat := 0
  /-- The controller has returned the line; where the second is true, as uncorrectable (R330). -/
  back : Bool := false
  bad : Bool := false
  /-- The critical half has arrived. -/
  half : Bool := false
  /-- Not to be installed: marked by maintenance, or EN was cleared (R335, R337). -/
  discard : Bool := false
  /-- A running maintenance operation waits for it (R334). -/
  maint : Bool := false
  /-- Bytes of the returned line that differ from what GDDR6 should hold, by offset in the line: undetected errors (R386). -/
  wrong : List (Nat × Byte) := []
  deriving DecidableEq, Repr

/-- A stream tracker (R332). -/
structure Tracker where
  last : Nat := 0
  stride : Int := 0
  conf : Nat := 0
  /-- Furthest prefetch come to on the confirmed stream, in strides beyond `last`. -/
  ahead : Nat := 0
  /-- Those of 1 to `ahead` that found no place in their slice, and have not been issued yet. -/
  skipped : List Nat := []
  deriving DecidableEq, Repr

/-- A maintenance operation in progress (R334). -/
structure Maint where
  op : Nat := 0
  lo : Nat := 0
  hi : Nat := 0
  /-- Steps that every slice has taken: sets of a walk, or lines of its part of the scope. -/
  pos : Nat := 0
  deriving DecidableEq, Repr

/-- The Column Cache and the Yard's clear engine outside their registers (R322 to R337). -/
structure CacheSt where
  /-- Sets by 1,024 × slice + set: their valid lines, most recently used first. -/
  sets : SMap (List CWay) := []
  /-- Bytes that a valid line holds otherwise than GDDR6, after writes made while EN was 0 (R337). -/
  stale : SMap (Option Byte) := []
  /-- Open fill entries, oldest first. -/
  fills : List CFill := []
  /-- Valid trackers by requester, most recently used first; at most 4 each. -/
  trackers : SMap (List Tracker) := []
  maint : Option Maint := none
  /-- Reads of GDDR6 that their requesters have issued and not taken, oldest first (R326, R329). -/
  reqs : List GReq := []
  /-- The running Yard clear: first buffer and count (R324). -/
  clear : Option (Nat × Nat) := none
  /-- Bytes of it that have been zeroed. -/
  cleared : Nat := 0
  /-- Yard banks that have served an access in the present cc (R322). -/
  banks : List Nat := []
  deriving DecidableEq, Repr

/-! ## Cores -/

/-- What a core is doing (R234 CORE_STATUS.STATE). -/
inductive CoreRun where
  | held | running | waitw | waiti | emitw
  deriving DecidableEq, Repr

/-- Where the data of a load in flight goes. -/
inductive LoadDest where
  /-- Sign- or zero-extended into X rd. -/
  | x (rd : Nat) (signed : Bool)
  /-- The NULL bit of a slot, from the trailer (R210 LNF). -/
  | lnf (rd slot : Nat)
  /-- The low bits of F register rd, in 4 or 8 bytes (R244). -/
  | f (rd : Nat)
  /-- Elements of vector v, from `width` bytes each, zero-extended (R252, R253). -/
  | vec (v : Nat) (long : Bool) (elems : List Nat) (width : Nat)
  /-- Bits of qualifier k: each element's number, and its slot, whose NULL bit stands in the 4 trailer bytes that it reads; every other
  bit becomes 0 (R241, R252). -/
  | nullQ (k : Nat) (slots : List (Nat × Nat))
  /-- Qualifier k whole (R252 QLD). -/
  | q (k : Nat)
  deriving DecidableEq, Repr

/-- The registers of a core that its instructions change in program order: what a load that faults goes back to (R205). -/
structure CoreRegs where
  /-- X1 to X31 by number; X0 is never listed. -/
  x : SMap Word := []
  pc : Nat := 0
  /-- STATUS (R226). -/
  status : Word := 1
  /-- Control registers by number, but for STATUS and the computed ones (R226, R260). -/
  csr : SMap Word := []
  /-- Bytes of own instruction memory as fetch still sees them, by offset: stores not yet visible to fetch (R217). -/
  oldCode : List (Nat × Byte) := []
  /-- Cells of the cell file by number (R235). -/
  cells : SMap Cell80 := []
  /-- Qualifier registers Q0 to Q7 (R241). -/
  q : SMap (BitVec 64) := [(0, BitVec.allOnes 64)]
  deriving DecidableEq, Repr

/-- A load in flight (R204, R215). -/
structure LoadFly where
  /-- Number of the load, in the order in which its core issued them. -/
  num : Nat := 0
  dest : LoadDest := .x 0 false
  /-- Elements of the destination in order: number, and how many of the bytes below are its own. One element 0 for a scalar load. -/
  elems : List (Nat × Nat) := []
  /-- The bytes it returns: those known at issue, from the core's own buffered stores and from the stores on chip, and those that GDDR6
  still has to give, by address. -/
  want : List (Nat × Option Byte) := []
  /-- LN of a register: its offset in the register range, read when the load returns (R204, R214). -/
  reg : Option Nat := none
  /-- The uncorrectable on-chip line that it met, and the number of the element (R215, R254). -/
  bad : Option (Nat × Nat) := none
  /-- Effective address. -/
  addr : Nat := 0
  /-- The registers as they stood before it issued. -/
  saved : CoreRegs := {}
  /-- Instructions that have issued since the load before it left flight or issued, itself included: they retire with it (R234). -/
  after : Nat := 1
  deriving DecidableEq, Repr

/-- A store in the store buffer (R204). -/
structure StoreBuf where
  /-- Writes in the order they are made, each single-copy atomic: one for a scalar store, one per active element for a
  vector store (R256, R257). -/
  parts : List (Nat × List Byte) := []
  /-- A native store, by SN, VSN or VSCN, which alone rings bells (R261). -/
  isNat : Bool := false
  /-- Number that the core's next load had when the store issued: it follows every load below it (R205, R216). -/
  num : Nat := 0
  deriving DecidableEq, Repr

/-- A core (R201 to R234, R235 to R241). The Signal Box core is number 32. -/
structure Core extends CoreRegs where
  st : CoreRun := .held
  /-- CURKEY: 64 × consist + stage of the last Wagon handed over (R221). -/
  curkey : Option Nat := none
  /-- Pending causes that are not levels: 0x12, 0x14, 0x15. -/
  pend : List Nat := []
  /-- Consist id that cause 0x12 reports. -/
  abortId : Nat := 0
  /-- Loads in flight, oldest first. -/
  loads : List LoadFly := []
  /-- Number of the next load. -/
  nextLoad : Nat := 0
  /-- Store buffer, oldest first. -/
  stores : List StoreBuf := []
  /-- A vector load or store has begun and waits for a domain (R255). -/
  inVec : Bool := false
  /-- Issue stands still on a load, a full load or store path, or a domain that wakes (R234). -/
  stalled : Bool := false
  deriving DecidableEq, Repr

/-! ## GDDR6 controllers -/

/-- A request that a channel holds (R380). -/
structure McReq where
  /-- Line address. -/
  line : Nat := 0
  write : Bool := false
  /-- The write covers a part of the line, and its read has not returned (R378). -/
  part : Bool := false
  /-- A read for the line's fill entry, rather than past the cache (R329, R337). -/
  fill : Bool := false
  /-- The Consist whose own request it is (R166). -/
  consist : Option Nat := none
  /-- Repeats after a failed EDC CRC (R385). -/
  tries : Nat := 0
  /-- A part write: the bytes that it replaces, which stand again if its read is uncorrectable (R378). -/
  undo : List (Nat × Byte) := []
  deriving DecidableEq, Repr

/-- A check half in the check cache: the check words of 8 data lines (R375, R376). -/
structure CheckHalf where
  /-- Number of the half in its channel. -/
  num : Nat := 0
  changed : Bool := false
  words : List (BitVec 32) := []
  deriving DecidableEq, Repr

/-- A helper operation under way (R387). -/
structure McTrain where
  op : Nat := 0
  arg : Nat := 0
  iter : Nat := 1
  /-- MC_TRAIN_PAT at the start. -/
  pat : Nat := 1
  deriving DecidableEq, Repr

/-- A channel outside its registers (R379 to R389). -/
structure McChan where
  /-- Requests in the bank queues and the write queue, oldest first. -/
  q : List McReq := []
  /-- Read bursts issued whose data have not returned. -/
  out : List McReq := []
  /-- Write bursts issued whose CRC has not returned. -/
  wout : List McReq := []
  /-- Open row by bank. -/
  rows : SMap (Option Nat) := []
  /-- The rotating bank pointer. -/
  ptr : Nat := 0
  /-- Times in a row that a request to the open row has passed older ones, by bank. -/
  passed : SMap Nat := []
  /-- The channel serves writes. -/
  drain : Bool := false
  /-- Slots still to be left idle after a change of direction. -/
  turn : Nat := 0
  /-- Next slot of the frame. -/
  slot : Nat := 0
  /-- SCHED as it is in force. -/
  sched : Bool := false
  /-- Reservations served: Consist and its 32 bytes of the frame. -/
  frames : List (Nat × List Byte) := []
  /-- Check halves in the check cache, most recently used first: at most 64 (R376). -/
  halves : List CheckHalf := []
  /-- Check words in lines 28 and 29 of the rows, by the data line's number within the channel; those not listed are as the line's
  bytes ask (R375). -/
  words : SMap (Option (BitVec 32)) := []
  /-- The mirror copies in lines 30 and 31. -/
  mirrors : SMap (Option (BitVec 32)) := []
  /-- Bank of the next per-bank refresh (R383). -/
  refBank : Nat := 0
  /-- Postponed refreshes, oldest first: bank, 16 for every bank, and intervals for which each has been postponed (R383). -/
  owed : List (Nat × Nat) := []
  /-- A refresh falls on the next slot (R381). -/
  refSlot : Bool := false
  /-- Row counters by bank (R384). -/
  counts : SMap (SMap Nat) := []
  /-- Activates in the present 32 ms interval by bank. -/
  acts : SMap Nat := []
  /-- Consecutive EDC failures (R385). -/
  edcRun : Nat := 0
  train : Option McTrain := none
  /-- Device mode registers (R387). -/
  modeRegs : SMap Nat := []
  /-- A helper operation of the governor's present change of rate has set a FAIL bit (R389 step 5). -/
  opFail : Bool := false
  /-- SELF_REF was written 1 and entry waits for the queues (R389). -/
  srWait : Bool := false
  /-- Data rate at self-refresh entry. -/
  rateIn : Nat := 0
  deriving DecidableEq, Repr

/-! ## Fuses -/

/-- The one-time-programmable fuses (R398, R411 to R419). -/
structure Otp where
  /-- Lifecycle state (R417). -/
  lifecycle : Nat := 0
  /-- The TAMPERED fuse (R415). -/
  tampered : Bool := false
  /-- Rollback counter: fuses burnt, 0 to 64 (R412). -/
  rollback : Nat := 0
  /-- Device serial (R418). -/
  serial : BitVec 64 := 0
  /-- SHA-384 of the firmware signer's key (R411). -/
  fwHash : BitVec 384 := 0
  /-- SHA-384 of the time authority's key (R413). -/
  timeHash : BitVec 384 := 0
  /-- CHIP_ID.MAJOR, MINOR and GRADE (R419). -/
  major : Byte := 0
  minor : Byte := 0
  grade : Byte := 15
  /-- Device public key, X then Y (R420). -/
  pubX : BitVec 384 := 0
  pubY : BitVec 384 := 0
  deriving DecidableEq, Repr

/-! ## Bells and Plane Scanners -/

/-- A ring of a bell as it stood when its store completed (R262). -/
structure Ring where
  /-- Program line, 0 to 4,095. -/
  line : Nat := 0
  /-- Ringing core. -/
  core : Nat := 0
  /-- Consist of the Wagon that the core served. -/
  consist : Option Nat := none
  /-- WC_PORT. -/
  port : Nat := 0
  /-- YWIN.FIRST and COUNT. -/
  yFirst : Nat := 0
  yCount : Nat := 0
  /-- The Consist counts this ring as unfinished work (R170). -/
  counted : Bool := false
  /-- The cc at which the store completed. -/
  time : Nat := 0
  deriving DecidableEq, Repr

/-- A step of a scan program (R266). -/
structure ScanStep where
  pred : Nat := 0
  combine : Nat := 0
  width : Nat := 0
  planes : Nat := 0
  stride : Nat := 0
  nulls : Nat := 0
  /-- C0 to C7. -/
  consts : List Nat := []
  /-- NVALS as it behaves. -/
  nvals : Nat := 1
  deriving DecidableEq, Repr

/-- Which line of a segment a read is for (R272). -/
inductive ScanLine where
  | null | source | plane
  deriving DecidableEq, Repr

/-- An open segment of a scan program (R270 to R272). Lines stand as 512-bit numbers, row r in bit r. -/
structure ScanSeg where
  /-- Segment number. -/
  s : Nat := 0
  /-- Steps done. -/
  step : Nat := 0
  /-- R. -/
  res : Nat := 0
  /-- The null line of the present step, once read. -/
  nulls : Option Nat := none
  /-- The source line of a BITMAP step, once read. -/
  src : Option Nat := none
  /-- Planes read of the present step, plane 0 first. -/
  planes : List Nat := []
  /-- The read in flight. -/
  flight : Option ScanLine := none
  deriving DecidableEq, Repr

/-- A running scan program (R264, R265). -/
structure ScanProg where
  /-- Number of the program on its scanner. -/
  num : Nat := 0
  ring : Ring := {}
  noWagon : Bool := false
  segs : Nat := 0
  rows : Nat := 0
  dst : Nat := 0
  w : Wagon := {}
  steps : List ScanStep := []
  /-- Next segment to open. -/
  next : Nat := 0
  /-- Open segments, oldest first. -/
  opened : List ScanSeg := []
  /-- Rows set in the bitmap lines written. -/
  selected : Nat := 0
  /-- Lines read. -/
  lines : Nat := 0
  deriving DecidableEq, Repr

/-- A Plane Scanner outside its registers (R261 to R277). -/
structure PlaneSt where
  /-- Rings whose stores have completed and that are not yet captured. -/
  arriving : List Ring := []
  /-- Captured rings, in capture order. -/
  queue : List Ring := []
  /-- Programs, in start order. -/
  progs : List ScanProg := []
  /-- Programs started since the scanner powered up. -/
  started : Nat := 0
  deriving DecidableEq, Repr

/-! ## Junction -/

/-- An entry of the Junction, in the search array or in the ECC copy (R279). -/
structure JEntry where
  valid : Bool := false
  key : Nat := 0
  mask : Nat := 0
  prio : Nat := 0
  payload : Nat := 0
  deriving DecidableEq, Repr

/-- Who started unit work: a ring of a core, or a host command by its fetch number. -/
inductive JobSrc where
  | ring (r : Ring)
  | cmd (id : Nat)
  deriving DecidableEq, Repr

/-- A key of a loaded key line: null, or its 80-bit value (R284). -/
structure JKey where
  idx : Nat := 0
  key : Option Nat := none
  deriving DecidableEq, Repr

/-- Outcome of a key (R281, R285). -/
inductive JResult where
  | miss
  | hit (index prio payload : Nat)
  | count (n : Nat)
  deriving DecidableEq, Repr

/-- A search whose slot has been served and whose result is on the way (R295, R296, R301). -/
structure JFlight where
  /-- Number of the program. -/
  prog : Nat := 0
  idx : Nat := 0
  key : Nat := 0
  /-- The winner in an ADDRESS table: its entry number, and the entry as the search array held it in the slot. -/
  winner : Option (Nat × JEntry) := none
  /-- The winner's ECC copy as it stood in that slot (R294, R296). -/
  copy : JEntry := {}
  /-- Matches in a COUNT table. -/
  matches_ : Nat := 0
  /-- A disagreement has been repaired for this key already. -/
  again : Bool := false
  deriving DecidableEq, Repr

/-- A Junction program: a kernel program or a host command (R287, R289, R293). -/
structure JProg where
  /-- Number of the program, in the order of the program queue. -/
  num : Nat := 0
  src : JobSrc
  port : Nat := 0
  /-- Bits [9:0] of TABLE. -/
  table : Nat := 0
  upd : Bool := false
  noWagon : Bool := false
  count : Nat := 0
  srcHost : Bool := false
  src_ : Nat := 0
  outHost : Bool := false
  out : Nat := 0
  gmask : Nat := 0
  w : Wagon := {}
  /-- Descriptor as it stood when the program started: VALID, BASE, ENTRIES, GLOBAL, COUNT. -/
  valid : Bool := false
  base : Nat := 0
  entries : Nat := 0
  global : Bool := false
  counts : Bool := false
  /-- Next key or record to take from a line. -/
  next : Nat := 0
  /-- Keys of the loaded line that wait for a slot, in order. -/
  keys : List JKey := []
  /-- The record that waits for a slot: OP, entry number and its new fields. -/
  record : Option (Nat × Nat × JEntry) := none
  /-- Results of the loaded line by key number. -/
  results : List (Nat × JResult) := []
  /-- TALLY: keys that hit, or records applied. -/
  tally : Nat := 0
  /-- Keys searched, null keys included. -/
  done : Nat := 0
  /-- Stamp of the arrival of the loaded line of keys (R295). -/
  since : Nat := 0
  deriving DecidableEq, Repr

/-- The Junction outside its registers (R279 to R302). -/
structure JuncSt where
  /-- The search array by entry number. -/
  array : SMap JEntry := []
  /-- The ECC copies by entry number. -/
  copy : SMap JEntry := []
  /-- Entries whose ECC copy has an uncorrectable error. -/
  badCopy : List Nat := []
  /-- Entries whose ECC copy has one bit to correct. -/
  softCopy : List Nat := []
  arriving : List Ring := []
  /-- Captured rings that wait for the program queue. -/
  rings : List Ring := []
  /-- Checked commands that wait for the program queue, by fetch number, in check order. -/
  cmds : List Nat := []
  /-- The program queue, oldest first. -/
  queue : List JProg := []
  active : List JProg := []
  /-- Number of the next program. -/
  nextNum : Nat := 0
  /-- Searches on the way. -/
  flights : List JFlight := []
  /-- Repairs that wait for their bank's next slot: entry, and the key that is searched again after it. -/
  fixes : List (Nat × JFlight) := []
  /-- Keys that are searched again in the slot after their repair. -/
  retries : List JFlight := []
  /-- Slots passed. -/
  slotNo : Nat := 0
  /-- UPD_SHARE in force in the present window. -/
  share : Nat := 1
  /-- Stamp of the next line of keys to arrive. -/
  stamp : Nat := 0
  /-- Update slots of the present window, by bank. -/
  updates : List Nat := [0, 0, 0, 0]
  /-- SCRUB_POS. -/
  scrubPos : Nat := 0
  deriving DecidableEq, Repr

/-! ## Hump -/

/-- A run of a group as one merge tree takes it (R308, R309). -/
structure HRun where
  /-- Its first line. -/
  at_ : Nat := 0
  /-- Its pairs. -/
  size : Nat := 0
  /-- Number of its first pair within the group. -/
  first : Nat := 0
  /-- Lines of it that have arrived at the tree. -/
  lines : Nat := 0
  /-- Pairs of it that the tree has taken. -/
  taken : Nat := 0
  /-- Elements that have arrived and that the tree has not taken, with their NULL bits. -/
  buf : List (Nat × Bool) := []
  deriving DecidableEq, Repr

/-- A merge tree at its group (R309, R310). -/
structure HTree where
  /-- Number of its group, or of the next one past the last. -/
  group : Nat := 0
  /-- It takes pairs from the backs of the runs, and fills the group from its end. -/
  back : Bool := false
  runs : List HRun := []
  /-- Pairs of the group. -/
  pairs : Nat := 0
  /-- Pairs that it still has to output. -/
  left : Nat := 0
  /-- Elements that it has output and not written. -/
  out : List (Nat × Bool) := []
  /-- Lines of the group that it has written. -/
  lines : Nat := 0
  /-- Pairs that it has output in this pass. -/
  did : Nat := 0
  /-- First of the free values that order equal keys of the group in FAST. -/
  tie : Nat := 0
  deriving DecidableEq, Repr

/-- A Hump job (R303 to R317). -/
structure HJob where
  src : JobSrc
  port : Nat := 0
  /-- KEY_WORDS as it behaves, 1 to 4. -/
  words : Nat := 1
  fast : Bool := false
  desc : Bool := false
  noWagon : Bool := false
  pairs : Nat := 0
  inAt : Nat := 0
  outAt : Nat := 0
  scratch : Nat := 0
  /-- TOP_N. -/
  top : Nat := 0
  w : Wagon := {}
  pass : Nat := 0
  /-- Runs that pass 0 has written. -/
  part : Nat := 0
  /-- Lines of IN that have arrived. -/
  lines : Nat := 0
  /-- Elements of the run that is being filled (R307). -/
  buf : List (Nat × Bool) := []
  /-- The two merge trees of a merge pass. -/
  trees : List HTree := []
  /-- The pass has written its last line. -/
  passDone : Bool := false
  deriving DecidableEq, Repr

/-- The Hump outside its registers (R303 to R318). -/
structure HumpSt where
  arriving : List Ring := []
  /-- Captured rings that wait for the job queue. -/
  rings : List Ring := []
  /-- Checked commands that wait for the job queue, by fetch number, in check order. -/
  cmds : List Nat := []
  /-- The job queue, oldest first: kernel programs hold their header unread until the job starts. -/
  queue : List JobSrc := []
  cur : Option HJob := none
  /-- Output lines of the job that its slices have not accepted yet, in order: address and bytes (R328). -/
  pend : List (Nat × List Byte) := []
  deriving DecidableEq, Repr

/-! ## Shunting Engine -/

/-- Source of a channel program (R340). -/
inductive ShSrc where
  | dma (id : Nat)
  | move (id : Nat)
  | kernel (r : Ring) (noWagon : Bool) (w : Wagon)
  deriving DecidableEq, Repr

/-- A captured ring of the Shunting bell with what slot 0 of its header gave (R342). -/
structure ShRing where
  ring : Ring := {}
  channel : Nat := 0
  noWagon : Bool := false
  deriving DecidableEq, Repr

/-- One execution of a MOVE (R345, R346). -/
structure ShMove where
  /-- Number of the execution, in the order of the channel. -/
  num : Nat := 0
  xform : Nat := 0
  srcHost : Bool := false
  dstHost : Bool := false
  signed : Bool := false
  nulls : Bool := false
  irq : Bool := false
  width : Nat := 0
  esize : Nat := 0
  k : Nat := 1
  swap : Nat := 0
  src : Nat := 0
  dst : Nat := 0
  count : Nat := 0
  bstride : Nat := 0
  cstride : Nat := 0
  /-- Next piece to read. -/
  next : Nat := 0
  /-- Pieces written. -/
  written : Nat := 0
  /-- COPY with a swap: bytes of a unit whose rest is in the next piece. -/
  tail : List Byte := []
  /-- Native output: elements of a line whose rest is in the next piece, with their NULL bits. -/
  elems : List (Nat × Bool) := []
  deriving DecidableEq, Repr

/-- A piece in staging (R360). -/
structure ShPiece where
  ch : Nat := 0
  /-- Execution of the MOVE, and number of the piece. -/
  mv : Nat := 0
  idx : Nat := 0
  /-- Source bytes, the ranges of the piece one after another. -/
  size : Nat := 0
  /-- Yard buffers that hold them, in order. -/
  bufs : List Nat := []
  /-- Once its writes have begun: those that their targets have not accepted yet, in order (R328, R366). -/
  out : Option (List (Nat × List Byte)) := none
  deriving DecidableEq, Repr

/-- Where a channel stands (R343, R348 to R350, R364). -/
inductive ShPh where
  | idle
  /-- Waits for its turn in SERIAL mode. -/
  | turn
  /-- Executes instructions. -/
  | run
  /-- A MOVE has pieces to read. -/
  | move
  /-- In WAIT: 1 earlier writes, 2 gate, 3 delay until a cc. -/
  | wait (step due : Nat)
  /-- At a SIGNAL: false earlier writes are awaited, true its Wagon has been offered. -/
  | signal (offered : Bool)
  /-- The program has ended; its completion waits for its writes. -/
  | ended
  /-- The completion Wagon has been offered and not accepted. -/
  | wagon
  deriving DecidableEq, Repr

/-- A channel of the Shunting Engine. -/
structure ShChan where
  ph : ShPh := .idle
  src : ShSrc := .dma 0
  port : Nat := 0
  /-- The Consist that the program runs for, which SIGNAL uses. -/
  consist : Option Nat := none
  /-- Program address; none for a COPY command move. -/
  prog : Option Nat := none
  sbaseHost : Bool := false
  sbase : Nat := 0
  dbaseHost : Bool := false
  dbase : Nat := 0
  pc : Nat := 0
  /-- Program lines read, as I0 to I7, by line. -/
  kept : SMap (List Nat) := []
  /-- A LOOP of count 0 skips: LOOPs open on the way. -/
  skip : Option Nat := none
  /-- Loop stack, top first: passes left and the line after the LOOP. -/
  loops : List (Nat × Nat) := []
  /-- Executions by line. -/
  execs : SMap Nat := []
  /-- Executions of MOVEs whose counts have not ended, oldest first. -/
  moves : List ShMove := []
  /-- Number of the next execution of a MOVE. -/
  nextMove : Nat := 0
  /-- Bytes written. -/
  bytes : Nat := 0
  /-- End of the highest byte written at or above the destination base (R138). -/
  high : Nat := 0
  /-- Failure of R366: status and RESULT. -/
  failed : Option (Nat × Nat) := none
  deriving DecidableEq, Repr

/-- The Shunting Engine outside its registers (R340 to R369). -/
structure ShuntSt where
  arriving : List Ring := []
  /-- Captured rings, in capture order. -/
  rings : List ShRing := []
  /-- Command moves that wait for a channel, in check order. -/
  cmds : List Nat := []
  chans : SMap ShChan := []
  /-- SERIAL: channels in the order in which their programs started. -/
  turns : List Nat := []
  /-- Pieces whose reads are on the way. -/
  reading : List ShPiece := []
  /-- Pieces in staging, in the order in which they finished staging. -/
  staged : List ShPiece := []
  /-- SHUNT_STAGE as it is in force: first buffer and count (R369). -/
  stage : Nat × Nat := (0xFC0, 64)
  /-- Channel that the read engine served last. -/
  last : Nat := 15
  /-- Number that the next INGEST takes when it has moved its data (R492). -/
  moved : Nat := 0
  deriving DecidableEq, Repr

/-! ## Signal Box -/

/-- What MRAM keeps of a Journal block slot (R396, R405 to R409). -/
structure JBlock where
  /-- ANCHOR of the block in the slot. -/
  anchor : List Byte := []
  sealed : Bool := false
  exported : Bool := false
  acked : Bool := false
  deriving DecidableEq, Repr

/-- MRAM's training and configuration region and wrapped keys, whose layout the spec does not give (R396, R399, R414). -/
structure NvSt where
  /-- Boot selection record: SELECTED (0 slot A, 1 slot B), TRIAL, TRIES. -/
  selected : Nat := 0
  trial : Bool := false
  tries : Nat := 0
  /-- A wrapped signing key is held. -/
  wrapped : Bool := false
  /-- The link presets that firmware saved after a cold training: SAVED_TX and SAVED_RX (R35). -/
  presets : Option (Nat × Nat) := none
  /-- MC_LANE values that firmware saved after training, by data rate and then by the register's index (R387, R388). -/
  lanes : SMap (SMap (Option Word)) := []
  /-- Journal block states and anchor table by block slot. -/
  blocks : SMap JBlock := []
  /-- The MRAM line whose write is under way, with what it held before (R397). -/
  writing : Option (Nat × List Byte) := none
  deriving DecidableEq, Repr

/-- A request to the signing engine (R395, R491). -/
inductive SignReq where
  /-- The attestation of a Consist (R172). -/
  | attest (c : Nat)
  /-- The seal of a Journal block (R405). -/
  | seal_ (b : Nat)
  /-- The token of a TIME_SET (R413). -/
  | timeSet (id : Nat)
  /-- A debug token (R416). -/
  | debug
  /-- The check of a firmware image after the last chunk of an FW_UPDATE_CHUNK (R411, R412). -/
  | image (id : Nat)
  /-- A write to CIPHER_SIGN: OP and ARG (R421). -/
  | direct (op arg : Nat)
  deriving DecidableEq, Repr

/-- The operation that the signing engine runs, with the bytes that firmware has fixed for it (R410, R491). -/
structure SignRun where
  req : SignReq := .debug
  bytes : List Byte := []
  deriving DecidableEq, Repr

/-- An ended operation whose result firmware has not taken: whether it succeeded, and the fixed bytes with the signature. -/
structure SignOut where
  req : SignReq := .debug
  ok : Bool := false
  bytes : List Byte := []
  deriving DecidableEq, Repr

/-- The Signal Box outside its core and registers (R394 to R421). -/
structure SboxSt where
  /-- Firmware writes the Log Book: the lifecycle is past BLANK (R402). -/
  logOn : Bool := false
  /-- NUMBER of the next Log Book entry (R402). -/
  logNext : Nat := 0
  /-- Commands of R395 after their check, in check order: the first is being executed. -/
  cmds : List Nat := []
  /-- Requests that wait for the signing engine, in order. -/
  signQ : List SignReq := []
  run : Option SignRun := none
  outs : List SignOut := []
  /-- Bodies of the Signal Box's own Journal records that wait for a seal or for room (R406). -/
  events : List (List Byte) := []
  /-- H of R405. -/
  chain : List Byte := List.replicate 48 0
  /-- A Journal full refusal has been logged since the last acknowledgement (R403). -/
  fullLogged : Bool := false
  deriving DecidableEq, Repr

/-! ## Test access port -/

/-- Instructions of the TAP (R460), which Syntax.lean's TapScan names by its code. -/
inductive TapIr where
  | extest | samplePreload | idcode | clamp | highz | dbgNonce | dbgToken | dbgStatus | dbgAccess | bypass
  deriving DecidableEq, Repr

/-- The TAP and its debug data registers (R460, R461). -/
structure TapSt where
  /-- The instruction in force; after a TAP reset IDCODE. -/
  ir : TapIr := .idcode
  /-- A debug token check is running: the token. -/
  token : Option (List Byte) := none
  /-- Outcome of the last token: 1 valid. -/
  valid : Bool := false
  /-- DBG_NONCE. -/
  nonce : BitVec 64 := 0
  /-- Data of the last read of DBG_ACCESS, and whether that access has completed. -/
  data : Word := 0
  done : Bool := false
  /-- The data register that IDCODE captured last (R460). -/
  idcode : BitVec 32 := 0
  /-- What a scan of the instruction register shifts out: the value that it captures (R460). -/
  irOut : BitVec 5 := 0b00001
  /-- The data register that DBG_NONCE or DBG_STATUS captured last (R461). -/
  shown : BitVec 64 := 0
  /-- The boundary-scan register's values for the pins. The spec gives neither its length nor its order: here bits [7:0] stand for GPIO[7:0] and bit 8
  for THERM_ALERT_N. -/
  bound : BitVec 64 := 0
  deriving DecidableEq, Repr

/-! ## The device -/

/-- Everything of the device outside the fuses and the command queue. -/
structure Dev where
  /-- Core cycles passed: the clock that the Dispatcher's holds and the tick count in. -/
  cc : Nat := 0
  /-- The model's own counter of free values taken: not a part of the device. -/
  fresh : Nat := 0
  /-- The register file, by Reg.key; registers at their reset value are not listed (R469). -/
  regs : SMap Word := []
  /-- Memory over the whole device address space of R16, as plaintext bytes; unlisted bytes read 0. -/
  mem : List Host.Cell := []
  /-- 16-byte units whose ECC cannot correct them, by address / 16 (R325, R386). -/
  badUnits : List Nat := []
  /-- 16-byte units with a correctable error, by address / 16 (R325). -/
  softUnits : List Nat := []
  pwr : PwrSt := {}
  /-- The memory keys in CIPHER, which CIPHER_STATUS.MEM_KEYS says are present (R377, R421). -/
  keys : MemKeys := {}
  link : LinkSt := {}
  /-- Ports by number. -/
  ports : SMap Port := []
  ring : RingSt := {}
  /-- Timetable handles by number. -/
  handles : SMap Handle := []
  /-- Consists by id. -/
  consists : SMap Consist := []
  disp : DispSt := {}
  cache : CacheSt := {}
  /-- Cores by number, 32 the Signal Box core. -/
  cores : SMap Core := []
  /-- GDDR6 channels by number. -/
  mc : SMap McChan := []
  /-- Plane Scanners by number. -/
  planes : SMap PlaneSt := []
  junc : JuncSt := {}
  hump : HumpSt := {}
  shunt : ShuntSt := {}
  sbox : SboxSt := {}
  nv : NvSt := {}
  tap : TapSt := {}
  deriving DecidableEq, Repr

/-- The state of the block: the commands that wait, the fuses and MRAM-independent history, and the device. -/
structure State where
  /-- Commands that wait, first in, first out. -/
  pending : List Instr := []
  /-- The fuses. -/
  otp : Otp := {}
  /-- The device. -/
  dev : Dev := {}
  deriving DecidableEq, Repr

/-- Why the machine stops with a fault. No meaning of this model stops so: the spec gives every command an effect, an
exception or no effect at all. The type is here because the interface asks for one. -/
inductive Fault where
  /-- Raised by no meaning: kept for an access the spec says cannot exist. Safe: the machine would stop. -/
  | impossible
  deriving DecidableEq, Repr

/-- Why a command has no meaning. -/
inductive Refusal where
  /-- Raised by an arm of exec whose command has no meaning yet. Safe: the machine stops. -/
  | notModelled (mnemonic : String)
  deriving DecidableEq, Repr

/-- The state after a reset of power-on kind with the rails up: every register at its reset value, every queue
empty, memory unlisted, no command waiting (R11, R445). -/
def State.reset : State := {}

end Sys2Proof.Machine
end

