-- ==== Sys2Proof/Machine/Coding.lean ====
section
/-!
DEFINITION. The coding of the lanes (R29, R30): 66-bit blocks, the self-synchronising scrambler, alignment markers and clock compensation, and
the striping of a flit across the lanes in use.
-/

namespace Sys2Proof.Machine

/-- Sync header of a data block and of a control block (R30). -/
def syncData : BitVec 2 := 0b01
/-- Sync header of a control block. -/
def syncCtl : BitVec 2 := 0b10

/-- The bit that x^58 + x^39 + 1 combines with the next one: of the last 58 scrambled bits, the newest of which is bit 0, the 39th and the
58th (R30). -/
def scramTap (s : BitVec 58) : Bool := s.getLsbD 38 ^^ s.getLsbD 57

/-- The last 58 scrambled bits after one more. -/
def scramPush (s : BitVec 58) (b : Bool) : BitVec 58 := (s <<< 1) ||| (if b then 1 else 0)

/-- Scrambles bits in the order in which the lane sends them. -/
def scramble : BitVec 58 → List Bool → BitVec 58 × List Bool
  | s, [] => (s, [])
  | s, b :: bs =>
    let x := b ^^ scramTap s
    let r := scramble (scramPush s x) bs
    (r.1, x :: r.2)

/-- The inverse: the state is made of the bits received, so it is right after 58 of them whatever it was (R30). -/
def descramble : BitVec 58 → List Bool → BitVec 58 × List Bool
  | s, [] => (s, [])
  | s, x :: xs =>
    let r := descramble (scramPush s x) xs
    (r.1, (x ^^ scramTap s) :: r.2)

/-- The 64 bits of a block's content, bit 0 of its first byte first. -/
def contentBits (c : BitVec 64) : List Bool := (List.range 64).map c.getLsbD

/-- The content that 64 bits make. -/
def bitsContent (bs : List Bool) : BitVec 64 := BitVec.ofNat 64 (bs.foldr (fun b n => b2n b + 2 * n) 0)

/-- A block as the lane sends it: the sync header is not scrambled (R30). -/
def sendBlock (s : BitVec 58) (sync : BitVec 2) (content : BitVec 64) : BitVec 58 × Block :=
  let r := scramble s (contentBits content)
  (r.1, { sync := sync, content := bitsContent r.2 })

/-- The blocks that a lane sends for one block of data: first, where its count has come to them, the clock-compensation block of each 1,024 blocks and the
alignment marker of each 16,384 with its logical lane number, whose other content is free (R29, R30). The spec does not say where in its 1,024 blocks the
compensation block stands: here it is the last but one, so that the marker never takes its place (DESIGN CHOICE,
log entry 104). -/
def laneSend (lane : Nat) (t : LaneTx) (word : BitVec 64) : LaneTx :=
  let put (t : LaneTx) (sync : BitVec 2) (w : BitVec 64) : LaneTx :=
    let r := sendBlock t.scram sync w
    { scram := r.1, count := t.count + 1, out := t.out ++ [r.2] }
  let t1 := if t.count % 1024 = 1022 then put t syncCtl Config.compensation else t
  let t2 := if t1.count % 16384 = 16383 then put t1 syncCtl (Config.alignMarker lane) else t1
  put t2 syncData word

/-- Lane n of the transmitter. -/
def laneTx (ts : List LaneTx) (n : Nat) : LaneTx := ts.getD n {}

/-- A flit's bytes go out 8 to a block, consecutive blocks to the logical lanes in use in ascending order (R30). -/
def stripeOut (lanes : List Nat) : Nat → List Byte → List LaneTx → List LaneTx
  | _, [], ts => ts
  | i, b :: bs, ts =>
    if i % 8 = 0 then
      let n := lanes.getD (i / 8 % lanes.length) 0
      stripeOut lanes (i + 1) bs (ts.set n (laneSend n (laneTx ts n) (BitVec.ofNat 64 (leAt (b :: bs) 0 8))))
    else stripeOut lanes (i + 1) bs ts

/-- The transmitter's lanes after a flit; `out` holds that flit's blocks. -/
def sendOnLanes (lanes : List Nat) (f : List Byte) (ts : List LaneTx) : List LaneTx :=
  stripeOut lanes 0 f (ts.map (fun t => { t with out := [] }))

/-- The words that a lane has received: what its data blocks hold once descrambled; control blocks hold no flit bytes (R30). -/
def laneWords : BitVec 58 → List Block → List (BitVec 64)
  | _, [] => []
  | s, b :: bs =>
    let r := descramble s (contentBits b.content)
    if b.sync = syncData then bitsContent r.2 :: laneWords r.1 bs else laneWords r.1 bs

/-- The bytes of the lanes' words taken in turn, lowest logical lane first (R30). -/
def destripe : Nat → List (List (BitVec 64)) → List Byte
  | 0, _ => []
  | k + 1, ls => (ls.filterMap List.head?).flatMap (fun w => toLE 8 w.toNat) ++ destripe k (ls.map (List.drop 1))

/-- The flit that the lanes in use bring. -/
def flitOf (line : List LaneRx) : List Byte := (destripe 32 (line.map (fun l => laneWords l.before l.blocks))).take 256

end Sys2Proof.Machine
end

