-- ==== Sys2Proof/Machine/Crypto.lean ====
section
/-!
DEFINITION. SHA-384 (FIPS 180) and ECDSA over P-384 (FIPS 186), the published standards that the spec names for digests,
seals, attestation and tokens, and AES-256 in XTS mode (FIPS 197, IEEE 1619), the inline cipher of R377. The signing key and the
per-signature number are free (Config).
-/

namespace Sys2Proof.Machine

/-! ## SHA-384 -/

/-- Round constants 0 to 7 of SHA-384. -/
def shaK0 : List (BitVec 64) :=
  [0x428A2F98D728AE22#64, 0x7137449123EF65CD#64, 0xB5C0FBCFEC4D3B2F#64, 0xE9B5DBA58189DBBC#64,
   0x3956C25BF348B538#64, 0x59F111F1B605D019#64, 0x923F82A4AF194F9B#64, 0xAB1C5ED5DA6D8118#64]

/-- Round constants 8 to 15 of SHA-384. -/
def shaK1 : List (BitVec 64) :=
  [0xD807AA98A3030242#64, 0x12835B0145706FBE#64, 0x243185BE4EE4B28C#64, 0x550C7DC3D5FFB4E2#64,
   0x72BE5D74F27B896F#64, 0x80DEB1FE3B1696B1#64, 0x9BDC06A725C71235#64, 0xC19BF174CF692694#64]

/-- Round constants 16 to 23 of SHA-384. -/
def shaK2 : List (BitVec 64) :=
  [0xE49B69C19EF14AD2#64, 0xEFBE4786384F25E3#64, 0x0FC19DC68B8CD5B5#64, 0x240CA1CC77AC9C65#64,
   0x2DE92C6F592B0275#64, 0x4A7484AA6EA6E483#64, 0x5CB0A9DCBD41FBD4#64, 0x76F988DA831153B5#64]

/-- Round constants 24 to 31 of SHA-384. -/
def shaK3 : List (BitVec 64) :=
  [0x983E5152EE66DFAB#64, 0xA831C66D2DB43210#64, 0xB00327C898FB213F#64, 0xBF597FC7BEEF0EE4#64,
   0xC6E00BF33DA88FC2#64, 0xD5A79147930AA725#64, 0x06CA6351E003826F#64, 0x142929670A0E6E70#64]

/-- Round constants 32 to 39 of SHA-384. -/
def shaK4 : List (BitVec 64) :=
  [0x27B70A8546D22FFC#64, 0x2E1B21385C26C926#64, 0x4D2C6DFC5AC42AED#64, 0x53380D139D95B3DF#64,
   0x650A73548BAF63DE#64, 0x766A0ABB3C77B2A8#64, 0x81C2C92E47EDAEE6#64, 0x92722C851482353B#64]

/-- Round constants 40 to 47 of SHA-384. -/
def shaK5 : List (BitVec 64) :=
  [0xA2BFE8A14CF10364#64, 0xA81A664BBC423001#64, 0xC24B8B70D0F89791#64, 0xC76C51A30654BE30#64,
   0xD192E819D6EF5218#64, 0xD69906245565A910#64, 0xF40E35855771202A#64, 0x106AA07032BBD1B8#64]

/-- Round constants 48 to 55 of SHA-384. -/
def shaK6 : List (BitVec 64) :=
  [0x19A4C116B8D2D0C8#64, 0x1E376C085141AB53#64, 0x2748774CDF8EEB99#64, 0x34B0BCB5E19B48A8#64,
   0x391C0CB3C5C95A63#64, 0x4ED8AA4AE3418ACB#64, 0x5B9CCA4F7763E373#64, 0x682E6FF3D6B2B8A3#64]

/-- Round constants 56 to 63 of SHA-384. -/
def shaK7 : List (BitVec 64) :=
  [0x748F82EE5DEFB2FC#64, 0x78A5636F43172F60#64, 0x84C87814A1F0AB72#64, 0x8CC702081A6439EC#64,
   0x90BEFFFA23631E28#64, 0xA4506CEBDE82BDE9#64, 0xBEF9A3F7B2C67915#64, 0xC67178F2E372532B#64]

/-- Round constants 64 to 71 of SHA-384. -/
def shaK8 : List (BitVec 64) :=
  [0xCA273ECEEA26619C#64, 0xD186B8C721C0C207#64, 0xEADA7DD6CDE0EB1E#64, 0xF57D4F7FEE6ED178#64,
   0x06F067AA72176FBA#64, 0x0A637DC5A2C898A6#64, 0x113F9804BEF90DAE#64, 0x1B710B35131C471B#64]

/-- Round constants 72 to 79 of SHA-384. -/
def shaK9 : List (BitVec 64) :=
  [0x28DB77F523047D84#64, 0x32CAAB7B40C72493#64, 0x3C9EBE0A15C9BEBC#64, 0x431D67C49C100D4C#64,
   0x4CC5D4BECB3E42B6#64, 0x597F299CFC657E2A#64, 0x5FCB6FAB3AD6FAEC#64, 0x6C44198C4A475817#64]

/-- The 80 round constants of SHA-384. -/
def shaK : List (BitVec 64) :=
  List.flatten [shaK0, shaK1, shaK2, shaK3, shaK4, shaK5, shaK6, shaK7, shaK8, shaK9]

/-- Initial hash value of SHA-384. -/
def shaIV : List (BitVec 64) :=
  [0xCBBB9D5DC1059ED8#64, 0x629A292A367CD507#64, 0x9159015A3070DD17#64, 0x152FECD8F70E5939#64,
   0x67332667FFC00B31#64, 0x8EB44A8768581511#64, 0xDB0C2E0D64F98FA7#64, 0x47B5481DBEFA4FA4#64]

/-- Word i of a list of words. -/
def wordAt (ws : List (BitVec 64)) (i : Nat) : BitVec 64 := (ws[i]?).getD 0

/-- Extends a message schedule by k words; the words stand last first. -/
def shaExtend : Nat → List (BitVec 64) → List (BitVec 64)
  | 0, ws => ws
  | k + 1, ws =>
    let a := wordAt ws 1
    let b := wordAt ws 14
    let s1 := a.rotateRight 19 ^^^ a.rotateRight 61 ^^^ (a >>> 6)
    let s0 := b.rotateRight 1 ^^^ b.rotateRight 8 ^^^ (b >>> 7)
    shaExtend k ((s1 + wordAt ws 6 + s0 + wordAt ws 15) :: ws)

/-- Working variables of a round. -/
structure ShaVars where
  a : BitVec 64
  b : BitVec 64
  c : BitVec 64
  d : BitVec 64
  e : BitVec 64
  f : BitVec 64
  g : BitVec 64
  h : BitVec 64
  deriving DecidableEq, Repr

/-- One round of SHA-384. -/
def shaRound (v : ShaVars) (kw : BitVec 64 × BitVec 64) : ShaVars :=
  let t1 := v.h + (v.e.rotateRight 14 ^^^ v.e.rotateRight 18 ^^^ v.e.rotateRight 41) +
    ((v.e &&& v.f) ^^^ (~~~ v.e &&& v.g)) + kw.1 + kw.2
  let t2 := (v.a.rotateRight 28 ^^^ v.a.rotateRight 34 ^^^ v.a.rotateRight 39) +
    ((v.a &&& v.b) ^^^ (v.a &&& v.c) ^^^ (v.b &&& v.c))
  ⟨t1 + t2, v.a, v.b, v.c, v.d + t1, v.e, v.f, v.g⟩

/-- The hash value after one 128-byte block. -/
def shaBlock (h : List (BitVec 64)) (blk : List Byte) : List (BitVec 64) :=
  let ws := (List.range 16).map (fun i => BitVec.ofNat 64 (ofBE (sliceB blk (8 * i) 8)))
  let sched := (shaExtend 64 ws.reverse).reverse
  let v := (shaK.zip sched).foldl shaRound
    ⟨wordAt h 0, wordAt h 1, wordAt h 2, wordAt h 3, wordAt h 4, wordAt h 5, wordAt h 6, wordAt h 7⟩
  [wordAt h 0 + v.a, wordAt h 1 + v.b, wordAt h 2 + v.c, wordAt h 3 + v.d, wordAt h 4 + v.e, wordAt h 5 + v.f,
   wordAt h 6 + v.g, wordAt h 7 + v.h]

/-- Hash value over k blocks of a padded message. -/
def shaBlocks : Nat → List (BitVec 64) → List Byte → List (BitVec 64)
  | 0, h, _ => h
  | k + 1, h, bs => shaBlocks k (shaBlock h (bs.take 128)) (bs.drop 128)

/-- SHA-384 of a byte string, in the byte order in which SHA-384 produces it. -/
def sha384 (m : List Byte) : List Byte :=
  let n := m.length
  let padded := roundUp (n + 17) 128
  let msg := m ++ ([0x80#8] ++ (zeros (padded - n - 17) ++ toBE 16 (8 * n)))
  (((shaBlocks (padded / 128) shaIV msg).take 6).map (fun w => toBE 8 w.toNat)).flatten

/-! ## P-384 -/

/-- Field prime of P-384. -/
def p384p : Nat := 2 ^ 384 - 2 ^ 128 - 2 ^ 96 + 2 ^ 32 - 1
/-- Order of the base point of P-384. -/
def p384n : Nat := 0xFFFFFFFFFFFFFFFFFFFFFFFFFFFFFFFFFFFFFFFFFFFFFFFFC7634D81F4372DDF581A0DB248B0A77AECEC196ACCC52973
/-- Coefficient b of P-384; a is −3. -/
def p384b : Nat := 0xB3312FA7E23EE7E4988E056BE3F82D19181D9C6EFE8141120314088F5013875AC656398D8A2ED19D2A85C8EDD3EC2AEF
/-- Base point of P-384. -/
def p384g : Nat × Nat :=
  (0xAA87CA22BE8B05378EB1C71EF320AD746E1D3B628BA79B9859F741E082542A385502F25DBF55296C3A545E3872760AB7,
   0x3617DE4A96262C6F5D9E98BF9292DC29F8F41DBD289A147CE9DA3113B5F0B8C00A60B1CE1D7E819D7A431D7C90EA0E5F)

/-- b to the power e modulo m, by the k low bits of e, most significant first. -/
def powMod (b m : Nat) : Nat → Nat → Nat
  | 0, _ => 1 % m
  | k + 1, e =>
    let r := powMod b m k (e / 2)
    let s := r * r % m
    if e % 2 = 1 then s * b % m else s

/-- Inverse modulo a prime of at most 384 bits. -/
def invMod (a m : Nat) : Nat := powMod (a % m) m 384 (m - 2)

/-- A point of P-384, or none at infinity. -/
abbrev EcPoint := Option (Nat × Nat)

/-- Sum of two points of P-384. -/
def ecAdd (x y : EcPoint) : EcPoint :=
  match x, y with
  | none, q => q
  | q, none => q
  | some (x1, y1), some (x2, y2) =>
    if x1 = x2 ∧ (y1 + y2) % p384p = 0 then none
    else
      let l :=
        if x1 = x2 ∧ y1 = y2 then (3 * x1 * x1 + p384p - 3) * invMod (2 * y1) p384p % p384p
        else (y2 + p384p - y1) * invMod (x2 + p384p - x1) p384p % p384p
      let x3 := (l * l + 2 * p384p - x1 - x2) % p384p
      some (x3, (l * (x1 + p384p - x3) + p384p - y1) % p384p)

/-- A multiple of a point, by the k low bits of the factor. -/
def ecMul (q : EcPoint) : Nat → Nat → EcPoint
  | 0, _ => none
  | k + 1, e =>
    let r := ecMul q k (e / 2)
    let s := ecAdd r r
    if e % 2 = 1 then ecAdd s q else s

/-- A point lies on P-384. -/
def onCurve (q : Nat × Nat) : Bool :=
  decide (q.1 < p384p ∧ q.2 < p384p) &&
    decide ((q.2 * q.2) % p384p = (q.1 * q.1 * q.1 + (p384p - 3) * q.1 + p384b) % p384p)

/-- ECDSA verification over P-384 of a digest against r, s and a public key (FIPS 186). -/
def ecdsaVerify (key : Nat × Nat) (digest r s : Nat) : Bool :=
  if 0 < r ∧ r < p384n ∧ 0 < s ∧ s < p384n ∧ onCurve key then
    let w := invMod s p384n
    match ecAdd (ecMul (some p384g) 384 (digest * w % p384n)) (ecMul (some key) 384 (r * w % p384n)) with
    | some (x, _) => decide (x % p384n = r)
    | none => false
  else false

/-- ECDSA signature over P-384 of a digest with the part's signing key and the i-th per-signature number (FIPS 186): r
and s, 48 bytes each, most significant byte first. -/
def ecdsaSign (digest i : Nat) : List Byte :=
  let k := (Config.signNonce i).toNat % p384n
  let r := match ecMul (some p384g) 384 k with | some (x, _) => x % p384n | none => 0
  let s := invMod k p384n * (digest + r * (Config.signKey.toNat % p384n)) % p384n
  toBE 48 r ++ toBE 48 s

/-- The public key of the part's signing key (FIPS 186). -/
def devicePub : Nat × Nat := (ecMul (some p384g) 384 (Config.signKey.toNat % p384n)).getD (0, 0)

/-! ## AES-256 -/

/-- Twice an element of the field of AES. -/
def gfTwice (a : Nat) : Nat := if a < 128 then 2 * a else (2 * a - 256) ^^^ 0x1B

/-- Product of two elements, by the k low bits of the second. -/
def gfMul : Nat → Nat → Nat → Nat
  | 0, _, _ => 0
  | k + 1, a, b => (if b % 2 = 1 then a else 0) ^^^ gfMul k (gfTwice a) (b / 2)

/-- Inverse of an element, zero for zero: its 254th power. -/
def gfInv (a : Nat) : Nat :=
  ((List.range 7).foldl (fun (x : Nat × Nat) _ => let s := gfMul 8 x.1 x.1; (s, gfMul 8 x.2 s)) (a, 1)).2

/-- A byte rotated left by k. -/
def rotByte (a k : Nat) : Nat := (a * 2 ^ k + a / 2 ^ (8 - k)) % 256

/-- The substitution of AES. -/
def aesSub (a : Nat) : Nat :=
  let b := gfInv a
  b ^^^ rotByte b 1 ^^^ rotByte b 2 ^^^ rotByte b 3 ^^^ rotByte b 4 ^^^ 0x63

/-- Its inverse. -/
def aesUnsub (a : Nat) : Nat := gfInv (rotByte a 1 ^^^ rotByte a 3 ^^^ rotByte a 6 ^^^ 0x05)

/-- Byte i of a block. -/
def natAt (bs : List Nat) (i : Nat) : Nat := (bs[i]?).getD 0

/-- Bytewise exclusive or. -/
def xorBytes (a b : List Nat) : List Nat := (a.zip b).map (fun e => e.1 ^^^ e.2)

/-- Extends a key schedule, held last word first, by k words of 4 bytes: word i of 60, the round constant doubling every 8 words. -/
def aesExpand : Nat → Nat → Nat → List (List Nat) → List (List Nat)
  | 0, _, _, ws => ws
  | k + 1, i, rc, ws =>
    let p := (ws[0]?).getD []
    let t :=
      if i % 8 = 0 then xorBytes ((p.drop 1 ++ p.take 1).map aesSub) [rc, 0, 0, 0]
      else if i % 8 = 4 then p.map aesSub else p
    aesExpand k (i + 1) (if i % 8 = 0 then gfTwice rc else rc) (xorBytes ((ws[7]?).getD []) t :: ws)

/-- The 15 round keys of a 256-bit key, 16 bytes each. -/
def aesKeys (key : List Nat) : List (List Nat) :=
  let ws := (aesExpand 52 8 1 (((List.range 8).map (fun i => (key.drop (4 * i)).take 4)).reverse)).reverse
  (List.range 15).map (fun r => ((ws.drop (4 * r)).take 4).flatten)

/-- The bytes of a block with row r rotated left by r places, or by 4 − r for the inverse. -/
def aesRows (inv : Bool) (bs : List Nat) : List Nat :=
  (List.range 16).map (fun i => natAt bs (i % 4 + 4 * ((i / 4 + (if inv then 4 - i % 4 else i % 4)) % 4)))

/-- Each column of a block multiplied by a circulant matrix with first row m. -/
def aesMix (m bs : List Nat) : List Nat :=
  (List.range 16).map (fun i =>
    (List.range 4).foldl (fun a k => a ^^^ gfMul 8 (natAt bs (4 * (i / 4) + k)) (natAt m ((k + 4 - i % 4) % 4))) 0)

/-- AES-256 of one block with its round keys (FIPS 197). -/
def aesEnc (ks : List (List Nat)) (blk : List Nat) : List Nat :=
  let b := (List.range' 1 13).foldl (fun b r => xorBytes (aesMix [2, 3, 1, 1] (aesRows false (b.map aesSub))) ((ks[r]?).getD []))
    (xorBytes blk ((ks[0]?).getD []))
  xorBytes (aesRows false (b.map aesSub)) ((ks[14]?).getD [])

/-- The inverse of aesEnc. -/
def aesDec (ks : List (List Nat)) (blk : List Nat) : List Nat :=
  let b := (List.range 13).foldl (fun b r =>
      aesMix [14, 11, 13, 9] (xorBytes ((aesRows true b).map aesUnsub) ((ks[13 - r]?).getD [])))
    (xorBytes blk ((ks[14]?).getD []))
  xorBytes ((aesRows true b).map aesUnsub) ((ks[0]?).getD [])

/-! ## XTS -/

/-- The k bytes of a number as numbers, least significant first. -/
def natBytes (k v : Nat) : List Nat := (List.range k).map (fun i => v / 256 ^ i % 256)

/-- The number of bytes that stand least significant first. -/
def bytesNat (bs : List Nat) : Nat := bs.foldr (fun b a => b + 256 * a) 0

/-- A tweak multiplied by α (IEEE 1619). -/
def xtsTwice (t : Nat) : Nat := if t < 2 ^ 127 then 2 * t else (2 * t - 2 ^ 128) ^^^ 0x87

/-- The blocks of a data unit, each masked with its tweak around f; the tweak of the first is t. -/
def xtsBlocks (f : List Nat → List Nat) : Nat → Nat → List Nat → List Nat
  | 0, _, _ => []
  | k + 1, t, bs => xorBytes (f (xorBytes (bs.take 16) (natBytes 16 t))) (natBytes 16 t) ++ xtsBlocks f k (xtsTwice t) (bs.drop 16)

/-- AES-256-XTS of one 64-byte line under a data key and a tweak key, with the line number as its tweak (R377): enciphered, or
deciphered. -/
def xtsLine (dec : Bool) (dataKey tweakKey : BitVec 256) (l : Nat) (bs : List Byte) : List Byte :=
  let ks := aesKeys (natBytes 32 dataKey.toNat)
  let t := bytesNat (aesEnc (aesKeys (natBytes 32 tweakKey.toNat)) (natBytes 16 l))
  (xtsBlocks (if dec then aesDec ks else aesEnc ks) 4 t (bs.map (fun b => b.toNat))).map (fun n => BitVec.ofNat 8 n)

end Sys2Proof.Machine
end

