-- ==== Sys2Proof/Machine/Ops.lean ====
section
/-!
DEFINITION. The named operations that every unit of the machine uses: registers and their fields, counters and error
records, device memory and its error marks, the windows of ports, power domains and their wake.
-/

namespace Sys2Proof.Machine

/-- A meaning that acts on the device alone. -/
def onDev (s : State) (f : Dev → Dev) : Host.Outcome State Fault Refusal := .next { s with dev := f s.dev }

/-! ## Registers -/

/-- The stored word of register r, instance i: its reset value until it is written (R11). -/
def rd (d : Dev) (r : Reg) (i : Nat) : Word := mget (r.resetVal i) d.regs (r.key i)

/-- The device with the stored word of a register replaced. -/
def wr (d : Dev) (r : Reg) (i : Nat) (v : Word) : Dev := { d with regs := mset (r.resetVal i) d.regs (r.key i) v }

/-- Field [hi:lo] of a register. -/
def fld (d : Dev) (r : Reg) (i hi lo : Nat) : Nat := bitsOf (rd d r i).toNat hi lo

/-- The device with field [hi:lo] of a register replaced. -/
def setFld (d : Dev) (r : Reg) (i hi lo v : Nat) : Dev := wr d r i (setBitsW (rd d r i) hi lo v)

/-- A 40-bit event counter counts n more events and saturates. -/
def bumpN (d : Dev) (r : Reg) (i n : Nat) : Dev := wr d r i (satAdd (rd d r i) n)

/-- A 40-bit event counter counts one event. -/
def bump (d : Dev) (r : Reg) (i : Nat) : Dev := bumpN d r i 1

/-- LINK_ERR_CNT counts one event and saturates at 0xFFFF_FFFF (R63). -/
def bumpLink (d : Dev) (i : Nat) : Dev :=
  if fld d .linkErrCnt i 31 0 = 0xFFFFFFFF then d else setFld d .linkErrCnt i 31 0 (fld d .linkErrCnt i 31 0 + 1)

/-- An error record with a VALID bit 39: the first error since the last clear is recorded, later ones are not. -/
def recordErr (d : Dev) (r : Reg) (i : Nat) (v : Nat) : Dev :=
  if fld d r i 39 39 = 1 then d else wr d r i (BitVec.ofNat 40 (2 ^ 39 + v % 2 ^ 39))

/-- An error record with its address register: the address is kept with the record it belongs to. -/
def recordErrAt (d : Dev) (r ra : Reg) (i : Nat) (v a : Nat) : Dev :=
  if fld d r i 39 39 = 1 then d else wr (recordErr d r i v) ra i (BitVec.ofNat 40 a)

/-- Sets a bit of SBOX_EVENT, which interrupts the Signal Box where SBOX_EVENT_EN enables it (R420). -/
def sboxEvent (d : Dev) (bit : Nat) : Dev := setFld d .sboxEvent 0 bit bit 1

/-- The value a write stores by the access codes of R12: RW fields take the written value, W1C and W1S bits clear and
set where the written bit is 1, and every other bit is kept. -/
def accessWrite (r : Reg) (old v : Word) : Word :=
  ((((old &&& ~~~ r.rwMask) ||| (v &&& r.rwMask)) &&& ~~~ (v &&& r.w1cMask)) ||| (v &&& r.w1sMask))

/-- The device after a write of v by the access codes of the register alone (R10, R12). -/
def regStore (d : Dev) (r : Reg) (i : Nat) (v : Word) : Dev := wr d r i (accessWrite r (rd d r i) v)

/-- The device after a read that clears RC fields to their reset value (R12, R13). -/
def regClear (d : Dev) (r : Reg) (i : Nat) : Dev := wr d r i (rd d r i &&& ~~~ r.rcMask)

/-- The RC field of a register takes back what a read that did not complete had cleared, beside what it has counted since (R13). -/
def regBack (d : Dev) (r : Reg) (i : Nat) (v : Word) : Dev :=
  let cur := rd d r i
  wr d r i ((cur &&& ~~~ r.rcMask) ||| BitVec.ofNat 40 (min r.rcMask.toNat ((cur &&& r.rcMask).toNat + (v &&& r.rcMask).toNat)))

/-- A number that the spec leaves open, fresh at each use. -/
def freeVal (d : Dev) : Nat := (Config.freeWord d.fresh).toNat

/-- The device after a fresh value has been taken. -/
def tookFree (d : Dev) : Dev := { d with fresh := d.fresh + 1 }

/-! ## Memory -/

/-- Set of a line in the Column Cache: 1,024 × slice + set (R327). -/
def cacheSetKey (a : Nat) : Nat :=
  1024 * (bitsOf a 8 6 ^^^ bitsOf a 17 15 ^^^ bitsOf a 26 24 ^^^ bitsOf a 35 33) + bitsOf a 18 9

/-- The Column Cache holds the line of an address. -/
def lineCached (d : Dev) (a : Nat) : Bool := (mget [] d.cache.sets (cacheSetKey a)).any (fun w => decide (w.line = a / 64 * 64))

/-- CACHE_CTRL.EN (R338). -/
def cacheEn (d : Dev) : Bool := decide (fld d .cacheCtrl 0 0 0 = 1)

/-- The byte that the stores and GDDR6 themselves hold at an address; an unlisted address reads 0. -/
def rawByte (d : Dev) (a : Nat) : Byte := mget 0 d.mem a

/-- The byte that an access through the memory paths reads: a cached line's own byte where it differs from GDDR6 and the cache is
enabled (R337), else the byte held. -/
def memByte (d : Dev) (a : Nat) : Byte :=
  if d.cache.stale.isEmpty then rawByte d a
  else if cacheEn d then (mget none d.cache.stale a).getD (rawByte d a) else rawByte d a

/-- The n bytes from address a of cells that all lie at or above it: bytes not listed read 0. -/
def readRun : Nat → Nat → List Host.Cell → List Byte
  | 0, _, _ => []
  | n + 1, a, [] => 0 :: readRun n (a + 1) []
  | n + 1, a, (k, v) :: m => if k = a then v :: readRun n (a + 1) m else 0 :: readRun n (a + 1) ((k, v) :: m)

/-- The n bytes that GDDR6 holds from an address: the reads of the bypassing class (R326). -/
def rawRead (d : Dev) (a n : Nat) : List Byte := readRun n a (d.mem.dropWhile (fun e => decide (e.1 < a)))

/-- The n bytes that are read from an address. -/
def memRead (d : Dev) (a n : Nat) : List Byte :=
  if d.cache.stale.isEmpty then rawRead d a n else (List.range n).map (fun k => memByte d (a + k))

/-- Memory with bytes written from an address: the cells below, the bytes that are not 0, the cells above. -/
def putBytes (m : List Host.Cell) (a : Nat) (bs : List Byte) : List Host.Cell :=
  m.takeWhile (fun e => decide (e.1 < a)) ++
    (((List.range' a bs.length).zip bs).filter (fun e => decide (e.2 ≠ 0)) ++ m.dropWhile (fun e => decide (e.1 < a + bs.length)))

/-- The canonical form of device memory: addresses strictly rising, no entry equal to what an unlisted address reads. -/
abbrev Memory.wf (m : List Host.Cell) : Bool := mwf (0 : Byte) m

/-- The error code at a unit covers its whole 64-byte line: in GDDR6 and MRAM (R386, R397); on chip it covers 16 bytes (R325). -/
def lineCoded (u : Nat) : Bool := decide (u < 0x100000000) || decide (0xC00000000 ≤ u ∧ u < 0xC00100000)

/-- 16-byte units whose code a write of [a, a+n) replaces whole. -/
def wholeUnits (a n : Nat) : List Nat :=
  ((List.range ((a + n) / 16 - ceilDiv a 16)).map (fun k => ceilDiv a 16 + k)).filter (fun u =>
    !lineCoded u || decide (a ≤ u / 4 * 64 ∧ u / 4 * 64 + 64 ≤ a + n))

/-- What becomes of the bytes that cached lines hold otherwise than GDDR6 when [a, a+n) is written: with EN 1 the line is updated too; with
EN 0 it keeps its byte (R328, R337). -/
def staleAfter (d : Dev) (a n : Nat) : SMap (Option Byte) :=
  if d.cache.sets.isEmpty && d.cache.stale.isEmpty then []
  else
    (List.range n).foldl (fun m k =>
      if cacheEn d then mset none m (a + k) none
      else if lineCached d (a + k) && (mget none m (a + k)).isNone then mset none m (a + k) (some (rawByte d (a + k)))
      else m) d.cache.stale

/-- The MRAM line that a write of [a, a+n) changes last, with what it held before: a power loss may still catch it (R397). -/
def mramWriting (d : Dev) (a n : Nat) : Option (Nat × List Byte) :=
  if 0 < n ∧ 0xC000000000 ≤ a ∧ a + n ≤ 0xC001000000 then
    some ((a + n - 1) / 64 * 64, rawRead d ((a + n - 1) / 64 * 64) 64)
  else d.nv.writing

/-- Device memory with bytes written from an address; a unit that is written whole loses its error marks (R325). -/
def memWrite (d : Dev) (a : Nat) (bs : List Byte) : Dev :=
  { d with
    mem := putBytes d.mem a bs
    cache := { d.cache with stale := staleAfter d a bs.length }
    nv := { d.nv with writing := mramWriting d a bs.length }
    badUnits := if d.badUnits = [] then [] else d.badUnits.filter (fun u => !(wholeUnits a bs.length).contains u)
    softUnits := if d.softUnits = [] then [] else d.softUnits.filter (fun u => !(wholeUnits a bs.length).contains u) }

/-- 16-byte units of [a, a+n), widened to what the code covers, that are uncorrectable where they are stored (R325, R386, R397). -/
def rawBadIn (d : Dev) (a n : Nat) : List Nat :=
  if n = 0 then []
  else d.badUnits.filter (fun u => if lineCoded u then decide (a / 64 ≤ u / 4 ∧ u / 4 ≤ (a + n - 1) / 64) else decide (a < 16 * u + 16 ∧ 16 * u < a + n))

/-- Those that a read through the Column Cache meets: a line that the enabled cache holds is read from there (R325, R326). -/
def badIn (d : Dev) (a n : Nat) : List Nat := (rawBadIn d a n).filter (fun u => !(cacheEn d && lineCached d (16 * u)))

/-- The lowest 64-byte line of a list of units. -/
def lowLine (us : List Nat) : Option Nat :=
  match us with
  | [] => none
  | u :: us => some ((us.foldl min u) / 4 * 64)

/-- Whether [a, a+n) touches a unit that ECC cannot correct. -/
def memBad (d : Dev) (a n : Nat) : Bool := !(badIn d a n).isEmpty

/-- The lowest uncorrectable 64-byte line that [a, a+n) touches. -/
def firstBadLine (d : Dev) (a n : Nat) : Option Nat := lowLine (badIn d a n)

/-- The lowest uncorrectable line for a requester of the bypassing class, which is always served from GDDR6 (R326). -/
def rawBadLine (d : Dev) (a n : Nat) : Option Nat := lowLine (rawBadIn d a n)

/-- Little-endian number of n bytes of device memory. -/
def memNat (d : Dev) (a n : Nat) : Nat := ofLE (memRead d a n)

/-- Little-endian number of n bytes as GDDR6 holds them (R326). -/
def rawNat (d : Dev) (a n : Nat) : Nat := ofLE (rawRead d a n)

/-! ## The address map -/

/-- Rows per bank of a channel, by DENSITY and CLAMSHELL (R371). -/
def rowsPerBank (d : Dev) : Nat :=
  let base := match fld d .mcGlobal 0 7 6 with | 0 => 16384 | 1 => 32768 | _ => 65536
  if fld d .mcGlobal 0 8 8 = 1 then 2 * base else base

/-- Channels that exclusion removes (R374). -/
def excluded (d : Dev) (ch : Nat) : Bool :=
  let n := if fld d .mcGlobal 0 12 9 = fld d .mcGlobal 0 16 13 then min 1 (fld d .mcGlobal 0 18 17) else fld d .mcGlobal 0 18 17
  (decide (1 ≤ n) && decide (ch = fld d .mcGlobal 0 12 9)) || (decide (2 ≤ n) && decide (ch = fld d .mcGlobal 0 16 13))

/-- Channels in use, lowest first. -/
def channels (d : Dev) : List Nat := idxWhere 16 (fun ch => !excluded d ch)

/-- Data lines per row: 28 with inline ECC, 32 without (R372). -/
def dataLines (d : Dev) : Nat := if fld d .mcGlobal 0 22 22 = 1 then 28 else 32

/-- Usable GDDR6 capacity U in bytes (R372). -/
def usable (d : Dev) : Nat := (channels d).length * 64 * dataLines d * 16 * rowsPerBank d

/-- Regions of the device address map (R16). -/
inductive Region where
  | gddr | yard
  /-- Platform Store of a core. -/
  | store (n : Nat)
  /-- Instruction memory of a core. -/
  | imem (n : Nat)
  | mram | rom | sram | regs
  /-- Outside every range (R17). -/
  | unmapped
  deriving DecidableEq, Repr

/-- The region that an address lies in (R16, R17). -/
def regionOf (d : Dev) (a : Nat) : Region :=
  if a < usable d ∧ a < 0x1000000000 then .gddr
  else if a < 0x8000000000 then .unmapped
  else if a < 0x8001000000 then .yard
  else if 0x8100000000 ≤ a ∧ a < 0x8120000000 then
    let n := (a - 0x8100000000) / 0x1000000
    let o := a % 0x1000000
    if o < 0x40000 then .store n else if 0x800000 ≤ o ∧ o < 0x810000 then .imem n else .unmapped
  else if 0xC000000000 ≤ a ∧ a < 0xC001000000 then .mram
  else if 0xE000000000 ≤ a ∧ a < 0xE000020000 then .rom
  else if 0xE001000000 ≤ a ∧ a < 0xE001080000 then .sram
  else if 0xF000000000 ≤ a ∧ a < 0xF001000000 then .regs
  else .unmapped

/-- Base of core n's Platform Store (R16). -/
def storeBase (n : Nat) : Nat := 0x8100000000 + n * 0x1000000

/-- Base of core n's instruction memory (R16). -/
def imemBase (n : Nat) : Nat := 0x8100800000 + n * 0x1000000

/-- Base of the Yard. -/
def yardBase : Nat := 0x8000000000

/-! ## Ports and windows -/

/-- The port table's entry for port p. -/
def port (d : Dev) (p : Nat) : Port := mget {} d.ports p

/-- The device with a port's entry replaced. -/
def setPort (d : Dev) (p : Nat) (v : Port) : Dev := { d with ports := mset {} d.ports p v }

/-- Port 0 always exists; a data port exists from its PORT_CREATE to the end of its PORT_DESTROY (R102, R104, R114). -/
def portExists (d : Dev) (p : Nat) : Bool := decide (p = 0) || (port d p).exists_

/-- Ring allowance after R110; port 0's is fixed (R102). -/
def ringAllowance (d : Dev) (p : Nat) : Nat := if p = 0 then 512 else (port d p).rings
/-- Core share (R102, R110). -/
def coreShare (d : Dev) (p : Nat) : Nat := if p = 0 then 32 else (port d p).cores
/-- Junction allowance (R102, R110). -/
def junctionAllowance (d : Dev) (p : Nat) : Nat := if p = 0 then 65536 else (port d p).junction
/-- Yard quota (R102, R110). -/
def yardQuota (d : Dev) (p : Nat) : Nat := if p = 0 then 4096 else (port d p).yard

/-- The furthest end, cut at the top of the space, of an enabled window that covers address a (R106). -/
def winEnd (ws : SMap Window) (top a : Nat) : Option Nat :=
  ws.foldl (fun acc e =>
    if e.2.en ∧ e.2.base ≤ a ∧ a < min top (e.2.base + e.2.size) then
      some (max (acc.getD 0) (min top (e.2.base + e.2.size)))
    else acc) none

/-- The first address at or after a that no enabled window covers. -/
def winReach (ws : SMap Window) (top : Nat) : Nat → Nat → Nat
  | 0, a => a
  | k + 1, a => match winEnd ws top a with | some e => winReach ws top k e | none => a

/-- The first address of [a, a+n) outside the port's GDDR6 windows or unmapped; none where all lie inside (R17, R74,
R106, R107). -/
def gddrOut (d : Dev) (p a n : Nat) : Option Nat :=
  let lim := min (usable d) (if p = 0 then usable d else winReach (port d p).gwin (2 ^ 40) 9 a)
  if n = 0 then none else if a + n ≤ lim then none else some (max a lim)

/-- The first address of [a, a+n) outside the port's host windows; none where all lie inside (R74, R106). -/
def hostOut (d : Dev) (p a n : Nat) : Option Nat :=
  let lim := if p = 0 then 2 ^ 64 else winReach (port d p).hwin (2 ^ 64) 9 a
  if n = 0 then none else if a + n ≤ lim then none else some (max a lim)

/-- The first address of [a, a+n) outside the port's windows of one space. -/
def spaceOut (d : Dev) (p : Nat) (host : Bool) (a n : Nat) : Option Nat :=
  if host then hostOut d p a n else gddrOut d p a n

/-! ## Power domains -/

/-- Domain k of R422. -/
def dom (d : Dev) (k : Nat) : Dom := mget {} d.pwr.doms k

/-- A Rake domain counts as powered when its state is ON, GATED or waking (R427). -/
def powered (d : Dev) (k : Nat) : Bool :=
  match (dom d k).st with | .on | .gated | .waking => true | _ => false

/-- Rakes powered now. -/
def rakesOn (d : Dev) : Nat := (idxWhere 8 (fun r => powered d (4 + r))).length

/-- The device with domain k replaced, and PWR_STATUS.RAKES_ON brought up to date (R447). -/
def setDom (d : Dev) (k : Nat) (v : Dom) : Dev :=
  let d1 := { d with pwr := { d.pwr with doms := mset {} d.pwr.doms k v } }
  setFld d1 .pwrStatus 0 18 15 (rakesOn d1)

/-- The domain is ON: it serves accesses (R423). -/
def domOn (d : Dev) (k : Nat) : Bool := decide ((dom d k).st = .on) && !(dom d k).falling

/-- AUTOWAKE of domain k (R425). -/
def autowake (d : Dev) (k : Nat) : Bool := decide (fld d .pwrDomain k 36 36 = 1)

/-- The core clock ceiling of a profile in MHz, its Rakes and its GDDR6 rate ceiling in Gbit/s (R24); FULL takes the grade's clock. -/
def profileCeil (d : Dev) (p : Nat) : Nat × Nat × Nat :=
  match p with
  | 0 => (fld d .chipId 0 7 0 * 100, 8, 20)
  | 1 => (1200, 8, 14)
  | _ => (1000, 2, 12)

/-- Rakes that running Consists hold (R25). -/
def heldRakes (d : Dev) : List Nat :=
  idxWhere 8 (fun r => d.consists.any (fun e => e.2.valid && decide (bitOf e.2.domains r = 1)))

/-- Rakes that running Consists hold fit a profile's limit (R430). -/
def heldFit (d : Dev) (p : Nat) : Bool := decide ((heldRakes d).length ≤ (profileCeil d p).2.1)

/-- Rakes that may be powered at once under the profile in force, or under a lower one that has begun to take effect (R24, R427, R430). DEDUCED:
RUN_CONSIST checks and wakes count against a lower profile from the cc in which the held Rakes fit it, not from its request: R430's "Meanwhile" stands
for the time in which its steps run, and R23 lets the old setting govern until then (assumption log 122). -/
def rakeLimit (d : Dev) : Nat :=
  let now := (profileCeil d (fld d .pwrStatus 0 39 38)).2.1
  match d.pwr.profile with
  | some q => if q.lower && heldFit d q.want then min now (profileCeil d q.want).2.1 else now
  | none => now

/-- Core cycles in 2 µs at the present core clock (R424). -/
def ccIn2us (d : Dev) : Nat := 2 * fld d .pwrStatus 0 34 24

/-- A wake of domain k: a GATED, OFF_RETAIN or OFF domain starts to wake; one in the first 2 µs of an idle power-down
cancels it; one later in it is woken when it ends; a third Rake under CAP15 waits, and waits no more once it wakes (R423, R424, R427). -/
def wakeDom (d : Dev) (k : Nat) : Dev :=
  let v := dom d k
  if v.falling then
    if d.cc ≤ v.fallAt + ccIn2us d then setDom d k { v with falling := false, st := .waking, prev := .gated }
    else setDom d k { v with wanted := true }
  else match v.st with
    | .on | .waking => d
    | .gated => setDom d k { v with st := .waking, prev := .gated }
    | q =>
      if 4 ≤ k ∧ k ≤ 11 ∧ rakeLimit d ≤ rakesOn d then
        { d with pwr := { d.pwr with rakeWait := sins d.pwr.rakeWait k } }
      else setDom { d with pwr := { d.pwr with rakeWait := sdel d.pwr.rakeWait k } } k { v with st := .waking, prev := q }

/-- MC domains whose channels are interleaved (R163, R426). -/
def mcDoms (d : Dev) : List Nat := idxWhere 24 (fun k => decide (15 ≤ k ∧ k ≤ 22) && (channels d).any (fun ch => decide (ch / 2 + 15 = k)))

/-- Every domain of the list is ON. -/
def allOn (d : Dev) (ks : List Nat) : Bool := ks.all (domOn d)

/-- Wakes every domain of the list that is not ON. -/
def wakeAll (d : Dev) (ks : List Nat) : Dev := ks.foldl (fun d k => if domOn d k then d else wakeDom d k) d

/-! ## Log Book -/

/-- AO time in ms (R413). -/
def aoTime (d : Dev) : Nat := (rd d .aoTime 0).toNat

/-- Signal Box firmware writes the next Log Book entry: TIME, TIME_TRUSTED, CLASS, CODE, NUMBER and the data words
(R402, R403). In lifecycle BLANK it writes none. -/
def logBook (d : Dev) (cls code : Nat) (data : List Nat) : Dev :=
  if d.sbox.logOn then
    let n := d.sbox.logNext
    let w0 := aoTime d + fld d .pwrStatus 0 14 14 * 2 ^ 40 + cls * 2 ^ 41 + code * 2 ^ 48
    let body := toLE 8 w0 ++ (toLE 8 (n % 2 ^ 32) ++ ((data.take 6).map (toLE 8)).flatten)
    let d1 := memWrite d (0xC000600000 + 64 * (n % 32768)) (sliceB body 0 64)
    let d2 := { d1 with sbox := { d1.sbox with logNext := n + 1 } }
    setFld d2 .sboxLog 0 14 0 (n % 32768)
  else d

/-- The device is Running (R432): the units act. -/
def running (d : Dev) : Bool := decide (d.pwr.mode = .running)

/-! ## Memory errors -/

/-- The channel that the line of a device address lies in (R373). -/
def chanOf (d : Dev) (a : Nat) : Nat :=
  let cs := channels d
  (cs[a / 64 % cs.length]?).getD 0

/-- Records an on-chip uncorrectable error in MEM_ERR, raises the device event, and lets firmware log it (R325, R339, R403).
Errors of the Signal Box's own memories are recorded nowhere. -/
def chipErr (d : Dev) (line : Nat) : Dev :=
  let src := match regionOf d line with
    | .yard => some (1, 0)
    | .store n => some (2, n)
    | .imem n => some (3, n)
    | _ => none
  match src with
  | some (k, n) =>
    if fld d .memErr 0 39 39 = 1 then d
    else
      let d1 := sboxEvent (recordErrAt d .memErr .memErrAddr 0 (k * 2 ^ 32 + n * 2 ^ 27) line) 6
      logBook d1 2 0x0050 [(rd d1 .memErr 0).toNat, (rd d1 .memErrAddr 0).toNat]
  | none => d

/-- An event of a channel: MC_ERR of its controller records the first since the last clear, which firmware logs, and the Signal Box receives a
device event (R383, R385, R391, R403). -/
def mcErrAt (d : Dev) (ch reason a : Nat) : Dev :=
  let k := ch / 2
  let d0 := sboxEvent d 5
  if fld d .mcErr k 39 39 = 1 then d0
  else
    let d1 := recordErrAt d0 .mcErr .mcErrAddr k (reason * 2 ^ 36 + ch % 2 * 2 ^ 35) a
    logBook d1 2 0x0040 [k, (rd d1 .mcErr k).toNat, (rd d1 .mcErrAddr k).toNat]

/-- Records what a read meets at an uncorrectable line (R325, R386): on chip MEM_ERR; GDDR6's own record is made by the controller when
the read returns there. -/
def readErr (d : Dev) (line : Nat) : Dev := chipErr d line

/-- Uncorrectable 16-byte units on chip that a write touches without replacing their code: that write is dropped there (R325). GDDR6 finds such a
line when the write's read returns (R378). -/
def spoiled (d : Dev) (a n : Nat) : List Nat :=
  if d.badUnits.isEmpty then []
  else d.badUnits.filter (fun u => !lineCoded u && decide (a < 16 * u + 16 ∧ 16 * u < a + n) && !decide (a ≤ 16 * u ∧ 16 * u + 16 ≤ a + n))

/-- Writes the bytes of a run that no dropped unit takes. -/
def writeAround (d : Dev) (a : Nat) (bs : List Byte) (us : List Nat) : Dev :=
  ((List.range bs.length).zip bs).foldl (fun d e =>
    if us.any (fun u => decide (u = (a + e.1) / 16)) then d else memWrite d (a + e.1) [e.2]) d

/-- A write to a store on chip or to MRAM: what would change part of an uncorrectable unit is dropped and recorded, and its line is answered
(R325). -/
def storeWrite (d : Dev) (a : Nat) (bs : List Byte) : Dev × Option Nat :=
  match lowLine (spoiled d a bs.length) with
  | none => (memWrite d a bs, none)
  | some line => (chipErr (writeAround d a bs (spoiled d a bs.length)) line, some line)

/-- CIPHER holds the memory keys (R421). -/
def memKeys (d : Dev) : Bool := decide (fld d .cipherStatus 0 39 39 = 1)

/-- GDDR6 requests reach the controllers: TRAFFIC_EN is set, the memory keys are present and every channel in use is ready and not about
to enter self-refresh (R387, R389, R391, R421). -/
def gddrUp (d : Dev) : Bool :=
  decide (fld d .mcGlobal 0 24 24 = 1) && memKeys d &&
    (channels d).all (fun ch => decide (fld d .mcStatus ch 39 37 = 2) && !(mget ({} : McChan) d.mc ch).srWait)

/-- A memory request at an address is served now rather than held in its slice. -/
def memUp (d : Dev) (a : Nat) : Bool := if a < 0x1000000000 then gddrUp d else true

/-- GDDR6 requests for the line of an address leave their slice: TRAFFIC_EN, the keys, and its channel ready and not about to enter self-refresh
(R387, R389, R421). -/
def lineUp (d : Dev) (a : Nat) : Bool :=
  decide (fld d .mcGlobal 0 24 24 = 1) && memKeys d && decide (fld d .mcStatus (chanOf d a) 39 37 = 2) &&
    !(mget ({} : McChan) d.mc (chanOf d a)).srWait

/-! ## Cores at reset -/

/-- The core of a number; the Signal Box core's STATUS resets to privilege M and it starts at
the first ROM address (R233). -/
def coreDefault (n : Nat) : Core := if n = 32 then { status := 2, st := .running, pc := 0xE000000000 } else {}

/-! ## Yard banks -/

/-- One access of an aligned 32-byte unit of the Yard: its bank serves one in a cc, so that a second one in the same cc has lost it
(R322, R339). -/
def bankAccess (d : Dev) (u : Nat) : Dev :=
  let b := u % 16
  let d1 := bump d .yardCnt 0
  if d.cache.banks.contains b then bump d1 .yardCnt 1
  else { d1 with cache := { d1.cache with banks := sins d1.cache.banks b } }

/-- An access of [a, a+n): each 32-byte unit of the Yard in it takes its bank. -/
def yardTouch (d : Dev) (a n : Nat) : Dev :=
  if n = 0 ∨ a < 0x8000000000 ∨ 0x8001000000 ≤ a then d
  else (List.range' (a / 32) ((a + n - 1) / 32 + 1 - a / 32)).foldl bankAccess d

end Sys2Proof.Machine
end

