-- ==== Sys2Proof/Machine/Mc.lean ====
section
/-!
DEFINITION. The GDDR6 channels' own operations (R371 to R386): the place of a line, the cipher and the check words, the queues, the open rows,
the row counters and the check cache. The rows of the controllers stand in McRows.lean.
-/

namespace Sys2Proof.Machine

/-- Channel ch. -/
def mcChan (d : Dev) (ch : Nat) : McChan := mget {} d.mc ch

/-- The device with channel ch replaced. -/
def setMc (d : Dev) (ch : Nat) (v : McChan) : Dev := { d with mc := mset {} d.mc ch v }

/-- Line number within its channel (R373). -/
def mcIndex (d : Dev) (a : Nat) : Nat := a / 64 / (channels d).length

/-- Line within the row (R373). -/
def mcCol (d : Dev) (a : Nat) : Nat := mcIndex d a % dataLines d

/-- Row (R373). -/
def mcRow (d : Dev) (a : Nat) : Nat := mcIndex d a / dataLines d / 16

/-- Bank (R373). -/
def mcBank (d : Dev) (a : Nat) : Nat := (mcIndex d a / dataLines d % 16) ^^^ (mcRow d a % 16)

/-- STATE of a channel (R391). -/
def mcState (d : Dev) (ch : Nat) : Nat := fld d .mcStatus ch 39 37

/-- The device with a channel's STATE replaced. -/
def setMcState (d : Dev) (ch v : Nat) : Dev := setFld d .mcStatus ch 39 37 v

/-! ## Queues -/

/-- Reads that wait in a bank's queue, of the 16 it holds (R380). -/
def bankReads (d : Dev) (ch bank : Nat) : Nat := ((mcChan d ch).q.filter (fun r => !r.write && decide (mcBank d r.line = bank))).length

/-- The channel of a line has room for one more read (R380). -/
def readRoom (d : Dev) (line : Nat) : Bool := decide (bankReads d (chanOf d line) (mcBank d line) < 16)

/-- Lines of a channel's write queue: writes that wait, and those whose read-modify-write is under way (R378, R380). Of more than 32 the
slices still hold the rest. -/
def writesHeld (v : McChan) : Nat := (v.q.filter (fun r => r.write)).length + (v.out.filter (fun r => r.write)).length

/-- The channel of a line has room for one more write (R380). -/
def writeRoom (d : Dev) (line : Nat) : Bool := decide (writesHeld (mcChan d (chanOf d line)) < 32)

/-- A request joins its channel's queues. -/
def queueReq (d : Dev) (r : McReq) : Dev :=
  let ch := chanOf d r.line
  let v := mcChan d ch
  setMc d ch { v with q := v.q ++ [r] }

/-- A read of a line joins its channel's queues, for its fill entry or past the cache. -/
def queueRead (d : Dev) (line : Nat) (fill : Bool) (by_ : Option Nat) : Dev := queueReq d { line := line, fill := fill, consist := by_ }

/-- A write of bytes of one line joins its channel's write queue; one of a part of the line keeps what it replaces (R378, R380). -/
def queueWrite (d : Dev) (a n : Nat) (by_ : Option Nat) : Dev :=
  queueReq d { line := a / 64 * 64, write := true, part := decide (n < 64), consist := by_,
               undo := if n < 64 then (List.range n).map (fun k => (a + k, rawByte d (a + k))) else [] }

/-! ## Rows -/

/-- The open row of a bank. -/
def openRow (v : McChan) (bank : Nat) : Option Nat := mget none v.rows bank

/-- The channel with a bank's row closed. -/
def closeRow (v : McChan) (bank : Nat) : McChan := { v with rows := mset none v.rows bank none }

/-- The threshold of MC_GLOBAL.RD_THRESH (R384). -/
def rdThresh (d : Dev) : Nat := 4096 / 2 ^ fld d .mcGlobal 0 20 19

/-- The key with the lowest count; of equals the lowest row. -/
def lowestRow : SMap Nat → Option (Nat × Nat)
  | [] => none
  | e :: m => match lowestRow m with | some x => if x.2 < e.2 then some x else some e | none => some e

/-- A bank's table of 256 row counters after an activate of a row (R384). -/
def countRow (t : SMap Nat) (row : Nat) : SMap Nat :=
  let c := mget 0 t row
  if c ≠ 0 ∨ t.length < 256 then mset 0 t row (c + 1)
  else match lowestRow t with
    | some x => mset 0 (mset 0 t x.1 0) row (x.2 + 1)
    | none => t

/-- The channel after an activate of a row: it is open, its counter has counted. -/
def activateRow (v : McChan) (bank row : Nat) : McChan :=
  { v with rows := mset none v.rows bank (some row)
           counts := mset [] v.counts bank (countRow (mget [] v.counts bank) row)
           acts := mset 0 v.acts bank (mget 0 v.acts bank + 1) }

/-- Opens the row of a line for a request, with an activate where another row or none is open (R380, R384). -/
def useRow (d : Dev) (ch line : Nat) : Dev :=
  let v := mcChan d ch
  let b := mcBank d line
  if openRow v b = some (mcRow d line) then d else bump (setMc d ch (activateRow v b (mcRow d line))) .mcCnt (ch * 10 + 2)

/-! ## Cipher and check words -/

/-- The 64 bytes that GDDR6 holds for a line: ciphertext under the memory keys, with the device line number as tweak (R377). -/
def cipherLine (d : Dev) (line : Nat) : List Byte := xtsLine false d.keys.data d.keys.tweak (line / 64) (rawRead d line 64)

/-- ACHK of a line (R375). -/
def achk (line : Nat) : Nat := h40 (line / 64) % 4096

/-- The bytes of a line as GDDR6 holds them while writes to it wait: what a part write replaces stands; none where a whole line waits to be written,
which then settles them (R328, R378). -/
def heldLine (d : Dev) (v : McChan) (line : Nat) : Option (List Byte) :=
  let ws := (v.out ++ v.q).filter (fun r => r.write && decide (r.line = line))
  if ws.any (fun r => !r.part && r.undo.isEmpty) then none
  else some (ws.reverse.foldl (fun bs r => r.undo.foldl (fun bs u => bs.set (u.1 - line) u.2) bs) (rawRead d line 64))

/-- The check word that 64 bytes of a line ask for: ACHK, ECC_HI over ciphertext bytes 32 to 63, ECC_LO over bytes 0 to 31 (R375). -/
def wordOf (d : Dev) (line : Nat) (bs : List Byte) : BitVec 32 :=
  let c := xtsLine false d.keys.data d.keys.tweak (line / 64) bs
  BitVec.ofNat 32 (achk line * 2 ^ 20 + (Config.eccCode (c.drop 32)).toNat * 2 ^ 10 + (Config.eccCode (c.take 32)).toNat)

/-- The check word of a line as its bytes in GDDR6 ask. -/
def checkWord (d : Dev) (v : McChan) (line : Nat) : BitVec 32 := wordOf d line ((heldLine d v line).getD (rawRead d line 64))

/-- The line of a channel by its number there, the inverse of mcIndex (R373). -/
def lineOfNum (d : Dev) (ch i : Nat) : Nat := (i * (channels d).length + ((channels d).idxOf? ch).getD 0) * 64

/-- A stored check word: one not listed is as the line's bytes ask. -/
def storedWord (d : Dev) (m : SMap (Option (BitVec 32))) (line : Nat) : BitVec 32 :=
  (mget none m (mcIndex d line)).getD (checkWord d (mcChan d (chanOf d line)) line)

/-- The check half that holds the check word of a line: its row's number and which group of 8 lines (R375, R376). -/
def halfOf (d : Dev) (line : Nat) : Nat := (mcIndex d line / dataLines d) * 4 + mcCol d line / 8

/-- Numbers within the channel of the data lines of a check half. -/
def halfLines (d : Dev) (h : Nat) : List Nat :=
  ((List.range 8).filter (fun k => decide (h % 4 * 8 + k < dataLines d))).map (fun k => h / 4 * dataLines d + h % 4 * 8 + k)

/-- A check half as line 28 or 29 holds it. -/
def readHalf (d : Dev) (ch h : Nat) : CheckHalf :=
  { num := h, words := (halfLines d h).map (fun i => storedWord d (mcChan d ch).words (lineOfNum d ch i)) }

/-- A half that has changed is written to both copies (R376). -/
def putHalf (d : Dev) (v : McChan) (e : CheckHalf) : McChan :=
  if e.changed then
    ((halfLines d e.num).zip e.words).foldl (fun v x =>
      { v with words := mset none v.words x.1 (some x.2), mirrors := mset none v.mirrors x.1 (some x.2) }) v
  else v

/-- The check cache uses the half of a line: a miss reads it, the least recently used of 65 is evicted, and a write updates the line's word
(R376). -/
def useCheck (d : Dev) (ch : Nat) (v : McChan) (line : Nat) (write : Bool) : McChan :=
  if fld d .mcGlobal 0 22 22 = 1 then
    let h := halfOf d line
    let e0 := (v.halves.find? (fun e => decide (e.num = h))).getD (readHalf d ch h)
    let e := if write then { e0 with changed := true, words := e0.words.set (mcCol d line % 8) (checkWord d v line) } else e0
    let hs := e :: v.halves.filter (fun e => decide (e.num ≠ h))
    (hs.drop 64).foldl (putHalf d) { v with halves := hs.take 64 }
  else v

/-- The channel with every changed half written to both copies, as before self-refresh (R376, R389). -/
def flushHalves (d : Dev) (v : McChan) : McChan :=
  { v.halves.foldl (putHalf d) v with halves := v.halves.map (fun e => { e with changed := false }) }

/-! ## Rates -/

/-- The data rate that RATE and the ceiling of the profile in force, or of a lower one that has begun to take effect, ask for, the lowest of them
(R24, R389, R391, R430). -/
def mcRate (d : Dev) : Nat :=
  let now := min (max 12 (min 20 (fld d .mcGlobal 0 4 0))) (profileCeil d (fld d .pwrStatus 0 39 38)).2.2
  match d.pwr.profile with
  | some q => if q.lower && heldFit d q.want then min now (profileCeil d q.want).2.2 else now
  | none => now

end Sys2Proof.Machine
end

