-- ==== Sys2Proof/Machine/Slice.lean ====
section
/-!
DEFINITION. The slices of the Column Cache (R326 to R333): what a read and a write of GDDR6 meet there, fills and their arrival, prefetch, and
the operations by which the units read and write memory. The rows stand in CacheRows.lean.
-/

namespace Sys2Proof.Machine

/-! ## Sets and fills -/

/-- Slice of a line (R327). -/
def sliceOf (line : Nat) : Nat := cacheSetKey line / 1024

/-- Ways of the set of a line. -/
def setOf (d : Dev) (line : Nat) : List CWay := mget [] d.cache.sets (cacheSetKey line)

/-- The device with the set of a line replaced. -/
def putSet (d : Dev) (line : Nat) (ws : List CWay) : Dev :=
  { d with cache := { d.cache with sets := mset [] d.cache.sets (cacheSetKey line) ws } }

/-- The device without the bytes that the cache held otherwise than GDDR6 for lines that satisfy a test. -/
def dropStale (d : Dev) (p : Nat → Bool) : Dev :=
  { d with cache := { d.cache with stale := d.cache.stale.filter (fun e => !p (e.1 / 64 * 64)) } }

/-- Open fill entries of a slice (R329). -/
def fillsIn (d : Dev) (slice : Nat) : Nat := (d.cache.fills.filter (fun f => decide (sliceOf f.line = slice))).length

/-- The open fill entry of a line. -/
def fillOf (d : Dev) (line : Nat) : Option CFill := d.cache.fills.find? (fun f => decide (f.line = line))

/-- The device with the fill entry of a line changed. -/
def modFill (d : Dev) (line : Nat) (f : CFill → CFill) : Dev :=
  { d with cache := { d.cache with fills := d.cache.fills.map (fun x => if x.line = line then f x else x) } }

/-- The way mask of a requester; one above 50 never allocates (R326, R331). -/
def wayMask (d : Dev) (req : Nat) : Nat := if req ≤ 50 then fld d .cacheWays req 15 0 else 0

/-- A requester of the bypassing class, by its number: 0 to 50 allocate, 51 to 55 look, the rest bypass (R326). -/
def bypasses (req : Nat) : Bool := decide (55 < req)

/-- Number of a looking requester. -/
def looker : Nat := 51

/-- Number of a bypassing requester. -/
def bypasser : Nat := 56

/-- The device with a fill entry opened, and its read queued at the controller. -/
def openFill (d : Dev) (f : CFill) (by_ : Option Nat) : Dev :=
  queueRead { d with cache := { d.cache with fills := d.cache.fills ++ [f] } } f.line true by_

/-! ## Prefetch -/

/-- A prefetch of a line can be issued: its slice has at most 24 fill entries in use and its bank has a place (R332, R380). -/
def prefetchRoom (d : Dev) (line : Nat) : Bool := decide (fillsIn d (sliceOf line) ≤ 24) && readRoom d line

/-- A prefetch that is dropped: outside the windows or unmapped, present or filling, or of a requester that never allocates (R332). -/
def prefetchDropped (d : Dev) (req port line : Nat) : Bool :=
  (gddrOut d port line 64).isSome || lineCached d line || (fillOf d line).isSome || decide (wayMask d req = 0)

/-- Issues or drops prefetch k of a stream: the device, and whether it is done with. One that finds no fill entry or queue place has not been
issued, and is tried again (R332). -/
def prefetch (d : Dev) (req port : Nat) (a : Int) : Dev × Bool :=
  match a with
  | .ofNat line =>
    if prefetchDropped d req port line then (d, true)
    else if prefetchRoom d line then (bump (openFill d { line := line, opener := req, prefetch := true } none) .cacheCnt 4, true)
    else (d, false)
  | .negSucc _ => (d, true)

/-- Prefetches of a confirmed stream, by their numbers of strides beyond its last address: the device, and those that found no place (R332). -/
def streamAhead (req port : Nat) (t : Tracker) : List Nat → Dev → Dev × List Nat
  | [], d => (d, [])
  | k :: ks, d =>
    let r := prefetch d req port (Int.ofNat t.last + k * t.stride)
    let rest := streamAhead req port t ks r.1
    (rest.1, if r.2 then rest.2 else k :: rest.2)

/-- A tracker whose stream an access at its next address confirms (R332). -/
def Tracker.confirmed (t : Tracker) (a : Nat) : Tracker :=
  { t with last := a, conf := 2, ahead := t.ahead - 1, skipped := (t.skipped.filter (fun k => decide (1 < k))).map (fun k => k - 1) }

/-- The prefetches 1 to PF_DEPTH of a stream that have not been issued (R332). -/
def Tracker.notIssued (t : Tracker) (depth : Nat) : List Nat :=
  (List.range' 1 depth).filter (fun k => decide (t.ahead < k) || t.skipped.contains k)

/-- A tracker that a line address confirms. -/
def confirms (a : Nat) (t : Tracker) : Bool := decide (0 < t.conf ∧ (Int.ofNat a) = Int.ofNat t.last + t.stride)

/-- A tracker that a line address gives a stride. -/
def trains (a : Nat) (t : Tracker) : Bool :=
  let s : Int := Int.ofNat a - Int.ofNat t.last
  decide (t.conf = 0 ∧ s ≠ 0 ∧ s.natAbs ≤ 65536)

/-- The device with a requester's trackers replaced. -/
def putTrackers (d : Dev) (req : Nat) (l : List Tracker) : Dev :=
  { d with cache := { d.cache with trackers := mset [] d.cache.trackers req l } }

/-- The procedure `observe` of R332; the trackers stand most recently used first. -/
def observe (d : Dev) (req port a : Nat) : Dev :=
  let depth := fld d .cacheCtrl 0 7 4
  if fld d .cacheCtrl 0 1 1 = 1 ∧ depth ≠ 0 ∧ req ≤ 50 then
    let ts := mget [] d.cache.trackers req
    match ts.findIdx? (confirms a) with
    | some i =>
      let t := ((ts[i]?).getD {}).confirmed a
      let r := streamAhead req port t (t.notIssued depth) d
      let t1 := { t with ahead := max t.ahead depth, skipped := r.2 ++ t.skipped.filter (fun k => decide (depth < k)) }
      putTrackers r.1 req (t1 :: ts.eraseIdx i)
    | none =>
      match ts.reverse.findIdx? (trains a) with
      | some j =>
        let i := ts.length - 1 - j
        putTrackers d req ({ last := a, stride := Int.ofNat a - Int.ofNat ((ts[i]?).getD {}).last, conf := 1 } :: ts.eraseIdx i)
      | none => putTrackers d req (({ last := a : Tracker } :: ts).take 4)
  else d

/-! ## Reads -/

/-- The line that a read lies in. -/
def GReq.line (g : GReq) : Nat := g.addr / 64 * 64

/-- First and last half of the line that a read needs. -/
def GReq.lo (g : GReq) : Nat := g.addr % 64 / 32
/-- Last half of the line that a read needs. -/
def GReq.hi (g : GReq) : Nat := (g.addr % 64 + g.len - 1) % 64 / 32

/-- The device with a read at the end of its list; the answer to a requester that the model does not hold leaves the device. -/
def putReq (d : Dev) (g : GReq) : Dev :=
  if g.own = .nobody ∧ (g.st = .served ∨ g.st = .failed) then d
  else { d with cache := { d.cache with reqs := d.cache.reqs ++ [g] } }

/-- The device without the reads whose owners satisfy a test. -/
def dropReqs (d : Dev) (p : GOwner → Bool) : Dev :=
  { d with cache := { d.cache with reqs := d.cache.reqs.filter (fun g => !p g.own) } }

/-- A way that an array error invalidates (R333). -/
def arrayError (d : Dev) (line : Nat) (w : Option (Fin 16)) : Dev :=
  match w with
  | some w =>
    match (setOf d line).find? (fun x => decide (x.way = w.val)) with
    | some x => bump (dropStale (putSet d line ((setOf d line).filter (fun y => decide (y.way ≠ w.val)))) (fun l => decide (l = x.line))) .cacheCnt 7
    | none => d
  | none => d

/-- What an access of a line meets in the arrays of its set (R333): a way whose tag fails is invalidated; the way of the line is, where the access reads
its data and that is uncorrectable, and its corrected data is written back. DESIGN CHOICE: only a write of a whole line does without its data
(log entry 136). -/
def meetErrors (d : Dev) (line : Nat) (reads : Bool) : Dev :=
  let ws := setOf d line
  if ws.all (fun w => decide (w.flaw = .sound)) then d
  else
    let out : CWay → Bool := fun w => decide (w.flaw = .tag) || (reads && decide (w.flaw = .bad ∧ w.line = line))
    let mends : CWay → Bool := fun w => reads && decide (w.flaw = .soft ∧ w.line = line)
    let d1 := putSet d line ((ws.filter (fun w => !out w)).map (fun w => if mends w then { w with flaw := .sound } else w))
    let d2 := dropStale d1 (fun l => ws.any (fun w => out w && decide (w.line = l)))
    bumpN (bumpN d2 .cacheCnt 7 (ws.filter out).length) .cacheCnt 6 (ws.filter mends).length

/-- The way that holds a line. -/
def wayOf (d : Dev) (line : Nat) : Option CWay := (setOf d line).find? (fun w => decide (w.line = line))

/-- The bytes that a fill entry serves: those of GDDR6 with the accepted writes, and any undetected error (R330, R386). -/
def fillBytes (d : Dev) (f : CFill) (a n : Nat) : List Byte :=
  (List.range n).map (fun k => ((f.wrong.find? (fun e => decide (f.line + e.1 = a + k))).map Prod.snd).getD (rawByte d (a + k)))

/-- A miss: it joins the open entry of its line, and is served at once where its halves have arrived; or it opens an entry and reads the
critical half first; with no entry or queue place free it stalls (R329, R380). -/
def lookupMiss (d : Dev) (g : GReq) : Option Dev :=
  let d1 := bump d .cacheCnt 1
  match fillOf d g.line with
  | some f =>
    let d2 := modFill d1 g.line (fun x => { x with prefetch := false })
    let g1 := if f.half ∧ g.lo = f.crit ∧ g.hi = f.crit then
        (if f.bad then { g with st := .failed } else { g with st := .served, data := fillBytes d f g.addr g.len })
      else { g with st := .filling }
    some (observe (putReq d2 g1) g.req g.port g.line)
  | none =>
    if 32 ≤ fillsIn d (sliceOf g.line) ∨ !readRoom d g.line then none
    else some (observe (putReq (openFill d1 { line := g.line, opener := g.req, crit := g.lo } g.consist) { g with st := .filling }) g.req g.port g.line)

/-- A hit: the way becomes the most recently used; the first demand hit on a line that a tracker brought in is observed (R331 to R333). -/
def lookupHit (d : Dev) (g : GReq) (w : CWay) (corrected : Bool) : Dev :=
  let d1 := putSet d g.line ({ w with pf := none } :: (setOf d g.line).filter (fun x => decide (x.way ≠ w.way)))
  let d2 := bump d1 .cacheCnt 0
  let d3 := if corrected then bump d2 .cacheCnt 6 else d2
  match w.pf with
  | some r => let d4 := bump d3 .cacheCnt 5; if r = g.req then observe d4 r g.port g.line else d4
  | none => d3

/-- The lookup of a read by its slice (R326 to R329, R332, R333, R337): none where it stalls. The bypassing class, and every read while EN is 0,
goes to GDDR6, with the bytes of the accepted writes. -/
def lookup (d : Dev) (g : GReq) (corrected : Bool) (err : Option (Fin 16)) : Option Dev :=
  if cacheEn d && !bypasses g.req then
    let d1 := meetErrors (arrayError d g.line err) g.line true
    match wayOf d1 g.line with
    | some w => some (putReq (lookupHit d1 g w corrected) { g with st := .served, data := memRead d1 g.addr g.len })
    | none => lookupMiss d1 g
  else if readRoom d g.line then
    some (putReq (queueRead d g.line false g.consist) { g with st := .direct, data := rawRead d g.addr g.len })
  else none

/-- Reads that a fill entry has brought are served, or fail where it has come back uncorrectable (R329, R330). -/
def serveFill (d : Dev) (f : CFill) (p : GReq → Bool) : Dev :=
  let hit : GReq → Bool := fun g => decide (g.st = .filling ∧ g.line = f.line) && p g
  let done : GReq → GReq := fun g =>
    if f.bad then { g with st := .failed } else { g with st := .served, data := fillBytes d f g.addr g.len }
  { d with cache := { d.cache with
      reqs := (d.cache.reqs.filter (fun g => !(hit g && decide (g.own = .nobody)))).map (fun g => if hit g then done g else g) } }

/-- The way that an install takes: the lowest-numbered invalid way of the mask, else the least recently used one of it (R331). -/
def victim (ws : List CWay) (mask : Nat) : Option Nat :=
  match firstIdx 16 (fun w => decide (bitOf mask w = 1) && !ws.any (fun x => decide (x.way = w))) with
  | some w => some w
  | none => (ws.reverse.find? (fun x => decide (bitOf mask x.way = 1))).map (fun x => x.way)

/-- A line installed in a way, with the bytes of it that an undetected error made wrong. -/
def install (d : Dev) (f : CFill) (w : Nat) : Dev :=
  let ws := setOf d f.line
  let gone := ws.filter (fun x => decide (x.way = w))
  let d1 := dropStale d (fun l => gone.any (fun x => decide (x.line = l)))
  let d2 := putSet d1 f.line ({ way := w, line := f.line, pf := if f.prefetch then some f.opener else none } :: ws.filter (fun x => decide (x.way ≠ w)))
  { d2 with cache := { d2.cache with stale := f.wrong.foldl (fun m e => mset none m (f.line + e.1) (some e.2)) d2.cache.stale } }

/-- The end of a fill: the line is installed under the opener's mask, or not (R330, R331, R335, R337). -/
def endFill (d : Dev) (f : CFill) : Dev :=
  let d1 := { d with cache := { d.cache with fills := d.cache.fills.filter (fun x => decide (x.line ≠ f.line)) } }
  if f.bad ∨ f.discard ∨ !cacheEn d then bump d1 .cacheCnt 3
  else match victim (setOf d f.line) (wayMask d f.opener) with
    | some w => bump (install d1 f w) .cacheCnt 2
    | none => bump d1 .cacheCnt 3

/-! ## Writes -/

/-- A slice accepts a write of bytes of one line: GDDR6's write queue takes it, a present line and an open fill carry its bytes, and with
EN 0 no line is updated (R328, R330, R333, R337, R378). -/
def acceptWrite (d : Dev) (a : Nat) (bs : List Byte) (by_ : Option Nat) : Dev :=
  let line := a / 64 * 64
  let d1 := memWrite (queueWrite d a bs.length by_) a bs
  let d2 := modFill d1 line (fun f => { f with wrong := f.wrong.filter (fun e => decide (f.line + e.1 < a ∨ a + bs.length ≤ f.line + e.1)) })
  if cacheEn d then
    let whole := decide (64 ≤ bs.length)
    let d3 := meetErrors d2 line !whole
    match wayOf d3 line with
    | some w =>
      let w1 := { w with flaw := if whole then .sound else w.flaw }
      bump (putSet d3 line (w1 :: (setOf d3 line).filter (fun x => decide (x.way ≠ w.way)))) .cacheCnt 0
    | none => bump d3 .cacheCnt 1
  else d2

/-- A run of bytes cut at line boundaries, into at most k pieces. -/
def lineParts : Nat → Nat → List Byte → List (Nat × List Byte)
  | 0, _, _ => []
  | k + 1, a, bs => if bs = [] then [] else (a, bs.take (64 - a % 64)) :: lineParts k (a + (64 - a % 64)) (bs.drop (64 - a % 64))

/-- A requester's write of memory, as a Consist's own request where it is one: GDDR6's slices accept it line by line; a store on chip drops what
would change a part of an uncorrectable unit, and its line is answered (R325, R328). -/
def devWriteFor (by_ : Option Nat) (d : Dev) (a : Nat) (bs : List Byte) : Dev × Option Nat :=
  if a < 0x1000000000 then ((lineParts (bs.length / 64 + 2) a bs).foldl (fun d p => acceptWrite d p.1 p.2 by_) d, none)
  else storeWrite (yardTouch d a bs.length) a bs

/-- A requester's write of memory. -/
def devWrite (d : Dev) (a : Nat) (bs : List Byte) : Dev × Option Nat := devWriteFor none d a bs

/-- The channel of every GDDR6 line of [a, a+n) has room for a write; an address on chip always has (R328). -/
def roomFor (d : Dev) (a n : Nat) : Bool :=
  !decide (a < 0x1000000000) || (List.range' (a / 64) ((a + n - 1) / 64 + 1 - a / 64)).all (fun l => writeRoom d (64 * l))

/-- The channel of a line has room for n more writes (R328, R380). -/
def roomOf (d : Dev) (line n : Nat) : Bool := decide (writesHeld (mcChan d (chanOf d line)) + n ≤ 32)

/-- A read of a line that a step makes need not wait: the cache gives it, its fill is open, or an entry and a place of the bank's queue are free. -/
def lookRoom (d : Dev) (line : Nat) : Bool :=
  if cacheEn d then lineCached d line || (fillOf d line).isSome || (decide (fillsIn d (sliceOf line) < 32) && readRoom d line) else readRoom d line

/-- A step would put more writes into a channel than its queue takes, or a read behind 32 fill entries of its slice or 16 reads of its bank that
wait there already (R328, R329, R380). -/
def overfills (d d1 : Dev) : Bool :=
  d1.mc.any (fun e => decide (32 < writesHeld (mcChan d1 e.1) ∧ writesHeld (mcChan d e.1) < writesHeld (mcChan d1 e.1)) ||
    (List.range 16).any (fun b => decide (16 ≤ bankReads d e.1 b ∧ bankReads d e.1 b < bankReads d1 e.1 b))) ||
  (List.range 8).any (fun k => decide (32 ≤ fillsIn d k ∧ fillsIn d k < fillsIn d1 k))

/-- A unit's step that may read or write GDDR6: while the slices have no room for what it asks, it waits and nothing happens (R328, R329). -/
def onUnit (s : State) (f : Dev → Dev) : Host.Outcome State Fault Refusal :=
  .next (if overfills s.dev (f s.dev) then s else { s with dev := f s.dev })

/-! ## What goes on by itself -/

/-- Maintenance walks every set: INVALIDATE_ALL, and a range of more than 1,024 lines (R334). -/
def Maint.walks (m : Maint) : Bool := decide (m.op = 3 ∨ 65536 < m.hi - m.lo)

/-- Steps that an operation takes: the sets of a slice, or its lines (R334). -/
def Maint.steps (m : Maint) : Nat := if m.walks then 1024 else (m.hi - m.lo) / 64

/-- Steps pos to pos + k − 1 of an operation reach a line of a set (R334). -/
def Maint.reaches (m : Maint) (k key line : Nat) : Bool :=
  decide (m.lo ≤ line ∧ line < m.hi) &&
    (let i := if m.walks then key % 1024 else (line - m.lo) / 64
     decide (m.pos ≤ i ∧ i < m.pos + k))

/-- The cache without the lines that satisfy a test on their set's key and their address. -/
def invalidate (d : Dev) (out : Nat → Nat → Bool) : Dev :=
  let sets := (d.cache.sets.map (fun e => (e.1, e.2.filter (fun w => !out e.1 w.line)))).filter (fun e => decide (e.2 ≠ []))
  dropStale { d with cache := { d.cache with sets := sets } } (fun l => out (cacheSetKey l) l)

/-- The next k steps of the maintenance operation, in its order: a line goes when its slice reaches it (R334). -/
def maintSteps (d : Dev) (k : Nat) : Dev :=
  match d.cache.maint with
  | some m =>
    let d1 := invalidate d (m.reaches k)
    { d1 with cache := { d1.cache with maint := some { m with pos := min m.steps (m.pos + k) } } }
  | none => d

/-- Bytes of the running clear (R324). -/
def clearSize (d : Dev) : Nat := match d.cache.clear with | some (_, n) => 4096 * n | none => 0

/-- The bytes [a, a+n) of the Yard become zero, and their codes good. -/
def zeroYard (d : Dev) (a n : Nat) : Dev :=
  let out : Nat → Bool := fun b => decide (a ≤ b ∧ b < a + n)
  { d with mem := d.mem.filter (fun e => !out e.1)
           badUnits := d.badUnits.filter (fun u => !out (16 * u)), softUnits := d.softUnits.filter (fun u => !out (16 * u)) }

/-- The next n bytes of the running clear (R324). -/
def clearSteps (d : Dev) (n : Nat) : Dev :=
  match d.cache.clear with
  | some (first, _) =>
    let m := min n (clearSize d - d.cache.cleared)
    let d1 := bumpN (zeroYard d (yardBase + 4096 * first + d.cache.cleared) m) .yardCnt 0 (m / 32)
    { d1 with cache := { d1.cache with cleared := d.cache.cleared + m } }
  | none => d

/-- What the slices and the Yard do by themselves in k cc: maintenance takes a step in each, a clear zeroes 512 bytes in each, and every bank
is free again (R322, R324, R334). -/
def fabricTime (k : Nat) (d : Dev) : Dev :=
  let d1 := { d with cache := { d.cache with banks := [] } }
  if running d ∧ domOn d 3 ∧ 0 < k then clearSteps (maintSteps d1 k) (512 * k) else d1

/-! ## Reads of the units -/

/-- Line pieces of [a, a+n): first byte and count, at most k of them. -/
def linePieces : Nat → Nat → Nat → List (Nat × Nat)
  | 0, _, _ => []
  | k + 1, a, n => if n = 0 then [] else (a, min n (64 - a % 64)) :: linePieces k (a + (64 - a % 64)) (n - min n (64 - a % 64))

/-- What a unit's read has come to. -/
inductive LineRead where
  /-- Some of it is on the way. -/
  | wait (d : Dev)
  /-- All of it has arrived, in the order asked for. -/
  | got (d : Dev) (bs : List Byte)
  /-- The first line of it that is uncorrectable (R330, R386). -/
  | bad (d : Dev) (line : Nat)

/-- A requester's reads of GDDR6 are issued: one for each line of each run that lies in GDDR6 (R326). -/
def askLines (d : Dev) (own : GOwner) (req port : Nat) (consist : Option Nat) (spans : List (Nat × Nat)) : Dev :=
  let ps := ((spans.filter (fun e => decide (e.1 < 0x1000000000))).map (fun e => linePieces (e.2 / 64 + 2) e.1 e.2)).flatten
  let gs := ps.map (fun p => ({ own := own, req := req, port := port, consist := consist, addr := p.1, len := p.2 } : GReq))
  { d with cache := { d.cache with reqs := d.cache.reqs ++ gs } }

/-- The reads of a requester, in the order of their addresses as asked. -/
def lineReads (d : Dev) (own : GOwner) : List GReq := d.cache.reqs.filter (fun g => decide (g.own = own))

/-- The first address outside a requester's reach, for reads that it has still to issue: a read already issued completes under the windows that were
in force then (R108). -/
def issuedOr (d : Dev) (own : GOwner) (out : Option Nat) : Option Nat := if (lineReads d own).isEmpty then out else none

/-- The bytes of a run, from the reads that have been served and from the stores on chip. -/
def spanBytes (d : Dev) (gs : List GReq) (a n : Nat) : List Byte :=
  if a < 0x1000000000 then
    ((linePieces (n / 64 + 2) a n).map (fun p => ((gs.find? (fun g => decide (g.addr = p.1 ∧ g.len = p.2))).map GReq.data).getD [])).flatten
  else memRead d a n

/-- The first uncorrectable line of a run. -/
def spanBad (d : Dev) (gs : List GReq) (a n : Nat) : Option Nat :=
  if a < 0x1000000000 then
    ((linePieces (n / 64 + 2) a n).find? (fun p => gs.any (fun g => decide (g.addr = p.1 ∧ g.len = p.2 ∧ g.st = .failed)))).map (fun p => p.1 / 64 * 64)
  else firstBadLine d a n

/-- A unit's read of runs of memory: its reads of GDDR6 are issued once, it waits until each has been served or has failed, and then takes them;
the stores on chip are read then (R325, R326, R329, R386). -/
def fetchLines (d : Dev) (own : GOwner) (req port : Nat) (consist : Option Nat) (spans : List (Nat × Nat)) : LineRead :=
  let gs := lineReads d own
  if gs = [] ∧ spans.any (fun e => decide (e.1 < 0x1000000000 ∧ 0 < e.2)) then .wait (askLines d own req port consist spans)
  else if gs.any (fun g => decide (g.st ≠ .served ∧ g.st ≠ .failed)) then .wait d
  else
    let d1 := spans.foldl (fun d e => yardTouch d e.1 e.2) (dropReqs d (fun o => decide (o = own)))
    match spans.findSome? (fun e => spanBad d gs e.1 e.2) with
    | some l => .bad (readErr d1 l) l
    | none => .got d1 ((spans.map (fun e => spanBytes d gs e.1 e.2)).flatten)

/-- The slices' part of a read that is made in the step which needs it, by a requester of the looking or the bypassing class (R326, R329, R331,
R337): its line is looked up and counted, and one that the cache does not give joins the open fill or opens one, or goes past the cache to its
controller. A step that finds its slice or bank full waits (`overfills`); of one that does not, the entries above 32 are the misses that stall
in the slice (log entry 48). -/
def lookLine (req : Nat) (d : Dev) (line : Nat) : Dev :=
  if cacheEn d && !bypasses req then
    let d1 := meetErrors d line true
    match wayOf d1 line with
    | some w => lookupHit d1 { req := req, addr := line, len := 64 } w false
    | none =>
      let d2 := bump d1 .cacheCnt 1
      match fillOf d2 line with
      | some _ => modFill d2 line (fun x => { x with prefetch := false })
      | none => openFill d2 { line := line, opener := req } none
  else queueRead d line false none

/-- The same for every line of [a, a+n); the stores on chip are not looked up. -/
def lookLines (req : Nat) (d : Dev) (a n : Nat) : Dev :=
  if a < 0x1000000000 ∧ 0 < n then (List.range' (a / 64) ((a + n - 1) / 64 + 1 - a / 64)).foldl (fun d l => lookLine req d (64 * l)) d
  else yardTouch d a n

end Sys2Proof.Machine
end

