-- ==== Sys2Proof/Machine/Link.lean ====
section
/-!
DEFINITION. The Abdom Link's own operations (R37 to R53): CRC, flits, packets, credits, the replay buffer, and the
device's reads and writes of host memory. The rows of the link stand in LinkRows.lean.
-/

namespace Sys2Proof.Machine

/-! ## CRC and flits -/

/-- One bit step of the reflected CRC-32. -/
def crcBit (c : BitVec 32) : BitVec 32 := if c.getLsbD 0 then (c >>> 1) ^^^ 0xEDB88320#32 else c >>> 1

/-- One byte step of the reflected CRC-32. -/
def crcByte (c : BitVec 32) (b : Byte) : BitVec 32 :=
  let x := c ^^^ b.setWidth 32
  crcBit (crcBit (crcBit (crcBit (crcBit (crcBit (crcBit (crcBit x)))))))

/-- CRC-32 with the IEEE 802.3 polynomial, initial value and final XOR all ones (R39). -/
def crc32 (bs : List Byte) : BitVec 32 := bs.foldl crcByte 0xFFFFFFFF#32 ^^^ 0xFFFFFFFF#32

/-- A 256-byte flit: header word, 248 bytes of slots, CRC (R37). -/
def mkFlit (header : Nat) (slots : List Byte) : List Byte :=
  let body := toLE 4 header ++ sliceB slots 0 248
  body ++ toLE 4 (crc32 body).toNat

/-- Header word of a flit (R38). -/
def flitHeader (seq ack kind ackValid nak cp cn cc : Nat) : Nat :=
  seq * 2 ^ 24 + ack * 2 ^ 16 + kind * 2 ^ 14 + ackValid * 2 ^ 13 + nak * 2 ^ 12 + cp * 256 + cn * 16 + cc

/-- The link's state of R54, from LINK_STATUS.STATE: 0 down, 1 training, 2 L0, 3 L-Coast, 4 L-Park, 5 retrain. -/
def linkState (d : Dev) : Nat := fld d .linkStatus 0 2 0

/-- The device with the link's state replaced. -/
def setLinkState (d : Dev) (v : Nat) : Dev := setFld d .linkStatus 0 2 0 v

/-- ACK_SEQ of the next outgoing header: the last data flit received good and in order (R38). -/
def ackSeq (l : LinkSt) : Nat := (l.rxSeq - 1).toNat

/-- A control flit with a subtype in byte 4 (R42). -/
def ctlFlit (l : LinkSt) (nak : Nat) (sub : Nat) : List Byte :=
  mkFlit (flitHeader 0 (ackSeq l) 1 (b2n l.rxAny) nak 0 0 0) [BitVec.ofNat 8 sub]

/-- The transmitter's lanes carry a flit (R30). -/
def onLanes (l : LinkSt) (f : List Byte) : LinkSt := { l with tx := sendOnLanes l.lanes f l.tx }

/-- The link with a control flit sent. -/
def sendCtl (l : LinkSt) (nak sub : Nat) : LinkSt := onLanes { l with ctlOut := ctlFlit l nak sub } (ctlFlit l nak sub)

/-! ## Packets and credits -/

/-- Credit class of R43: 0 P, 1 NP, 2 CPL. -/
def pktClass (ty : Nat) : Nat :=
  match ty with
  | 0x01 => 1 | 0x10 => 1
  | 0x03 => 2 | 0x04 => 2
  | _ => 0

/-- Credits a packet consumes (R44). -/
def pktCost (dataLen : Nat) : Nat := ceilDiv (16 + dataLen) 64

/-- H0 of a packet (R46). -/
def pktH0 (p : Packet) : Nat :=
  p.status * 2 ^ 45 + p.len * 2 ^ 32 + p.tag * 2 ^ 16 + p.port * 2 ^ 8 + p.ty

/-- The bytes of a packet: header, data, padding to a slot (R46). -/
def pktBytes (p : Packet) : List Byte :=
  toLE 8 (pktH0 p) ++ (toLE 8 p.addr ++ sliceB p.data 0 (roundUp p.data.length 8))

/-- Credits that the CPL_D packets of a read of len bytes from addr take (R44, R47). -/
def readCost : Nat → Nat → Nat → Nat
  | 0, _, _ => 0
  | k + 1, addr, len =>
    if len = 0 then 0
    else
      let n := min len (256 - addr % 256)
      pktCost n + readCost k (addr + n) (len - n)

/-- Completion-buffer credits that the sent reads hold, of those the device has advertised (R43, R44). -/
def cplHeld (l : LinkSt) : Nat :=
  l.reads.foldl (fun a r => if r.st = .sent then a + readCost 17 r.addr r.len else a) 0

/-- The lowest tag that no read holds: neither one on the way nor one that has failed and whose data may still come (R46, R52). -/
def freeTag (l : LinkSt) : Option Nat :=
  firstIdx 1024 (fun t => !l.reads.any (fun r => decide ((r.st = .sent ∨ r.owner = .abandoned) ∧ r.tag = t)))

/-- Issues the oldest queued reads as MEM_RD while a tag is free and the completion buffer has room for all their data
(R44). -/
def issueReads : Nat → LinkSt → LinkSt
  | 0, l => l
  | k + 1, l =>
    match l.reads.findIdx? (fun r => decide (r.st = .queued)), freeTag l with
    | some i, some t =>
      match l.reads[i]? with
      | some r =>
        if cplHeld l + readCost 17 r.addr r.len ≤ l.advCPL then
          issueReads k { l with
            reads := l.reads.set i { r with st := .sent, tag := t }
            txq := l.txq ++ [{ ty := 1, len := r.len, tag := t, port := r.port, addr := r.addr }] }
        else l
      | none => l
    | _, _ => l

/-- Splits the waiting packets into those sent now and those that wait: credits of the class must suffice, the flits
must fit the replay buffer, a waiting posted packet holds back all later ones, and a waiting NP or CPL packet holds back
its own class (R44, R48). -/
def pickSend : List Packet → Nat → Nat → Nat → Nat → Bool → Bool → List Packet × List Packet × Nat × Nat × Nat
  | [], cp, cn, cc, _, _, _ => ([], [], cp, cn, cc)
  | q :: qs, cp, cn, cc, room, bn, bc =>
    let cost := pktCost q.data.length
    let size := (pktBytes q).length
    match pktClass q.ty with
    | 0 =>
      if cost ≤ cp ∧ size ≤ room then
        let r := pickSend qs (cp - cost) cn cc (room - size) bn bc
        (q :: r.1, r.2.1, r.2.2)
      else ([], q :: qs, cp, cn, cc)
    | 1 =>
      if cost ≤ cn ∧ size ≤ room ∧ !bn then
        let r := pickSend qs cp (cn - cost) cc (room - size) bn bc
        (q :: r.1, r.2.1, r.2.2)
      else
        let r := pickSend qs cp cn cc room true bc
        (r.1, q :: r.2.1, r.2.2)
    | _ =>
      if cost ≤ cc ∧ size ≤ room ∧ !bc then
        let r := pickSend qs cp cn (cc - cost) (room - size) bn bc
        (q :: r.1, r.2.1, r.2.2)
      else
        let r := pickSend qs cp cn cc room bn true
        (r.1, q :: r.2.1, r.2.2)

/-- Sends one data flit: it takes the next SEQ, carries the acknowledgement and up to 15 owed credits of each class, and
goes into the replay buffer (R38, R40, R43). -/
def sendFlit (l : LinkSt) (slots : List Byte) : LinkSt :=
  let cp := min 15 l.oweP
  let cn := min 15 l.oweNP
  let cc := min 15 l.oweCPL
  let f := mkFlit (flitHeader l.txSeq.toNat (ackSeq l) 0 (b2n l.rxAny) 0 cp cn cc) slots
  onLanes { l with
    txSeq := l.txSeq + 1
    oweP := l.oweP - cp, oweNP := l.oweNP - cn, oweCPL := l.oweCPL - cc
    farP := l.farP + cp, farNP := l.farNP + cn, farCPL := l.farCPL + cc
    replay := l.replay ++ [{ bytes := f, replays := 0 }] } f

/-- Sends a run of packet bytes as consecutive data flits of 248 slot bytes. -/
def sendBytes : Nat → LinkSt → List Byte → LinkSt
  | 0, l, _ => l
  | k + 1, l, bs => if bs = [] then l else sendBytes k (sendFlit l (bs.take 248)) (bs.drop 248)

/-- The transmitter in L0: issues reads, sends every packet that credits, order and the replay buffer admit, and sends a
flit of pad slots where only credits are owed (R40, R43, R44). -/
def pumpL (l0 : LinkSt) : LinkSt :=
  let l1 := issueReads l0.reads.length l0
  let r := pickSend l1.txq l1.credP l1.credNP l1.credCPL (248 * (64 - l1.replay.length)) false false
  let l2 := { l1 with txq := r.2.1, credP := r.2.2.1, credNP := r.2.2.2.1, credCPL := r.2.2.2.2 }
  let bs := (r.1.map pktBytes).flatten
  if bs = [] then
    if 0 < l2.oweP + l2.oweNP + l2.oweCPL ∧ l2.replay.length < 64 then sendFlit l2 [] else l2
  else sendBytes 64 l2 bs

/-- Nothing of the device's is on the way: every MEM_RD it issued has ended, every data flit is acknowledged, nothing waits (R56). -/
def linkQuiet (l : LinkSt) : Bool :=
  l.replay.isEmpty && l.txq.isEmpty && l.reads.all (fun r => decide (r.st ≠ .sent ∧ r.st ≠ .queued))

/-- PARK_REQ is sent once the sequencer has asked the LINK domain to drain and the device's traffic has ended (R56, R436). -/
def parkDrain (d : Dev) : Dev :=
  if d.pwr.sleep.active ∧ d.pwr.sleep.toAsk.head? = some 2 ∧ (linkState d = 2 ∨ linkState d = 3) ∧ !d.link.parkAsked ∧ linkQuiet d.link then
    { d with link := { sendCtl d.link 0 0x20 with parkAsked := true } }
  else d

/-- The transmitter acts in L0 and in no other state (R54). -/
def pump (d : Dev) : Dev := parkDrain (if linkState d = 2 then { d with link := pumpL d.link } else d)

/-- A meaning that acts on the device and lets the transmitter send what it queued. -/
def onDevTx (s : State) (f : Dev → Dev) : Host.Outcome State Fault Refusal := .next { s with dev := pump (f s.dev) }

/-- The same for a step that may read or write GDDR6: while the slices have no room, nothing happens (R328, R329). -/
def onUnitTx (s : State) (f : Dev → Dev) : Host.Outcome State Fault Refusal :=
  .next (if overfills s.dev (f s.dev) then s else { s with dev := pump (f s.dev) })

/-! ## Host memory -/

/-- The device with a packet queued for the link. -/
def queuePkt (d : Dev) (p : Packet) : Dev := { d with link := { d.link with txq := d.link.txq ++ [p] } }

/-- The MEM_WR packets of a write: at most 256 bytes each, none across a 4 KiB boundary (R46, R47). -/
def wrPackets : Nat → Nat → Nat → List Byte → List Packet
  | 0, _, _, _ => []
  | k + 1, p, a, bs =>
    if bs = [] then []
    else
      let n := min bs.length (min 256 (4096 - a % 4096))
      { ty := 2, len := n, port := p, addr := a, data := bs.take n } :: wrPackets k p (a + n) (bs.drop n)

/-- A posted write to host memory on behalf of a port; while the link is down it is dropped (R60). -/
def hostWrite (d : Dev) (p a : Nat) (bs : List Byte) : Dev :=
  if linkState d < 2 then d
  else { d with link := { d.link with txq := d.link.txq ++ wrPackets bs.length p a bs } }

/-- The same for a MOVE of a Shunting Engine channel, whose packets name the channel and the MOVE until they are sent (R349). -/
def hostWriteOf (d : Dev) (own : Nat × Nat) (p a : Nat) (bs : List Byte) : Dev :=
  if linkState d < 2 then d
  else { d with link := { d.link with txq := d.link.txq ++ (wrPackets bs.length p a bs).map (fun k => { k with chan := some own }) } }

/-- The owner of the part of a read that starts n bytes further on. -/
def ownerAt (o : Owner) (n : Nat) : Owner :=
  match o with
  | .command id off => .command id (off + n)
  | .shunt ch piece off => .shunt ch piece (off + n)
  | .junction g off => .junction g (off + n)
  | o => o

/-- The reads of a range: none across a 4 KiB boundary (R47). -/
def rdPieces : Nat → Nat → Nat → Nat → Owner → List HostRead
  | 0, _, _, _, _ => []
  | k + 1, p, a, n, o =>
    if n = 0 then []
    else
      let m := min n (4096 - a % 4096)
      { port := p, addr := a, len := m, owner := o } :: rdPieces k p (a + m) (n - m) (ownerAt o m)

/-- A read of host memory on behalf of a port. -/
def hostRead (d : Dev) (p a n : Nat) (o : Owner) : Dev :=
  { d with link := { d.link with reads := d.link.reads ++ rdPieces (n / 4096 + 2) p a n o } }

/-- The reads whose owner satisfies a test. -/
def readsOf (d : Dev) (f : Owner → Bool) : List HostRead := d.link.reads.filter (fun r => f r.owner)

/-- The device without the reads whose owner satisfies a test: they have been consumed or given up. One that is on the
way keeps its tag until its data has come and been discarded (R52). -/
def dropReads (d : Dev) (f : Owner → Bool) : Dev :=
  { d with link := { d.link with
      reads := (d.link.reads.filter (fun r => !(f r.owner && decide (r.st ≠ .sent)))).map
        (fun r => if f r.owner then { r with owner := .abandoned } else r) } }

/-- A read has ended, in data or in failure. -/
def readEnded (r : HostRead) : Bool := match r.st with | .queued | .sent => false | _ => true

/-- A read failed (R52). -/
def readFailed (r : HostRead) : Bool := match r.st with | .refused | .timedOut => true | _ => false

/-- MSG_INT with a vector on behalf of a port (R53). -/
def msgInt (d : Dev) (p vec : Nat) : Dev := queuePkt d { ty := 0x20, port := p, addr := vec }

end Sys2Proof.Machine
end

