-- ==== Sys2Proof/Machine/Reset.lean ====
section
/-!
DEFINITION. Resets of the device (R445): what a reset of every domain but AO keeps, and what power-on keeps.
-/

namespace Sys2Proof.Machine

/-- Registers of the CHIP and AOPWR blocks, which lie in AO (R20). -/
def aoRegs : List Reg :=
  [Reg.chipId, Reg.chipSerialLo, Reg.chipSerialHi, Reg.chipLifecycle, Reg.pwrCtrl, Reg.pwrStatus, Reg.retainMask,
   Reg.sleepStatus, Reg.wakeCtrl, Reg.wakeCause, Reg.padHold, Reg.resetCtrl, Reg.resetCause, Reg.resetPc, Reg.aoTime,
   Reg.aoAlarm, Reg.pwrDomain, Reg.gpioOut, Reg.gpioOe, Reg.gpioIn, Reg.pmSmb]

/-- The registers of the given names alone. -/
def keepRegs (rs : List Reg) (m : SMap Word) : SMap Word := m.filter (fun e => rs.any (fun r => decide (r.ctorIdx = e.1 / 4096)))

/-- The bytes of MRAM alone. -/
def keepMram (m : List Host.Cell) : List Host.Cell := m.filter (fun e => decide (0xC000000000 ≤ e.1 ∧ e.1 < 0xC001000000))

/-- Error marks of MRAM alone. -/
def keepMramUnits (us : List Nat) : List Nat := us.filter (fun u => decide (0xC000000000 ≤ 16 * u ∧ 16 * u < 0xC001000000))

/-- What AO keeps of power state through a reset of every other domain (R445). -/
def keepAo (p : PwrSt) : PwrSt :=
  { aoDiv := p.aoDiv, ppsMs := p.ppsMs, ppsTicks := p.ppsTicks, ppsSeen := p.ppsSeen, ppsSkip := p.ppsSkip,
    padGpio := p.padGpio, padTherm := p.padTherm, padMc := p.padMc, tamperDue := p.tamperDue, tamperA := p.tamperA, fell := p.fell }

/-- The registers that a reset of every domain but AO leaves: those of AO, and the fields that the fuses give (R11, R419, R420, R445). -/
def keptRegs (d : Dev) : SMap Word :=
  mset (Reg.sboxFw.resetVal 0) (keepRegs (Reg.sboxPubkey :: aoRegs) d.regs) (Reg.sboxFw.key 0) (rd d .sboxFw 0 &&& maskW 23 16)

/-- The bytes of the memories on chip, MRAM among them: all but GDDR6. -/
def keepChip (m : List Host.Cell) : List Host.Cell := m.filter (fun e => decide (0x1000000000 ≤ e.1))

/-- Error marks of the memories on chip alone. -/
def keepChipUnits (us : List Nat) : List Nat := us.filter (fun u => decide (0x1000000000 ≤ 16 * u))

/-- The cores after a reset of their domains: their cells alone are kept (R239). -/
def keepCells (m : SMap Core) : SMap Core := m.foldl (fun k e => mset (coreDefault e.1) k e.1 { coreDefault e.1 with cells := e.2.cells }) []

/-- A reset of causes 1 to 6: every domain except AO is reset; AO, the memories on chip, the cells and the clock count are kept; GDDR6 is lost
with its keys; RESET_CAUSE records the cause; boot follows (R239, R321, R323, R445). A token check under way is lost with its engine (R416). -/
def resetDev (d : Dev) (cause : Nat) : Dev :=
  let d1 : Dev := { cc := d.cc, fresh := d.fresh, regs := keptRegs d, mem := keepChip d.mem, cores := keepCells d.cores,
                    badUnits := keepChipUnits d.badUnits, softUnits := keepChipUnits d.softUnits, pwr := keepAo d.pwr, nv := d.nv
                    tap := { d.tap with token := none } }
  setFld d1 .resetCause 0 7 0 cause

/-- A power loss during a write of an MRAM line leaves its old content, its new content, or an uncorrectable error: which of them is free
(R397). -/
def mramLost (d : Dev) : Dev :=
  match d.nv.writing with
  | none => d
  | some (a, old) =>
    let d1 := match freeVal d % 3 with
      | 0 => memWrite d a old
      | 1 => d
      | _ => { d with badUnits := sins d.badUnits (a / 16) }
    tookFree { d1 with nv := { d1.nv with writing := none } }

end Sys2Proof.Machine
end

