-- ==== Sys2Proof/Machine/CoreOps.lean ====
section
/-!
DEFINITION. The cores' own operations (R201 to R234): registers, control registers, issue and retirement, TAKING AN
EXCEPTION and returning from one, interrupts, and core reset.
-/

namespace Sys2Proof.Machine

/-- Number of the Signal Box core. -/
def sboxCore : Nat := 32

/-- Core n. -/
def core (d : Dev) (n : Nat) : Core := mget (coreDefault n) d.cores n

/-- The device with core n replaced. -/
def setCore (d : Dev) (n : Nat) (c : Core) : Dev := { d with cores := mset (coreDefault n) d.cores n c }

/-- The device with core n changed by f. -/
def modCore (d : Dev) (n : Nat) (f : Core → Core) : Dev := setCore d n (f (core d n))

/-! ## X registers -/

/-- Xi: X0 reads as zero (R206). -/
def xget (c : Core) (i : Nat) : Word := if i = 0 then 0 else mget 0 c.x i

/-- The core with Xi written; a write to X0 is discarded (R206). -/
def xset (c : Core) (i : Nat) (v : Word) : Core := if i = 0 then c else { c with x := mset 0 c.x i v }

/-! ## Control registers -/

/-- Reset value of a control register that the core stores: VL resets to 64, every other one to zero. -/
def csrReset (k : Nat) : Word := if k = 0x100 then 64 else 0

/-- A stored control register. -/
def csrGet (c : Core) (k : Nat) : Word := mget (csrReset k) c.csr k

/-- The core with a stored control register written. -/
def csrSet (c : Core) (k : Nat) (v : Word) : Core := { c with csr := mset (csrReset k) c.csr k v }

/-- STATUS.PRIV (R226). -/
def privOf (c : Core) : Nat := bitsOf c.status.toNat 1 0
/-- STATUS.LEVEL. -/
def levelOf (c : Core) : Nat := bitsOf c.status.toNat 5 4
/-- STATUS.IE. -/
def ieOf (c : Core) : Bool := decide (bitsOf c.status.toNat 6 6 = 1)
/-- STATUS.AT. -/
def atOf (c : Core) : Bool := decide (bitsOf c.status.toNat 7 7 = 1)

/-- A STATUS word from its fields. -/
def mkStatus (priv level : Nat) (ie tr : Bool) : Word :=
  BitVec.ofNat 40 (priv % 4 + level % 4 * 16 + b2n ie * 64 + b2n tr * 128)

/-- CEILING of a core: the field of CORE_CTRL, where 2 and 3 behave as 1; M on the Signal Box (R225). -/
def ceilingOf (d : Dev) (n : Nat) : Nat := if n = 32 then 2 else min 1 (fld d .coreCtrl n 1 0)

/-- COREBASE (R226). -/
def coreBase (n : Nat) : Nat := 0x8100000000 + n * 0x1000000

/-- COUNT or LINES of a window register as it behaves: 4,097 to 8,191 behave as 4,096 (R219). -/
def sat4096 (n : Nat) : Nat := min n 4096

/-! ## Service of Wagons -/

/-- Field STAGE of a Wagon (R176). -/
def wStage (w : Wagon) : Nat := bitsOf w.w0.toNat 39 34
/-- Field FLOW. -/
def wFlow (w : Wagon) : Nat := bitsOf w.w0.toNat 33 18
/-- Field ROWS as every unit that reads it treats it (R177). -/
def wRows (w : Wagon) : Nat := sat4096 (bitsOf w.w0.toNat 12 0)
/-- Field CONSIST. -/
def wConsist (w : Wagon) : Nat := bitsOf w.w3.toNat 39 24
/-- The Wagon with CONSIST set to a Consist's id (R178). -/
def wSetConsist (w : Wagon) (c : Nat) : Wagon := { w with w3 := setBitsW w.w3 39 24 c }
/-- The Wagon with FLOW replaced (R190). -/
def wSetFlow (w : Wagon) (f : Nat) : Wagon := { w with w0 := setBitsW w.w0 33 18 f }

/-- The Wagon that a core serves: handed over, delivered, and not released (R191). -/
def serving (d : Dev) (n : Nat) : Option Service :=
  d.disp.service.find? (fun s => decide (s.core = n) && !d.disp.delivering.any (fun t => decide (t.serial = s.serial)) &&
    !d.disp.releasing.any (fun t => decide (t.serial = s.serial)))

/-- Ends a core's service as DROPW does: the Wagon leaves with its Consist, without release (R220). -/
def dropService (d : Dev) (n : Nat) : Dev :=
  match serving d n with
  | some s => { d with disp := { d.disp with service := d.disp.service.filter (fun t => decide (t.serial ≠ s.serial)) } }
  | none => d

/-- The Consist with an id. -/
def consist (d : Dev) (c : Nat) : Consist := mget {} d.consists c

/-- The device with a Consist replaced. -/
def setConsist (d : Dev) (c : Nat) (v : Consist) : Dev := { d with consists := mset {} d.consists c v }

/-- The device with a Consist changed by f. -/
def modConsist (d : Dev) (c : Nat) (f : Consist → Consist) : Dev := setConsist d c (f (consist d c))

/-- Cause 0x12 falls pending on every core that serves a Wagon of the Consist, whose release is not on its way already (R191, R224). -/
def abortInterrupts (d : Dev) (c : Nat) : Dev :=
  (d.disp.service.filter (fun s => decide (wConsist s.w = c) && !d.disp.releasing.any (fun t => decide (t.serial = s.serial)))).foldl
    (fun d s => modCore d s.core (fun k => { k with pend := sins k.pend 0x12, abortId := c })) d

/-- Rank of a terminating event among those of one cc, by its status (R98). -/
def eventRank (status : Nat) : Nat := [6, 0x0C, 7, 4, 0x0D, 8].findIdx (fun s => decide (s = status))

/-- Records a terminating event of a Consist: the first one governs, and among those of one cc the first in the order of R98; the cores serving the
Consist are interrupted (R224). In Completing it has no effect (R173). -/
def recordEvent (d : Dev) (c status result : Nat) : Dev :=
  let k := consist d c
  let k1 := { k with event := status, evResult := result, eventAt := d.cc }
  if k.valid ∧ k.event = 0 ∧ k.ph ≠ .completing then abortInterrupts (setConsist d c k1) c
  else if k.valid ∧ k.ph ≠ .completing ∧ k.eventAt = d.cc ∧ eventRank status < eventRank k.event then setConsist d c k1
  else d

/-- A write by a unit or a copy path for a Consist: a part of an uncorrectable on-chip unit is dropped and ends the Consist with DATA_ECC
(R325). -/
def unitWrite (d : Dev) (c : Option Nat) (a : Nat) (bs : List Byte) : Dev :=
  match devWriteFor c d a bs, c with
  | (d1, some l), some k => recordEvent d1 k 7 l
  | (d1, _), _ => d1

/-- RESULT of KERNEL_FAULT and CORE_TRIPLE_FAULT (R85, R223). -/
def faultResult (cause stage n pc : Nat) : Nat := cause % 256 + stage % 64 * 2 ^ 8 + n % 32 * 2 ^ 16 + pc % 2 ^ 40 * 2 ^ 24

/-! ## Exceptions -/

/-- Reads of GDDR6 by loads of core n numbered from k on. -/
def loadsFrom (n k : Nat) : GOwner → Bool := fun o => match o with | .load m i => decide (m = n ∧ k ≤ i) | _ => false

/-- The reset of a core: X registers, control registers, CURKEY and the pipeline; a core with RUN 1 restarts at
CORE_RESET_PC, at level 0 and privilege CEILING, and one with RUN 0 is held (R206, R230, R490). Q0 is all ones after it,
Q1 to Q7 are zero, and cells are kept (R239, R241). DESIGN CHOICE: the stores that wait in its store buffer go with the pipeline (assumption log 125). -/
def coreReset (d : Dev) (n : Nat) : Dev :=
  let run := n = 32 ∨ fld d .coreCtrl n 2 2 = 1
  let pc := if n = 32 then 0xE000000000 else (rd d .coreResetPc n).toNat
  let d1 := { d with disp := { d.disp with
    waiting := d.disp.waiting.filter (fun e => decide (e.1 ≠ n))
    offers := d.disp.offers.filter (fun o => decide (o.prod ≠ .core n)) } }
  let d2 := dropReqs d1 (loadsFrom n 0)
  let c := core d2 n
  setCore d2 n { (coreDefault n) with
    st := if run then .running else .held
    pc := pc
    status := mkStatus (ceilingOf d n) 0 false false
    cells := c.cells }

/-- A triple fault of the Signal Box: a device warm reset of cause 6, with the fault's cause and pc kept in AO (R230,
R445). -/
def sboxTriple (d : Dev) (cause epc : Nat) : Dev :=
  let d1 := resetDev d 6
  wr (setFld d1 .resetCause 0 15 8 cause) .resetPc 0 (BitVec.ofNat 40 epc)

/-- A cause taken at level 2 on an operator core (R230): CORE_FAULT and CORE_FAULT_PC, a device event, the Log Book, the
Consist's CORE_TRIPLE_FAULT, the end of service, and the core's reset. -/
def tripleFault (d : Dev) (n cause epc : Nat) : Dev :=
  if n = 32 then sboxTriple d cause epc
  else
    let s := serving d n
    let had := s.isSome
    let cs := match s with | some t => wConsist t.w | none => 0
    let stg := match s with | some t => wStage t.w | none => 0
    let cnt := min 0x3FFF (fld d .coreFault n 13 0 + 1)
    let d1 :=
      if fld d .coreFault n 39 39 = 1 then setFld d .coreFault n 13 0 cnt
      else
        wr (wr d .coreFault n (BitVec.ofNat 40
          (2 ^ 39 + b2n had * 2 ^ 38 + cause % 256 * 2 ^ 30 + cs % 1024 * 2 ^ 20 + stg % 64 * 2 ^ 14 + cnt)))
          .coreFaultPc n (BitVec.ofNat 40 epc)
    let d2 := logBook (sboxEvent d1 3) 2 0x0020 [n, (rd d1 .coreFault n).toNat, (rd d1 .coreFaultPc n).toNat]
    let d3 := if had then dropService (recordEvent d2 cs 6 (faultResult cause stg n epc)) n else d2
    coreReset d3 n

/-- TAKING AN EXCEPTION (R227): a cause at level n enters level n + 1. EPC, ESTAT, EADDR and ECAUSE of that level save
the pc, STATUS, the address and the cause with its element index; STATUS takes the new level, privilege CEILING, IE 0 and AT 0;
the pc goes to EVEC or DVEC. At level 2 it is a triple fault. Stores to own instruction memory become visible to fetch
(R217), and CORE_CNT instance 3 counts it (R234). Entry never accesses memory. Exceptions are precise: while an earlier load is in
flight, which may still fault, nothing is taken and the core waits (R205). -/
def takeException (d : Dev) (n cause epc eaddr vfidx : Nat) : Dev :=
  let c := core d n
  let d0 := if n = 32 then d else bump d .coreCnt (n * 4 + 3)
  let m := levelOf c + 1
  if c.loads ≠ [] then d
  else if 2 < m then tripleFault d0 n cause epc
  else
    let base := if m = 1 then 0x010 else 0x018
    let c1 := csrSet (csrSet (csrSet (csrSet c base (BitVec.ofNat 40 epc)) (base + 1) c.status) (base + 2)
      (BitVec.ofNat 40 eaddr)) (base + 3) (BitVec.ofNat 40 (cause + vfidx % 256 * 256))
    let vec := (csrGet c (if m = 1 then 0x008 else 0x009)).toNat / 4 * 4
    setCore d0 n { c1 with
      status := mkStatus (ceilingOf d n) m false false
      pc := vec, st := .running, oldCode := [], stalled := false, inVec := false }

/-- An instruction of core n has issued. It retires at once where no earlier load is in flight, and CORE_CNT instance 0 counts it; otherwise
it retires with the youngest of them (R205, R234). -/
def countIssue (d : Dev) (n : Nat) (c : Core) : Dev × Core :=
  let c1 := { c with stalled := false, inVec := false }
  match c1.loads.getLast? with
  | none => (if n = 32 then d else bump d .coreCnt (n * 4), c1)
  | some l => (d, { c1 with loads := c1.loads.dropLast ++ [{ l with after := l.after + 1 }] })

/-- RETURN FROM AN EXCEPTION (R229): at U cause 0x03, at level 0 cause 0x02, a refused privilege cause 0x09; otherwise STATUS
is ESTAT of the level with LEVEL lowered by one, and the pc is EPC with bits [1:0] cleared. -/
def returnException (d : Dev) (n w : Nat) : Dev :=
  let c := core d n
  let lv := levelOf c
  if privOf c = 0 then takeException d n 0x03 c.pc w 0
  else if lv = 0 then takeException d n 0x02 c.pc w 0
  else
    let base := if lv = 1 then 0x010 else 0x018
    let es := csrGet c (base + 1)
    let p := bitsOf es.toNat 1 0
    if p = 3 ∨ ceilingOf d n < p then takeException d n 0x09 c.pc p 0
    else
      let x := countIssue d n c
      setCore x.1 n (csrSet { x.2 with
        status := mkStatus p (lv - 1) (decide (bitsOf es.toNat 6 6 = 1)) (decide (bitsOf es.toNat 7 7 = 1))
        pc := (csrGet c base).toNat / 4 * 4, oldCode := [] } 0x029 (csrGet c 0x029 + 1))

/-! ## Interrupts -/

/-- Cause 0x10 is pending while CYCLE ≥ TCMP (R226). -/
def timerPending (c : Core) : Bool := decide ((csrGet c 0x02A).toNat ≤ (csrGet c 0x028).toNat)

/-- Whether a cause 0x10 to 0x16 is pending on core n (R231): the timer on every core, the end of a channel's count and
device events on the Signal Box, the latched causes where they were raised. -/
def causePending (d : Dev) (n cause : Nat) : Bool :=
  let c := core d n
  match cause with
  | 0x10 => timerPending c
  | 0x13 => decide (n = 32) && decide ((rd d .shuntIrq 0 &&& rd d .shuntIrqEn 0) ≠ 0)
  | 0x16 => decide (n = 32) && decide ((rd d .sboxEvent 0 &&& rd d .sboxEventEn 0) ≠ 0)
  | k => c.pend.contains k

/-- IPEND: bit k is 1 while cause 0x10 + k is pending (R226). -/
def ipend (d : Dev) (n : Nat) : Nat :=
  (List.range 7).foldl (fun a k => a + b2n (causePending d n (0x10 + k)) * 2 ^ k) 0

/-- The interrupt that core n takes at an instruction boundary: at level 0, the lowest pending cause that is cause 0x12 or
that IE and IMASK admit (R224, R231). -/
def dueInterrupt (d : Dev) (n : Nat) : Option Nat :=
  let c := core d n
  if levelOf c = 0 then
    [0x10, 0x12, 0x13, 0x14, 0x15, 0x16].find? (fun k =>
      causePending d n k && (decide (k = 0x12) || (ieOf c && decide (bitOf (csrGet c 0x002).toNat (k - 0x10) = 1))))
  else none

/-- The condition that ends a WAITI: a pending interrupt whose IMASK bit is 1, whatever IE holds, or cause 0x12 (R225). -/
def waitiEnds (d : Dev) (n : Nat) : Bool :=
  let c := core d n
  [0x10, 0x12, 0x13, 0x14, 0x15, 0x16].any (fun k =>
    causePending d n k && (decide (k = 0x12) || decide (bitOf (csrGet c 0x002).toNat (k - 0x10) = 1)))

/-! ## Fetch, issue and retirement -/

/-- Power domain of core n (R201, R422). -/
def coreDom (n : Nat) : Nat := if n = 32 then 1 else 4 + n / 4

/-- Whether an address may be fetched by core n: its own instruction memory; ROM and SRAM for the Signal Box (R202,
R233). -/
def fetchable (d : Dev) (n a : Nat) : Bool :=
  match regionOf d a with
  | .imem k => decide (k = n)
  | .rom | .sram => decide (n = 32)
  | _ => false

/-- The byte that core c sees at an address: its own buffered stores, in program order, over memory (R216). -/
def fwdByte (d : Dev) (c : Core) (a : Nat) : Byte :=
  c.stores.foldl (fun b s => s.parts.foldl (fun b p =>
    if p.1 ≤ a ∧ a < p.1 + p.2.length then (p.2[a - p.1]?).getD b else b) b) (memByte d a)

/-- The byte that core n fetches at an address: its stores to its own instruction memory show only after the next ERET or exception
entry (R217). -/
def fetchByte (d : Dev) (n a : Nat) : Byte :=
  let c := core d n
  match c.oldCode.find? (fun e => decide (e.1 = a)) with
  | some e => e.2
  | none => fwdByte d c a

/-- The 32-bit word that core n fetches at an address. -/
def fetchWord (d : Dev) (n a : Nat) : Nat := ofLE ((List.range 4).map (fun k => fetchByte d n (a + k)))

/-- Core n issues the instruction word w now: the device is Running, its domain is ON, the core runs, and w stands at its pc in
memory it may fetch. -/
def issues (d : Dev) (n w : Nat) : Bool :=
  let c := core d n
  running d && domOn d (coreDom n) && decide (c.st = .running) && fetchable d n c.pc && !memBad d c.pc 4 &&
    decide (fetchWord d n c.pc = w)

/-- The core after an instruction retires: INSTRET counts it and the pc moves on. -/
def retireTo (c : Core) (pc : Nat) : Core := { csrSet c 0x029 (csrGet c 0x029 + 1) with pc := pc % 2 ^ 40 }

/-- The device after core n issues an instruction with new core state c and the next pc (R205, R234). -/
def retire (d : Dev) (n : Nat) (c : Core) (pc : Nat) : Dev :=
  let x := countIssue d n c
  setCore x.1 n (retireTo x.2 pc)

/-- Issue of core n stands still, on a load, a full load or store path or a domain that wakes: CORE_CNT instance 2 counts the cc of it (R234). -/
def stallCount (d : Dev) (n : Nat) : Dev := modCore d n (fun c => { c with stalled := true })

/-- X registers that loads in flight will write. -/
def pendingX (c : Core) : List Nat :=
  c.loads.filterMap (fun l => match l.dest with | .x rd _ => some rd | .lnf rd _ => some rd | _ => none)

/-- Number of the first cell and count of cells of a vector register (R235, R243). -/
def vecCells (v : Nat) (long : Bool) : List Nat :=
  if long then (List.range 32).map (fun i => 32 * (v % 8) + i) else (List.range 4).map (fun i => 4 * (v % 64) + i)

/-- Cells that loads in flight will write. -/
def pendingCells (c : Core) : List Nat :=
  (c.loads.map (fun l => match l.dest with | .f rd => [rd] | .vec v long _ _ => vecCells v long | _ => [])).flatten

/-- Qualifiers that loads in flight will write. -/
def pendingQ (c : Core) : List Nat :=
  c.loads.filterMap (fun l => match l.dest with | .nullQ k _ => some k | .q k => some k | _ => none)

end Sys2Proof.Machine
end

