-- ==== Sys2Proof/Machine/Operands.lean ====
section
/-!
DEFINITION. The operand forms of the Fjarq ISA: the fields of formats A, I, S, B, J, L, Y (R208), V, VM and VG (R242, R243), the
views of the cell file (R235 to R237), qualifiers and active elements (R241), and the test that an instruction issues.
-/

namespace Sys2Proof.Machine

/-! ## Fields -/

/-- Major opcode. -/
def opOf (w : Nat) : Nat := bitsOf w 31 26
/-- Bits [25:21]: rd, rs or, in format B, ra. -/
def rdOf (w : Nat) : Nat := bitsOf w 25 21
/-- Bits [20:16]: ra or, in format B, rb. -/
def raOf (w : Nat) : Nat := bitsOf w 20 16
/-- Bits [15:11] of format A: rb. -/
def rbOf (w : Nat) : Nat := bitsOf w 15 11
/-- fn of format A. -/
def fnA (w : Nat) : Nat := bitsOf w 10 0
/-- imm16 zero-extended. -/
def immZ (w : Nat) : Word := BitVec.ofNat 40 (bitsOf w 15 0)
/-- imm16 sign-extended. -/
def immS (w : Nat) : Word := sextW 16 (bitsOf w 15 0)
/-- csr of format Y. -/
def csrOf (w : Nat) : Nat := bitsOf w 15 4
/-- fn of formats Y and V. -/
def fn4 (w : Nat) : Nat := bitsOf w 3 0
/-- fn of format VM. -/
def fnVM (w : Nat) : Nat := bitsOf w 10 8
/-- fn of format VG. -/
def fnVG (w : Nat) : Nat := bitsOf w 2 0
/-- vd of V, v of VM and VG. -/
def vdOf (w : Nat) : Nat := bitsOf w 25 20
/-- va of format V. -/
def vaOf (w : Nat) : Nat := bitsOf w 19 14
/-- vb of format V. -/
def vbOf (w : Nat) : Nat := bitsOf w 13 8
/-- k of format V. -/
def kV (w : Nat) : Nat := bitsOf w 7 5
/-- L of format V. -/
def longV (w : Nat) : Bool := decide (bitOf w 4 = 1)
/-- ra of VM and VG. -/
def raV (w : Nat) : Nat := bitsOf w 19 15
/-- k of format VM. -/
def kVM (w : Nat) : Nat := bitsOf w 14 12
/-- L of format VM. -/
def longVM (w : Nat) : Bool := decide (bitOf w 11 = 1)
/-- imm8 of format VM, sign-extended. -/
def imm8 (w : Nat) : Word := sextW 8 (bitsOf w 7 0)
/-- vi of format VG. -/
def viOf (w : Nat) : Nat := bitsOf w 14 9
/-- k of format VG. -/
def kVG (w : Nat) : Nat := bitsOf w 8 6
/-- L of format VG. -/
def longVG (w : Nat) : Bool := decide (bitOf w 5 = 1)

/-! ## The cell file -/

/-- A cell. -/
def cell (c : Core) (i : Nat) : Cell80 := mget 0 c.cells i
/-- The core with a cell written. -/
def setCell (c : Core) (i : Nat) (v : Cell80) : Core := { c with cells := mset 0 c.cells i v }

/-- The cell that holds element e of vector v (R236). -/
def elemCell (v : Nat) (long : Bool) (e : Nat) : Nat := if long then 32 * (v % 8) + e / 2 else 4 * (v % 64) + e / 2

/-- Element e of vector v (R236). -/
def elem (c : Core) (v : Nat) (long : Bool) (e : Nat) : Word :=
  (cell c (elemCell v long e)).extractLsb' (40 * (e % 2)) 40

/-- The core with element e of vector v written (R236). -/
def setElem (c : Core) (v : Nat) (long : Bool) (e : Nat) (x : Word) : Core :=
  let i := elemCell v long e
  let y := cell c i
  setCell c i (if e % 2 = 0 then y.extractLsb' 40 40 ++ x else x ++ y.extractLsb' 0 40)

/-- The core with elements of vector v written; every value was computed before (R238). -/
def setElems (c : Core) (v : Nat) (long : Bool) (xs : List (Nat × Word)) : Core :=
  xs.foldl (fun c e => setElem c v long e.1 e.2) c

/-- binary32 of an F register (R237). -/
def f32 (c : Core) (i : Nat) : Nat := (cell c (i % 32)).toNat % 2 ^ 32
/-- binary64 of an F register (R237). -/
def f64 (c : Core) (i : Nat) : Nat := (cell c (i % 32)).toNat % 2 ^ 64
/-- The core with a value in an F register and the bits above it zero (R237). -/
def setF (c : Core) (i v : Nat) : Core := setCell c (i % 32) (BitVec.ofNat 80 v)

/-- VL (R240). -/
def vlOf (c : Core) : Nat := (csrGet c 0x100).toNat
/-- The element count n (R240, R243). -/
def nElems (c : Core) (long : Bool) : Nat := if long then vlOf c else 8

/-- A qualifier (R241). -/
def qual (c : Core) (k : Nat) : BitVec 64 := mget 0 c.q k
/-- The core with a qualifier written. -/
def setQual (c : Core) (k : Nat) (v : BitVec 64) : Core := { c with q := mset 0 c.q k v }

/-- The active elements under qualifier k: j < n with bit j 1, rising (R241). -/
def actives (c : Core) (k : Nat) (long : Bool) : List Nat := idxWhere (nElems c long) (fun j => (qual c k).getLsbD j)

/-- A qualifier with the bits of a list of elements 1 and every other bit 0 (R241). -/
def bitsQ (js : List Nat) : BitVec 64 := js.foldl (fun a j => a ||| (1#64 <<< j)) 0

/-! ## Issue -/

/-- The registers an instruction reads or writes: X registers, cells, qualifiers. It waits while a load in flight will write
one of them. -/
structure Uses where
  xs : List Nat := []
  cells : List Nat := []
  qs : List Nat := []
  deriving DecidableEq, Repr

/-- No load in flight writes a register that an instruction uses. -/
def usesReady (c : Core) (u : Uses) : Bool :=
  u.xs.all (fun r => decide (r = 0) || !(pendingX c).contains r) && u.cells.all (fun r => !(pendingCells c).contains r) &&
    u.qs.all (fun r => !(pendingQ c).contains r)

/-- What an interrupt that is due lets an instruction do: its own exception is taken first, and the interrupt stays pending; a vector access that has begun
is completed first (R255); otherwise the interrupt goes before it (R231). The device before and after the instruction tell which. -/
def afterInterrupt (n : Nat) (d d1 : Dev) : Dev :=
  if (dueInterrupt d n).isNone ∨ (core d n).inVec ∨ levelOf (core d1 n) ≠ 0 then d1 else d

/-- The step of an instruction row: where its word `w` issues on core n and is one of the row's own, its body acts once every
register it uses is ready; until then issue stalls (R203, R204, R231, R258). -/
def instr (n : CoreIx) (w : BitVec 32) (mine : Nat → Bool) (uses : Nat → Uses) (body : Nat → Nat → Dev → Dev) (d : Dev) :
    Dev :=
  let v := w.toNat
  if mine v && issues d n.val v then
    afterInterrupt n.val d (if usesReady (core d n.val) (uses v) then body n.val v d else stallCount d n.val)
  else d

end Sys2Proof.Machine
end

