-- ==== Sys2Proof/Decode.lean ====
section
/-!
DEFINITION. The decoder. No row of the command table gives bits, so no table word spells a command (decodeTableWord). The Fjarq ISA does
give its instruction words: decodeInstrWord answers the row that a core's word stands for (R208 to R211, R220, R225, R242 to R252).
-/

namespace Sys2Proof

/-- The command that a word of the command table's bits spells: no row gives bits. -/
def decodeTableWord (_nbits _w : Nat) : Option Instr := none

/-- Opcode 0x00 (R211). -/
def decodeAlu (n : CoreIx) (w : BitVec 32) : Instr :=
  match Machine.fnA w.toNat with
  | 0 => .add n w
  | 1 => .sub n w
  | 2 => .andd n w
  | 3 => .orr n w
  | 4 => .xorr n w
  | 5 => .sll n w
  | 6 => .srl n w
  | 7 => .sra n w
  | 8 => .slt n w
  | 9 => .sltu n w
  | 10 => .min n w
  | 11 => .max n w
  | 12 => .minu n w
  | 13 => .maxu n w
  | 16 => .mul n w
  | 17 => .mulh n w
  | 18 => .mulhu n w
  | 20 => .div n w
  | 21 => .divu n w
  | 22 => .rem n w
  | 23 => .remu n w
  | 32 => .clz n w
  | 33 => .ctz n w
  | 34 => .popc n w
  | 48 => .h40 n w
  | _ => .undefinedOpcode n w

/-- Opcode 0x28 (R220). -/
def decodeWagon (n : CoreIx) (w : BitVec 32) : Instr :=
  match Machine.fnA w.toNat with
  | 1 => .waitw n w
  | 2 => .donew n w
  | 3 => .emitw n w
  | 4 => .emitwk n w
  | 16 => .dropw n w
  | 17 => .faultw n w
  | _ => .undefinedOpcode n w

/-- Opcode 0x2C (R225). -/
def decodeSys (n : CoreIx) (w : BitVec 32) : Instr :=
  match Machine.fn4 w.toNat with
  | 0 => .mfc n w
  | 1 => .mtc n w
  | 2 => .mset n w
  | 3 => .mclr n w
  | 4 => .eret n w
  | 5 => .brk n w
  | 6 => .waiti n w
  | _ => .undefinedOpcode n w

/-- Opcodes 0x30 and 0x31 (R245). -/
def decodeVInt (n : CoreIx) (w : BitVec 32) : Instr :=
  match Machine.fn4 w.toNat with
  | 0 => .vadd n w
  | 1 => .vsub n w
  | 2 => .vand n w
  | 3 => .vor n w
  | 4 => .vxor n w
  | 5 => .vsll n w
  | 6 => .vsrl n w
  | 7 => .vsra n w
  | 8 => .vmin n w
  | 9 => .vmax n w
  | 10 => .vminu n w
  | 11 => .vmaxu n w
  | 12 => .vmul n w
  | 13 => .vmulhu n w
  | 14 => .vh40 n w
  | 15 => .vsel n w
  | _ => .undefinedOpcode n w

/-- Opcodes 0x32 and 0x33: the scalar functions are undefined there (R246). -/
def decodeVFp (n : CoreIx) (w : BitVec 32) : Instr :=
  match Machine.fn4 w.toNat with
  | 0 => .fadd n w
  | 1 => .fsub n w
  | 2 => .fmul n w
  | 3 => .fdiv n w
  | 4 => .fmin n w
  | 5 => .fmax n w
  | 6 => .fsqrt n w
  | 7 => .fma n w
  | 8 => .fcvtfx n w
  | 9 => .fcvtxf n w
  | 10 => .fabs n w
  | 11 => .fneg n w
  | _ => .undefinedOpcode n w

/-- Opcode 0x34 (R246). -/
def decodeFp (n : CoreIx) (w : BitVec 32) : Instr :=
  match Machine.fn4 w.toNat with
  | 0 => .fadd n w
  | 1 => .fsub n w
  | 2 => .fmul n w
  | 3 => .fdiv n w
  | 4 => .fmin n w
  | 5 => .fmax n w
  | 6 => .fsqrt n w
  | 7 => .fma n w
  | 8 => .fcvtfx n w
  | 9 => .fcvtxf n w
  | 10 => .fabs n w
  | 11 => .fneg n w
  | 12 => .fcvtp n w
  | 13 => .fmvxf n w
  | 14 => .fmvfx n w
  | _ => .undefinedOpcode n w

/-- Opcode 0x36 (R249). -/
def decodeRed (n : CoreIx) (w : BitVec 32) : Instr :=
  match Machine.fn4 w.toNat with
  | 0 => .vrsum n w
  | 1 => .vrmin n w
  | 2 => .vrmax n w
  | 3 => .vrminu n w
  | 4 => .vrmaxu n w
  | 5 => .vrand n w
  | 6 => .vror n w
  | 7 => .vrxor n w
  | 8 => .frsum n w
  | 9 => .frmin n w
  | 10 => .frmax n w
  | _ => .undefinedOpcode n w

/-- Opcode 0x37 (R250). -/
def decodeMove (n : CoreIx) (w : BitVec 32) : Instr :=
  match Machine.fn4 w.toNat with
  | 0 => .vcompress n w
  | 1 => .vexpand n w
  | 2 => .vid n w
  | 3 => .vsplat n w
  | 4 => .vmov n w
  | 5 => .vext n w
  | 6 => .vins n w
  | _ => .undefinedOpcode n w

/-- Opcode 0x38 (R252). -/
def decodeVM (n : CoreIx) (w : BitVec 32) : Instr :=
  match Machine.fnVM w.toNat with
  | 0 => .vln n w
  | 1 => .vlnq n w
  | 2 => .vlp n w
  | 3 => .vlw n w
  | 4 => .vsn n w
  | 5 => .vsp n w
  | 6 => .vsw n w
  | _ => .undefinedOpcode n w

/-- Opcode 0x39 (R253). -/
def decodeVG (n : CoreIx) (w : BitVec 32) : Instr :=
  match Machine.fnVG w.toNat with
  | 0 => .vgn n w
  | 1 => .vgnq n w
  | 2 => .vgw n w
  | 4 => .vscn n w
  | 6 => .vscw n w
  | _ => .undefinedOpcode n w

/-- Opcode 0x3A (R251). -/
def decodeQ (n : CoreIx) (w : BitVec 32) : Instr :=
  match Machine.fn4 w.toNat with
  | 0 => .qboth n w
  | 1 => .qeither n w
  | 2 => .qdiff n w
  | 3 => .qtrim n w
  | 4 => .qflip n w
  | 5 => .qcount n w
  | 6 => .qfromx n w
  | 7 => .qlow n w
  | 8 => .qhigh n w
  | 9 => .qlead n w
  | 10 => .setvl n w
  | 11 => .qfill n w
  | _ => .undefinedOpcode n w

/-- Opcode 0x3B (R252). -/
def decodeQMem (n : CoreIx) (w : BitVec 32) : Instr :=
  match Machine.fnVM w.toNat with
  | 0 => .qld n w
  | 1 => .qst n w
  | _ => .undefinedOpcode n w

/-- Opcode 0x35: fn and fn + 8 are one comparison (R248). -/
def decodeCmp (n : CoreIx) (w : BitVec 32) : Instr :=
  match Machine.fn4 w.toNat % 8 with
  | 0 => .veq n w
  | 1 => .vne n w
  | 2 => .vlt n w
  | 3 => .vge n w
  | 4 => .vltu n w
  | 5 => .vgeu n w
  | 6 => .flt n w
  | _ => .fge n w

/-- The row that an instruction word of core n stands for; an undefined opcode or function is UNDEFINED_OPCODE (R209, R210, R244). -/
def decodeInstrWord (n : CoreIx) (w : BitVec 32) : Instr :=
  match Machine.opOf w.toNat with
  | 0x00 => decodeAlu n w
  | 0x01 => .addi n w
  | 0x02 => .andi n w
  | 0x03 => .ori n w
  | 0x04 => .xori n w
  | 0x05 => .slti n w
  | 0x06 => .sltiu n w
  | 0x07 => .slli n w
  | 0x08 => .srli n w
  | 0x09 => .srai n w
  | 0x0A => .lui n w
  | 0x0B => .orl n w
  | 0x10 => .lb n w
  | 0x11 => .lbu n w
  | 0x12 => .lh n w
  | 0x13 => .lhu n w
  | 0x14 => .lw n w
  | 0x15 => .lwu n w
  | 0x16 => .ln n w
  | 0x17 => .lnf n w
  | 0x18 => .sb n w
  | 0x19 => .sh n w
  | 0x1A => .sw n w
  | 0x1B => .sn n w
  | 0x20 => .beq n w
  | 0x21 => .bne n w
  | 0x22 => .blt n w
  | 0x23 => .bge n w
  | 0x24 => .bltu n w
  | 0x25 => .bgeu n w
  | 0x26 => .jal n w
  | 0x27 => .jalr n w
  | 0x28 => decodeWagon n w
  | 0x2C => decodeSys n w
  | 0x2D => .trap n w
  | 0x30 => decodeVInt n w
  | 0x31 => decodeVInt n w
  | 0x32 => decodeVFp n w
  | 0x33 => decodeVFp n w
  | 0x34 => decodeFp n w
  | 0x35 => decodeCmp n w
  | 0x36 => decodeRed n w
  | 0x37 => decodeMove n w
  | 0x38 => decodeVM n w
  | 0x39 => decodeVG n w
  | 0x3A => decodeQ n w
  | 0x3B => decodeQMem n w
  | 0x3C => .flw n w
  | 0x3D => .fsw n w
  | 0x3E => .fld n w
  | 0x3F => .fsd n w
  | _ => .undefinedOpcode n w

end Sys2Proof
end

