-- ==== Sys2Proof/Machine/Float.lean ====
section
/-!
DEFINITION. Floating-point arithmetic of R247: IEEE 754 binary32 and binary64 by exact integers and one rounding, with the
spec's decisions on NaN, flushing, minimum and conversion. Flags are a mask of FCSR's bits (R260).
-/

namespace Sys2Proof.Machine

/-- A binary format: widths of the exponent and of the fraction. -/
structure FFmt where
  eb : Nat
  mb : Nat
  deriving DecidableEq, Repr

/-- binary32. -/
def b32 : FFmt := ⟨8, 23⟩
/-- binary64. -/
def b64 : FFmt := ⟨11, 52⟩

/-- Largest exponent, which is also the bias. -/
def FFmt.bias (f : FFmt) : Nat := 2 ^ (f.eb - 1) - 1
/-- Exponent of the last bit of a subnormal. -/
def FFmt.qmin (f : FFmt) : Int := 1 - (f.bias : Int) - (f.mb : Int)
/-- The sign bit of the format. -/
def FFmt.signBit (f : FFmt) : Nat := 2 ^ (f.eb + f.mb)
/-- Infinity, without sign. -/
def FFmt.inf (f : FFmt) : Nat := (2 ^ f.eb - 1) * 2 ^ f.mb
/-- The quiet NaN of R247. -/
def FFmt.qnan (f : FFmt) : Nat := f.inf + 2 ^ (f.mb - 1)
/-- The bits of a sign. -/
def FFmt.sgn (f : FFmt) (neg : Bool) : Nat := if neg then f.signBit else 0

/-- NV, DZ, OF, UF and NX at their places in FCSR (R260). -/
def fNV : Nat := 256
def fDZ : Nat := 128
def fOF : Nat := 64
def fUF : Nat := 32
def fNX : Nat := 16

/-- A value of a format: a finite one is (−1)^neg × m × 2^e. -/
inductive FVal where
  | nan (signalling : Bool)
  | inf (neg : Bool)
  | fin (neg : Bool) (m : Nat) (e : Int)
  deriving DecidableEq, Repr

/-- The value that bits of a format spell; with FZ a subnormal reads as a zero of its sign (R247). -/
def fdecode (f : FFmt) (fz : Bool) (bits : Nat) : FVal :=
  let neg := decide (bitOf bits (f.eb + f.mb) = 1)
  let ex := bitsOf bits (f.eb + f.mb - 1) f.mb
  let man := bits % 2 ^ f.mb
  if ex = 2 ^ f.eb - 1 then (if man = 0 then .inf neg else .nan (decide (bitOf man (f.mb - 1) = 0)))
  else if ex = 0 then (if fz then .fin neg 0 0 else .fin neg man f.qmin)
  else .fin neg (man + 2 ^ f.mb) (f.qmin + (ex - 1 : Nat))

/-- Number of bits of a number. -/
def bitLen (n : Nat) : Nat := if n = 0 then 0 else n.log2 + 1

/-- Rounds (m + δ) × 2^e, 0 ≤ δ < 1 with δ > 0 exactly where sticky holds, to a multiple of 2^q by the rounding mode: the
multiple, and whether it is inexact. -/
def roundAt (rm : Nat) (neg : Bool) (m : Nat) (e : Int) (sticky : Bool) (q : Int) : Nat × Bool :=
  if q ≤ e then (m <<< (e - q).toNat, sticky)
  else
    let s := (q - e).toNat
    let k := m >>> s
    let r := m % 2 ^ s
    let half := 2 ^ (s - 1)
    let inexact := decide (r ≠ 0) || sticky
    let up := match rm with
      | 1 => false
      | 2 => inexact && neg
      | 3 => inexact && !neg
      | 4 => decide (half ≤ r)
      | _ => decide (half < r) || (decide (r = half) && (sticky || decide (k % 2 = 1)))
    (if up then k + 1 else k, inexact)

/-- The result of an operation on the exact value (m + δ) × 2^e: rounded once, with overflow, underflow and FZ (R247). `key`
names the operands for the flags the spec leaves open. -/
def fround (f : FFmt) (rm : Nat) (fz : Bool) (key : List Nat) (neg : Bool) (m : Nat) (e : Int) (sticky : Bool) : Nat × Nat :=
  if m = 0 ∧ !sticky then (f.sgn neg, 0)
  else
    let q := e + (bitLen m : Int) - (f.mb + 1 : Nat)
    let q' := max q f.qmin
    let r := roundAt rm neg m e sticky q'
    let bits := (q' - f.qmin).toNat * 2 ^ f.mb + r.1
    let nx := if r.2 then fNX else 0
    if f.inf ≤ bits then
      let toInf := match rm with | 1 => false | 2 => neg | 3 => !neg | _ => true
      (f.sgn neg + (if toInf then f.inf else f.inf - 1), fOF + fNX)
    else if fz ∧ 0 < bits ∧ bits < 2 ^ f.mb then
      let fl := (Config.flushFlags key).toNat
      (f.sgn neg, bitOf fl 0 * fNX + bitOf fl 1 * fUF)
    else
      let before := decide (e + (bitLen m : Int) ≤ 1 - (f.bias : Int))
      let u := roundAt rm neg m e sticky q
      let after := decide (q + (bitLen u.1 : Int) ≤ 1 - (f.bias : Int))
      let tiny := if before = after then before else if Config.tinyAfterRounding then after else before
      (f.sgn neg + bits, nx + (if r.2 && tiny then fUF else 0))

/-- Whether an operand is a signalling NaN. -/
def isSNaN (a : FVal) : Bool := match a with | .nan s => s | _ => false
/-- Whether an operand is a NaN. -/
def isNaN (a : FVal) : Bool := match a with | .nan _ => true | _ => false
/-- Sign of a value that is no NaN. -/
def fneg (a : FVal) : Bool := match a with | .nan _ => false | .inf n => n | .fin n _ _ => n
/-- Whether a value is zero. -/
def isZero (a : FVal) : Bool := match a with | .fin _ m _ => decide (m = 0) | _ => false
/-- Whether a value is infinite. -/
def isInf (a : FVal) : Bool := match a with | .inf _ => true | _ => false

/-- The quiet NaN with NV where an operand signals. -/
def nanOf (f : FFmt) (xs : List FVal) : Nat × Nat := (f.qnan, if xs.any isSNaN then fNV else 0)

/-- Signed significand scaled to exponent e. -/
def scaled (neg : Bool) (m : Nat) (ea e : Int) : Int :=
  let v : Int := ((m <<< (ea - e).toNat : Nat) : Int)
  if neg then -v else v

/-- Exact sum of two finite values, rounded; an exact zero sum of unlike signs is +0, or −0 toward −∞. -/
def sumFin (f : FFmt) (rm : Nat) (fz : Bool) (key : List Nat) (na : Bool) (ma : Nat) (ea : Int) (nb : Bool) (mb : Nat)
    (eb : Int) : Nat × Nat :=
  let e := min ea eb
  let v := scaled na ma ea e + scaled nb mb eb e
  if v = 0 then (f.sgn (if na = nb then na else decide (rm = 2)), 0)
  else fround f rm fz key (decide (v < 0)) v.natAbs e false

/-- a + b. -/
def fadd (f : FFmt) (rm : Nat) (fz : Bool) (x y : Nat) : Nat × Nat :=
  let a := fdecode f fz x
  let b := fdecode f fz y
  match a, b with
  | .nan _, _ => nanOf f [a, b]
  | _, .nan _ => nanOf f [a, b]
  | .inf n, .inf k => if n = k then (f.sgn n + f.inf, 0) else (f.qnan, fNV)
  | .inf n, _ => (f.sgn n + f.inf, 0)
  | _, .inf k => (f.sgn k + f.inf, 0)
  | .fin na ma ea, .fin nb mb eb => sumFin f rm fz [x, y] na ma ea nb mb eb

/-- a with its sign inverted. -/
def fnegBits (f : FFmt) (x : Nat) : Nat := (x ^^^ f.signBit) % (2 * f.signBit)

/-- a − b: the sum of a and b with its sign inverted; a NaN stays a NaN of its kind. -/
def fsub (f : FFmt) (rm : Nat) (fz : Bool) (x y : Nat) : Nat × Nat := fadd f rm fz x (fnegBits f y)

/-- a × b. -/
def fmul (f : FFmt) (rm : Nat) (fz : Bool) (x y : Nat) : Nat × Nat :=
  let a := fdecode f fz x
  let b := fdecode f fz y
  match a, b with
  | .nan _, _ => nanOf f [a, b]
  | _, .nan _ => nanOf f [a, b]
  | .fin na ma ea, .fin nb mb eb => fround f rm fz [x, y] (na ^^ nb) (ma * mb) (ea + eb) false
  | _, _ => if isZero a ∨ isZero b then (f.qnan, fNV) else (f.sgn (fneg a ^^ fneg b) + f.inf, 0)

/-- a / b. -/
def fdiv (f : FFmt) (rm : Nat) (fz : Bool) (x y : Nat) : Nat × Nat :=
  let a := fdecode f fz x
  let b := fdecode f fz y
  let s := fneg a ^^ fneg b
  match a, b with
  | .nan _, _ => nanOf f [a, b]
  | _, .nan _ => nanOf f [a, b]
  | .inf _, .inf _ => (f.qnan, fNV)
  | .inf _, _ => (f.sgn s + f.inf, 0)
  | _, .inf _ => (f.sgn s, 0)
  | .fin _ ma ea, .fin _ mb eb =>
    if mb = 0 then (if ma = 0 then (f.qnan, fNV) else (f.sgn s + f.inf, fDZ))
    else
      let k := 2 * f.mb + 8
      let n := ma <<< k
      fround f rm fz [x, y] s (n / mb) (ea - eb - k) (decide (n % mb ≠ 0))

/-- The integer square root of n below 2^(2k), from its bits k − 1 down. -/
def isqrt (n : Nat) : Nat → Nat → Nat
  | 0, r => r
  | k + 1, r => isqrt n k (if (r + 2 ^ k) * (r + 2 ^ k) ≤ n then r + 2 ^ k else r)

/-- Square root of a. -/
def fsqrt (f : FFmt) (rm : Nat) (fz : Bool) (x : Nat) : Nat × Nat :=
  let a := fdecode f fz x
  match a with
  | .nan _ => nanOf f [a]
  | .inf n => if n then (f.qnan, fNV) else (f.inf, 0)
  | .fin n m e =>
    if m = 0 then (f.sgn n, 0)
    else if n then (f.qnan, fNV)
    else
      let s := 2 * (f.mb + 4) + (e % 2).toNat
      let v := m <<< s
      let r := isqrt v (2 * f.mb + 16) 0
      fround f rm fz [x] false r ((e - s) / 2) (decide (r * r ≠ v))

/-- d + a × b with one rounding. -/
def ffma (f : FFmt) (rm : Nat) (fz : Bool) (x y z : Nat) : Nat × Nat :=
  let a := fdecode f fz x
  let b := fdecode f fz y
  let c := fdecode f fz z
  let bad := (isInf a && isZero b) || (isZero a && isInf b)
  let s := fneg a ^^ fneg b
  if isNaN a ∨ isNaN b then nanOf f [a, b, c]
  else if isNaN c then
    (f.qnan, if isSNaN c ∨ (bad ∧ Config.fmaNanInvalid) then fNV else 0)
  else if bad then (f.qnan, fNV)
  else
    match a, b, c with
    | .fin na ma ea, .fin nb mb eb, .fin nc mc ec => sumFin f rm fz [x, y, z] (na ^^ nb) (ma * mb) (ea + eb) nc mc ec
    | .fin _ _ _, .fin _ _ _, w => (f.sgn (fneg w) + f.inf, 0)
    | _, _, .inf n => if n = s then (f.sgn n + f.inf, 0) else (f.qnan, fNV)
    | _, _, _ => (f.sgn s + f.inf, 0)

/-- a < b of two values that are no NaN; −0 and +0 are equal. -/
def fless (a b : FVal) : Bool :=
  match a, b with
  | .inf n, .inf k => n && !k
  | .inf n, _ => n
  | _, .inf k => !k
  | .fin na ma ea, .fin nb mb eb => let e := min ea eb; decide (scaled na ma ea e < scaled nb mb eb e)
  | _, _ => false

/-- Bits of a value as an operand delivers it: a flushed subnormal is a zero of its sign. -/
def asRead (f : FFmt) (fz : Bool) (x : Nat) : Nat :=
  if fz ∧ bitsOf x (f.eb + f.mb - 1) f.mb = 0 then f.sgn (decide (bitOf x (f.eb + f.mb) = 1)) else x

/-- An operation on the sign alone, FABS and FNEG, under the decisions of R247: a NaN gives the quiet NaN, with NV where it signals, and with FZ a
subnormal is a zero of its sign. -/
def fsignOp (f : FFmt) (fz : Bool) (out : Bool → Bool) (x : Nat) : Nat × Nat :=
  match fdecode f fz x with
  | .nan s => (f.qnan, if s then fNV else 0)
  | _ => (asRead f fz x % f.signBit + f.sgn (out (decide (bitOf x (f.eb + f.mb) = 1))), 0)

/-- Minimum (or maximum) of R247: −0 is below +0, one NaN gives the other operand, two give the quiet NaN. -/
def fminmax (f : FFmt) (fz : Bool) (wantMax : Bool) (x y : Nat) : Nat × Nat :=
  let a := fdecode f fz x
  let b := fdecode f fz y
  let fl := if isSNaN a ∨ isSNaN b then fNV else 0
  if isNaN a ∧ isNaN b then (f.qnan, fl)
  else if isNaN a then (asRead f fz y, fl)
  else if isNaN b then (asRead f fz x, fl)
  else
    let lt := fless a b || (isZero a && isZero b && fneg a && !fneg b)
    (asRead f fz (if lt = wantMax then y else x), fl)

/-- A signed integer converted to a format. -/
def fofInt (f : FFmt) (rm : Nat) (v : Int) : Nat × Nat :=
  if v = 0 then (0, 0) else fround f rm false [] (decide (v < 0)) v.natAbs 0 false

/-- A value converted to a signed 40-bit integer by the rounding mode: out of range gives the bound it passes, a NaN gives 0,
both with NV (R247). -/
def ftoInt (f : FFmt) (rm : Nat) (fz : Bool) (x : Nat) : Word × Nat :=
  match fdecode f fz x with
  | .nan _ => (0, fNV)
  | .inf n => (BitVec.ofInt 40 (if n then -(2 ^ 39) else 2 ^ 39 - 1), fNV)
  | .fin n m e =>
    let r := roundAt rm n m e false 0
    let v : Int := if n then -(r.1 : Int) else r.1
    if v < -(2 ^ 39) then (BitVec.ofInt 40 (-(2 ^ 39)), fNV)
    else if 2 ^ 39 - 1 < v then (BitVec.ofInt 40 (2 ^ 39 - 1), fNV)
    else (BitVec.ofInt 40 v, if r.2 then fNX else 0)

/-- A value of one format converted to another (FCVTP). -/
def fconv (src dst : FFmt) (rm : Nat) (fz : Bool) (x : Nat) : Nat × Nat :=
  let a := fdecode src fz x
  match a with
  | .nan s => (dst.qnan, if s then fNV else 0)
  | .inf n => (dst.sgn n + dst.inf, 0)
  | .fin n m e => fround dst rm fz [x] n m e false

/-- a < b in binary32, 0 with NV where either is a NaN (R248). -/
def fltBits (fz : Bool) (x y : Nat) : Bool × Nat :=
  let a := fdecode b32 fz x
  let b := fdecode b32 fz y
  if isNaN a ∨ isNaN b then (false, fNV) else (fless a b, 0)

/-- a ≥ b in binary32, 0 with NV where either is a NaN (R248). -/
def fgeBits (fz : Bool) (x y : Nat) : Bool × Nat :=
  let a := fdecode b32 fz x
  let b := fdecode b32 fz y
  if isNaN a ∨ isNaN b then (false, fNV) else (!fless a b, 0)

end Sys2Proof.Machine
end

