-- ==== Sys2Proof/Machine/Flags.lean ====
section
/-!
DEFINITION. The flag and arithmetic computations of the ISA: integer results of R211 and R212, the sticky flags of FCSR and its
rounding mode (R247, R260).
-/

namespace Sys2Proof.Machine

/-! ## Integer arithmetic (R211, R212) -/

/-- Shift distance: rb modulo 40, rb unsigned. -/
def shiftBy (b : Word) : Nat := b.toNat % 40

/-- Logical shift left. -/
def sll (a b : Word) : Word := a <<< shiftBy b
/-- Logical shift right. -/
def srl (a b : Word) : Word := a >>> shiftBy b
/-- Arithmetic shift right. -/
def sra (a b : Word) : Word := a.sshiftRight (shiftBy b)
/-- 1 where a < b, signed. -/
def slt (a b : Word) : Word := if a.toInt < b.toInt then 1 else 0
/-- 1 where a < b, unsigned. -/
def sltu (a b : Word) : Word := if a.toNat < b.toNat then 1 else 0
/-- Signed minimum. -/
def smin (a b : Word) : Word := if a.toInt < b.toInt then a else b
/-- Signed maximum. -/
def smax (a b : Word) : Word := if a.toInt < b.toInt then b else a
/-- Unsigned minimum. -/
def umin (a b : Word) : Word := if a.toNat < b.toNat then a else b
/-- Unsigned maximum. -/
def umax (a b : Word) : Word := if a.toNat < b.toNat then b else a
/-- High 40 bits of the 80-bit signed product. -/
def mulh (a b : Word) : Word := BitVec.ofInt 40 (a.toInt * b.toInt / 2 ^ 40)
/-- High 40 bits of the 80-bit unsigned product. -/
def mulhu (a b : Word) : Word := BitVec.ofNat 40 (a.toNat * b.toNat / 2 ^ 40)
/-- Signed quotient truncated toward zero; by zero all ones; −2^39 by −1 wraps to −2^39 (R212). -/
def sdivW (a b : Word) : Word := if b = 0 then BitVec.allOnes 40 else BitVec.ofInt 40 (a.toInt.tdiv b.toInt)
/-- Unsigned quotient; by zero all ones (R212). -/
def udivW (a b : Word) : Word := if b = 0 then BitVec.allOnes 40 else BitVec.ofNat 40 (a.toNat / b.toNat)
/-- a − b × DIV(a, b); by zero a (R211, R212). -/
def sremW (a b : Word) : Word := if b = 0 then a else a - b * sdivW a b
/-- Unsigned remainder; by zero a (R212). -/
def uremW (a b : Word) : Word := if b = 0 then a else BitVec.ofNat 40 (a.toNat % b.toNat)
/-- Leading zeros of a k-bit number. -/
def clzN : Nat → Nat → Nat
  | 0, _ => 0
  | k + 1, v => if bitOf v k = 1 then 0 else 1 + clzN k v
/-- Trailing zeros of a k-bit number. -/
def ctzN : Nat → Nat → Nat
  | 0, _ => 0
  | k + 1, v => if v % 2 = 1 then 0 else 1 + ctzN k (v / 2)
/-- H40 of R160. -/
def h40W (a : Word) : Word :=
  let x := a * 0xC6A4A7935B#40
  x ^^^ (x >>> 19)

/-! ## FCSR (R260) -/

/-- The rounding mode as it behaves: 5 to 7 behave as 0. -/
def rmOf (c : Core) : Nat := let r := bitsOf (csrGet c 0x101).toNat 2 0; if 4 < r then 0 else r
/-- FZ. -/
def fzOf (c : Core) : Bool := decide (bitOf (csrGet c 0x101).toNat 3 = 1)
/-- The core with flags set in FCSR; flags are sticky (R247). -/
def setFlags (c : Core) (fl : Nat) : Core := csrSet c 0x101 (csrGet c 0x101 ||| BitVec.ofNat 40 fl)
/-- The OR of the flags of a list of results (R247). -/
def orFlags (xs : List Nat) : Nat := xs.foldl (fun a b => a ||| b) 0

end Sys2Proof.Machine
end

