-- ==== Sys2Proof/Machine/CoreInt.lean ====
section
/-!
DEFINITION. The integer instructions of the Fjarq ISA (R208 to R213): the ALU functions of opcode 0x00 and the immediate forms.
-/

namespace Sys2Proof.Machine

/-- A word of opcode 0x00 with function fn. -/
def isAlu (fn w : Nat) : Bool := decide (opOf w = 0x00 ∧ fnA w = fn)

/-- A word of a major opcode. -/
def isOp (op w : Nat) : Bool := decide (opOf w = op)

/-- Registers of a two-source ALU function. -/
def usesAbc (w : Nat) : Uses := { xs := [rdOf w, raOf w, rbOf w] }

/-- Registers of a one-source form. -/
def usesAb (w : Nat) : Uses := { xs := [rdOf w, raOf w] }

/-- rd = f ra rb; the pc moves on. -/
def aluRow (f : Word → Word → Word) (n w : Nat) (d : Dev) : Dev :=
  let c := core d n
  retire d n (xset c (rdOf w) (f (xget c (raOf w)) (xget c (rbOf w)))) (c.pc + 4)

/-- rd = f ra; the pc moves on. -/
def unaryRow (f : Word → Word) (n w : Nat) (d : Dev) : Dev :=
  let c := core d n
  retire d n (xset c (rdOf w) (f (xget c (raOf w)))) (c.pc + 4)

/-- rd = f ra imm, with the immediate that `im` takes from the word. -/
def immRow (im : Nat → Word) (f : Word → Word → Word) (n w : Nat) (d : Dev) : Dev :=
  let c := core d n
  retire d n (xset c (rdOf w) (f (xget c (raOf w)) (im w))) (c.pc + 4)

/-- A division or remainder: with STATUS.AT 1 a zero divisor takes cause 0x0A with EADDR 0 instead of writing rd (R212). -/
def divRow (f : Word → Word → Word) (n w : Nat) (d : Dev) : Dev :=
  let c := core d n
  if xget c (rbOf w) = 0 ∧ atOf c then takeException d n 0x0A c.pc 0 0 else aluRow f n w d

/-- Shift distance of the immediate shifts, imm16[5:0] (R210). -/
def imm6 (w : Nat) : Word := BitVec.ofNat 40 (bitsOf w 5 0)

/-- ADD: rd = ra + rb (R211). -/
def execAdd (n : CoreIx) (w : BitVec 32) (s : State) : Host.Outcome State Fault Refusal :=
  onDev s (instr n w (isAlu 0x000) usesAbc (aluRow (fun a b => a + b)))

/-- SUB: rd = ra − rb (R211). -/
def execSub (n : CoreIx) (w : BitVec 32) (s : State) : Host.Outcome State Fault Refusal :=
  onDev s (instr n w (isAlu 0x001) usesAbc (aluRow (fun a b => a - b)))

/-- AND: rd = ra AND rb (R211). -/
def execAndd (n : CoreIx) (w : BitVec 32) (s : State) : Host.Outcome State Fault Refusal :=
  onDev s (instr n w (isAlu 0x002) usesAbc (aluRow (fun a b => a &&& b)))

/-- OR: rd = ra OR rb (R211). -/
def execOrr (n : CoreIx) (w : BitVec 32) (s : State) : Host.Outcome State Fault Refusal :=
  onDev s (instr n w (isAlu 0x003) usesAbc (aluRow (fun a b => a ||| b)))

/-- XOR: rd = ra XOR rb (R211). -/
def execXorr (n : CoreIx) (w : BitVec 32) (s : State) : Host.Outcome State Fault Refusal :=
  onDev s (instr n w (isAlu 0x004) usesAbc (aluRow (fun a b => a ^^^ b)))

/-- SLL: rd = ra << (rb mod 40) (R211). -/
def execSll (n : CoreIx) (w : BitVec 32) (s : State) : Host.Outcome State Fault Refusal :=
  onDev s (instr n w (isAlu 0x005) usesAbc (aluRow sll))

/-- SRL: rd = ra >> (rb mod 40), logical (R211). -/
def execSrl (n : CoreIx) (w : BitVec 32) (s : State) : Host.Outcome State Fault Refusal :=
  onDev s (instr n w (isAlu 0x006) usesAbc (aluRow srl))

/-- SRA: rd = ra >> (rb mod 40), arithmetic (R211). -/
def execSra (n : CoreIx) (w : BitVec 32) (s : State) : Host.Outcome State Fault Refusal :=
  onDev s (instr n w (isAlu 0x007) usesAbc (aluRow sra))

/-- SLT: rd = 1 if ra < rb, signed, else 0 (R211). -/
def execSlt (n : CoreIx) (w : BitVec 32) (s : State) : Host.Outcome State Fault Refusal :=
  onDev s (instr n w (isAlu 0x008) usesAbc (aluRow slt))

/-- SLTU: rd = 1 if ra < rb, unsigned, else 0 (R211). -/
def execSltu (n : CoreIx) (w : BitVec 32) (s : State) : Host.Outcome State Fault Refusal :=
  onDev s (instr n w (isAlu 0x009) usesAbc (aluRow sltu))

/-- MIN: rd = signed minimum (R211). -/
def execMin (n : CoreIx) (w : BitVec 32) (s : State) : Host.Outcome State Fault Refusal :=
  onDev s (instr n w (isAlu 0x00A) usesAbc (aluRow smin))

/-- MAX: rd = signed maximum (R211). -/
def execMax (n : CoreIx) (w : BitVec 32) (s : State) : Host.Outcome State Fault Refusal :=
  onDev s (instr n w (isAlu 0x00B) usesAbc (aluRow smax))

/-- MINU: rd = unsigned minimum (R211). -/
def execMinu (n : CoreIx) (w : BitVec 32) (s : State) : Host.Outcome State Fault Refusal :=
  onDev s (instr n w (isAlu 0x00C) usesAbc (aluRow umin))

/-- MAXU: rd = unsigned maximum (R211). -/
def execMaxu (n : CoreIx) (w : BitVec 32) (s : State) : Host.Outcome State Fault Refusal :=
  onDev s (instr n w (isAlu 0x00D) usesAbc (aluRow umax))

/-- MUL: rd = low 40 bits of ra × rb (R211). -/
def execMul (n : CoreIx) (w : BitVec 32) (s : State) : Host.Outcome State Fault Refusal :=
  onDev s (instr n w (isAlu 0x010) usesAbc (aluRow (fun a b => a * b)))

/-- MULH: rd = high 40 bits of the signed product (R211). -/
def execMulh (n : CoreIx) (w : BitVec 32) (s : State) : Host.Outcome State Fault Refusal :=
  onDev s (instr n w (isAlu 0x011) usesAbc (aluRow mulh))

/-- MULHU: rd = high 40 bits of the unsigned product (R211). -/
def execMulhu (n : CoreIx) (w : BitVec 32) (s : State) : Host.Outcome State Fault Refusal :=
  onDev s (instr n w (isAlu 0x012) usesAbc (aluRow mulhu))

/-- DIV: rd = ra / rb, signed (R211, R212). -/
def execDiv (n : CoreIx) (w : BitVec 32) (s : State) : Host.Outcome State Fault Refusal :=
  onDev s (instr n w (isAlu 0x014) usesAbc (divRow sdivW))

/-- DIVU: rd = ra / rb, unsigned (R211, R212). -/
def execDivu (n : CoreIx) (w : BitVec 32) (s : State) : Host.Outcome State Fault Refusal :=
  onDev s (instr n w (isAlu 0x015) usesAbc (divRow udivW))

/-- REM: rd = signed remainder (R211, R212). -/
def execRem (n : CoreIx) (w : BitVec 32) (s : State) : Host.Outcome State Fault Refusal :=
  onDev s (instr n w (isAlu 0x016) usesAbc (divRow sremW))

/-- REMU: rd = unsigned remainder (R211, R212). -/
def execRemu (n : CoreIx) (w : BitVec 32) (s : State) : Host.Outcome State Fault Refusal :=
  onDev s (instr n w (isAlu 0x017) usesAbc (divRow uremW))

/-- CLZ: rd = leading zeros of ra (R211). -/
def execClz (n : CoreIx) (w : BitVec 32) (s : State) : Host.Outcome State Fault Refusal :=
  onDev s (instr n w (isAlu 0x020) usesAb (unaryRow (fun a => BitVec.ofNat 40 (clzN 40 a.toNat))))

/-- CTZ: rd = trailing zeros of ra (R211). -/
def execCtz (n : CoreIx) (w : BitVec 32) (s : State) : Host.Outcome State Fault Refusal :=
  onDev s (instr n w (isAlu 0x021) usesAb (unaryRow (fun a => BitVec.ofNat 40 (ctzN 40 a.toNat))))

/-- POPC: rd = set bits of ra (R211). -/
def execPopc (n : CoreIx) (w : BitVec 32) (s : State) : Host.Outcome State Fault Refusal :=
  onDev s (instr n w (isAlu 0x022) usesAb (unaryRow (fun a => BitVec.ofNat 40 (popcN 40 a.toNat))))

/-- H40: rd = H40(ra) (R211). -/
def execH40 (n : CoreIx) (w : BitVec 32) (s : State) : Host.Outcome State Fault Refusal :=
  onDev s (instr n w (isAlu 0x030) usesAb (unaryRow h40W))

/-- ADDI: rd = ra + sext(imm16) (R210). -/
def execAddi (n : CoreIx) (w : BitVec 32) (s : State) : Host.Outcome State Fault Refusal :=
  onDev s (instr n w (isOp 0x01) usesAb (immRow immS (fun a b => a + b)))

/-- ANDI: rd = ra AND zext(imm16) (R210). -/
def execAndi (n : CoreIx) (w : BitVec 32) (s : State) : Host.Outcome State Fault Refusal :=
  onDev s (instr n w (isOp 0x02) usesAb (immRow immZ (fun a b => a &&& b)))

/-- ORI: rd = ra OR zext(imm16) (R210). -/
def execOri (n : CoreIx) (w : BitVec 32) (s : State) : Host.Outcome State Fault Refusal :=
  onDev s (instr n w (isOp 0x03) usesAb (immRow immZ (fun a b => a ||| b)))

/-- XORI: rd = ra XOR zext(imm16) (R210). -/
def execXori (n : CoreIx) (w : BitVec 32) (s : State) : Host.Outcome State Fault Refusal :=
  onDev s (instr n w (isOp 0x04) usesAb (immRow immZ (fun a b => a ^^^ b)))

/-- SLTI: rd = 1 if ra < sext(imm16), signed, else 0 (R210). -/
def execSlti (n : CoreIx) (w : BitVec 32) (s : State) : Host.Outcome State Fault Refusal :=
  onDev s (instr n w (isOp 0x05) usesAb (immRow immS slt))

/-- SLTIU: rd = 1 if ra < sext(imm16), unsigned, else 0 (R210). -/
def execSltiu (n : CoreIx) (w : BitVec 32) (s : State) : Host.Outcome State Fault Refusal :=
  onDev s (instr n w (isOp 0x06) usesAb (immRow immS sltu))

/-- SLLI: rd = ra << (imm16[5:0] mod 40) (R210). -/
def execSlli (n : CoreIx) (w : BitVec 32) (s : State) : Host.Outcome State Fault Refusal :=
  onDev s (instr n w (isOp 0x07) usesAb (immRow imm6 sll))

/-- SRLI: rd = ra >> (imm16[5:0] mod 40), logical (R210). -/
def execSrli (n : CoreIx) (w : BitVec 32) (s : State) : Host.Outcome State Fault Refusal :=
  onDev s (instr n w (isOp 0x08) usesAb (immRow imm6 srl))

/-- SRAI: rd = ra >> (imm16[5:0] mod 40), arithmetic (R210). -/
def execSrai (n : CoreIx) (w : BitVec 32) (s : State) : Host.Outcome State Fault Refusal :=
  onDev s (instr n w (isOp 0x09) usesAb (immRow imm6 sra))

/-- rd = imm21 << 19. -/
def luiRow (n w : Nat) (d : Dev) : Dev :=
  let c := core d n
  retire d n (xset c (rdOf w) (BitVec.ofNat 40 (bitsOf w 20 0 * 2 ^ 19))) (c.pc + 4)

/-- LUI: rd = imm21 << 19 (R210). -/
def execLui (n : CoreIx) (w : BitVec 32) (s : State) : Host.Outcome State Fault Refusal :=
  onDev s (instr n w (isOp 0x0A) (fun w => { xs := [rdOf w] }) luiRow)

/-- rd = rd OR zext(imm21[18:0]). -/
def orlRow (n w : Nat) (d : Dev) : Dev :=
  let c := core d n
  retire d n (xset c (rdOf w) (xget c (rdOf w) ||| BitVec.ofNat 40 (bitsOf w 18 0))) (c.pc + 4)

/-- ORL: rd = rd OR zext(imm21[18:0]) (R210). -/
def execOrl (n : CoreIx) (w : BitVec 32) (s : State) : Host.Outcome State Fault Refusal :=
  onDev s (instr n w (isOp 0x0B) (fun w => { xs := [rdOf w] }) orlRow)

end Sys2Proof.Machine
end

