-- ==== Sys2Proof/Machine/Rings.lean ====
section
/-!
DEFINITION. The ring engine's own operations (R64 to R101): contexts, STATUS words, doorbells, commands in flight, the
check that every command passes before it starts, and the failures of the engine's own reads.
-/

namespace Sys2Proof.Machine

/-! ## Contexts -/

/-- Key of ring r of port p. -/
def ringKey (p r : Nat) : Nat := 512 * p + r

/-- Context of a ring. -/
def ctx (d : Dev) (p r : Nat) : RingCtx := mget {} d.ring.ctx (ringKey p r)

/-- The device with a ring's context replaced. -/
def setCtx (d : Dev) (p r : Nat) (v : RingCtx) : Dev :=
  { d with ring := { d.ring with ctx := mset {} d.ring.ctx (ringKey p r) v } }

/-- Port-table entry of a ring. -/
def slot (d : Dev) (p r : Nat) : RingSlot := mget {} d.ring.slots (ringKey p r)

/-- The device with a ring's port-table entry replaced. -/
def setSlot (d : Dev) (p r : Nat) (v : RingSlot) : Dev :=
  { d with ring := { d.ring with slots := mset {} d.ring.slots (ringKey p r) v } }

/-- Number of entries of a ring (R65). -/
def ringSize (c : RingCtx) : Nat := 2 ^ c.log2

/-- A ring is ACTIVE: it has a context and is not in ERROR (R66). -/
def ringActive (c : RingCtx) : Bool := c.valid && !c.error

/-- ACTIVE rings of a port. -/
def activeRings (d : Dev) (p : Nat) : Nat :=
  (d.ring.ctx.filter (fun e => decide (e.1 / 512 = p) && ringActive e.2)).length

/-- ACTIVE rings over all ports. DESIGN CHOICE: a ring in ERROR is not ACTIVE, so it does not count toward reason 0x02 although it keeps its
context; the spec does not say whether it uses one of the 32,768. -/
def allActive (d : Dev) : Nat := (d.ring.ctx.filter (fun e => ringActive e.2)).length

/-- SQs of port p bound to CQ q (R71). -/
def boundSqs (d : Dev) (p q : Nat) : List Nat :=
  (d.ring.ctx.filter (fun e => decide (e.1 / 512 = p) && e.2.valid && e.2.sq && decide (e.2.target = q))).map (fun e => e.1 % 512)

/-- Address of a place of the context area (R72). -/
def ctxAddr (d : Dev) (place : Nat) : Nat := fld d .ringCtxBase 0 39 21 * 2 ^ 21 + 64 * place

/-- 64 bytes that the spec gives no value for. -/
def freeCtxBytes (d : Dev) : List Byte := (List.range 8).flatMap (fun i => toLE 8 (Config.freeWord (d.fresh + i)).toNat)

/-- A context leaves the chip: a dirty one is written to the context area (R72). DESIGN CHOICE: it takes the lowest place that no other context has
there, and its bytes are free; the spec gives neither the places nor the layout. -/
def writeOut (d : Dev) (k : Nat) : Dev :=
  let c := mget ({} : RingCtx) d.ring.ctx k
  let old := mget ({} : CtxCopy) d.ring.copies k
  if old.ctx = c then d
  else
    let place := if old.bytes = [] then (firstIdx 32768 (fun i => !d.ring.copies.any (fun e => decide (e.2.place = i)))).getD 0 else old.place
    let d1 := (devWrite { d with fresh := d.fresh + 8 } (ctxAddr d place) (freeCtxBytes d)).1
    { d1 with ring := { d1.ring with copies := mset {} d1.ring.copies k { place := place, ctx := c, bytes := freeCtxBytes d } } }

/-- A context whose copy in GDDR6 another agent has changed, or whose line is uncorrectable: every field that the area held is free (R72). -/
def strayCtx (c : RingCtx) (f : Nat → Nat) : RingCtx :=
  { c with
    sq := decide (f 0 % 2 = 1), ien := decide (f 0 / 2 % 2 = 1), error := decide (f 0 / 4 % 2 = 1), phase := decide (f 0 / 8 % 2 = 1)
    log2 := 6 + f 0 / 16 % 11, target := f 0 / 512 % 2048, weight := max 1 (f 0 / 2 ^ 20 % 256), modTime := f 0 / 2 ^ 28 % 65536
    base := f 1 / 16 * 16, dbell := f 2 / 8 * 8, idx := f 3 % 65536, index := f 3 / 65536 % 65536 }

/-- A context comes back from the context area, if it is there (R72). -/
def readIn (d : Dev) (k : Nat) : Dev :=
  let old := mget ({} : CtxCopy) d.ring.copies k
  if old.bytes = [] then d
  else
    let a := ctxAddr d old.place
    let d1 := lookLines looker d a 64
    let bs := memRead d1 a 64
    if bs = old.bytes ∧ !memBad d a 64 then d1
    else
      let c := strayCtx (mget {} d.ring.ctx k) (fun i => (Config.freeWord (d.fresh + i)).toNat)
      { d1 with
        fresh := d.fresh + 4
        ring := { d1.ring with ctx := mset {} d1.ring.ctx k c, copies := mset {} d1.ring.copies k { old with ctx := c, bytes := bs } } }

/-- Brings a context on chip as the most recently used; it may put out the least recently used one with no fetch in progress (R72). DESIGN CHOICE:
where every one of the 1,024 has a fetch in progress it is used without being kept; the spec states no outcome. -/
def cacheCtx (d : Dev) (k : Nat) : Dev :=
  let old := sdel d.ring.cached k
  if old.length < 1024 then { d with ring := { d.ring with cached := k :: old } }
  else match old.reverse.find? (fun v => decide ((mget ({} : RingCtx) d.ring.ctx v).fetching = 0)) with
    | some v =>
      let d1 := writeOut d v
      { d1 with ring := { d1.ring with cached := k :: sdel old v } }
    | none => { d with ring := { d.ring with copies := mset {} d.ring.copies k {} } }

/-- The write queues have room for a context and its CQ's, which may have to leave the chip (R328). -/
def ctxRoom (d : Dev) : Bool := decide (d.ring.cached.length < 1023) || (channels d).all (fun ch => decide (writesHeld (mcChan d ch) + 2 ≤ 32))

/-- A context that is not on chip must wait for GDDR6: for its channels (R389), or for the slices that read it and take the one that it puts out
(R328, R329). -/
def ctxWaits (d : Dev) (p r : Nat) : Bool :=
  let old := mget ({} : CtxCopy) d.ring.copies (ringKey p r)
  !d.ring.cached.contains (ringKey p r) &&
    ((decide (old.bytes ≠ []) && !(memUp d (ctxAddr d old.place) && lookRoom d (ctxAddr d old.place))) || !ctxRoom d)

/-- A use of a ring's context: a hit, or a miss that fetches it (R72, R101). DESIGN CHOICE: one use is a poll, the taking of a doorbell word, a fetch
(of the SQ and of its CQ), a completion (the same) or a moderation timer; the spec does not define a use. -/
def touchCtx (d : Dev) (p r : Nat) : Dev :=
  let k := ringKey p r
  if d.ring.cached.contains k then bump (cacheCtx d k) .ringCnt 0 else bump (cacheCtx (readIn d k) k) .ringCnt 1

/-- A ring's context is released, with its place on chip and its copy (R70). -/
def freeCtx (d : Dev) (p r : Nat) : Dev :=
  let d1 := setCtx d p r {}
  { d1 with ring := { d1.ring with cached := sdel d1.ring.cached (ringKey p r), copies := mset {} d1.ring.copies (ringKey p r) {} } }

/-! ## STATUS words and errors -/

/-- Writes a descriptor's STATUS word with the next GEN (R66). -/
def writeStatus (d : Dev) (p r state reason : Nat) : Dev :=
  let s := slot d p r
  let gen := (s.gen + 1) % 65536
  let d1 := setSlot d p r { s with gen := gen, state := state }
  hostWrite d1 p ((port d p).roster + 64 * r + 56) (toLE 8 (gen * 2 ^ 32 + reason * 256 + state))

/-- Puts a ring into ERROR: it fetches nothing more until a RESET; RING_ERR records the first error (R71, R100). -/
def ringError (d : Dev) (p r reason : Nat) : Dev :=
  let c := ctx d p r
  let d1 := if c.valid then setCtx d p r { c with error := true } else d
  recordErr (writeStatus d1 p r 3 reason) .ringErr 0 (reason * 2 ^ 24 + p * 2 ^ 16 + r)

/-- A CQ reset that ends INACTIVE or REFUSED puts every SQ bound to it into ERROR with reason 0x03 (R71). -/
def failBound (d : Dev) (p q : Nat) : Dev := (boundSqs d p q).foldl (fun d r => ringError d p r 3) d

/-- A ring is held once its STATUS has been written; a doorbell read made before that is ignored when it returns (R70). -/
def holdRing (d : Dev) (p r : Nat) : Dev :=
  setSlot (dropReads d (fun o => decide (o = .doorbell p r))) p r { slot d p r with reset := .held }

/-- The end of a RESET without a context: STATUS is written, the ring is held, the SQs bound to it go to ERROR and the first of them stands in
RING_ERR (R66, R70, R71). DESIGN CHOICE: a refusal's own reason stands there too, after theirs; the spec orders neither (log entry 128). -/
def resetEnds (d : Dev) (p r state reason : Nat) : Dev :=
  let d1 := failBound (holdRing (writeStatus d p r state reason) p r) p r
  if state = 2 then recordErr d1 .ringErr 0 (reason * 2 ^ 24 + p * 2 ^ 16 + r) else d1

/-! ## Doorbells -/

/-- What a doorbell read does with the word it returns (R67, R70): RESET is seen, held or released, and INDEX is taken as
the tail of an SQ or the head of a CQ. DESIGN CHOICE: an INDEX at or beyond the ring's size is reduced modulo the size; the spec states no
behaviour for it. -/
def takeDoorbell (d0 : Dev) (p r v : Nat) : Dev :=
  let d := if (ctx d0 p r).valid then touchCtx d0 p r else d0
  let s := slot d p r
  let c := ctx d p r
  let take (d : Dev) : Dev := if c.valid then setCtx d p r { c with index := v % 65536 % ringSize c } else d
  match s.reset with
  | .none => if bitOf v 31 = 1 then setSlot d p r { s with reset := .waiting } else take d
  | .waiting => d
  | .reading => d
  | .held => if bitOf v 31 = 1 then d else take (setSlot d p r { s with reset := .none })

/-! ## Commands in flight -/

/-- The command in flight with a fetch number. -/
def cmdOf (d : Dev) (id : Nat) : Option Cmd := d.ring.cmds.find? (fun c => decide (c.id = id))

/-- The device with a command in flight changed. -/
def modCmd (d : Dev) (id : Nat) (f : Cmd → Cmd) : Dev :=
  { d with ring := { d.ring with cmds := d.ring.cmds.map (fun c => if c.id = id then f c else c) } }

/-- The device without a command. -/
def dropCmd (d : Dev) (id : Nat) : Dev :=
  { d with ring := { d.ring with cmds := d.ring.cmds.filter (fun c => decide (c.id ≠ id)) } }

/-- Ends a command with a status and a RESULT; its completion is written by COMPLETION_WRITE. -/
def finish (d : Dev) (id status result : Nat) : Dev := modCmd d id (fun c => { c with st := .done status result })

/-- Payload word Pn of a command, n from 1 (R73). -/
def pw (c : Cmd) (n : Nat) : Nat := (c.p[n - 1]?).getD 0

/-- Bits [hi:lo] of payload word Pn. -/
def pf (c : Cmd) (n hi lo : Nat) : Nat := bitsOf (pw c n) hi lo

/-- SPACE of payload word Pn is HOST (R73). -/
def isHost (c : Cmd) (n : Nat) : Bool := decide (bitOf c.space n = 1)

/-- Same submission queue. -/
def sameSq (a b : Cmd) : Bool := decide (a.port = b.port ∧ a.sq = b.sq)

/-- Commands of the same SQ fetched before c and not completed. -/
def earlierOpen (d : Dev) (c : Cmd) : List Cmd := d.ring.cmds.filter (fun e => sameSq e c && decide (e.id < c.id))

/-- A command may start: its SQ's earlier entries have started, no FENCE command before it is open, and with the FENCE
flag every earlier entry has completed (R90, R91, R93). -/
def mayStart (d : Dev) (c : Cmd) : Bool :=
  decide (c.st = .fetched) && running d &&
  (earlierOpen d c).all (fun e => decide (e.st ≠ .fetched) && decide (e.opcode ≠ 2)) &&
  (!c.fence || (earlierOpen d c).isEmpty)

/-- A FENCE and HALT entry that may start after a failure among the entries R92 names completes ABORTED instead. -/
def haltHit (d : Dev) (c : Cmd) : Bool :=
  c.fence && c.halt && (ctx d c.port c.sq).failed.any (fun i => decide (i < c.id))

/-- The start of an entry with FENCE forgets the failures before it (R92). -/
def noteFence (d : Dev) (c : Cmd) : Dev :=
  if c.fence then
    let x := ctx d c.port c.sq
    setCtx d c.port c.sq { x with failed := x.failed.filter (fun i => decide (c.id < i)) }
  else d

/-- The first unstarted entry of an SQ, where it carries FENCE and HALT and must not run, ends ABORTED (R92). -/
def haltScan (d : Dev) (p r : Nat) : Dev :=
  match d.ring.cmds.find? (fun c => decide (c.port = p ∧ c.sq = r ∧ c.st = .fetched) && mayStart d c && haltHit d c) with
  | some c => finish (noteFence d c) c.id 8 0
  | none => d

/-- Which spaces an address word of a command permits: H, D or either. -/
inductive SpacePerm where
  | host | device | either
  deriving DecidableEq, Repr

/-- The address words of each opcode with the spaces they permit (R75 to R79). PORT_WINDOW's SPACE is ignored (R106). -/
def addrWords (op : Nat) : List (Nat × SpacePerm) :=
  match op with
  | 0x10 => [(1, .either), (2, .device)]
  | 0x12 => [(2, .either), (3, .either), (5, .either)]
  | 0x20 => [(1, .either), (2, .device), (6, .device)]
  | 0x30 => [(1, .device)]
  | 0x60 => [(1, .device), (2, .host)]
  | 0x61 => [(1, .host), (2, .device)]
  | 0x40 => [(2, .either)]
  | 0x41 => [(2, .either), (3, .either)]
  | 0x50 => [(1, .device), (2, .device), (4, .device)]
  | 0x70 => [(1, .either)]
  | 0x71 => [(1, .either)]
  | 0x78 => [(2, .either)]
  | 0xE0 => [(2, .host), (3, .host)]
  | 0xE4 => [(1, .either)]
  | 0xE7 => [(1, .either)]
  | 0xE8 => [(1, .either)]
  | _ => []

/-- The first address word whose SPACE bit the command table does not permit (R74). DESIGN CHOICE: of several such words RESULT reports the
lowest-numbered one; the spec does not say which (log entry 127). -/
def badSpace (c : Cmd) : Option Nat :=
  (addrWords c.opcode).findSome? (fun e =>
    match e.2 with
    | .host => if isHost c e.1 then none else some (pw c e.1)
    | .device => if isHost c e.1 then some (pw c e.1) else none
    | .either => none)

/-- Whether some address word of a command names device memory. -/
def usesDevice (c : Cmd) : Bool := (addrWords c.opcode).any (fun e => !isHost c e.1)

/-- Domains a command needs at its check (R426). -/
def neededDoms (d : Dev) (c : Cmd) : List Nat :=
  let mc := mcDoms d ++ [23]
  match c.opcode with
  | 0x10 | 0x21 | 0x22 => mc
  | 0x20 | 0x30 | 0x60 | 0x61 => 14 :: mc
  | 0x40 | 0x41 => 12 :: mc
  | 0x50 => 13 :: mc
  | 0x70 | 0x71 | 0xE4 | 0xE7 | 0xE8 | 0x78 => if usesDevice c then 1 :: mc else [1]
  | 0x72 | 0xE5 | 0xE6 => [1]
  | _ => []

/-- The check every command passes when it starts (R89 to R92, R74, R425, R426): HALT, then SPACE, then the domains it
needs, then its own rule. A command that may not start, that waits for a domain to wake, or whose GDDR6 accesses stall before traffic is
enabled or while a channel is not ready (R387, R389), is left as it is. -/
def checked (op : Nat) (id : Nat) (body : Cmd → Dev → Dev) (d : Dev) : Dev :=
  match cmdOf d id with
  | none => d
  | some c =>
    if decide (c.opcode = op) && mayStart d c then
      if haltHit d c then finish (noteFence d c) id 8 0
      else
        match badSpace c with
        | some a => finish (bump (noteFence d c) .ringCnt 2) id 4 a
        | none =>
          let need := neededDoms d c
          if allOn d need && need.contains 23 && !gddrUp d then d
          else if allOn d need then body c (modCmd (bump (noteFence d c) .ringCnt 2) id (fun c => { c with st := .running }))
          else
            match (need.filter (fun k => !domOn d k && !autowake d k)).min? with
            | some k => finish (bump (noteFence d c) .ringCnt 2) id 0x0A (c.opcode + 256 * k)
            | none => wakeAll d need
    else d

/-- A DEVICE address word: bits [63:40] nonzero place it outside every window (R74); the first outside address of n
bytes from it. -/
def devOut (d : Dev) (p w n : Nat) : Option Nat :=
  if n = 0 then none else if 2 ^ 40 ≤ w then some w else gddrOut d p w n

/-- The first outside address of n bytes from address word Pn of a command, by its SPACE. -/
def wordOut (d : Dev) (c : Cmd) (n len : Nat) : Option Nat :=
  if isHost c n then hostOut d c.port (pw c n) len else devOut d c.port (pw c n) len

/-! ## Failures of the engine's own reads -/

/-- What a failed or timed-out read of the ring engine's own leads to (R100, R105). -/
def readFailure (d : Dev) (r : HostRead) : Dev :=
  match r.owner with
  | .summary p =>
    let d1 := dropReads d (fun o => decide (o = .summary p))
    let d2 := setPort d1 p { port d1 p with polling := false, flagged := [] }
    logBook (sboxEvent (recordErr d2 .ringErr 0 (0x12 * 2 ^ 24 + p * 2 ^ 16)) 2) 1 0x0012 [p]
  | .doorbell p q => ringError (dropReads d (fun o => decide (o = .doorbell p q))) p q 0x11
  | .roster p q => writeStatus (dropReads d (fun o => decide (o = .roster p q))) p q 0 0
  | .descriptor p q => resetEnds (dropReads d (fun o => decide (o = .descriptor p q))) p q 0 0
  | .entries p q =>
    let d1 := dropReads d (fun o => decide (o = .entries p q))
    let c := ctx d1 p q
    let t := ctx d1 p c.target
    let d2 := setCtx d1 p c.target { t with reserved := t.reserved - c.fetching }
    ringError (setCtx d2 p q { c with fetching := 0 }) p q 0x10
  | _ => d

end Sys2Proof.Machine
end

