-- ==== Sys2Proof/Machine/Disp.lean ====
section
/-!
DEFINITION. The Dispatcher's own operations (R176 to R200) and the reads of a Timetable's image (R144, R145, R489):
acceptance, spilling, flow contexts, reorder windows, the choice of a hand-over.
-/

namespace Sys2Proof.Machine

/-! ## The image -/

/-- The image of a Timetable as a Consist or a load reads it: the port, HOME and BYTES. -/
structure Image where
  port : Nat
  home : Nat
  bytes : Nat
  deriving DecidableEq, Repr

/-- The image that a Consist runs. -/
def imageOf (k : Consist) : Image := ⟨k.port, k.home, k.bytes⟩

/-- Bytes of an image that the device reads from GDDR6: the rest read as zero (R145). -/
def imageLen (bytes : Nat) : Nat := min bytes 0x1000000

/-- Bytes of a read of n image bytes from an offset that access GDDR6 (R145). -/
def imageSpan (bytes off n : Nat) : Nat := min n (imageLen bytes - off)

/-- n bytes of an image from an offset: bytes at or past its end read as zero and make no access (R145). -/
def imageRead (d : Dev) (m : Image) (off n : Nat) : List Byte :=
  let k := imageSpan m.bytes off n
  memRead d (m.home + off) k ++ zeros (n - k)

/-- Little-endian number of n image bytes. -/
def imageNat (d : Dev) (m : Image) (off n : Nat) : Nat := ofLE (imageRead d m off n)

/-- What a read of GDDR6 on behalf of a port meets first, with its status code and address: a byte outside the port's windows in force, or an
uncorrectable line (R18, R86, R108, R489). -/
def spanFault (d : Dev) (p a n : Nat) : Option (Nat × Nat) :=
  match gddrOut d p a n, firstBadLine d a n with
  | none, none => none
  | none, some l => some (7, l)
  | some x, none => some (4, x)
  | some x, some l => if l / 64 < x / 64 then some (7, l) else some (4, x)

/-- What a read of n image bytes meets first: it delivers nothing of a line that it names (R108, R145, R489). -/
def imageFault (d : Dev) (m : Image) (off n : Nat) : Option (Nat × Nat) := spanFault d m.port (m.home + off) (imageSpan m.bytes off n)

/-- The Column Cache lookups of a read of n image bytes: its requesters are of the looking class (R326). -/
def imageLook (d : Dev) (m : Image) (off n : Nat) : Dev := lookLines looker d (m.home + off) (imageSpan m.bytes off n)

/-- A Consist records the event that a read of its image met (R489). -/
def imageEvent (d : Dev) (c : Nat) (e : Nat × Nat) : Dev := recordEvent d c e.1 e.2

/-! ## Lists -/

/-- Key of the ready list of stage s of Consist c. -/
def listKey (c s : Nat) : Nat := 64 * c + s

/-- A ready list. -/
def rlist (d : Dev) (k : Nat) : ReadyList := mget {} d.disp.lists k

/-- The device with a ready list replaced. -/
def setList (d : Dev) (k : Nat) (l : ReadyList) : Dev := { d with disp := { d.disp with lists := mset {} d.disp.lists k l } }

/-- LIST_CAP as it behaves (R200). -/
def listCap (d : Dev) : Nat := match fld d .dispCtrl 0 14 0 with | 0 => 1 | n => min n 16384

/-- An output released from a reorder window, which keeps its pool entry until it is accepted (R196). -/
def fromWindow (o : Offer) : Bool := match o.prod with | .window _ _ => true | _ => false

/-- Pool entries in use, held outputs included (R181, R196, R200). -/
def poolUsed (d : Dev) : Nat :=
  d.disp.lists.foldl (fun a e => a + e.2.chip.length) 0 +
    d.disp.windows.foldl (fun a e => a + e.2.foldl (fun b x => b + x.held.length) 0) 0 + (d.disp.offers.filter fromWindow).length

/-- Capacity of a Siding in Wagons; 0 where the stage has none (R183). -/
def sidingCap (l : ReadyList) : Nat := if l.sidingLog2 = 0 then 0 else 3 * 2 ^ l.sidingLog2

/-- Reorder window of a list. -/
def window (d : Dev) (k : Nat) : List WinEntry := mget [] d.disp.windows k

/-- The device with a reorder window replaced. -/
def setWindow (d : Dev) (k : Nat) (w : List WinEntry) : Dev :=
  { d with disp := { d.disp with windows := mset [] d.disp.windows k w } }

/-- Reorder-window entries in use over the device. -/
def windowUsed (d : Dev) : Nat := d.disp.windows.foldl (fun a e => a + e.2.length) 0

/-! ## Flow contexts -/

/-- A flow context's own flow. -/
def flowIs (c s f : Nat) (x : FlowCtx) : Bool := decide (x.c = c ∧ x.s = s ∧ x.f = f)

/-- The flow's context on chip. -/
def flowOf (d : Dev) (c s f : Nat) : Option FlowCtx := d.disp.flows.find? (flowIs c s f)

/-- Last core of a flow, where known (R188). -/
def lastCore (d : Dev) (c s f : Nat) : Option Nat := (flowOf d c s f).bind (fun x => x.last)

/-- A Wagon of the flow is in service (R193). -/
def flowBusy (d : Dev) (c s f : Nat) : Bool := match flowOf d c s f with | some x => x.inServ | none => false

/-- TAG of a flow's spill entry (R198). -/
def flowTag (c s f : Nat) : Nat := c * 2 ^ 22 + s * 2 ^ 16 + f

/-- Address of a flow's spill entry (R198). -/
def flowAddr (d : Dev) (tag : Nat) : Nat := fld d .dispFlowBase 0 39 21 * 2 ^ 21 + 8 * (h40 tag % 2 ^ 18)

/-- Makes or renews a flow context as the most recently used; with 4,096 on chip the least recently used one with no Wagon
in service is put out, and written to the spill area where DISP_FLOW_BASE.EN is 1 (R197, R198). DESIGN CHOICE: the uses that make a context the most
recently used one are a hand-over of its flow's Wagon and its own restore from the spill area; a look-up and a release are none (assumption log 123). -/
def putFlow (d : Dev) (x : FlowCtx) : Dev :=
  let rest := d.disp.flows.filter (fun y => !flowIs x.c x.s x.f y)
  if rest.length < 4096 then { d with disp := { d.disp with flows := x :: rest } }
  else
    match rest.reverse.find? (fun y => !y.inServ) with
    | none => { d with disp := { d.disp with flows := x :: rest } }
    | some v =>
      let d1 := { d with disp := { d.disp with flows := x :: rest.filter (fun y => !flowIs v.c v.s v.f y) } }
      if fld d .dispFlowBase 0 0 0 = 1 then
        let tag := flowTag v.c v.s v.f
        (devWrite d1 (flowAddr d tag) (toLE 8 (tag + (v.last.getD 0) * 2 ^ 32 + b2n v.last.isSome * 2 ^ 37))).1
      else d1

/-! ## Eligibility -/

/-- Whether the Wagon at index i of an on-chip list is eligible: in PARALLEL and ORDERED stages the oldest alone, with
room in the window for ORDERED; in ATOMIC stages one of the oldest 64 whose flow has no Wagon in service and no older Wagon
among them (R192, R193, R195). -/
def eligible (d : Dev) (k : Nat) (l : ReadyList) (i : Nat) : Bool :=
  match l.order with
  | 0 => decide (i = 0)
  | 2 => decide (i = 0) && decide ((window d k).length < 256) && decide (windowUsed d < 4096)
  | _ =>
    match l.chip[i]? with
    | none => false
    | some w =>
      let f := wFlow w.w
      decide (i < 64) && !flowBusy d (k / 64) (k % 64) f && (l.chip.take i).all (fun v => decide (wFlow v.w ≠ f))

/-- Wagons that have become eligible take the present cc as their eligible_at (R194). -/
def markEligible (d : Dev) (k : Nat) : Dev :=
  let l := rlist d k
  let chip := (l.chip.zipIdx).map (fun e =>
    match e.1.eligible with
    | some _ => e.1
    | none => if eligible d k l e.2 then { e.1 with eligible := some d.cc } else e.1)
  setList d k { l with chip := chip }

/-! ## Acceptance -/

/-- Rank of a producer in the order of R179. -/
def prodRank (p : Producer) : Nat :=
  match p with
  | .seed _ => 0
  | .ingest _ => 1
  | .core n => 2 + n
  | .window _ n => 2 + n
  | .scanner m => 40 + m
  | .junction => 60
  | .hump => 61
  | .shunt ch => 62 + ch

/-- DISP_ERR keeps the first discard since the last clear (R180, R200). -/
def recordDiscard (d : Dev) (reason c s : Nat) : Dev :=
  recordErr (bump d .dispCnt 6) .dispErr 0 (reason * 2 ^ 32 + c % 1024 * 2 ^ 16 + s % 64 * 2 ^ 10)

/-- Frees a channel of the Shunting Engine: its program has ended; in SERIAL mode the next one has its turn (R362, R364). -/
def freeChan (d : Dev) (ch : Nat) : Dev :=
  let ts := d.shunt.turns.filter (fun t => decide (t ≠ ch))
  let cs := mset {} d.shunt.chans ch {}
  { d with shunt := { d.shunt with turns := ts, chans := cs } }

/-- The Wagon that a channel offered has been accepted or discarded: a SIGNAL sets its gate and the channel goes on; a completion Wagon
frees the channel (R185, R350, R364). -/
def shuntAccepted (d : Dev) (ch : Nat) : Dev :=
  let c := mget {} d.shunt.chans ch
  match c.ph with
  | .signal true =>
    let i0 := ((mget [] c.kept c.pc)[0]?).getD 0
    let d1 := if bitOf i0 8 = 1 then setFld d .shuntGate 0 (bitsOf i0 15 12) (bitsOf i0 15 12) 1 else d
    { d1 with shunt := { d1.shunt with chans := mset {} d1.shunt.chans ch { c with ph := .run, pc := c.pc + 1 } } }
  | .wagon => freeChan d ch
  | _ => d

/-- What follows at the producer once its Wagon is accepted, held or discarded: a core's EMITW completes (R190), an INGEST
may complete, a channel goes on (R350). -/
def produced (d : Dev) (p : Producer) : Dev :=
  match p with
  | .core n => let c := core d n; if c.st = .emitw then retire d n { c with st := .running } (c.pc + 4) else d
  | .seed c => modConsist d c (fun k => { k with seeded := k.seeded + 1 })
  | .ingest id => modCmd d id (fun c => { c with st := .done 0 c.pos })
  | .shunt ch => shuntAccepted d ch
  | _ => d

/-- The flow that a keyed Wagon is routed to (R160, R190): the Points Table entry of its key, or the flow it carries. An entry that cannot be
read ends the Consist (R108, R489). -/
def routeFlow (d : Dev) (c : Nat) (w : Wagon) (key : Option Nat) : Dev × Wagon :=
  let l := rlist d (listKey c (wStage w))
  match key with
  | none => (d, w)
  | some kv =>
    if l.ptBits = 0 then (d, w)
    else
      let k := consist d c
      let off := l.ptOff + 2 * (h40 kv % 2 ^ l.ptBits)
      match imageFault d (imageOf k) off 2 with
      | some e => (imageEvent d c e, w)
      | none => (imageLook d (imageOf k) off 2, wSetFlow w (imageNat d (imageOf k) off 2))

/-- The four words of a Wagon as bytes. -/
def wagonBytes (w : Wagon) : List Byte := toLE 5 w.w0.toNat ++ (toLE 5 w.w1.toNat ++ (toLE 5 w.w2.toNat ++ toLE 5 w.w3.toNat))

/-- A Siding line: the Wagons placed in it, zeros, and a trailer with LINE_SEQ equal to the line index (R183). -/
def sidingLine (i : Nat) (ws : List Wagon) : List Byte :=
  (ws.map wagonBytes).flatten ++ (zeros (60 - 20 * ws.length) ++ toLE 4 (i * 2 ^ 12 % 2 ^ 32))

/-- Writes a Wagon at the tail of a list's Siding, with the Wagons already placed in its line, checked against the windows of the Consist's
port (R183, R186). -/
def spill (d : Dev) (k : Nat) (w : Wagon) : Dev :=
  let l := rlist d k
  let n := l.written % sidingCap l
  let ws := if n % 3 = 0 then [w] else l.tail ++ [w]
  let line := l.sidingBase + 64 * (n / 3)
  match gddrOut d (consist d (k / 64)).port line 64 with
  | some a => recordEvent d (k / 64) 4 a
  | none =>
    let d1 := (devWrite d line (sidingLine (n / 3) ws)).1
    bump (setList d1 k { l with spilled := true, written := l.written + 1, tail := ws }) .dispCnt 4

/-- Puts a Wagon at the on-chip tail of a list; where its flow has no context and the spill area is on, its entry is read, at the address that
DISP_FLOW_BASE gives now and past the Column Cache (R181, R198, R200, R326). -/
def enterChip (d : Dev) (k : Nat) (w : Wagon) : Dev :=
  let l := rlist d k
  let d1 := setList d k { l with chip := l.chip ++ [{ w := w }] }
  let f := wFlow w
  let a := flowAddr d (flowTag (k / 64) (k % 64) f)
  let want := decide (fld d .dispFlowBase 0 0 0 = 1) && (flowOf d (k / 64) (k % 64) f).isNone &&
    !d.disp.flowReads.any (fun x => decide ((x.1, x.2.1, x.2.2.1) = (k / 64, k % 64, f)))
  let ask (d : Dev) : Dev :=
    let d2 := lookLines bypasser d a 8
    { d2 with disp := { d2.disp with flowReads := d2.disp.flowReads ++ [(k / 64, k % 64, f, a)] } }
  markEligible (if want then ask d1 else d1) k

/-- Whether an arriving Wagon must go to the Siding (R182). -/
def mustSpill (d : Dev) (l : ReadyList) : Bool :=
  l.spilled || decide (listCap d ≤ l.chip.length) || decide (16384 ≤ poolUsed d)

/-- Whether the producer of a Wagon for this list stalls: it must spill, and there is no Siding, or no line of the Siding is free of Wagons
that have not moved (R185). -/
def mustStall (d : Dev) (l : ReadyList) : Bool :=
  mustSpill d l && decide (sidingCap l ≤ l.written - l.moved / 3 * 3)

/-- The window entry of the Wagon that a core serves, and whether it is the oldest (R195, R196). -/
def windowPlace (d : Dev) (n : Nat) : Option (Nat × Nat × Bool) :=
  match serving d n with
  | none => none
  | some s =>
    let k := listKey (wConsist s.w) (wStage s.w)
    match (window d k).findIdx? (fun e => decide (e.serial = s.serial)) with
    | some i => some (k, s.serial, decide (i = 0))
    | none => none

/-- Removes the first offer that satisfies a test. -/
def dropOffer (d : Dev) (o : Offer) : Dev := { d with disp := { d.disp with offers := d.disp.offers.erase o } }

/-- Marks an offer as stalled (R185). -/
def stallOffer (d : Dev) (o : Offer) : Dev :=
  { d with disp := { d.disp with offers := d.disp.offers.map (fun x => if x = o then { o with stalled := true } else x) } }

/-- Accepts one offer, or leaves its producer stalled: discard, the result path, the hold behind a reorder window, the
Siding, or the on-chip list (R180, R182, R185, R190, R196). -/
def acceptOffer (d : Dev) (o : Offer) : Dev :=
  let dz := dropOffer d o
  let c := wConsist o.w
  let k := consist d c
  let s := wStage o.w
  if !k.valid ∨ (k.ph ≠ .starting ∧ k.ph ≠ .running) then
    produced (recordDiscard dz 1 c s) o.prod
  else if k.event ≠ 0 then produced (recordDiscard dz 2 c s) o.prod
  else
    let held := match o.prod with
      | .core n => (match windowPlace d n with | some (wk, ser, false) => some (wk, ser, n) | _ => none)
      | _ => none
    match held with
    | some (wk, ser, n) =>
      if 16384 ≤ poolUsed d then stallOffer d o
      else
        let r := routeFlow dz c o.w o.key
        let isRes := decide (s = k.resultStage)
        let out : HeldOut := { w := r.2, core := if isRes then some n else none }
        let d1 := setWindow r.1 wk ((window r.1 wk).map (fun e => if e.serial = ser then { e with held := e.held ++ [out] } else e))
        if (consist r.1 c).event ≠ 0 then produced (recordDiscard r.1 2 c s) o.prod
        else if isRes then d1 else produced d1 o.prod
    | none =>
      if s = k.resultStage then
        let wait := match o.prod with | .core n => some n | _ => none
        let d2 := { dz with disp := { dz.disp with resultQ := dz.disp.resultQ ++ [{ w := o.w, core := wait }] } }
        bump (match o.prod with | .core _ => d2 | p => produced d2 p) .dispCnt 0
      else
        let l := rlist dz (listKey c s)
        if mustStall dz l then stallOffer d o
        else
          let r := routeFlow dz c o.w o.key
          let d1 := if mustSpill dz l then spill r.1 (listKey c s) r.2 else enterChip r.1 (listKey c s) r.2
          if (consist r.1 c).event ≠ 0 then produced (recordDiscard r.1 2 c s) o.prod
          else produced (bump d1 .dispCnt 0) o.prod

/-- An earlier offer e holds o back: both are of one producer, where an output released from a window counts as its core's; and a window's outputs go
before later ones of the window and before what its Wagons emit now (R179, R196). -/
def sameLine (d : Dev) (o e : Offer) : Bool :=
  decide (e.prod = o.prod) ||
    (match e.prod with
     | .window k m =>
       (match o.prod with
        | .window j n => decide (j = k ∨ n = m)
        | .core n => decide (n = m) || (match windowPlace d n with | some (j, _, _) => decide (j = k) | none => false)
        | _ => false)
     | _ => false)

/-- The offers that no earlier one of their line precedes. -/
def openOffers (d : Dev) (f : Offer → Bool) : List Offer → List Offer → List Offer
  | _, [] => []
  | before, o :: os =>
    (if f o && !before.any (sameLine d o) then [o] else []) ++ openOffers d f (before ++ [o]) os

/-- The offer that is next under R179 among those that satisfy a test: the earliest, then by the order of the producers, and one producer's in
the order it produced them. -/
def nextOffer (d : Dev) (f : Offer → Bool) : Option Offer :=
  (openOffers d f [] d.disp.offers).foldl (fun acc o =>
    match acc with
    | none => some o
    | some b => if o.time < b.time ∨ (o.time = b.time ∧ prodRank o.prod < prodRank b.prod) then some o else acc) none

/-- Offers a Wagon to the Dispatcher, in the present cc. -/
def offer (d : Dev) (o : Offer) : Dev := { d with disp := { d.disp with offers := d.disp.offers ++ [{ o with time := d.cc }] } }

/-- A Wagon of the producer waits to be accepted. -/
def wagonWaits (d : Dev) (p : Producer) : Bool := d.disp.offers.any (fun o => decide (o.prod = p))

/-- An output that entry e of the window of list k held is offered: ahead of every Wagon that its core, or a Wagon of the window, has emitted after it and
that still waits (R179, R196). -/
def offerHeld (d : Dev) (k : Nat) (e : WinEntry) (w : Wagon) : Dev :=
  let later (x : Offer) : Bool := match x.prod with
    | .core n => decide (n = e.core) || (match windowPlace d n with | some (j, _, _) => decide (j = k) | none => false)
    | .window _ n => decide (n = e.core ∧ e.serial < x.serial)
    | _ => false
  let o : Offer := { prod := .window k e.core, w := w, serial := e.serial, time := d.cc }
  { d with disp := { d.disp with
    offers := d.disp.offers.takeWhile (fun x => !later x) ++ o :: d.disp.offers.dropWhile (fun x => !later x) } }

/-! ## Hand-over -/

/-- Candidate cores of a list, longest waiting first, lowest number on a tie (R187, R164): waiting, in CORES, in a powered
Rake, of a Running Consist. -/
def candidates (d : Dev) (k : Nat) (l : ReadyList) : List Nat :=
  let x := consist d (k / 64)
  if x.valid ∧ x.ph = .running ∧ x.event = 0 then
    (d.disp.waiting.filter (fun e => decide (bitOf l.cores e.1 = 1) && powered d (coreDom e.1))).map Prod.fst
  else []

/-- A choice of R188: the index of the Wagon on chip, the core, whether by affinity, and whether a migration. -/
structure Pick where
  idx : Nat
  core : Nat
  affinity : Bool
  migration : Bool
  deriving DecidableEq, Repr

/-- choose(L) of R188 over the indexes of the on-chip list. -/
def chooseFrom (d : Dev) (k : Nat) (l : ReadyList) (cands : List Nat) : List Nat → Option Pick
  | [] => none
  | i :: is =>
    if eligible d k l i then
      match l.chip[i]?, cands with
      | some w, c0 :: _ =>
        let p := (lastCore d (k / 64) (k % 64) (wFlow w.w)).filter (fun p => decide (bitOf l.cores p = 1))
        match p with
        | some q =>
          if cands.contains q then some ⟨i, q, true, false⟩
          else if l.order ≠ 0 ∧ l.order ≠ 2 ∧ d.cc < (w.eligible.getD d.cc) + l.affHold then chooseFrom d k l cands is
          else some ⟨i, c0, false, decide (l.order ≠ 0 ∧ l.order ≠ 2)⟩
        | none => some ⟨i, c0, false, false⟩
      | _, _ => none
    else chooseFrom d k l cands is

/-- choose(L) of R188. -/
def choose (d : Dev) (k : Nat) (l : ReadyList) : Option Pick :=
  chooseFrom d k l (candidates d k l) (List.range (min 64 l.chip.length))

/-- Hands a chosen Wagon to its core: it leaves the list, its flow's last core becomes the core, an ORDERED stage's window
takes an entry, and the Wagon is on its way to X10 to X13 (R187, R188, R195, R197). -/
def handOver (d : Dev) (k : Nat) (p : Pick) : Dev :=
  let l := rlist d k
  match l.chip[p.idx]? with
  | none => d
  | some w =>
    let ser := d.disp.serial
    let sv : Service := { w := w.w, core := p.core, serial := ser }
    let d1 := setList d k { l with chip := l.chip.eraseIdx p.idx, credit := l.credit - 1 }
    let d2 := putFlow d1 { c := k / 64, s := k % 64, f := wFlow w.w, last := some p.core, inServ := true }
    let d3 := if l.order = 2 then setWindow d2 k (window d2 k ++ [{ core := p.core, serial := ser }]) else d2
    let d4 := { d3 with disp := { d3.disp with
      waiting := d3.disp.waiting.filter (fun e => decide (e.1 ≠ p.core))
      delivering := d3.disp.delivering ++ [sv], service := d3.disp.service ++ [sv], serial := ser + 1 } }
    let d5 := bump d4 .dispCnt 1
    let d6 := if p.affinity then bump d5 .dispCnt 2 else d5
    markEligible (if p.migration then bump d6 .dispCnt 3 else d6) k

/-- Keys of the lists of Running Consists from ROT onward, wrapping once (R188). -/
def rotation (d : Dev) : List Nat :=
  let ks := (d.disp.lists.filter (fun e => e.2.valid && decide ((consist d (e.1 / 64)).ph = .running))).map Prod.fst
  ks.filter (fun k => decide (d.disp.rot ≤ k)) ++ ks.filter (fun k => decide (k < d.disp.rot))

/-- One turn of R188 over the rotation: credits are given and spent, and at most one Wagon is handed over: the list and the choice stand
beside the device. -/
def handTurn : List Nat → Dev → Dev × Option (Nat × Pick)
  | [], d => (d, none)
  | k :: ks, d =>
    let l0 := rlist d k
    let l := if l0.credit = 0 then { l0 with credit := max 1 l0.weight } else l0
    let d1 := setList d k l
    match choose d1 k l with
    | some p =>
      let d2 := handOver d1 k p
      let next := if 0 < (rlist d2 k).credit then k else k + 1
      ({ d2 with disp := { d2.disp with rot := next } }, some (k, p))
    | none => handTurn ks (setList d1 k { l with credit := 0 })

/-- A turn's hand-over takes place where its core's domain is ON; otherwise the Dispatcher wakes the domain, whatever AUTOWAKE holds, and stalls until it
is ready (R425). -/
def handed (d : Dev) (r : Dev × Option (Nat × Pick)) : Dev :=
  match r.2 with
  | some (_, p) => if domOn d (coreDom p.core) then r.1 else wakeDom d (coreDom p.core)
  | none => r.1

/-! ## Release -/

/-- Frees entries of a reorder window oldest first: the outputs held by the entry that becomes the oldest are offered, or
join the result path as accepted, and entries already released are freed with theirs (R167, R195, R196). -/
def drainWindow : Nat → Dev → Nat → Dev
  | 0, d, _ => d
  | f + 1, d, k =>
    match window d k with
    | [] => d
    | e :: es =>
      let d1 := e.held.foldl (fun d h =>
        match h.core with
        | some _ => bump { d with disp := { d.disp with resultQ := d.disp.resultQ ++ [h] } } .dispCnt 0
        | none => offerHeld d k e h.w) d
      let d2 := setWindow d1 k ({ e with held := [] } :: es)
      if e.released then drainWindow f (setWindow d2 k es) k else d2

/-- Another Wagon of the flow of a service is in service. -/
def flowServed (d : Dev) (s : Service) : Bool :=
  d.disp.service.any (fun t => decide (t.serial ≠ s.serial ∧ wConsist t.w = wConsist s.w ∧ wStage t.w = wStage s.w ∧ wFlow t.w = wFlow s.w))

/-- A release takes effect: the Wagon leaves the count of R170, its flow is free where no other Wagon of it is in service, and its window
entry is done (R191, R197). -/
def releaseEffect (d : Dev) (s : Service) : Dev :=
  let c := wConsist s.w
  let k := listKey c (wStage s.w)
  let more := flowServed d s
  let d1 := { d with disp := { d.disp with
    service := d.disp.service.filter (fun t => decide (t.serial ≠ s.serial))
    releasing := d.disp.releasing.filter (fun t => decide (t.serial ≠ s.serial))
    flows := d.disp.flows.map (fun x => if flowIs c (wStage s.w) (wFlow s.w) x then { x with inServ := more } else x) } }
  let d2 := setWindow d1 k ((window d1 k).map (fun e => if e.serial = s.serial then { e with released := true } else e))
  markEligible (drainWindow 257 d2 k) k

/-- Releases the Wagon in service on a core: DONEW, and WAITW before it waits (R191). A Wagon of a Consist with a
terminating event is dropped instead (R224); a core that serves none is not affected. -/
def releaseWagon (d : Dev) (n : Nat) : Dev :=
  match serving d n with
  | none => d
  | some s =>
    if (consist d (wConsist s.w)).event ≠ 0 ∨ !(consist d (wConsist s.w)).valid then dropService d n
    else { d with disp := { d.disp with releasing := d.disp.releasing ++ [s] } }

/-- Wagons of a Consist on lists, in Sidings, in service, held or on the result path (R170, R200). -/
def wagonCount (d : Dev) (c : Nat) : Nat :=
  d.disp.lists.foldl (fun a e => if e.1 / 64 = c then a + e.2.chip.length + (e.2.written - e.2.moved) else a) 0 +
  (d.disp.service.filter (fun s => decide (wConsist s.w = c))).length +
  (d.disp.resultQ.filter (fun h => decide (wConsist h.w = c))).length +
  (d.disp.offers.filter (fun o => decide (wConsist o.w = c))).length +
  d.disp.windows.foldl (fun a e => if e.1 / 64 = c then a + e.2.foldl (fun b x => b + x.held.length) 0 else a) 0

end Sys2Proof.Machine
end

