-- ==== Sys2Proof/Machine/CoreCtl.lean ====
section
/-!
DEFINITION. Branches and jumps (R210), Wagon instructions (R220 to R224), system instructions and control registers (R225, R226,
R260), traps, interrupts and undefined words (R209, R227 to R231).
-/

namespace Sys2Proof.Machine

/-! ## Branches and jumps -/

/-- Registers of format B: ra in [25:21] and rb in [20:16]. -/
def usesBr (w : Nat) : Uses := { xs := [rdOf w, raOf w] }

/-- pc + 4 × a sign-extended offset. -/
def pcPlus (pc : Nat) (off : Word) : Nat := (BitVec.ofNat 40 pc + (off <<< 2)).toNat

/-- Branches by 4 × sext(off16) where the test of ra and rb holds. -/
def branchRow (test : Word → Word → Bool) (n w : Nat) (d : Dev) : Dev :=
  let c := core d n
  retire d n c (if test (xget c (rdOf w)) (xget c (raOf w)) then pcPlus c.pc (immS w) else c.pc + 4)

/-- BEQ (R210). -/
def execBeq (n : CoreIx) (w : BitVec 32) (s : State) : Host.Outcome State Fault Refusal :=
  onDev s (instr n w (isOp 0x20) usesBr (branchRow (fun a b => decide (a = b))))

/-- BNE (R210). -/
def execBne (n : CoreIx) (w : BitVec 32) (s : State) : Host.Outcome State Fault Refusal :=
  onDev s (instr n w (isOp 0x21) usesBr (branchRow (fun a b => decide (a ≠ b))))

/-- BLT, signed (R210). -/
def execBlt (n : CoreIx) (w : BitVec 32) (s : State) : Host.Outcome State Fault Refusal :=
  onDev s (instr n w (isOp 0x22) usesBr (branchRow (fun a b => decide (a.toInt < b.toInt))))

/-- BGE, signed (R210). -/
def execBge (n : CoreIx) (w : BitVec 32) (s : State) : Host.Outcome State Fault Refusal :=
  onDev s (instr n w (isOp 0x23) usesBr (branchRow (fun a b => decide (b.toInt ≤ a.toInt))))

/-- BLTU, unsigned (R210). -/
def execBltu (n : CoreIx) (w : BitVec 32) (s : State) : Host.Outcome State Fault Refusal :=
  onDev s (instr n w (isOp 0x24) usesBr (branchRow (fun a b => decide (a.toNat < b.toNat))))

/-- BGEU, unsigned (R210). -/
def execBgeu (n : CoreIx) (w : BitVec 32) (s : State) : Host.Outcome State Fault Refusal :=
  onDev s (instr n w (isOp 0x25) usesBr (branchRow (fun a b => decide (b.toNat ≤ a.toNat))))

/-- rd = pc + 4; pc = pc + 4 × sext(off21). -/
def jalRow (n w : Nat) (d : Dev) : Dev :=
  let c := core d n
  retire d n (xset c (rdOf w) (BitVec.ofNat 40 (c.pc + 4))) (pcPlus c.pc (sextW 21 (bitsOf w 20 0)))

/-- JAL (R210). -/
def execJal (n : CoreIx) (w : BitVec 32) (s : State) : Host.Outcome State Fault Refusal :=
  onDev s (instr n w (isOp 0x26) (fun w => { xs := [rdOf w] }) jalRow)

/-- rd = pc + 4; pc = (ra + sext(imm16)) with bits [1:0] cleared; ra is read before rd is written. -/
def jalrRow (n w : Nat) (d : Dev) : Dev :=
  let c := core d n
  retire d n (xset c (rdOf w) (BitVec.ofNat 40 (c.pc + 4))) ((xget c (raOf w) + immS w).toNat / 4 * 4)

/-- JALR (R210). -/
def execJalr (n : CoreIx) (w : BitVec 32) (s : State) : Host.Outcome State Fault Refusal :=
  onDev s (instr n w (isOp 0x27) usesAb jalrRow)

/-! ## Wagon instructions -/

/-- A word of opcode 0x28 with function fn. -/
def isWagon (fn w : Nat) : Bool := decide (opOf w = 0x28 ∧ fnA w = fn)

/-- Every earlier load has returned and every earlier store has completed (R216). -/
def drained (c : Core) : Bool := c.loads.isEmpty && c.stores.isEmpty

/-- A Wagon instruction on an operator core; on the Signal Box it takes cause 0x02 (R220). -/
def wagonRow (body : Nat → Nat → Dev → Dev) (n w : Nat) (d : Dev) : Dev :=
  if n = 32 then takeException d n 0x02 (core d n).pc w 0 else body n w d

/-- A Wagon instruction that takes effect only after the core's earlier loads and stores (R216). -/
def afterStores (body : Nat → Nat → Dev → Dev) (n w : Nat) (d : Dev) : Dev :=
  if drained (core d n) then body n w d else stallCount d n

/-- An instruction whose effect cannot be taken back acts only after every earlier load, which may still fault, has returned (R205). -/
def afterLoads (body : Nat → Nat → Dev → Dev) (n w : Nat) (d : Dev) : Dev :=
  if (core d n).loads = [] then body n w d else stallCount d n

/-- A core becomes a candidate: it ranks after every core that waits longer, and by number on a tie (R187, R222). -/
def becomeWaiting (d : Dev) (n : Nat) : Dev :=
  let earlier := fun (e : Nat × Nat) => decide (e.2 < d.cc ∨ (e.2 = d.cc ∧ e.1 < n))
  { d with disp := { d.disp with
    waiting := d.disp.waiting.filter earlier ++ (n, d.cc) :: d.disp.waiting.filter (fun e => !earlier e && decide (e.1 ≠ n)) } }

/-- WAITW: at level 1 or 2 cause 0x02; else it releases the Wagon in service and waits. -/
def waitwBody (n w : Nat) (d : Dev) : Dev :=
  let c := core d n
  if levelOf c ≠ 0 then takeException d n 0x02 c.pc w 0
  else
    afterStores (fun n _ d =>
      let d1 := releaseWagon d n
      becomeWaiting (setCore d1 n { core d1 n with st := .waitw }) n) n w d

/-- WAITW (R191, R216, R220, R222). -/
def execWaitw (n : CoreIx) (w : BitVec 32) (s : State) : Host.Outcome State Fault Refusal :=
  onDev s (instr n w (isWagon 0x001) (fun _ => { xs := [10, 11, 12, 13] }) (wagonRow waitwBody))

/-- DONEW: releases the Wagon in service. -/
def donewBody (n w : Nat) (d : Dev) : Dev :=
  afterStores (fun n _ d => let d1 := releaseWagon d n; retire d1 n (core d1 n) ((core d1 n).pc + 4)) n w d

/-- DONEW (R191, R216, R220). -/
def execDonew (n : CoreIx) (w : BitVec 32) (s : State) : Host.Outcome State Fault Refusal :=
  onDev s (instr n w (isWagon 0x002) (fun _ => {}) (wagonRow donewBody))

/-- EMITW and EMITWK: cause 0x02 on a core that serves no Wagon; else X10 to X13 are offered with the Consist's id, and the instruction
completes when the Dispatcher has accepted, held or discarded the Wagon (R178, R190). -/
def emitBody (key : Bool) (n w : Nat) (d : Dev) : Dev :=
  let c := core d n
  match serving d n with
  | none => takeException d n 0x02 c.pc w 0
  | some t =>
    afterStores (fun n _ d =>
      let c := core d n
      let wg : Wagon := { w0 := xget c 10, w1 := xget c 11, w2 := xget c 12, w3 := xget c 13 }
      setCore (offer d { prod := .core n, w := wSetConsist wg (wConsist t.w),
                         key := if key then some (xget c 14).toNat else none }) n { c with st := .emitw }) n w d

/-- EMITW (R178, R190, R216). -/
def execEmitw (n : CoreIx) (w : BitVec 32) (s : State) : Host.Outcome State Fault Refusal :=
  onDev s (instr n w (isWagon 0x003) (fun _ => { xs := [10, 11, 12, 13] }) (wagonRow (emitBody false)))

/-- EMITWK: with key X14 (R178, R190, R216). -/
def execEmitwk (n : CoreIx) (w : BitVec 32) (s : State) : Host.Outcome State Fault Refusal :=
  onDev s (instr n w (isWagon 0x004) (fun _ => { xs := [10, 11, 12, 13, 14] }) (wagonRow (emitBody true)))

/-- An instruction of S alone among the Wagon instructions: cause 0x03 at U (R220). -/
def atS (body : Nat → Nat → Dev → Dev) (n w : Nat) (d : Dev) : Dev :=
  if privOf (core d n) = 0 then takeException d n 0x03 (core d n).pc w 0 else body n w d

/-- DROPW: the service ends with none of the effects of a release. -/
def dropwBody (n _w : Nat) (d : Dev) : Dev :=
  let d1 := dropService d n
  retire d1 n (core d1 n) ((core d1 n).pc + 4)

/-- DROPW (R220). -/
def execDropw (n : CoreIx) (w : BitVec 32) (s : State) : Host.Outcome State Fault Refusal :=
  onDev s (instr n w (isWagon 0x010) (fun _ => {}) (wagonRow (atS (afterLoads dropwBody))))

/-- FAULTW: the service ends as DROPW ends it, and the Wagon's Consist, where it has no terminating event, records DATA_ECC for cause
0x08 with rb, KERNEL_FAULT for any other cause (R223). -/
def faultwBody (n w : Nat) (d : Dev) : Dev :=
  let c := core d n
  let cause := (xget c (raOf w)).toNat % 256
  let v := (xget c (rbOf w)).toNat
  let d1 := match serving d n with
    | some t =>
      let cs := wConsist t.w
      if cause = 0x08 then recordEvent (dropService d n) cs 7 v
      else recordEvent (dropService d n) cs 0x0C (faultResult cause (wStage t.w) n v)
    | none => d
  retire d1 n (core d1 n) ((core d1 n).pc + 4)

/-- FAULTW (R220, R223). -/
def execFaultw (n : CoreIx) (w : BitVec 32) (s : State) : Host.Outcome State Fault Refusal :=
  onDev s (instr n w (isWagon 0x011) (fun w => { xs := [raOf w, rbOf w] }) (wagonRow (atS (afterLoads faultwBody))))

/-! ## Control registers -/

/-- The privilege that a read and a write of a control register need, where it may be written (R226, R260); `none` for an unlisted
number, and on the Signal Box for the registers it lacks (R233). -/
def csrAccess (n k : Nat) : Option (Nat × Option Nat) :=
  if n = 32 ∧ (k = 0x040 ∨ k = 0x041 ∨ (0x048 ≤ k ∧ k ≤ 0x04C)) then none
  else if k = 0x000 ∨ k = 0x002 ∨ k = 0x008 ∨ k = 0x009 ∨ (0x010 ≤ k ∧ k ≤ 0x013) ∨ (0x018 ≤ k ∧ k ≤ 0x01B) ∨
      k = 0x020 ∨ k = 0x021 ∨ k = 0x02A then some (1, some 1)
  else if k = 0x001 ∨ k = 0x003 then some (1, none)
  else if k = 0x028 ∨ k = 0x040 ∨ k = 0x041 then some (0, some 1)
  else if k = 0x029 ∨ k = 0x030 ∨ k = 0x031 ∨ (0x048 ≤ k ∧ k ≤ 0x04C) then some (0, none)
  else if k = 0x100 ∨ k = 0x101 ∨ (0x110 ≤ k ∧ k ≤ 0x11F) then some (0, some 0)
  else none

/-- What a control register reads (R226, R233, R260). -/
def csrRead (d : Dev) (n k : Nat) : Word :=
  let c := core d n
  if k = 0x000 then c.status
  else if k = 0x001 then BitVec.ofNat 40 (ceilingOf d n)
  else if k = 0x003 then BitVec.ofNat 40 (ipend d n)
  else if k = 0x030 then BitVec.ofNat 40 (if n = 32 then 63 else n)
  else if k = 0x031 then (if n = 32 then Config.sboxCoreBase else BitVec.ofNat 40 (coreBase n))
  else if 0x110 ≤ k ∧ k ≤ 0x117 then (qual c (k - 0x110)).setWidth 40
  else if 0x118 ≤ k ∧ k ≤ 0x11F then ((qual c (k - 0x118)) >>> 40).setWidth 40
  else csrGet c k

/-- The bits of a stored control register that a write sets; reserved bits stay zero (R219, R226, R260). -/
def csrMask (k : Nat) : Word :=
  if k = 0x002 then 0xFFFF
  else if k = 0x011 ∨ k = 0x019 then 0xF3
  else if k = 0x013 ∨ k = 0x01B then 0xFFFF
  else if k = 0x040 then 0x3FFFFFFFFF
  else if k = 0x041 then 0x1FFFFFF
  else if k = 0x101 then 0x1FF
  else BitVec.allOnes 40

/-- The core after a write of a control register: STATUS takes IE and AT, VL saturates at 64, the halves of a qualifier are written
alone (R226, R240, R260). -/
def csrWrite (c : Core) (k : Nat) (v : Word) : Core :=
  if k = 0x000 then { c with status := (c.status &&& 0x33) ||| (v &&& 0xC0) }
  else if k = 0x100 then csrSet c k (if 64 ≤ v.toNat % 128 then 64 else v &&& 0x7F)
  else if 0x110 ≤ k ∧ k ≤ 0x117 then setQual c (k - 0x110) ((qual c (k - 0x110)).extractLsb' 40 24 ++ v)
  else if 0x118 ≤ k ∧ k ≤ 0x11F then setQual c (k - 0x118) (v.extractLsb' 0 24 ++ (qual c (k - 0x118)).extractLsb' 0 40)
  else csrSet c k (v &&& csrMask k)

/-- MFC, MTC, MSET and MCLR: rd = csr, and `upd` gives the value written from the old one and ra; the read comes first (R225).
A write of CYCLE, which time changes too, follows every earlier load (R205). -/
def csrRow (upd : Option (Word → Word → Word)) (n w : Nat) (d : Dev) : Dev :=
  let c := core d n
  let k := csrOf w
  let old := csrRead d n k
  let done := fun (c : Core) => retire d n (xset c (rdOf w) old) (c.pc + 4)
  match csrAccess n k with
  | none => takeException d n 0x02 c.pc w 0
  | some (r, wp) =>
    if privOf c < r then takeException d n 0x03 c.pc w 0
    else
      match upd, wp with
      | none, _ => done c
      | some _, none => takeException d n 0x02 c.pc w 0
      | some f, some p =>
        if privOf c < p then takeException d n 0x03 c.pc w 0
        else if k = 0x028 ∧ c.loads ≠ [] then stallCount d n
        else done (csrWrite c k (f old (xget c (raOf w))))

/-- A word of opcode 0x2C with function fn. -/
def isSys (fn w : Nat) : Bool := decide (opOf w = 0x2C ∧ fn4 w = fn)

/-- Registers of the control-register instructions. -/
def usesCsr (w : Nat) : Uses :=
  { xs := [rdOf w, raOf w], qs := if 0x110 ≤ csrOf w ∧ csrOf w ≤ 0x11F then [csrOf w % 8] else [] }

/-- MFC (R225, R226). -/
def execMfc (n : CoreIx) (w : BitVec 32) (s : State) : Host.Outcome State Fault Refusal :=
  onDev s (instr n w (isSys 0) usesCsr (csrRow none))

/-- MTC (R225, R226). -/
def execMtc (n : CoreIx) (w : BitVec 32) (s : State) : Host.Outcome State Fault Refusal :=
  onDev s (instr n w (isSys 1) usesCsr (csrRow (some (fun _ a => a))))

/-- MSET (R225, R226). -/
def execMset (n : CoreIx) (w : BitVec 32) (s : State) : Host.Outcome State Fault Refusal :=
  onDev s (instr n w (isSys 2) usesCsr (csrRow (some (fun o a => o ||| a))))

/-- MCLR (R225, R226). -/
def execMclr (n : CoreIx) (w : BitVec 32) (s : State) : Host.Outcome State Fault Refusal :=
  onDev s (instr n w (isSys 3) usesCsr (csrRow (some (fun o a => o &&& ~~~a))))

/-- ERET (R229). -/
def execEret (n : CoreIx) (w : BitVec 32) (s : State) : Host.Outcome State Fault Refusal :=
  onDev s (instr n w (isSys 4) (fun _ => {}) (fun n w d => returnException d n w))

/-- BRK takes cause 0x0C with EADDR 0 (R225, R228). -/
def execBrk (n : CoreIx) (w : BitVec 32) (s : State) : Host.Outcome State Fault Refusal :=
  onDev s (instr n w (isSys 5) (fun _ => {}) (fun n _ d => takeException d n 0x0C (core d n).pc 0 0))

/-- WAITI: cause 0x03 at U; it ends where its condition holds, and stops issue until then (R225). -/
def waitiRow (n w : Nat) (d : Dev) : Dev :=
  let c := core d n
  if privOf c = 0 then takeException d n 0x03 c.pc w 0
  else if waitiEnds d n then retire d n c (c.pc + 4)
  else if c.loads = [] then setCore d n { c with st := .waiti }
  else stallCount d n

/-- A core stopped in WAITI whose condition holds goes on after it (R225). -/
def waitiResume (n w : Nat) (d : Dev) : Dev :=
  let c := core d n
  if running d ∧ c.st = .waiti ∧ isSys 6 w ∧ waitiEnds d n ∧ (dueInterrupt d n).isNone then
    retire d n { c with st := .running } (c.pc + 4)
  else d

/-- WAITI (R225): it issues, or, on a core that it has stopped, ends. -/
def execWaiti (n : CoreIx) (w : BitVec 32) (s : State) : Host.Outcome State Fault Refusal :=
  onDev s (fun d =>
    if (core d n.val).st = .waiti then waitiResume n.val w.toNat d else instr n w (isSys 6) (fun _ => {}) waitiRow d)

/-- TRAP takes cause 0x0B with EADDR zext(imm16) (R210, R228). -/
def execTrap (n : CoreIx) (w : BitVec 32) (s : State) : Host.Outcome State Fault Refusal :=
  onDev s (instr n w (isOp 0x2D) (fun _ => {}) (fun n w d => takeException d n 0x0B (core d n).pc (bitsOf w 15 0) 0))

/-! ## Undefined words, fetch faults, interrupts -/

/-- A word whose major opcode, and function where its format has one, the tables define (R209 to R211, R220, R225, R244 to R253). -/
def definedWord (w : Nat) : Bool :=
  let o := opOf w
  let fa := fnA w
  if o = 0x00 then
    decide (fa ≤ 0x00D ∨ (0x010 ≤ fa ∧ fa ≤ 0x012) ∨ (0x014 ≤ fa ∧ fa ≤ 0x017) ∨ (0x020 ≤ fa ∧ fa ≤ 0x022) ∨ fa = 0x030)
  else if o ≤ 0x0B then true
  else if o ≤ 0x0F then false
  else if o ≤ 0x1B then true
  else if o ≤ 0x1F then false
  else if o ≤ 0x27 then true
  else if o = 0x28 then decide ((0x001 ≤ fa ∧ fa ≤ 0x004) ∨ fa = 0x010 ∨ fa = 0x011)
  else if o = 0x2C then decide (fn4 w ≤ 6)
  else if o = 0x2D then true
  else if o < 0x30 then false
  else if o = 0x32 ∨ o = 0x33 then decide (fn4 w ≤ 0xB)
  else if o = 0x34 then decide (fn4 w ≤ 0xE)
  else if o = 0x36 then decide (fn4 w ≤ 0xA)
  else if o = 0x37 then decide (fn4 w ≤ 6)
  else if o = 0x38 then decide (fnVM w ≤ 6)
  else if o = 0x39 then decide (fnVG w ≤ 2 ∨ fnVG w = 4 ∨ fnVG w = 6)
  else if o = 0x3A then decide (fn4 w ≤ 0xB)
  else if o = 0x3B then decide (fnVM w ≤ 1)
  else true

/-- UNDEFINED_OPCODE: cause 0x02 with EADDR equal to the instruction word (R209). -/
def execUndefinedOpcode (n : CoreIx) (w : BitVec 32) (s : State) : Host.Outcome State Fault Refusal :=
  onDev s (instr n w (fun v => !definedWord v) (fun _ => {}) (fun n w d => takeException d n 0x02 (core d n).pc w 0))

/-- A fetch of core n at its pc faults: outside the memory it may fetch from, cause 0x01; from an uncorrectable line, cause 0x08 with
the line address, recorded as R325 says (R202, R228). -/
def fetchFault (n : Nat) (d : Dev) : Dev :=
  let c := core d n
  if running d ∧ domOn d (coreDom n) ∧ c.st = .running ∧ c.loads = [] then
    if !fetchable d n c.pc then takeException d n 0x01 c.pc c.pc 0
    else
      match firstBadLine d c.pc 4 with
      | some l => takeException (readErr d l) n 0x08 c.pc l 0
      | none => d
  else d

/-- INSTRUCTION_FETCH_FAULT (R202, R325). -/
def execInstructionFetchFault (n : CoreIx) (s : State) : Host.Outcome State Fault Refusal := onDev s (fetchFault n.val)

/-- EADDR of an interrupt (R228). -/
def irqEaddr (d : Dev) (n cause : Nat) : Nat :=
  if cause = 0x12 then (core d n).abortId else if cause = 0x14 then (rd d .coreMsg n).toNat else 0

/-- Takes the interrupt that is due: the cause's pending mark clears where taking it clears it; a WAITI ends before it; a WAITW that waits
ends with EPC at the WAITW, unless a hand-over has been decided. The loads in flight return first, and so does a vector access that waits for a
domain (R205, R222, R224, R225, R231, R255). -/
def takeInterrupt (n : Nat) (d : Dev) : Dev :=
  let c := core d n
  match dueInterrupt d n with
  | none => d
  | some k =>
    if running d ∧ domOn d (coreDom n) ∧ c.loads = [] ∧ !c.inVec then
      let go := fun (d : Dev) (epc : Nat) =>
        let ea := irqEaddr d n k
        takeException (modCore d n (fun c => { c with pend := if k = 0x12 ∨ k = 0x14 ∨ k = 0x15 then sdel c.pend k else c.pend }))
          n k epc ea 0
      match c.st with
      | .running => go d c.pc
      | .waiti => let d1 := retire d n c (c.pc + 4); go d1 (core d1 n).pc
      | .waitw =>
        if d.disp.delivering.any (fun t => decide (t.core = n)) then d
        else go { d with disp := { d.disp with waiting := d.disp.waiting.filter (fun e => decide (e.1 ≠ n)) } } c.pc
      | _ => d
    else d

/-! ## Time -/

/-- One core after k of its cycles: CYCLE counts unless the core is held (R226). -/
def coreTime (k : Nat) (c : Core) : Core :=
  if c.st = .held then c else csrSet c 0x028 (csrGet c 0x028 + BitVec.ofNat 40 k)

/-- The core clock in MHz; a device whose core clock stands has no cc. -/
def coreMhz (d : Dev) : Nat := max 1 (fld d .pwrStatus 0 34 24)

/-- Signal Box cycles in k cc: 600 MHz beside the core clock (R3, R233). -/
def sboxCycles (d : Dev) (k : Nat) : Nat := (d.pwr.scPart + 600 * k) / coreMhz d

/-- k cc pass in which nothing else happens: CYCLE of every core out of reset, in its own clock; the cc spent waiting in WAITW and those in which
issue stalled; the cc in which a producer stalled; and what goes on in FABRIC by itself (R200, R226, R233, R234, R322, R324, R334). -/
def advance (k : Nat) (d : Dev) : Dev :=
  let d0 := { d with cc := d.cc + k, pwr := { d.pwr with scPart := (d.pwr.scPart + 600 * k) % coreMhz d }, nv := { d.nv with writing := none } }
  let d1 := (idxWhere 33 (fun n => decide ((core d n).st ≠ .held))).foldl
    (fun e n => modCore e n (coreTime (if n = 32 then sboxCycles d k else k))) d0
  let d2 := (idxWhere 32 (fun n => decide ((core d n).st = .waitw))).foldl (fun d n => bumpN d .coreCnt (n * 4 + 1) k) d1
  let d3 := (idxWhere 32 (fun n => (core d n).stalled)).foldl (fun d n => bumpN d .coreCnt (n * 4 + 2) k) d2
  fabricTime k (if d.disp.offers.any (fun o => o.stalled) then bumpN d3 .dispCnt 7 k else d3)

/-- cc until a core's CYCLE has counted n more. -/
def ccFor (d : Dev) (core_ n : Nat) : Nat := if core_ = 32 then ceilDiv (n * coreMhz d - d.pwr.scPart) 600 else n

/-- TIMER_COMPARE: time passes until the core's CYCLE reaches TCMP, which makes cause 0x10 pending (R226, R231). -/
def timerCompare (n : Nat) (d : Dev) : Dev :=
  let c := core d n
  if c.st = .held ∨ timerPending c then d
  else advance (ccFor d n ((csrGet c 0x02A).toNat - (csrGet c 0x028).toNat)) d

/-- TIMER_COMPARE. -/
def execTimerCompare (n : CoreIx) (s : State) : Host.Outcome State Fault Refusal := onDev s (timerCompare n.val)

end Sys2Proof.Machine
end

