-- ==== Sys2Proof/Machine/CoreMem.lean ====
section
/-!
DEFINITION. Scalar loads and stores of the cores (R213 to R219, R244, R252): effective addresses, alignment, reach, loads in flight,
the store buffer, and the bell addresses of R261, R288, R313 and R342. The return of a load and the completion of a store stand in CoreDone.lean.
-/

namespace Sys2Proof.Machine

/-! ## Reach -/

/-- PSWIN.BASE and LINES as they behave (R219). -/
def psBase (c : Core) : Nat := bitsOf (csrGet c 0x040).toNat 11 0
def psLines (c : Core) : Nat := sat4096 (bitsOf (csrGet c 0x040).toNat 24 12)
/-- YWIN.FIRST and COUNT as they behave (R219). -/
def ywFirst (c : Core) : Nat := bitsOf (csrGet c 0x041).toNat 11 0
def ywCount (c : Core) : Nat := sat4096 (bitsOf (csrGet c 0x041).toNat 24 12)
/-- WC_PORT (R219). -/
def wcPort (c : Core) : Nat := bitsOf (csrGet c 0x04C).toNat 7 0

/-- At U, a Platform Store line inside PSWIN or, for a read with PARAM_EN, among the parameter lines (R218). -/
def psReach (c : Core) (line : Nat) (store : Bool) : Bool :=
  let v := (csrGet c 0x040).toNat
  decide (psBase c ≤ line ∧ line < psBase c + psLines c) ||
    (!store && decide (bitOf v 37 = 1 ∧ bitsOf v 36 25 ≤ line ∧ line < bitsOf v 36 25 + 4))

/-- Whether core n reaches a byte with a load or a store: the mapping of R17, the reach of R18 and R394, the windows of R218. Registers are
not reached this way. -/
def byteReach (d : Dev) (n a : Nat) (store : Bool) : Bool :=
  let c := core d n
  if n = 32 then
    match regionOf d a with
    | .regs | .unmapped => false
    | .rom => !store
    | _ => true
  else
    match regionOf d a with
    | .gddr => (gddrOut d (wcPort c) a 1).isNone
    | .yard => let b := (a - yardBase) / 4096; decide (ywFirst c ≤ b ∧ b < ywFirst c + ywCount c)
    | .store m => decide (m = n) && (decide (0 < privOf c) || psReach c (a % 0x1000000 / 64) store)
    | .imem m => decide (m = n) && decide (0 < privOf c)
    | _ => false

/-- The len bytes of an access, modulo 2^40 (R213). -/
def accessBytes (ea len : Nat) : List Nat := (List.range len).map (fun k => (ea + k) % 2 ^ 40)

/-- The cause of an access by the first two steps of R215: alignment, then mapping and reach. -/
def accessCause (d : Dev) (n ea len : Nat) (aligned store : Bool) : Option Nat :=
  if !aligned then some 0x04
  else if (accessBytes ea len).all (fun a => byteReach d n a store) then none
  else some (if store then 0x06 else 0x05)

/-- The native alignment rule: (address mod 64) a multiple of 5 below 60 (R119, R213). -/
def nativeOk (ea : Nat) : Bool := decide (ea % 64 % 5 = 0 ∧ ea % 64 < 60)

/-- Domains that an access to an address needs (R422, R425): MC and CIPHER for GDDR6, the Rake of a core's memories. -/
def needDoms (d : Dev) (a : Nat) : List Nat :=
  match regionOf d a with
  | .gddr => mcDoms d ++ [23]
  | .store n | .imem n => [coreDom n]
  | _ => []

/-- What a core's access meets at the domains of the bytes that it touches (R425). -/
inductive MemGate where
  | open_
  /-- The domains wake, and the access waits. -/
  | wake (ks : List Nat)
  /-- A domain is off and its AUTOWAKE is 0. -/
  | shut
  deriving DecidableEq, Repr

/-- The gate of an access to addresses. -/
def memGate (d : Dev) (as : List Nat) : MemGate :=
  match ((as.map (needDoms d)).flatten).filter (fun k => !domOn d k) with
  | [] => .open_
  | ks => if ks.any (fun k => !autowake d k) then .shut else .wake ks

/-! ## Bells -/

/-- The line of core n's bells, from PSWIN as it stands; none without one (R261). -/
def bellLine (d : Dev) (n : Nat) : Option Nat :=
  let c := core d n
  if n = 32 ∨ psLines c = 0 ∨ 4096 < psBase c + psLines c then none else some (coreBase n + 64 * (psBase c + psLines c - 1))

/-- The bell that a native store by core n to an address rings: 0 scanner, 1 Junction, 2 Hump, 3 Shunting Engine (R261, R288, R313,
R342). -/
def bellSlot (d : Dev) (n ea : Nat) : Option Nat :=
  match bellLine d n with
  | some l => [0, 1, 2, 3].find? (fun k => decide (ea = l + 5 * k))
  | none => none

/-- The domain of the unit behind a bell; the scanner shares its core's Rake. -/
def bellDom (n slot : Nat) : Nat := match slot with | 1 => 12 | 2 => 13 | 3 => 14 | _ => coreDom n

/-- A ringing store that its unit's domain refuses: the domain is not ON and AUTOWAKE is 0 (R288). -/
def bellRefused (d : Dev) (n ea : Nat) : Bool :=
  match bellSlot d n ea with
  | some k => !domOn d (bellDom n k) && !autowake d (bellDom n k)
  | none => false

/-- Wakes the unit behind a bell for a store that waits for it (R288). -/
def bellWake (d : Dev) (n ea : Nat) : Dev :=
  match bellSlot d n ea with
  | some k => if domOn d (bellDom n k) || !autowake d (bellDom n k) then d else wakeDom d (bellDom n k)
  | none => d

/-! ## Loads -/

/-- The effective address: ra + a sign-extended offset, modulo 2^40 (R213). -/
def effAddr (c : Core) (ra : Nat) (off : Word) : Nat := (xget c ra + off).toNat

/-- The byte that the core's own buffered stores give an address, the youngest one's (R216). -/
def fwdStore (c : Core) (a : Nat) : Option Byte :=
  c.stores.foldl (fun b s => s.parts.foldl (fun b p => if p.1 ≤ a ∧ a < p.1 + p.2.length then p.2[a - p.1]? else b) b) none

/-- What core n's load knows of a byte when it issues: the core's own buffered stores, in program order, over the stores on chip; GDDR6 answers
later (R216). -/
def knownByte (d : Dev) (c : Core) (a : Nat) : Nat × Option Byte :=
  (a, match fwdStore c a with
      | some b => some b
      | none => if a < 0x1000000000 then none else some (memByte d a))

/-- The first uncorrectable on-chip line among the bytes of an access. -/
def badAt (d : Dev) (as : List Nat) : Option Nat :=
  as.findSome? (fun a => if a < 0x1000000000 then none else firstBadLine d a 1)

/-- Requester number of core n at the slices: REQ n of an operator core, the looking class for the Signal Box (R326). -/
def coreReq (n : Nat) : Nat := if n = 32 then looker else n

/-- The bytes of a load at its destination. -/
def deliver (c : Core) (dest : LoadDest) (bs : List Byte) : Core :=
  match dest with
  | .x rd signed => xset c rd (if signed then sextW (8 * bs.length) (ofLE bs) else BitVec.ofNat 40 (ofLE bs))
  | .lnf rd slot => xset c rd (BitVec.ofNat 40 (bitOf (ofLE bs) slot))
  | .f rd => setF c rd (ofLE bs)
  | .vec v long js width =>
    setElems c v long (((List.range js.length).zip js).map (fun e => (e.2, BitVec.ofNat 40 (leAt bs (width * e.1) width))))
  | .nullQ k slots =>
    setQual c k (bitsQ (((List.range slots.length).zip slots).filterMap (fun e => if bitOf (leAt bs (4 * e.1) 4) e.2.2 = 1 then some e.2.1 else none)))
  | .q k => setQual c k (BitVec.ofNat 64 (ofLE bs))

/-- Issues a load whose address has been checked: it joins the loads in flight, and its reads of GDDR6 go to their slices, one for each line of
the runs that it needs from there (R204, R205, R215, R216). -/
def launch (d : Dev) (n : Nat) (l : LoadFly) (spans : List (Nat × Nat)) : Dev :=
  let c := core d n
  let l1 := { l with num := c.nextLoad, saved := c.toCoreRegs, after := 1 }
  let need := spans.filter (fun e => l.want.any (fun w => w.2.isNone && decide (e.1 ≤ w.1 ∧ w.1 < e.1 + e.2)))
  let d1 := askLines (spans.foldl (fun d e => yardTouch d e.1 e.2) d) (.load n c.nextLoad) (coreReq n) (wcPort c)
    ((serving d n).map (fun s => wConsist s.w)) need
  setCore d1 n (retireTo { c with loads := c.loads ++ [l1], nextLoad := c.nextLoad + 1, stalled := false, inVec := false } (c.pc + 4))

/-- A load of len bytes at ea whose data come from the bytes at `from_`. -/
def loadFrom (d : Dev) (n ea from_ len : Nat) (aligned : Bool) (dest : LoadDest) : Dev :=
  let c := core d n
  match accessCause d n from_ len aligned false with
  | some k => takeException d n k c.pc ea 0
  | none =>
    match memGate d [from_] with
    | .shut => takeException d n 0x05 c.pc ea 0
    | .wake ks => stallCount (wakeAll d ks) n
    | .open_ =>
      if 8 ≤ c.loads.length then stallCount d n
      else
        let as := accessBytes from_ len
        launch d n { dest := dest, elems := [(0, len)], want := as.map (knownByte d c), bad := (badAt d as).map (fun l => (l, 0)), addr := ea }
          [(from_, len)]

/-- A scalar load of an aligned k-byte value (R213, R215). -/
def loadRow (k : Nat) (dest : Nat → LoadDest) (n w : Nat) (d : Dev) : Dev :=
  let ea := effAddr (core d n) (raOf w) (immS w)
  loadFrom d n ea ea k (decide (ea % k = 0)) (dest (rdOf w))

/-- LB (R210). -/
def execLb (n : CoreIx) (w : BitVec 32) (s : State) : Host.Outcome State Fault Refusal :=
  onDev s (instr n w (isOp 0x10) usesAb (loadRow 1 (fun r => .x r true)))

/-- LBU (R210). -/
def execLbu (n : CoreIx) (w : BitVec 32) (s : State) : Host.Outcome State Fault Refusal :=
  onDev s (instr n w (isOp 0x11) usesAb (loadRow 1 (fun r => .x r false)))

/-- LH (R210). -/
def execLh (n : CoreIx) (w : BitVec 32) (s : State) : Host.Outcome State Fault Refusal :=
  onDev s (instr n w (isOp 0x12) usesAb (loadRow 2 (fun r => .x r true)))

/-- LHU (R210). -/
def execLhu (n : CoreIx) (w : BitVec 32) (s : State) : Host.Outcome State Fault Refusal :=
  onDev s (instr n w (isOp 0x13) usesAb (loadRow 2 (fun r => .x r false)))

/-- LW (R210). -/
def execLw (n : CoreIx) (w : BitVec 32) (s : State) : Host.Outcome State Fault Refusal :=
  onDev s (instr n w (isOp 0x14) usesAb (loadRow 4 (fun r => .x r true)))

/-- LWU (R210). -/
def execLwu (n : CoreIx) (w : BitVec 32) (s : State) : Host.Outcome State Fault Refusal :=
  onDev s (instr n w (isOp 0x15) usesAb (loadRow 4 (fun r => .x r false)))

/-- What a register access meets at its domain (R425, R427, R486). -/
inductive RegWay where
  /-- The domain is ON, or there is none. -/
  | open_
  /-- The domain wakes, and the access waits. -/
  | waits (k : Nat)
  /-- AUTOWAKE is 0, or a third Rake would be powered in CAP15. -/
  | shut
  deriving DecidableEq, Repr

/-- The way of an access to the register range at an offset; one that has ended Standing counts as for AUTOWAKE 1 (R487). -/
def regWayOf (d : Dev) (woke : Bool) (off : Nat) : RegWay :=
  match regDomain off with
  | none => .open_
  | some k =>
    if domOn d k then .open_
    else if (woke || autowake d k) && !(decide (4 ≤ k ∧ k ≤ 11 ∧ rakeLimit d ≤ rakesOn d) && !powered d k) then .waits k
    else .shut

/-- The way of an access to the register range at an offset. -/
def regWay (d : Dev) (off : Nat) : RegWay := regWayOf d false off

/-- Whether core n at its privilege may read the register offset with LN: every one at M, the status registers of RAKE and DISPATCH at S
(R18, R214, R483). -/
def lnGrant (d : Dev) (n off : Nat) : Bool :=
  if n = 32 then true
  else
    decide (0 < privOf (core d n)) &&
      (match regAt off with
       | some (r, _) => match r with
         | .coreStatus | .coreFault | .coreFaultPc | .coreCnt | .dispStatus | .dispStatus2 | .dispCore | .dispConsist => true
         | _ => false
       | none => false)

/-- LNF reads the trailer's 4 bytes alone (R210, R215). -/
def lnfRow (n w : Nat) (d : Dev) : Dev :=
  let ea := effAddr (core d n) (raOf w) (immS w)
  loadFrom d n ea (ea / 64 * 64 + 60) 4 (nativeOk ea) (.lnf (rdOf w) (ea % 64 / 5))

/-- LNF (R119, R210, R215). -/
def execLnf (n : CoreIx) (w : BitVec 32) (s : State) : Host.Outcome State Fault Refusal := onDev s (instr n w (isOp 0x17) usesAb lnfRow)

/-! ## Stores -/

/-- The bytes of own instruction memory that a store covers, as fetch sees them before it (R217). -/
def hideCode (d : Dev) (n : Nat) (parts : List (Nat × List Byte)) : List (Nat × Byte) :=
  let as := (parts.map (fun p => (List.range p.2.length).map (fun k => p.1 + k))).flatten
  let own := as.filter (fun a => decide (regionOf d a = .imem n) && !(core d n).oldCode.any (fun e => decide (e.1 = a)))
  own.map (fun a => (a, fetchByte d n a))

/-- Issues a store whose address has been checked: it joins the store buffer and retires (R204). -/
def buffer (d : Dev) (n : Nat) (s : StoreBuf) : Dev :=
  let c := core d n
  retire d n { c with stores := c.stores ++ [{ s with num := c.nextLoad }], oldCode := c.oldCode ++ hideCode d n s.parts } (c.pc + 4)

/-- A store of bytes at ea. -/
def storeAt (d : Dev) (n ea : Nat) (bs : List Byte) (aligned native : Bool) : Dev :=
  let c := core d n
  match accessCause d n ea bs.length aligned true with
  | some k => takeException d n k c.pc ea 0
  | none =>
    if native && bellRefused d n ea then takeException d n 0x06 c.pc ea 0
    else match memGate d [ea] with
      | .shut => takeException d n 0x06 c.pc ea 0
      | .wake ks => stallCount (wakeAll d ks) n
      | .open_ =>
        if 8 ≤ c.stores.length then stallCount d n
        else
          let d1 := if native then bellWake d n ea else d
          buffer d1 n { parts := [(ea, bs)], isNat := native }

/-- A scalar store of the low k bytes of rs (R213, R215). -/
def storeRow (k : Nat) (n w : Nat) (d : Dev) : Dev :=
  let c := core d n
  let ea := effAddr c (raOf w) (immS w)
  storeAt d n ea (toLE k (xget c (rdOf w)).toNat) (decide (ea % k = 0)) false

/-- SB (R210). -/
def execSb (n : CoreIx) (w : BitVec 32) (s : State) : Host.Outcome State Fault Refusal := onDev s (instr n w (isOp 0x18) usesAb (storeRow 1))

/-- SH (R210). -/
def execSh (n : CoreIx) (w : BitVec 32) (s : State) : Host.Outcome State Fault Refusal := onDev s (instr n w (isOp 0x19) usesAb (storeRow 2))

/-- SW (R210). -/
def execSw (n : CoreIx) (w : BitVec 32) (s : State) : Host.Outcome State Fault Refusal := onDev s (instr n w (isOp 0x1A) usesAb (storeRow 4))

/-- SN: a native word; by the Signal Box at an 8-byte-aligned register address a register write, which completes as a store does (R18,
R122, R210, R483). -/
def snRow (n w : Nat) (d : Dev) : Dev :=
  let c := core d n
  let ea := effAddr c (raOf w) (immS w)
  let bs := toLE 5 (xget c (rdOf w)).toNat
  if n = 32 ∧ regionOf d ea = .regs ∧ ea % 8 = 0 then
    if 8 ≤ c.stores.length then stallCount d n else buffer d n { parts := [(ea, bs)], isNat := true }
  else storeAt d n ea bs (nativeOk ea) true

/-- SN (R119, R122, R210). -/
def execSn (n : CoreIx) (w : BitVec 32) (s : State) : Host.Outcome State Fault Refusal := onDev s (instr n w (isOp 0x1B) usesAb snRow)

/-! ## Scalar accesses of the cell file -/

/-- Registers of FLW, FSW, FLD and FSD. -/
def usesF (w : Nat) : Uses := { xs := [raOf w], cells := [rdOf w] }

/-- FLW: F[rd] takes 32 bits (R244). -/
def execFlw (n : CoreIx) (w : BitVec 32) (s : State) : Host.Outcome State Fault Refusal :=
  onDev s (instr n w (isOp 0x3C) usesF (loadRow 4 (fun r => .f r)))

/-- FLD: F[rd] takes 64 bits (R244). -/
def execFld (n : CoreIx) (w : BitVec 32) (s : State) : Host.Outcome State Fault Refusal :=
  onDev s (instr n w (isOp 0x3E) usesF (loadRow 8 (fun r => .f r)))

/-- FSW and FSD: the low k bytes of the cell of F[rs]. -/
def fstoreRow (k : Nat) (n w : Nat) (d : Dev) : Dev :=
  let c := core d n
  let ea := effAddr c (raOf w) (immS w)
  storeAt d n ea (toLE k (cell c (rdOf w)).toNat) (decide (ea % k = 0)) false

/-- FSW (R244). -/
def execFsw (n : CoreIx) (w : BitVec 32) (s : State) : Host.Outcome State Fault Refusal := onDev s (instr n w (isOp 0x3D) usesF (fstoreRow 4))

/-- FSD (R244). -/
def execFsd (n : CoreIx) (w : BitVec 32) (s : State) : Host.Outcome State Fault Refusal := onDev s (instr n w (isOp 0x3F) usesF (fstoreRow 8))

/-- A word of opcode 0x3B with function fn. -/
def isQMem (fn w : Nat) : Bool := decide (opOf w = 0x3B ∧ fnVM w = fn)

/-- Registers of QLD and QST. -/
def usesQMem (w : Nat) : Uses := { xs := [raV w], qs := [vdOf w % 8] }

/-- QLD: 8 bytes at A into Q[v], A a multiple of 8 (R252). -/
def qldRow (n w : Nat) (d : Dev) : Dev :=
  let ea := effAddr (core d n) (raV w) (imm8 w)
  loadFrom d n ea ea 8 (decide (ea % 8 = 0)) (.q (vdOf w % 8))

/-- QLD (R244, R252). -/
def execQld (n : CoreIx) (w : BitVec 32) (s : State) : Host.Outcome State Fault Refusal := onDev s (instr n w (isQMem 0) usesQMem qldRow)

/-- QST: Q[v] to the 8 bytes at A. -/
def qstRow (n w : Nat) (d : Dev) : Dev :=
  let c := core d n
  let ea := effAddr c (raV w) (imm8 w)
  storeAt d n ea (toLE 8 (qual c (vdOf w % 8)).toNat) (decide (ea % 8 = 0)) false

/-- QST (R244, R252). -/
def execQst (n : CoreIx) (w : BitVec 32) (s : State) : Host.Outcome State Fault Refusal := onDev s (instr n w (isQMem 1) usesQMem qstRow)

end Sys2Proof.Machine
end

