-- ==== Sys2Proof/Machine/Consist.lean ====
section
/-!
DEFINITION. Timetables and Consists (R144 to R175, R489): loading, the RUN_CONSIST check, the start, the end, and what
the writing of a completion releases.
-/

namespace Sys2Proof.Machine

/-! ## Linear copies of commands -/

/-- One step of a copy of `total` bytes from a command's SRC to device memory at dst, a piece of at most 4 KiB that crosses
no 4 KiB boundary of the source; bytes before the edge of a window stay written (R96, R155). `none` in the second place means
that the copy goes on; a status ends the command, with 0 for a copy that is complete. -/
def copyIn (d : Dev) (c : Cmd) (host : Bool) (src dst total : Nat) : Dev × Option (Nat × Nat) :=
  if total ≤ c.pos then (d, some (0, 0))
  else
    let a := src + c.pos
    let n := min (total - c.pos) (4096 - a % 4096)
    let own : Owner → Bool := fun o => match o with | .command i _ => decide (i = c.id) | _ => false
    let put (d : Dev) (bs : List Byte) (next : Option (Nat × Nat)) : Dev × Option (Nat × Nat) :=
      match gddrOut d c.port (dst + c.pos) bs.length with
      | some x => ((devWrite d (dst + c.pos) (bs.take (x - (dst + c.pos)))).1, some (4, x))
      | none => (modCmd (devWrite d (dst + c.pos) bs).1 c.id (fun k => { k with pos := k.pos + bs.length }), next)
    if host then
      match readsOf d own with
      | [] =>
        match hostOut d c.port a n with
        | some x => if x = a then (d, some (4, x)) else (hostRead d c.port a (x - a) (.command c.id c.pos), none)
        | none => (hostRead d c.port a n (.command c.id c.pos), none)
      | r :: _ =>
        if r.st = .done then put (dropReads d own) r.got none
        else (d, none)
    else
      let d := lookLines looker d a n
      match spanFault d c.port a n with
      | some (st, x) => if x ≤ a then (d, some (st, x)) else put d (memRead d a (x - a)) (some (st, x))
      | none => put d (memRead d a n) none

/-! ## Loading -/

/-- A Timetable handle. -/
def handle (d : Dev) (h : Nat) : Handle := mget {} d.handles h

/-- Handles in use together with those that loads in progress hold (R155). -/
def handlesHeld (d : Dev) : Nat :=
  (d.handles.filter (fun e => e.2.valid)).length +
    (d.ring.cmds.filter (fun c => decide (c.opcode = 0x10 ∧ c.st = .running))).length

/-- Saturated STAGES of a header (R146). -/
def satStages (n : Nat) : Nat := if n = 0 then 1 else min n 64

/-- Bits set in a number below 2^n. -/
def popBelow (n v : Nat) : Nat := ((List.range n).filter (fun i => decide (bitOf v i = 1))).length

/-- Word Sj of the descriptor of stage s (R148). -/
def descWord (d : Dev) (m : Image) (s j : Nat) : Nat := imageNat d m (256 + 128 * s + 8 * j) 8

/-- What a read of words S0 to S7 of the descriptor of stage s meets (R148, R489). -/
def descFault (d : Dev) (m : Image) (s : Nat) : Option (Nat × Nat) := imageFault d m (256 + 128 * s) 64

/-- Claim i of the list at an offset: K0 and K1 (R150). -/
def claimAt (d : Dev) (m : Image) (off i : Nat) : Nat × Nat :=
  (imageNat d m (off + 16 * i) 8, imageNat d m (off + 16 * i + 8) 8)

/-- CLAIM_OFF and CLAIM_COUNT of a header (R144, R146). -/
def claimList (d : Dev) (m : Image) : Nat × Nat :=
  let t9 := imageNat d m 72 8
  (bitsOf t9 39 6 * 64, bitsOf t9 55 48)

/-- The stages that run kernels: 0 to STAGES − 1 without the result stage (R149, R153). -/
def kernelStages (stages res : Nat) : List Nat := (List.range stages).filter (fun s => decide (s ≠ res))

/-- The load totals of the image at HOME: STAGES, RESULT_STAGE, DOMAINS and the counted use of R153. -/
def loadTotals (d : Dev) (m : Image) : Nat × Nat × Nat × Nat × Nat × Nat :=
  let t0 := imageNat d m 0 8
  let stages := satStages (bitsOf t0 31 24)
  let res := bitsOf t0 37 32
  let doms := imageNat d m 64 8 % 2 ^ 16
  let ks := kernelStages stages res
  let cl := claimList d m
  let claims := (List.range cl.2).map (claimAt d m cl.1)
  let cores := ks.foldl (fun a s => max a (popBelow 32 (bitsOf (descWord d m s 0) 63 32))) 0
  let yard := ks.foldl (fun a s => a + sat4096 (bitsOf (descWord d m s 4) 28 16)) 0 +
    claims.foldl (fun a k => if k.1 % 256 = 3 then a + sat4096 (bitsOf k.2 28 16) else a) 0
  let junc := claims.foldl (fun a k => if k.1 % 256 = 1 then a + bitsOf k.2 32 16 else a) 0
  (stages, res, doms, cores, yard, junc)

/-- The digest of a Timetable image: SHA-384 with bytes 16 to 63 taken as zero (R155, R169). -/
def imageDigest (img : List Byte) : List Byte := sha384 (img.take 16 ++ (zeros (min 48 (img.length - 16)) ++ img.drop 64))

/-- Ends a load whose bytes stand at HOME: digest, totals and the lowest free handle (R155 steps 3 to 5). -/
def loadEnds (d : Dev) (c : Cmd) (home bytes : Nat) : Dev :=
  match firstIdx 1024 (fun h => !(handle d h).valid) with
  | none => d
  | some h =>
    let t := loadTotals d ⟨c.port, home, bytes⟩
    let v : Handle := { valid := true, port := c.port, home := home, bytes := bytes,
                        digest := imageDigest (memRead d home bytes), stages := t.1, resultStage := t.2.1,
                        domains := t.2.2.1, cores := t.2.2.2.1, yard := t.2.2.2.2.1, junction := t.2.2.2.2.2 }
    finish { d with handles := mset {} d.handles h v } c.id 0 h

/-- One step of a load's copy, digest and allocation; the bytes at HOME are read as the copy leaves them, under the port's windows (R155). -/
def loadStep (d : Dev) (c : Cmd) : Dev :=
  let home := pw c 2
  let bytes := pf c 3 39 0
  let own := !isHost c 1 && decide (pw c 1 = home)
  if c.bad ≠ [] then d
  else
    match (if own then (d, some (0, 0)) else
      if !isHost c 1 ∧ 2 ^ 40 ≤ pw c 1 then (d, some (4, pw c 1)) else copyIn d c (isHost c 1) (pw c 1) home bytes) with
    | (d1, none) => d1
    | (d1, some (0, _)) =>
      match spanFault d1 c.port home bytes with
      | some (st, x) => finish d1 c.id st x
      | none => loadEnds (if own then lookLines looker d1 home bytes else d1) c home bytes
    | (d1, some (st, r)) => finish d1 c.id st r

/-- LOAD_TIMETABLE (R155, R156): the check holds a handle; each further step moves a piece; the last takes digest, totals
and the handle. -/
def loadTimetable (id : Nat) (d : Dev) : Dev :=
  match cmdOf d id with
  | none => d
  | some c =>
    if c.st = .running ∧ c.opcode = 0x10 then loadStep d c
    else checked 0x10 id (fun c d =>
      if pf c 3 39 0 = 0 then finish d id 0 0
      else if 1024 < handlesHeld d then finish d id 5 1
      else loadStep d c) d

/-- LOAD_TIMETABLE. -/
def execLoadTimetable (id : Nat) (s : State) : Host.Outcome State Fault Refusal := onUnitTx s (loadTimetable id)

/-- A RUN_CONSIST of the handle has passed its check and not completed (R87). -/
def handleBusy (d : Dev) (h : Nat) : Bool := d.consists.any (fun e => e.2.valid && decide (e.2.handle = h))

/-- DROP_TIMETABLE (R87, R157, R158): the handle is released; the image is not touched. -/
def dropTimetable (id : Nat) (d : Dev) : Dev :=
  checked 0x11 id (fun c d =>
    let h := pf c 1 9 0
    let v := handle d h
    if !v.valid ∨ v.port ≠ c.port then finish d id 2 1
    else if handleBusy d h then finish d id 2 2
    else finish { d with handles := mset {} d.handles h {} } id 0 0) d

/-- DROP_TIMETABLE. -/
def execDropTimetable (id : Nat) (s : State) : Host.Outcome State Fault Refusal := onDevTx s (dropTimetable id)

/-! ## The check of RUN_CONSIST -/

/-- Running Consists of a port (R89). -/
def portConsists (d : Dev) (p : Nat) : List Consist :=
  (d.consists.filter (fun e => e.2.valid && decide (e.2.port = p))).map Prod.snd

/-- Yard buffers that a port's running Consists hold (R109). -/
def yardUse (d : Dev) (p : Nat) : Nat := (portConsists d p).foldl (fun a k => a + k.yard) 0
/-- Junction entries that a port's running Consists hold. -/
def junctionUse (d : Dev) (p : Nat) : Nat := (portConsists d p).foldl (fun a k => a + k.junction) 0
/-- Largest core set among the stages of a port's running Consists (R110). -/
def coresUse (d : Dev) (p : Nat) : Nat := (portConsists d p).foldl (fun a k => max a k.cores) 0

/-- Rakes that DOMAINS bits name. -/
def domRakes (doms : Nat) : List Nat := idxWhere 8 (fun r => decide (bitOf doms r = 1))

/-- The profile can power the Rakes of a Timetable beside those that running Consists hold (R25). -/
def rakesFit (d : Dev) (doms : Nat) : Bool :=
  decide ((idxWhere 8 (fun r => (domRakes doms).contains r || (heldRakes d).contains r)).length ≤ rakeLimit d) ||
    (domRakes doms).isEmpty

/-- A DRAM slot frame with the bits of excluded channels cleared; empty where no bit is left (R165). -/
def frameBits (d : Dev) (f : List Byte) : List Byte :=
  let g := (f.zipIdx).map (fun e => if excluded d (e.2 / 32) then (0 : Byte) else e.1)
  if g.all (fun b => decide (b = 0)) then [] else g

/-- Two frames share a bit. -/
def framesMeet (f g : List Byte) : Bool := (f.zip g).any (fun e => decide (e.1 &&& e.2 ≠ 0))

/-- Frames that running Consists hold. -/
def heldFrames (d : Dev) : List (List Byte) :=
  (d.consists.filter (fun e => e.2.valid && !e.2.frame.isEmpty)).map (fun e => e.2.frame)

/-- The image of a loaded Timetable. -/
def imageOfHandle (h : Handle) : Image := ⟨h.port, h.home, h.bytes⟩

/-- The status and RESULT of the first of tests 1 to 7 of R168 that a RUN_CONSIST fails. -/
def consistAdmit (d : Dev) (c : Cmd) (h : Handle) : Option (Nat × Nat) :=
  let params := min 48 (pf c 1 21 16)
  let out :=
    (if params = 0 then none else wordOut d c 2 256).orElse (fun _ =>
    (if pf c 4 39 0 = 0 then none else wordOut d c 3 (pf c 4 39 0)).orElse (fun _ =>
    (if pf c 1 32 32 = 0 then none else wordOut d c 5 256)))
  if !h.valid ∨ h.port ≠ c.port then some (2, 1)
  else match out with
  | some a => some (4, a)
  | none =>
    if (firstIdx 1024 (fun i => !(consist d i).valid)).isNone then some (5, 2)
    else if coreShare d c.port < h.cores then some (5, 6)
    else if yardQuota d c.port < h.yard + yardUse d c.port then some (5, 4)
    else if junctionAllowance d c.port < h.junction + junctionUse d c.port then some (5, 5)
    else if !rakesFit d h.domains then some (2, 4)
    else none

/-- FRAME_OFF of a header, and where its frame begins (R144, R146). -/
def frameOff (d : Dev) (m : Image) : Nat := imageNat d m 88 8 % 2 ^ 40

/-- The reads of the header and of the slot frame that the check makes after test 7, and test 8 (R165, R166, R168, R489). -/
def frameCheck (d : Dev) (m : Image) : Except (Nat × Nat) (List Byte) :=
  match imageFault d m 0 256 with
  | some e => .error e
  | none =>
    let t11 := frameOff d m
    if t11 = 0 then .ok []
    else match imageFault d m (t11 / 64 * 64) 512 with
    | some e => .error e
    | none =>
      let f := frameBits d (imageRead d m (t11 / 64 * 64) 512)
      if f = [] then .ok []
      else if 4 ≤ (heldFrames d).length then .error (5, 3)
      else if (heldFrames d).any (framesMeet f) then .error (2, 3)
      else .ok f

/-- The status and RESULT that end a RUN_CONSIST at its check, or the frame that it would hold (R166, R168, R489). -/
def consistCheck (d : Dev) (c : Cmd) (h : Handle) : Except (Nat × Nat) (List Byte) :=
  match consistAdmit d c h with
  | some e => .error e
  | none => frameCheck d (imageOfHandle h)

/-- The Column Cache lookups of the check's reads (R326). -/
def checkLooks (d : Dev) (c : Cmd) (h : Handle) : Dev :=
  let m := imageOfHandle h
  if (consistAdmit d c h).isSome then d
  else
    let d1 := imageLook d m 0 256
    if (imageFault d m 0 256).isSome ∨ frameOff d m = 0 then d1 else imageLook d1 m (frameOff d m / 64 * 64) 512

/-! ## The start -/

/-- Domains that a Consist wakes and holds (R147, R163). -/
def consistDoms (d : Dev) (doms : Nat) : List Nat :=
  (domRakes doms).map (fun r => 4 + r) ++ ((if bitOf doms 8 = 1 then [12] else []) ++ ((if bitOf doms 9 = 1 then [13] else []) ++
    ((if bitOf doms 10 = 1 then [14] else []) ++ (mcDoms d ++ [23]))))

/-- A ready list as the descriptor of its stage gives it (R148, R181). -/
def listFor (d : Dev) (m : Image) (s : Nat) : ReadyList :=
  let s0 := descWord d m s 0
  let s5 := descWord d m s 5
  { valid := true, cores := bitsOf s0 63 32, weight := max 1 (bitsOf s0 31 24), order := bitsOf s0 17 16,
    affHold := bitsOf s0 11 0, ptBits := min 12 (bitsOf s5 43 40), ptOff := bitsOf s5 39 6 * 64,
    sidingBase := bitsOf (descWord d m s 6) 39 6 * 64, sidingLog2 := min 20 (bitsOf (descWord d m s 7) 4 0),
    copies := decide (bitsOf (descWord d m s 1) 56 40 ≠ 0 ∨ bitsOf (descWord d m s 3) 44 44 = 1) }

/-- The ready lists that a start makes, one for each stage that runs kernels; a descriptor that cannot be read makes none, and ends the
Consist (R149, R181, R489). -/
def makeLists (d : Dev) (c : Nat) (m : Image) (stages res : Nat) : Dev :=
  (kernelStages stages res).foldl (fun d s =>
    match descFault d m s with
    | some e => imageEvent d c e
    | none => setList (imageLook d m (256 + 128 * s) 64) (listKey c s) (listFor d m s)) d

/-- Yard buffers that the stages and YARD claims of an image name, where they can be read. -/
def yardNames (d : Dev) (m : Image) (stages res : Nat) : List (Nat × Nat) :=
  let cl := claimList d m
  (kernelStages stages res).filterMap (fun s =>
    let s4 := descWord d m s 4
    if (descFault d m s).isSome then none else some (bitsOf s4 11 0, sat4096 (bitsOf s4 28 16))) ++
  (if (imageFault d m cl.1 (16 * cl.2)).isSome then [] else
    ((List.range cl.2).map (claimAt d m cl.1)).filterMap (fun k =>
      if k.1 % 256 = 3 then some (bitsOf k.2 11 0, sat4096 (bitsOf k.2 28 16)) else none))

/-- The parameter block as it is copied: words of slots below PARAMS as read, the other slots zero with their NULL bits
cleared, LINE_SEQ as read; all zero where PARAMS is 0 (R162). -/
def paramBlock (n : Nat) (raw : List Byte) : List Byte :=
  if n = 0 then zeros 256
  else
    ((List.range 4).map (fun l =>
      let k := min 12 (n - 12 * l)
      let tr := leAt raw (64 * l + 60) 4
      sliceB raw (64 * l) (5 * k) ++ (zeros (60 - 5 * k) ++ toLE 4 (tr / 2 ^ 12 * 2 ^ 12 + tr % 2 ^ k)))).flatten

/-- A RUN_CONSIST that has passed its check: the lowest free id, the reservation, the lists, the wake and the parameter read
(R159, R163, R169 steps 1 and 2). -/
def startConsist (d : Dev) (c : Cmd) (hn : Nat) (h : Handle) (frame : List Byte) : Dev :=
  match firstIdx 1024 (fun i => !(consist d i).valid) with
  | none => d
  | some i =>
    let m := imageOfHandle h
    let rdH := fun off => imageNat d m off 8
    let n := min 48 (pf c 1 21 16)
    let t10 := rdH 80
    let cl := claimList d m
    let k : Consist :=
      { valid := true, cmd := c.id, port := c.port, handle := hn, home := h.home, bytes := h.bytes, digest := h.digest,
        stages := h.stages, resultStage := h.resultStage, domains := h.domains, cores := h.cores, yard := h.yard,
        junction := h.junction, rowBytes := bitsOf (rdH 0) 63 48, claimOff := cl.1, claimCount := cl.2,
        seedOff := bitsOf t10 39 6 * 64, seedCount := sat4096 (bitsOf t10 52 40), ingestSeeds := bitsOf t10 63 56,
        nparams := n, attest := decide (pf c 1 32 32 = 1), resultHost := isHost c 3, result := pw c 3,
        resultBytes := pf c 4 39 0, attestHost := isHost c 5, attestAt := pw c 5, snapshot := pf c 6 39 0,
        watchdog := pf c 7 23 0, frame := frame,
        yardRanges := yardNames d m h.stages h.resultStage,
        params := if n = 0 then some (paramBlock 0 []) else none }
    let d1 := makeLists (setConsist d i k) i m h.stages h.resultStage
    let d2 := wakeAll d1 (consistDoms d1 h.domains)
    let d3 := match imageFault d2 m cl.1 (16 * cl.2) with
      | some e => imageEvent d2 i e
      | none => imageLook d2 m cl.1 (16 * cl.2)
    if n = 0 then d3
    else if isHost c 2 then hostRead d3 c.port (pw c 2) 256 (.params i)
    else match spanFault d3 c.port (pw c 2) 256 with
      | some e => imageEvent d3 i e
      | none => modConsist (lookLines looker d3 (pw c 2) 256) i (fun k => { k with params := some (paramBlock n (memRead d3 (pw c 2) 256)) })

/-- RUN_CONSIST (R157, R163, R168, R169). -/
def runConsist (id : Nat) (d : Dev) : Dev :=
  checked 0x12 id (fun c d =>
    let hn := pf c 1 9 0
    let h := handle d hn
    match consistCheck d c h with
    | .error (st, r) => finish (checkLooks d c h) id st r
    | .ok frame => startConsist (checkLooks d c h) c hn h frame) d

/-- RUN_CONSIST. -/
def execRunConsist (id : Nat) (s : State) : Host.Outcome State Fault Refusal := onUnitTx s (runConsist id)

/-- The parameter read of a Consist has returned whole: the block is formed (R162). -/
def takeParams (d : Dev) (c : Nat) : Dev :=
  let own : Owner → Bool := fun o => decide (o = .params c)
  let rs := readsOf d own
  if rs ≠ [] ∧ rs.all (fun r => decide (r.st = .done)) then
    modConsist (dropReads d own) c (fun k => { k with params := some (paramBlock k.nparams ((rs.map (fun r => r.got)).flatten)) })
  else d

/-- Cores of a Rake that a core set names. -/
def rakeCores (set r : Nat) : List Nat := (List.range 4).map (fun i => 4 * r + i) |>.filter (fun n => decide (bitOf set n = 1))

/-- Rakes that a Consist copies to: those that DOMAINS names and those of its core sets (R161, R169). -/
def copyRakes (d : Dev) (c : Nat) (k : Consist) : List Nat :=
  idxWhere 8 (fun r => (domRakes k.domains).contains r ||
    (kernelStages k.stages k.resultStage).any (fun s =>
      let l := rlist d (listKey c s)
      l.copies && decide (rakeCores l.cores r ≠ [])))

/-- Copies n kernel bytes from an image offset to the cores' instruction memories, in ascending order: a byte that cannot be read ends the Consist,
and nothing from its line on is copied (R161, R489). -/
def copyKernel (d : Dev) (c : Nat) (m : Image) (cores : List Nat) (at_ off n : Nat) : Dev :=
  let put (d : Dev) (k : Nat) : Dev := cores.foldl (fun d i => unitWrite d (some c) (imemBase i + at_) (imageRead d m off k)) d
  match imageFault d m off n with
  | some e => imageEvent (put (imageLook d m off n) (e.2 - (m.home + off))) c e
  | none => put (imageLook d m off n) n

/-- Copies one stage's kernel and parameters to the cores of one Rake (R161, R162); a descriptor that cannot be read ends the Consist (R489). -/
def copyStage (d : Dev) (c r : Nat) (k : Consist) (s : Nat) : Dev :=
  let m := imageOf k
  let s1 := descWord d m s 1
  let at_ := bitsOf (descWord d m s 2) 15 0
  let s3 := descWord d m s 3
  let pat := bitsOf s3 43 32
  let n := min (min 65536 (bitsOf s1 56 40)) (65536 - at_)
  let cores := rakeCores (bitsOf (descWord d m s 0) 63 32) r
  match descFault d m s with
  | some e => imageEvent d c e
  | none =>
    let d0 := imageLook d m (256 + 128 * s) 64
    let d1 := if n = 0 ∨ cores = [] then d0 else copyKernel d0 c m cores at_ (bitsOf s1 39 0) n
    if bitsOf s3 44 44 = 1 then
      cores.foldl (fun d i => unitWrite d (some c) (storeBase i + 64 * pat) ((k.params.getD (zeros 256)).take (64 * min 4 (4096 - pat)))) d1
    else d1

/-- CONSIST_RAKE_READY (R161, R162, R169 step 3): a Rake that is ready takes its kernels and parameters, once the parameter
block has been read; a Rake that the copy path meets off is woken (R425). -/
def consistRakeReady (c r : Nat) (d0 : Dev) : Dev :=
  let d := takeParams d0 c
  let k := consist d c
  if k.valid ∧ k.ph = .starting ∧ k.params.isSome ∧ !k.rakes.contains r ∧ (copyRakes d c k).contains r then
    if domOn d (4 + r) then
      modConsist ((kernelStages k.stages k.resultStage).foldl (fun d s => copyStage d c r k s) d) c
        (fun k => { k with rakes := sins k.rakes r })
    else wakeDom d (4 + r)
  else d

/-- CONSIST_RAKE_READY. -/
def execConsistRakeReady (c : ConsistIx) (r : Fin 8) (s : State) : Host.Outcome State Fault Refusal :=
  onUnitTx s (consistRakeReady c.val r.val)

/-- START_DIGEST_DONE (R145, R169 step 2): SHA-384 over the BYTES bytes of the image, those from 16 MiB on read as zero, and bytes 16 to 63 taken as
zero; a byte that cannot be read ends the Consist (R489). -/
def startDigestDone (c : Nat) (d : Dev) : Dev :=
  let k := consist d c
  if k.valid ∧ k.ph = .starting ∧ k.attest ∧ k.startDigest.isNone then
    match imageFault d (imageOf k) 0 k.bytes with
    | some e => imageEvent d c e
    | none =>
      let d1 := imageLook d (imageOf k) 0 k.bytes
      modConsist d1 c (fun k => { k with startDigest := some (imageDigest (imageRead d1 (imageOf k) 0 k.bytes)) })
  else d

/-- START_DIGEST_DONE. -/
def execStartDigestDone (c : ConsistIx) (s : State) : Host.Outcome State Fault Refusal := onUnit s (startDigestDone c.val)

/-- Seed i of the list of a Consist, with its id (R154). -/
def seedAt (d : Dev) (c : Nat) (k : Consist) (i : Nat) : Wagon :=
  let w := fun j => BitVec.ofNat 40 (imageNat d (imageOf k) (k.seedOff + 64 * (i / 3) + 20 * (i % 3) + 5 * j) 5)
  wSetConsist { w0 := w 0, w1 := w 1, w2 := w 2, w3 := w 3 } c

/-- The steps before the seeds are done (R169): parameters, digest, copies, carves and way masks. -/
def startDone (d : Dev) (c : Nat) (k : Consist) : Bool :=
  k.params.isSome && (!k.attest || k.startDigest.isSome) && k.carved && (copyRakes d c k).all (fun r => k.rakes.contains r)

/-- CONSIST_SEED_PLACEMENT (R154, R169 step 5): the list seeds and then the held INGEST seeds are offered; once all are accepted
the Consist is Running. -/
def consistSeedPlacement (c : Nat) (d0 : Dev) : Dev :=
  let d := takeParams d0 c
  let k := consist d c
  if k.valid ∧ k.ph = .starting ∧ k.event = 0 ∧ startDone d c k then
    if k.seedsOut then
      if k.seedCount ≤ k.seeded ∧ !d.disp.offers.any (fun o => k.held.any (fun h => decide (o.prod = .ingest h.1))) then
        modConsist d c (fun k => { k with ph := .running, held := [] })
      else d
    else
      let place (d : Dev) : Dev :=
        let d1 := ((List.range k.seedCount).map (seedAt d c k)).foldl (fun d w => offer d { prod := .seed c, w := w }) d
        let d2 := k.held.foldl (fun d h => offer d { prod := .ingest h.1, w := h.2 }) d1
        modConsist d2 c (fun k => { k with seedsOut := true, ph := if k.seedCount = 0 ∧ k.held = [] then .running else .starting })
      if k.seedCount = 0 then place d
      else match imageFault d (imageOf k) k.seedOff (64 * ceilDiv k.seedCount 3) with
        | some e => imageEvent d c e
        | none => place (imageLook d (imageOf k) k.seedOff (64 * ceilDiv k.seedCount 3))
  else d

/-- CONSIST_SEED_PLACEMENT. -/
def execConsistSeedPlacement (c : ConsistIx) (s : State) : Host.Outcome State Fault Refusal :=
  onUnit s (consistSeedPlacement c.val)

/-! ## The end -/

/-- RESULT of a RUN_CONSIST by R84. -/
def consistResult (c : Nat) (k : Consist) (attested : Bool) : Nat :=
  k.rows % 2 ^ 40 + c * 2 ^ 40 + b2n k.truncated * 2 ^ 62 + b2n attested * 2 ^ 63

/-- Moves a Consist to Completing and ends its RUN_CONSIST. -/
def endConsist (d : Dev) (c status result : Nat) : Dev :=
  finish (modConsist d c (fun k => { k with ph := .completing })) (consist d c).cmd status result

/-- A Consist has nothing left to do (R170). -/
def consistIdle (d : Dev) (c : Nat) (k : Consist) : Bool :=
  decide (wagonCount d c = 0 ∧ k.work = 0 ∧ k.ingestSeeds ≤ k.gotSeeds)

/-- CONSIST_FINISH (R170, R172, R98): a Running Consist with nothing left goes to signing, or completes DONE or
DONE_TRUNCATED. -/
def consistFinish (c : Nat) (d : Dev) : Dev :=
  let k := consist d c
  if k.valid ∧ k.ph = .running ∧ k.event = 0 ∧ consistIdle d c k then
    if k.attest then
      let d1 := modConsist d c (fun k => { k with ph := .signing })
      { d1 with sbox := { d1.sbox with signQ := d1.sbox.signQ ++ [.attest c] } }
    else endConsist d c (if k.truncated then 1 else 0) (consistResult c k false)
  else d

/-- CONSIST_FINISH. -/
def execConsistFinish (c : ConsistIx) (s : State) : Host.Outcome State Fault Refusal := onDev s (consistFinish c.val)

/-- CONSIST_WATCHDOG (R171): a Consist that has run at least WATCHDOG ms without finishing records TIMEOUT. The first tick of the AO clock may
come at once after the check, so WATCHDOG whole ms have passed with the tick after WATCHDOG. -/
def consistWatchdog (c : Nat) (d : Dev) : Dev :=
  let k := consist d c
  if k.valid ∧ k.watchdog ≠ 0 ∧ k.watchdog < k.ms ∧ (k.ph = .starting ∨ k.ph = .running) then recordEvent d c 0x0D 0 else d

/-- CONSIST_WATCHDOG. -/
def execConsistWatchdog (c : ConsistIx) (s : State) : Host.Outcome State Fault Refusal := onDev s (consistWatchdog c.val)

/-- Discards a Consist's Wagons: those offered are discarded as R180 gives and their producers go on, those on lists, in
Sidings, held and on the result path are dropped, held seeds are counted (R99, R154). -/
def discardWagons (d : Dev) (c : Nat) : Dev :=
  let k := consist d c
  let mine : Wagon → Bool := fun w => decide (wConsist w = c)
  let waits := (d.disp.resultQ.filter (fun h => mine h.w)).filterMap (fun h => h.core) ++
    ((d.disp.windows.filter (fun e => decide (e.1 / 64 = c))).map (fun e =>
      (e.2.map (fun x => x.held.filterMap (fun h => h.core))).flatten)).flatten
  let os := d.disp.offers.filter (fun o => mine o.w)
  let d := match d.disp.resultQ with | h :: _ => (if mine h.w then dropReqs d (fun o => decide (o = .result)) else d) | [] => d
  let d1 := os.foldl (fun d o => produced (recordDiscard (dropOffer d o) 2 c (wStage o.w)) o.prod) d
  let d2 := waits.foldl (fun d n => produced d (.core n)) d1
  let d3 := k.held.foldl (fun d e => if k.seedsOut then d else recordDiscard d 2 c (wStage e.2)) d2
  let d4 := { d3 with disp := { d3.disp with
    lists := (d3.disp.lists.map (fun e => if e.1 / 64 = c then (e.1, { e.2 with chip := [], spilled := false, moved := e.2.written }) else e))
    windows := d3.disp.windows.filter (fun e => decide (e.1 / 64 ≠ c))
    resultQ := d3.disp.resultQ.filter (fun h => !mine h.w) } }
  modConsist d4 c (fun k => { k with held := [] })

/-- TERMINATING_EVENT (R98, R99): the Consist's Wagons are discarded, and once the unit work started on its behalf has
finished it completes with the status of its first event. -/
def terminatingEvent (c : Nat) (d : Dev) : Dev :=
  let k := consist d c
  if k.valid ∧ k.event ≠ 0 ∧ k.ph ≠ .completing then
    let d1 := discardWagons d c
    if k.work = 0 then
      endConsist d1 c k.event (if k.event = 8 ∨ k.event = 0x0D then consistResult c k false else k.evResult)
    else d1
  else d

/-- TERMINATING_EVENT. -/
def execTerminatingEvent (c : ConsistIx) (s : State) : Host.Outcome State Fault Refusal := onDev s (terminatingEvent c.val)

/-- The Consist of a RUN_CONSIST in flight. -/
def consistOf (d : Dev) (id : Nat) : Option Nat :=
  (d.consists.find? (fun e => e.2.valid && decide (e.2.cmd = id))).map Prod.fst

/-- The earliest-fetched RUN_CONSIST of a port that SQ and CID match (R87, R99). -/
def matchRun (d : Dev) (p sq cid : Nat) : Option Cmd :=
  d.ring.cmds.find? (fun c => decide (c.opcode = 0x12 ∧ c.port = p ∧ c.sq = sq ∧ c.cid = cid))

/-- ABORT_CONSIST (R75, R87, R99, R173): it waits for its target's completion after ending a running target ABORTED, or making
one that has not started complete ABORTED. -/
def abortConsist (id : Nat) (d : Dev) : Dev :=
  checked 0x13 id (fun c d =>
    match matchRun d c.port (pf c 1 8 0) (pf c 1 31 16) with
    | none => finish d id 2 7
    | some t =>
      let d1 := modCmd d id (fun c => { c with aux := [t.id] })
      match t.st with
      | .fetched => finish d1 t.id 8 0
      | .done _ _ => d1
      | .running => match consistOf d1 t.id with | some k => recordEvent d1 k 8 0 | none => d1) d

/-- ABORT_CONSIST. -/
def execAbortConsist (id : Nat) (s : State) : Host.Outcome State Fault Refusal := onDevTx s (abortConsist id)

/-- The signing requests without the attestation of a Consist whose id is released: one that runs is left without a taker. -/
def forgetAttest (b : SboxSt) (c : Nat) : SboxSt :=
  { b with
    signQ := b.signQ.filter (fun q => decide (q ≠ .attest c))
    outs := b.outs.filter (fun o => decide (o.req ≠ .attest c))
    run := b.run.map (fun r => if r.req = .attest c then { r with req := .direct 0 0 } else r) }

/-- What the writing of a RUN_CONSIST's completion releases: its id, reservation, counted use, lists, flow contexts, windows, held outputs and
every CURKEY that names it; what is still on the way for its parameter block is discarded when it comes (R162, R173, R199, R221). -/
def releaseConsist (d0 : Dev) (c : Nat) : Dev :=
  let mine : Wagon → Bool := fun w => decide (wConsist w = c)
  let d := dropReads d0 (fun o => decide (o = .params c))
  { d with
    consists := mset {} d.consists c {}
    sbox := forgetAttest d.sbox c
    cores := d.cores.foldl (fun m e => mset (coreDefault e.1) m e.1
      (match e.2.curkey with | some k => if k / 64 = c then { e.2 with curkey := none } else e.2 | none => e.2)) d.cores
    disp := { d.disp with
      lists := d.disp.lists.filter (fun e => decide (e.1 / 64 ≠ c))
      windows := d.disp.windows.filter (fun e => decide (e.1 / 64 ≠ c))
      flows := d.disp.flows.filter (fun x => decide (x.c ≠ c))
      flowReads := d.disp.flowReads.filter (fun x => decide (x.1 ≠ c))
      service := d.disp.service.filter (fun s => !mine s.w)
      delivering := d.disp.delivering.filter (fun s => !mine s.w)
      releasing := d.disp.releasing.filter (fun s => !mine s.w)
      resultQ := d.disp.resultQ.filter (fun h => !mine h.w) } }

/-! ## Rakes to power down -/

/-- A core works: it runs, or completes an emission (R424). -/
def coreWorks (c : Core) : Bool := match c.st with | .running | .emitw => true | _ => false

/-- A scanner has rings or programs, or is held by a completion Wagon that has not been accepted (R185, R424, R436). -/
def planeWorks (d : Dev) (m : Nat) : Bool :=
  let p := mget {} d.planes m
  !(p.arriving.isEmpty && p.queue.isEmpty && p.progs.isEmpty) || wagonWaits d (.scanner m)

/-- RAKEr has drained: its cores wait or are held, its scanners have nothing (R436). -/
def rakeDrained (d : Dev) (r : Nat) : Bool :=
  [0, 1, 2, 3].all (fun i => !coreWorks (core d (4 * r + i))) && [0, 1].all (fun i => !planeWorks d (2 * r + i))

/-- Rakes to shed for a limit: powered ones that no running Consist holds, highest first (R430). -/
def rakesToShed (d : Dev) (limit : Nat) : List Nat :=
  let on := idxWhere 8 (fun r => powered d (4 + r))
  ((on.filter (fun r => !(heldRakes d).contains r)).reverse).take (on.length - limit)

/-- A lower profile that has begun to take effect powers down the Rakes beyond its limit, each once it has drained: POWER_DOWN_COMPLETE ends it
(R430, R436). -/
def shedRakes (d : Dev) : Dev :=
  match d.pwr.profile with
  | some q =>
    if q.lower && heldFit d q.want then
      (rakesToShed d (profileCeil d q.want).2.1).foldl (fun d r =>
        let v := dom d (4 + r)
        if rakeDrained d r ∧ !v.falling ∧ (v.st = .on ∨ v.st = .gated) then setDom d (4 + r) { v with falling := true, fallAt := d.cc } else d) d
    else d
  | none => d

/-- The on-chip effects of writing a command's completion, or of dropping it at link-down (R60): a Consist is released (R173), and a lower profile
that waited for its Rakes begins (R430), a port is polled or ends (R104, R114), the ABORT_CONSISTs that wait for it complete (R99), its place is freed
(R90). -/
def completed (d : Dev) (c : Cmd) : Dev :=
  let d1 := match c.opcode with
    | 0x12 => (match consistOf d c.id with | some k => shedRakes (releaseConsist d k) | none => d)
    | 0xE0 => (match c.st with
      | .done 0 _ => setPort d (pf c 1 7 0) { port d (pf c 1 7 0) with live := true }
      | _ => d)
    | 0xE1 => (match c.st with | .done 0 _ => setPort d (pf c 1 7 0) {} | _ => d)
    | _ => d
  let d2 := { d1 with ring := { d1.ring with cmds := d1.ring.cmds.map (fun e =>
    if e.opcode = 0x13 ∧ e.st = .running ∧ e.aux = [c.id] then { e with st := .done 0 0 } else e) } }
  dropCmd d2 c.id

end Sys2Proof.Machine
end

