-- ==== Sys2Proof/Machine/DispRows.lean ====
section
/-!
DEFINITION. The rows of the Dispatcher (R176 to R200), the delivery of a Wagon (R219, R221), and the result path (R97,
R167, R172).
-/

namespace Sys2Proof.Machine

/-- The Dispatcher acts: the device is Running and FABRIC is ON. -/
def dispUp (d : Dev) : Bool := running d && domOn d 3

/-- WAGON_ACCEPTANCE (R178 to R183, R190, R196): the offer that is next under R179 is accepted, held, discarded, or stalls. -/
def wagonAcceptance (d : Dev) : Dev :=
  if dispUp d then
    match nextOffer d (fun o => !o.stalled) with
    | some o => acceptOffer d o
    | none => d
  else d

/-- WAGON_ACCEPTANCE. -/
def execWagonAcceptance (s : State) : Host.Outcome State Fault Refusal := onUnit s wagonAcceptance

/-- A stalled offer could be taken now (R185). -/
def stallOver (d : Dev) (o : Offer) : Bool := decide ((acceptOffer d o).disp.offers.length < d.disp.offers.length)

/-- PRODUCER_STALL_RELEASE (R185): a stalled producer's Wagon is accepted once its list or Siding has room. -/
def producerStallRelease (d : Dev) : Dev :=
  if dispUp d then
    match nextOffer d (fun o => o.stalled && stallOver d o) with
    | some o => acceptOffer d o
    | none => d
  else d

/-- PRODUCER_STALL_RELEASE. -/
def execProducerStallRelease (s : State) : Host.Outcome State Fault Refusal := onUnit s producerStallRelease

/-- HAND_OVER (R187, R188, R425): one choice of the rotation. -/
def handOverRow (d : Dev) : Dev :=
  if dispUp d then
    let d0 := (rotation d).foldl markEligible d
    handed d0 (handTurn (rotation d) d0)
  else d

/-- HAND_OVER. -/
def execHandOver (s : State) : Host.Outcome State Fault Refusal := onUnit s handOverRow

/-- AFFINITY_HOLD_EXPIRY (R188, R194): a Wagon of an ATOMIC list whose hold has ended goes to the longest-waiting candidate, where the
procedure's turn comes to it; a turn that would go elsewhere is HAND_OVER's. -/
def affinityHoldExpiry (c st : Nat) (d0 : Dev) : Dev :=
  if dispUp d0 then
    let d := (rotation d0).foldl markEligible d0
    let r := handTurn (rotation d) d
    match r.2 with
    | some (k, p) => if k = listKey c st ∧ p.migration then handed d r else d
    | none => d
  else d0

/-- AFFINITY_HOLD_EXPIRY. -/
def execAffinityHoldExpiry (c : ConsistIx) (st : Fin 64) (s : State) : Host.Outcome State Fault Refusal :=
  onUnit s (affinityHoldExpiry c.val st.val)

/-- SIDING_MOVE (R184, R186): while the list holds fewer than LIST_CAP / 2 Wagons on chip, up to 8 lines or 24 Wagons move from the
Siding's head to its on-chip tail, past the Column Cache; an access outside the windows or to an uncorrectable line ends the Consist. -/
def sidingMove (c st : Nat) (d : Dev) : Dev :=
  let k := listKey c st
  let l := rlist d k
  let x := consist d c
  if dispUp d ∧ x.valid ∧ x.event = 0 ∧ l.spilled ∧ l.chip.length < listCap d / 2 then
    let h := l.moved % sidingCap l
    let n := min (min (l.written - l.moved) (24 - h % 3)) (min (16384 - poolUsed d) (min (listCap d - l.chip.length) (sidingCap l - h)))
    if n = 0 then d
    else
      let a := l.sidingBase + 64 * (h / 3)
      let len := 64 * (ceilDiv (h % 3 + n) 3)
      match gddrOut d x.port a len with
      | some o => recordEvent d c 4 o
      | none =>
        let d := lookLines bypasser d a len
        match rawBadLine d a len with
        | some b => recordEvent d c 7 b
        | none =>
          let w := fun i j => BitVec.ofNat 40 (rawNat d (l.sidingBase + 64 * ((h + i) / 3) + 20 * ((h + i) % 3) + 5 * j) 5)
          let ws : List Wagon := (List.range n).map (fun i => { w0 := w i 0, w1 := w i 1, w2 := w i 2, w3 := w i 3 })
          let d1 := setList d k { l with moved := l.moved + n, spilled := decide (l.moved + n < l.written) }
          bumpN (ws.foldl (fun d v => enterChip d k v) d1) .dispCnt 5 n
  else d

/-- SIDING_MOVE. -/
def execSidingMove (c : ConsistIx) (st : Fin 64) (s : State) : Host.Outcome State Fault Refusal :=
  onUnit s (sidingMove c.val st.val)

/-- FLOW_SPILL_READ_RETURN (R198): the oldest spill read returns; a valid entry with a matching TAG restores the flow's last core, an
uncorrectable one is recorded with reason 3. -/
def flowSpillReadReturn (d : Dev) : Dev :=
  match d.disp.flowReads with
  | (c, s, f, a) :: rest =>
    let d1 := { d with disp := { d.disp with flowReads := rest } }
    let tag := flowTag c s f
    if (rawBadLine d a 8).isSome then recordErr d1 .dispErr 0 (3 * 2 ^ 32 + c % 1024 * 2 ^ 16 + s * 2 ^ 10)
    else
      let e := rawNat d a 8
      if bitOf e 37 = 1 ∧ e % 2 ^ 32 = tag ∧ (flowOf d c s f).isNone then
        putFlow d1 { c := c, s := s, f := f, last := some (bitsOf e 36 32), inServ := false }
      else d1
  | [] => d

/-- FLOW_SPILL_READ_RETURN. -/
def execFlowSpillReadReturn (s : State) : Host.Outcome State Fault Refusal := onUnit s flowSpillReadReturn

/-- WC_PS of a stage descriptor, in the layout of PSWIN (R219). -/
def wcPs (s3 : Nat) : Word :=
  BitVec.ofNat 40 (bitsOf s3 44 44 * 2 ^ 37 + bitsOf s3 43 32 * 2 ^ 25 + sat4096 (bitsOf s3 28 16) * 2 ^ 12 + bitsOf s3 11 0)

/-- WC_YARD of a stage descriptor, in the layout of YWIN (R219). -/
def wcYard (s4 : Nat) : Word := BitVec.ofNat 40 (sat4096 (bitsOf s4 28 16) * 2 ^ 12 + bitsOf s4 11 0)

/-- The core with a delivered Wagon in X10 to X13, and the SNAPSHOT and port of its Consist (R219). -/
def bringWagon (c : Core) (w : Wagon) (k : Consist) : Core :=
  let c1 := xset (xset (xset (xset c 10 w.w0) 11 w.w1) 12 w.w2) 13 w.w3
  csrSet (csrSet c1 0x04B (BitVec.ofNat 40 k.snapshot)) 0x04C (BitVec.ofNat 40 k.port)

/-- The core with the WC registers of a stage's descriptor (R219, R221). -/
def bringStage (c : Core) (s2 s3 s4 : Nat) : Core :=
  csrSet (csrSet (csrSet c 0x048 (BitVec.ofNat 40 (bitsOf s2 31 16))) 0x049 (wcPs s3)) 0x04A (wcYard s4)

/-- The core with a delivered Wagon and the WC registers of its stage (R219, R221). -/
def deliverTo (c : Core) (w : Wagon) (k : Consist) (s2 s3 s4 : Nat) : Core := bringStage (bringWagon c w k) s2 s3 s4

/-- WAGON_DELIVERY (R187, R189, R219, R221): the Wagon handed to core n arrives. Its WAITW retires; where consist and stage equal
CURKEY execution continues, otherwise CURKEY takes the new value, Q0 is set to all ones and cause 0x11 is taken. A descriptor that cannot be read ends
the Consist, and the registers that it would set are left (R108, R489). A Rake that is not ON is woken first (R425). -/
def wagonDelivery (n : Nat) (d : Dev) : Dev :=
  let c := core d n
  match d.disp.delivering.find? (fun t => decide (t.core = n)) with
  | some t =>
    if !domOn d (coreDom n) then wakeDom d (coreDom n)
    else if c.st = .waitw then
      let cs := wConsist t.w
      let st := wStage t.w
      let k := consist d cs
      let dw := fun j => descWord d (imageOf k) st j
      let d1 := { d with disp := { d.disp with delivering := d.disp.delivering.filter (fun u => decide (u.serial ≠ t.serial)) } }
      let e := imageFault d (imageOf k) (256 + 128 * st) 64
      let d2 := match e with | some e => imageEvent d1 cs e | none => imageLook d1 (imageOf k) (256 + 128 * st) 64
      let c0 := bringWagon (core d2 n) t.w k
      let c1 := { (if e.isSome then c0 else bringStage c0 (dw 2) (dw 3) (dw 4)) with st := .running }
      if c1.curkey = some (listKey cs st) then retire d2 n c1 (c.pc + 4)
      else
        let c2 := { c1 with curkey := some (listKey cs st), q := mset 0 c1.q 0 (BitVec.allOnes 64) }
        takeException (retire d2 n c2 (c.pc + 4)) n 0x11 ((c.pc + 4) % 2 ^ 40) 0 0
    else d
  | none => d

/-- WAGON_DELIVERY. -/
def execWagonDelivery (n : Fin 32) (s : State) : Host.Outcome State Fault Refusal := onUnit s (wagonDelivery n.val)

/-- WAGON_RELEASE_EFFECT (R189, R191, R195, R196): the oldest release takes effect. -/
def wagonReleaseEffect (d : Dev) : Dev :=
  match d.disp.releasing with
  | s :: _ => releaseEffect d s
  | [] => d

/-- WAGON_RELEASE_EFFECT. -/
def execWagonReleaseEffect (s : State) : Host.Outcome State Fault Refusal := onDev s wagonReleaseEffect

/-! ## The result path -/

/-- Yard buffers that a port's running Consists claim, as windows of the Yard; port 0 reaches all of it (R18). -/
def yardClaims (d : Dev) (p : Nat) : SMap Window :=
  if p = 0 then [(0, { en := true, base := yardBase, size := 0x1000000 })]
  else (((portConsists d p).map (fun k => k.yardRanges)).flatten).map (fun r =>
    (0, { en := true, base := yardBase + 4096 * r.1, size := 4096 * r.2 }))

/-- The first address of [a, a+n) outside the Shunting Engine's reach for a port: its GDDR6 windows, its Yard claims, and where
`cores` holds the Platform Stores and instruction memories of every core (R18). -/
def shuntOut (d : Dev) (p : Nat) (cores : Bool) (a n : Nat) : Option Nat :=
  let upTo (e : Nat) : Option Nat := if a + n ≤ e then none else some (max a e)
  if n = 0 then none
  else match regionOf d a with
    | .gddr => gddrOut d p a n
    | .yard => upTo (winReach (yardClaims d p) (yardBase + 0x1000000) 600 a)
    | .store m => if cores then upTo (storeBase m + 0x40000) else some a
    | .imem m => if cores then upTo (imemBase m + 0x10000) else some a
    | _ => some a

/-- Link-down has ended the command of a Consist, and with it every write that it would make to host memory (R60). -/
def cmdDropped (d : Dev) (id : Nat) : Bool := (cmdOf d id).any (fun c => c.dropped)

/-- Writes result bytes after those already written, checked against the windows in force; a write outside is not made and ends
the Consist (R167). A command that link-down ended writes nothing to host memory (R60). -/
def resultWrite (d : Dev) (c : Nat) (bs : List Byte) : Dev :=
  let k := consist d c
  let a := k.result + k.written.length
  let n := match spaceOut d k.port k.resultHost a bs.length with | some x => x - a | none => bs.length
  let out := bs.take n
  let d1 := if k.resultHost then (if cmdDropped d k.cmd then d else hostWrite d k.port a out) else (devWrite d a out).1
  let d2 := modConsist d1 c (fun k => { k with written := k.written ++ out })
  match spaceOut d k.port k.resultHost a bs.length with | some x => recordEvent d2 c 4 x | none => d2

/-- Whole rows that the ring still had room for when the copy of a result Wagon began, of which some bytes have been written (R97). -/
def rowsFit (k : Consist) (copied : Nat) : Nat := (k.resultBytes - (k.written.length - copied)) / k.rowBytes

/-- Bytes of a result Wagon that go to the ring: its whole rows before the first that would pass the end (R97, R167). -/
def resultBytesOf (k : Consist) (w : Wagon) (copied : Nat) : Nat :=
  if k.truncated ∨ k.rowBytes = 0 then 0 else min (wRows w) (rowsFit k copied) * k.rowBytes

/-- The piece of it that the path copies next, of at most 16 lines: address and bytes. -/
def resultPiece (k : Consist) (w : Wagon) (copied : Nat) : Nat × Nat :=
  let a := w.w2.toNat + copied
  (a, min (resultBytesOf k w copied - copied) (1024 - a % 64))

/-- Bytes of them before the line of the first address outside the path's reach; what the path has asked for already stands (R167). -/
def resultReach (d : Dev) (k : Consist) (a n : Nat) : Nat :=
  match lineReads d .result with
  | [] => (match shuntOut d k.port true a n with | some x => x / 64 * 64 - a | none => n)
  | gs => gs.foldl (fun m g => m + g.len) 0

/-- The rows of a result Wagon are counted, and the ring is full where some do not fit (R97, R167, R177). -/
def countRows (d : Dev) (c : Nat) (w : Wagon) (copied : Nat) : Dev :=
  modConsist d c (fun k =>
    let fit := if k.rowBytes = 0 then wRows w else rowsFit k copied
    { k with rows := k.rows + wRows w, truncated := k.truncated || decide (fit < wRows w) })

/-- Copies a piece of a result Wagon into the result ring (R97, R167, R325): none while its lines are on the way. Each line's reach is checked before
it is read, and nothing of the failing line or after it is written. With the last piece, or a failure, the copy ends and its rows count: no number
in the second place; else the bytes that have been copied. -/
def resultCopy (d : Dev) (c : Nat) (w : Wagon) (copied : Nat) : Option (Dev × Option Nat) :=
  let k := consist d c
  let p := resultPiece k w copied
  let m := resultReach d k p.1 p.2
  match fetchLines d .result 50 k.port none [(p.1, m)] with
  | .wait _ => none
  | .bad d1 l => some (recordEvent (resultWrite (countRows d1 c w copied) c (memRead d p.1 (l - p.1))) c 7 l, none)
  | .got d1 bs =>
    if m < p.2 then some (recordEvent (resultWrite (countRows d1 c w copied) c bs) c 4 ((shuntOut d k.port true p.1 p.2).getD (p.1 + m)), none)
    else if copied + m < resultBytesOf k w copied ∧ (spaceOut d1 k.port k.resultHost (k.result + k.written.length) m).isNone then
      some (resultWrite d1 c bs, some (copied + m))
    else some (resultWrite (countRows d1 c w copied) c bs, none)

/-- Domains that the copy of a result Wagon reaches: the Shunting Engine, where the path lives, GDDR6's, and the Rake of the memory that W2 names (R167,
R422, R425). -/
def resultDoms (d : Dev) (w : Wagon) : List Nat :=
  14 :: (match regionOf d w.w2.toNat with | .store n | .imem n => [coreDom n] | _ => []) ++ (mcDoms d ++ [23])

/-- RESULT_PATH_COPY (R97, R167, R172, R326, R425): the oldest result Wagon is read as requester 50 and, once its lines have come, copied, piece by piece;
an EMITW that waits for it completes; with a domain off that it reaches the path wakes it and waits. A Wagon of a Consist that ends is not copied (R99). -/
def resultPathCopy (d : Dev) : Dev :=
  match d.disp.resultQ with
  | [] => d
  | h :: rest =>
    let c := wConsist h.w
    let dq : Dev := { d with disp := { d.disp with resultQ := rest } }
    let ends (d : Dev) : Dev := match h.core with | some n => produced d (.core n) | none => d
    if running d then
      if (consist d c).event ≠ 0 ∨ !(consist d c).valid then ends (dropReqs dq (fun o => decide (o = .result)))
      else if allOn d (resultDoms d h.w) then
        match resultCopy dq c h.w h.copied with
        | some (d1, none) => ends d1
        | some (d1, some n) => { d1 with disp := { d1.disp with resultQ := { h with copied := n } :: rest } }
        | none =>
          if lineReads d .result ≠ [] then d
          else
            let p := resultPiece (consist d c) h.w h.copied
            askLines d .result 50 (consist d c).port none [(p.1, resultReach d (consist d c) p.1 p.2)]
      else wakeAll d (resultDoms d h.w)
    else d

/-- RESULT_PATH_COPY. -/
def execResultPathCopy (s : State) : Host.Outcome State Fault Refusal := onUnitTx s resultPathCopy

end Sys2Proof.Machine
end

