-- ==== Sys2Proof/Machine/Bells.lean ====
section
/-!
DEFINITION. What the Plane Scanners, the Junction, the Hump and the Shunting Engine share: the rings of R261 to R263, R288, R313 and
R342, their reach of memory (R18), native lines (R119 to R121), and the end of work started for a Consist (R170).
-/

namespace Sys2Proof.Machine

/-! ## Rings -/

/-- What is captured of a ring when its store completes: the program line from the value, the core, the Consist of the Wagon in service, WC_PORT and
YWIN (R262). -/
def ringOf (d : Dev) (n v : Nat) : Ring :=
  let c := core d n
  let cs := (serving d n).map (fun s => wConsist s.w)
  { line := v % 4096, core := n, consist := cs, port := wcPort c, yFirst := ywFirst c, yCount := ywCount c, time := d.cc,
    counted := match cs with | some k => (consist d k).valid && decide ((consist d k).ph ≠ .completing) | none => false }

/-- The number of rings of core n in a list. -/
def ringsOf (rs : List Ring) (n : Nat) : Nat := (rs.filter (fun r => decide (r.core = n))).length

/-- Plane Scanner m. -/
def plane (d : Dev) (m : Nat) : PlaneSt := mget {} d.planes m

/-- The device with Plane Scanner m replaced. -/
def setPlane (d : Dev) (m : Nat) (v : PlaneSt) : Dev := { d with planes := mset {} d.planes m v }

/-- Rings of core n that hold a place at the unit behind a bell slot, of the 4 that R262 gives. -/
def ringsHeld (d : Dev) (n slot : Nat) : Nat :=
  match slot with
  | 0 => ringsOf (plane d (n / 2)).arriving n + ringsOf (plane d (n / 2)).queue n
  | 1 => ringsOf d.junc.arriving n + ringsOf d.junc.rings n
  | 2 => ringsOf d.hump.arriving n + ringsOf d.hump.rings n
  | _ => ringsOf d.shunt.arriving n + ringsOf (d.shunt.rings.map (fun r => r.ring)) n

/-- A bell store by core n may complete: its unit's domain is ON and its core has a place there (R262, R288). -/
def bellRoom (d : Dev) (n slot : Nat) : Bool := domOn d (bellDom n slot) && decide (ringsHeld d n slot < 4)

/-- The Consist's count of unfinished work with one more (R170). -/
def workMore (d : Dev) (r : Ring) : Dev :=
  match r.counted, r.consist with
  | true, some c => modConsist d c (fun k => { k with work := k.work + 1 })
  | _, _ => d

/-- The Consist's count of unfinished work with one less (R170). -/
def workLess (d : Dev) (r : Ring) : Dev :=
  match r.counted, r.consist with
  | true, some c => modConsist d c (fun k => { k with work := k.work - 1 })
  | _, _ => d

/-- The completion of a store of value v by core n to the bell of a slot: its ring reaches the unit (R261, R262, R288, R313, R342). -/
def ringBell (d0 : Dev) (n slot v : Nat) : Dev :=
  let r := ringOf d0 n v
  let d := workMore d0 r
  match slot with
  | 0 => let p := plane d (n / 2); setPlane d (n / 2) { p with arriving := p.arriving ++ [r] }
  | 1 => { d with junc := { d.junc with arriving := d.junc.arriving ++ [r] } }
  | 2 => { d with hump := { d.hump with arriving := d.hump.arriving ++ [r] } }
  | _ => { d with shunt := { d.shunt with arriving := d.shunt.arriving ++ [r] } }

/-- The ring that is captured next: of those that arrived in the earliest cc the one of the lowest core (R262, R288). -/
def nextRing : List Ring → Option Ring
  | [] => none
  | r :: rs =>
    match nextRing rs with
    | none => some r
    | some q => if q.time < r.time ∨ (q.time = r.time ∧ q.core < r.core) then some q else some r

/-- Why a captured ring is dropped: 1 no Wagon, 2 a Consist that is not Starting or Running or has a terminating event; 0 where it is not
(R263). -/
def dropReason (d : Dev) (r : Ring) : Nat :=
  match r.consist with
  | none => 1
  | some c =>
    let k := consist d c
    if k.valid ∧ (k.ph = .starting ∨ k.ph = .running) ∧ k.event = 0 then 0 else 2

/-- The Consist id of a ring, 0 without one. -/
def ringConsist (r : Ring) : Nat := r.consist.getD 0

/-! ## Reach -/

/-- The reach of a unit's access: GDDR6 within a port's windows, Yard buffers, Platform Stores of cores (R18). -/
structure Reach where
  gddr : Bool := true
  port : Nat := 0
  yFirst : Nat := 0
  yCount : Nat := 0
  stores : List Nat := []
  deriving DecidableEq, Repr

/-- The first address of [a, a+n) outside a reach or unmapped (R17, R18). -/
def reachOut (d : Dev) (x : Reach) (a n : Nat) : Option Nat :=
  let upTo (e : Nat) : Option Nat := if a + n ≤ e then none else some (max a e)
  if n = 0 then none
  else match regionOf d a with
    | .gddr => if x.gddr then gddrOut d x.port a n else some a
    | .yard =>
      let b := (a - yardBase) / 4096
      if x.yFirst ≤ b ∧ b < x.yFirst + x.yCount then upTo (yardBase + 4096 * min 4096 (x.yFirst + x.yCount)) else some a
    | .store m => if x.stores.contains m then upTo (storeBase m + 0x40000) else some a
    | _ => some a

/-- The reach of a ring's work: its port's windows, its YWIN and the given Platform Stores (R274, R291, R315). -/
def ringReach (r : Ring) (stores : List Nat) : Reach :=
  { port := r.port, yFirst := r.yFirst, yCount := r.yCount, stores := stores }

/-- A unit's access is made once its domains are ON and GDDR6 takes requests; until then it wakes them and waits, whatever AUTOWAKE holds
(R425, R387, R389). -/
def whenUp (d : Dev) (a : Nat) (k : Dev → Dev) : Dev :=
  if allOn d (needDoms d a) && memUp d a then k d else wakeAll d (needDoms d a)

/-! ## Native lines -/

/-- Slot k of the native line at an address (R118). -/
def slotAt (d : Dev) (line k : Nat) : Nat := memNat d (line + 5 * k) 5

/-- The native word of slot k of a line's bytes. -/
def lineWord (bs : List Byte) (k : Nat) : Nat := leAt bs (5 * k) 5

/-- The NULL bit of slot k of a line's bytes (R120). -/
def lineNull (bs : List Byte) (k : Nat) : Bool := decide (bitOf (leAt bs 60 4) k = 1)

/-- A native line built by a unit: LINE_SEQ, elements with their NULL bits, zero in null slots and past the last element (R121). -/
def nativeLine (seq : Nat) (es : List (Nat × Bool)) : List Byte :=
  let vs := (es.take 12).map (fun e => toLE 5 (if e.2 then 0 else e.1))
  let nulls := ((es.take 12).zipIdx).foldl (fun a e => a + b2n e.1.2 * 2 ^ e.2) 0
  sliceB vs.flatten 0 60 ++ toLE 4 (seq % 2 ^ 20 * 2 ^ 12 + nulls)

/-- The lines of a native array of the given elements, LINE_SEQ from seq on (R119, R121). -/
def nativeLines : Nat → Nat → List (Nat × Bool) → List Byte
  | 0, _, _ => []
  | f + 1, seq, es => if es = [] then [] else nativeLine seq es ++ nativeLines f (seq + 1) (es.drop 12)

/-- Element i of the native array at a base: its word and NULL bit (R119). -/
def elemAt (d : Dev) (base i : Nat) : Nat × Bool :=
  let line := base + 64 * (i / 12)
  (slotAt d line (i % 12), decide (bitOf (memNat d (line + 60) 4) (i % 12) = 1))

/-- Address of line i of a run of lines, in the 40-bit address space. -/
def lineAt (base i : Nat) : Nat := (base / 64 * 64 + 64 * i) % 2 ^ 40

/-- The completion Wagon of a unit's program, with the Consist's id (R178). -/
def offerDone (d : Dev) (p : Producer) (w : Wagon) (c : Nat) : Dev := offer d { prod := p, w := wSetConsist w c }

/-- A Wagon of the producer is stalled (R185). -/
def wagonStalled (d : Dev) (p : Producer) : Bool := d.disp.offers.any (fun o => decide (o.prod = p) && o.stalled)

end Sys2Proof.Machine
end

