-- ==== Sys2Proof/Machine/HumpRows.lean ====
section
/-!
DEFINITION. The Hump (R303 to R318): jobs, run generation, merge passes with their scratch areas, and the command SORT.
-/

namespace Sys2Proof.Machine

/-- The Hump acts: the device is Running and its domain is ON. -/
def humpUp (d : Dev) : Bool := running d && domOn d 13

/-- Records a Hump event (R318). -/
def humpErrOf (d : Dev) (reason : Nat) (src : JobSrc) (a : Nat) : Dev :=
  let who := match src with
    | .ring r => r.core % 32 * 2 ^ 27 + (if reason = 1 then 0 else ringConsist r % 1024 * 2 ^ 16)
    | .cmd _ => 0
  recordErrAt d .humpErr .humpErrAddr 0 (reason * 2 ^ 32 + who) (a % 2 ^ 40)

/-- The captured ring of the lowest core, the oldest of that core (R311). -/
def humpRing (rs : List Ring) : Option Ring :=
  match (rs.map (fun r => r.core)).min? with
  | some n => rs.find? (fun r => decide (r.core = n))
  | none => none

/-- Waiting jobs take free places of the 16 of the job queue: checked commands first, then captured rings in core order (R311). -/
def humpFill : Nat → Dev → Dev
  | 0, d => d
  | k + 1, d =>
    let h := d.hump
    if 16 ≤ h.queue.length then d
    else match h.cmds with
      | id :: ids => humpFill k { d with hump := { h with cmds := ids, queue := h.queue ++ [.cmd id] } }
      | [] => match humpRing h.rings with
        | some r => humpFill k { d with hump := { h with rings := h.rings.erase r, queue := h.queue ++ [.ring r] } }
        | none => d

/-- HUMP_RING_CAPTURE (R263, R311, R313). -/
def humpRingCapture (d : Dev) : Dev :=
  match nextRing d.hump.arriving with
  | none => d
  | some r =>
    if humpUp d then
      let h := { d.hump with arriving := d.hump.arriving.erase r }
      match dropReason d r with
      | 0 => humpFill 16 { d with hump := { h with rings := h.rings ++ [r] } }
      | k => workLess (humpErrOf (bump { d with hump := h } .humpCnt 3) k (.ring r) 0) r
    else d

/-- HUMP_RING_CAPTURE. -/
def execHumpRingCapture (s : State) : Host.Outcome State Fault Refusal := onDev s humpRingCapture

/-- SORT (R95, R311, R312): a sort of no pairs is DONE at once; any other waits for the job queue. -/
def execSort (id : Nat) (s : State) : Host.Outcome State Fault Refusal :=
  onDevTx s (checked 0x50 id (fun c d =>
    if pf c 3 39 0 = 0 then finish d id 0 0 else humpFill 16 { d with hump := { d.hump with cmds := d.hump.cmds ++ [id] } }))

/-! ## Jobs -/

/-- KEY_WORDS as it behaves (R314). -/
def keyWords (n : Nat) : Nat := if n = 0 then 1 else min n 4

/-- The job of a SORT (R74, R77): an address word with a bit above [39:0] stays outside every window. -/
def cmdJob (c : Cmd) : HJob :=
  { src := .cmd c.id, port := c.port, words := keyWords (pf c 5 4 2), fast := decide (pf c 5 0 0 = 1), desc := decide (pf c 5 1 1 = 1),
    pairs := pf c 3 39 0, inAt := pw c 1 / 64 * 64, outAt := pw c 2 / 64 * 64, scratch := pw c 4 / 64 * 64, top := pf c 6 39 0 }

/-- The job of a header line (R314). -/
def ringJob (d : Dev) (r : Ring) : HJob :=
  let s := slotAt d (storeBase r.core + 64 * r.line)
  let w := fun k => BitVec.ofNat 40 (s (6 + k))
  { src := .ring r, port := r.port, words := keyWords (bitsOf (s 0) 2 0), fast := decide (bitOf (s 0) 3 = 1),
    desc := decide (bitOf (s 0) 4 = 1), noWagon := decide (bitOf (s 0) 5 = 1), pairs := s 1, inAt := s 2 / 64 * 64, outAt := s 3 / 64 * 64,
    scratch := s 4 / 64 * 64, top := s 5, w := { w0 := w 0, w1 := w 1, w2 := w 2, w3 := w 3 }, passDone := decide (s 1 = 0) }

/-- A job ends at a failure, which HUMP_ERR records (R312, R315): 3 outside its reach, 4 uncorrectable. -/
def humpFail (d0 : Dev) (src : JobSrc) (reason a : Nat) : Dev :=
  let gone := dropReqs { d0 with hump := { d0.hump with cur := none, pend := [] } } (fun o => match o with | .hump _ => true | _ => false)
  let d := humpErrOf gone reason src a
  let st := if reason = 3 then 4 else 7
  match src with
  | .ring r => workLess (recordEvent d (ringConsist r) st a) r
  | .cmd id => finish d id st a

/-- HUMP_JOB_START (R311, R314, R316): with no job running and no completion Wagon stalled, the oldest job starts; a kernel program's header is
read now. -/
def humpJobStart (d : Dev) : Dev :=
  if humpUp d ∧ d.hump.cur.isNone ∧ !wagonStalled d .hump then
    match d.hump.queue with
    | [] => d
    | .cmd id :: js =>
      let d1 := { d with hump := { d.hump with queue := js } }
      humpFill 16 (match cmdOf d id with | some c => { d1 with hump := { d1.hump with cur := some (cmdJob c) } } | none => d1)
    | .ring r :: js =>
      let line := storeBase r.core + 64 * r.line
      whenUp d line (fun d =>
        let d1 := { d with hump := { d.hump with queue := js } }
        humpFill 16 (match firstBadLine d line 64 with
          | some l => humpFail (readErr d1 l) (.ring r) 4 l
          | none => { d1 with hump := { d1.hump with cur := some (ringJob d r) } }))
  else d

/-- HUMP_JOB_START. -/
def execHumpJobStart (s : State) : Host.Outcome State Fault Refusal := onDevTx s humpJobStart

/-! ## Runs and passes -/

/-- Words of a pair (R303). -/
def pairWords (j : HJob) : Nat := j.words + 1

/-- R0, the runs of pass 0 (R307). -/
def runs0 (j : HJob) : Nat := ceilDiv j.pairs 4096

/-- P, the merge passes: the least number with 16^P at least R0 (R308). N is below 2^40, so 7 is enough. -/
def mergePasses (j : HJob) : Nat := (firstIdx 8 (fun p => decide (runs0 j ≤ 16 ^ p))).getD 8

/-- RUN_LINES (R308). -/
def runLines (j : HJob) : Nat := ceilDiv (pairWords j * 4096) 12

/-- Input pairs that one run of pass k covers (R308). -/
def runSpan (k : Nat) : Nat := 4096 * 16 ^ k

/-- Runs that pass k writes. -/
def runsOf (j : HJob) (k : Nat) : Nat := ceilDiv j.pairs (runSpan k)

/-- The cut of TOP_N: the pairs that a run of n pairs keeps (R310). -/
def topCut (j : HJob) (n : Nat) : Nat := if j.top = 0 ∨ j.pairs ≤ j.top then n else min j.top n

/-- Pairs of run r as pass k writes it (R307, R308, R310). -/
def runSize (j : HJob) (k r : Nat) : Nat := topCut j (min (runSpan k) (j.pairs - r * runSpan k))

/-- First line of run r of the output of pass k: a scratch area, or OUT for the last pass (R308). -/
def runAt (j : HJob) (k r : Nat) : Nat :=
  if k = mergePasses j then j.outAt
  else j.scratch + (if k % 2 = 1 then 64 * runs0 j * runLines j else 0) + 64 * r * 16 ^ k * runLines j

/-- First line of the area that pass k writes: LINE_SEQ counts from it (R304). -/
def areaAt (j : HJob) (k : Nat) : Nat := runAt j k 0

/-- A TOP_N that cuts the output (R310). -/
def topOn (j : HJob) : Bool := decide (j.top ≠ 0 ∧ j.top < j.pairs)

/-- Groups of a merge pass (R308). -/
def groupsOf (j : HJob) : Nat := runsOf j j.pass

/-- The runs of a group, as first line and pairs: 16 of the pass before, or what remains (R308). -/
def groupRuns (j : HJob) (g : Nat) : List (Nat × Nat) :=
  ((List.range 16).map (fun i => 16 * g + i)).filterMap (fun r =>
    if r < runsOf j (j.pass - 1) then some (runAt j (j.pass - 1) r, runSize j (j.pass - 1) r) else none)

/-- The elements of a line, from slot 0 on: null ones as zero (R304). -/
def lineElems (bs : List Byte) (n : Nat) : List (Nat × Bool) :=
  (List.range n).map (fun k => (if lineNull bs k then 0 else lineWord bs k, lineNull bs k))

/-- The elements cut into pairs. -/
def cutPairs (k : Nat) : Nat → List (Nat × Bool) → List (List (Nat × Bool))
  | 0, _ => []
  | n + 1, es => es.take k :: cutPairs k n (es.drop k)

/-- A pair: its elements with their NULL bits, and the tie-break of FAST. -/
abbrev HPair := List (Nat × Bool) × Nat

/-- Lexicographic order of key words, the first word first: less (R304). -/
def keyLess : List Nat → List Nat → Bool
  | a :: as, b :: bs => decide (a < b) || (decide (a = b) && keyLess as bs)
  | _, _ => false

/-- The key of a pair: its words without the payload; null words count as zero (R304). -/
def pairKey (j : HJob) (p : HPair) : List Nat := (p.1.take j.words).map Prod.fst

/-- Pair b leaves before pair a where it stands later in the input: its key comes first in the direction, or the keys are equal and FAST's free tie-break
says so (R304, R305). -/
def pairFirst (j : HJob) (b a : HPair) : Bool :=
  let x := pairKey j b
  let y := pairKey j a
  (if j.desc then keyLess y x else keyLess x y) || (j.fast && decide (x = y) && decide (b.2 < a.2))

/-- Inserts the next pair of the input behind the pairs that it does not leave before. -/
def insertPair (j : HJob) (p : HPair) : List HPair → List HPair
  | [] => [p]
  | q :: qs => if pairFirst j p q then p :: q :: qs else q :: insertPair j p qs

/-- The sorted order of R304 and R305: stable in STABLE mode. -/
def sortPairs (j : HJob) (ps : List HPair) : List HPair := ps.foldl (fun acc p => insertPair j p acc) []

/-- Pairs with FAST's tie-breaks: free values, so that nothing fixes the order among equal keys (R305). -/
def withTies (d : Dev) (ps : List (List (Nat × Bool))) : List HPair :=
  (ps.zipIdx).map (fun e => (e.1, (Config.freeWord (d.fresh + e.2)).toNat))

/-- The first address of [a, a+n) outside a job's reach (R312, R315). -/
def humpOut (d : Dev) (j : HJob) (a n : Nat) : Option Nat :=
  match j.src with
  | .ring r => reachOut d (ringReach r [r.core]) (a % 2 ^ 40) n
  | .cmd _ => devOut d j.port a n

/-- Address of a line of a job as its memory accesses use it. -/
def humpAddr (j : HJob) (a : Nat) : Nat := match j.src with | .ring _ => a % 2 ^ 40 | .cmd _ => a

/-- The Consist whose own requests a job makes (R166, R315). -/
def humpConsist (j : HJob) : Option Nat := match j.src with | .ring r => r.consist | .cmd _ => none

/-- A native line of the output of a pass joins the lines that the write engine has to write, at an address of its area (R304, R328). -/
def humpPut (d : Dev) (j : HJob) (a : Nat) (es : List (Nat × Bool)) : Dev :=
  { d with hump := { d.hump with pend := d.hump.pend ++ [(a, nativeLine ((a - areaAt j j.pass) / 64) es)] } }

/-- Native lines of elements from an address on. -/
def humpWrite (j : HJob) : Nat → Dev → Nat → List (Nat × Bool) → Dev
  | 0, d, _, _ => d
  | f + 1, d, a, es => if es = [] then d else humpWrite j f (humpPut d j a es) (a + 64) (es.drop 12)

/-- The write engine writes the job's lines in order, at most k of them, while their slices have room; one outside the job's reach ends it (R312, R315,
R328). -/
def humpFlush : Nat → Dev → HJob → Dev
  | 0, d, _ => d
  | k + 1, d, j =>
    match d.hump.pend with
    | [] => d
    | (a, bs) :: rest =>
      match humpOut d j a 64 with
      | some x => humpFail d j.src 3 x
      | none =>
        let at_ := humpAddr j a
        if memUp d at_ && roomFor d at_ 64 then
          humpFlush k (devWriteFor (humpConsist j) { d with hump := { d.hump with pend := rest } } at_ bs).1 j
        else d

/-- The write engine's turn, with all that it has. -/
def humpEngine (d : Dev) : Dev :=
  match d.hump.cur with
  | some j => humpFlush d.hump.pend.length d j
  | none => d

/-- The device with the running job replaced. -/
def setJob (d : Dev) (j : HJob) : Dev := { d with hump := { d.hump with cur := some j } }

/-! ### Pass 0 -/

/-- Elements of IN (R303). -/
def inElems (j : HJob) : Nat := pairWords j * j.pairs

/-- The runs that are full, at most k of them, are sorted, cut and written in order (R307, R310). -/
def humpRuns : Nat → Dev → HJob → Dev
  | 0, d, j => setJob d j
  | k + 1, d, j =>
    let n := min 4096 (j.pairs - 4096 * j.part)
    if n = 0 then setJob d { j with passDone := true }
    else if j.buf.length < pairWords j * n then setJob d j
    else
      let sorted := sortPairs j (withTies d (cutPairs (pairWords j) n j.buf))
      let es := ((sorted.take (topCut j n)).map Prod.fst).flatten
      let d1 := humpWrite j (es.length + 1) (if j.fast then { d with fresh := d.fresh + n } else d) (runAt j 0 j.part) es
      humpRuns k d1 { j with part := j.part + 1, buf := j.buf.drop (pairWords j * n) }

/-- The next line of IN: its pairs are taken into run generation, which counts them (R307, R318). -/
def humpTakeIn (d : Dev) (j : HJob) (bs : List Byte) : Dev :=
  let lo := 12 * j.lines
  let n := min 12 (inElems j - lo)
  humpRuns 13 (bumpN d .humpCnt 1 ((lo + n) / pairWords j - lo / pairWords j)) { j with lines := j.lines + 1, buf := j.buf ++ lineElems bs n }

/-! ### Merge passes -/

/-- Lines that the elements of a run lie in. -/
def HRun.len (j : HJob) (r : HRun) : Nat := ceilDiv (pairWords j * r.size) 12

/-- A tree waits for a line of this run: pairs are left, and none of them has arrived whole. -/
def HRun.waits (j : HJob) (r : HRun) : Bool := decide (r.taken < r.size ∧ r.buf.length < pairWords j)

/-- The line of a run that a tree reads next: from the front, or from the back. -/
def HRun.nextLine (j : HJob) (back : Bool) (r : HRun) : Nat := if back then r.len j - 1 - r.lines else r.lines

/-- The run with its next line. -/
def HRun.take (j : HJob) (back : Bool) (r : HRun) (bs : List Byte) : HRun :=
  let es := lineElems bs (min 12 (pairWords j * r.size - 12 * r.nextLine j back))
  { r with lines := r.lines + 1, buf := if back then es ++ r.buf else r.buf ++ es }

/-- The pair of a run that a tree meets: its number in the group, and its elements. -/
def HRun.head (j : HJob) (back : Bool) (r : HRun) : Nat × List (Nat × Bool) :=
  if back then (r.first + (r.size - 1 - r.taken), r.buf.drop (r.buf.length - pairWords j))
  else (r.first + r.taken, r.buf.take (pairWords j))

/-- The run without that pair. -/
def HRun.pop (j : HJob) (back : Bool) (r : HRun) : HRun :=
  { r with taken := r.taken + 1, buf := if back then r.buf.take (r.buf.length - pairWords j) else r.buf.drop (pairWords j) }

/-- The rank of a pair among those with its key: 0 in STABLE; in FAST a sum of free values that rises along its run, so that equal keys of different
runs leave in any order, the same for both trees (R305). -/
def tieRank (j : HJob) (t : HTree) (r : HRun) (i : Nat) : Nat :=
  if j.fast then (List.range' r.first (i + 1 - r.first)).foldl (fun a k => a + (Config.freeWord (t.tie + k)).toNat) 0 else 0

/-- The pair at the front of a run leaves before that of another: by key in the direction, then by rank, then in input order (R304, R305). -/
def headBefore (j : HJob) (t : HTree) (a b : HRun) : Bool :=
  let x := a.head j t.back
  let y := b.head j t.back
  let kx := (x.2.take j.words).map Prod.fst
  let ky := (y.2.take j.words).map Prod.fst
  let rx := tieRank j t a x.1
  let ry := tieRank j t b y.1
  (if j.desc then keyLess ky kx else keyLess kx ky) || (decide (kx = ky) && (decide (rx < ry) || (decide (rx = ry) && decide (x.1 < y.1))))

/-- The run whose pair a tree takes: the first of the order at the fronts, the last of it at the backs (R309). -/
def headRun (j : HJob) (t : HTree) : Option HRun :=
  (t.runs.filter (fun r => decide (r.taken < r.size))).foldl (fun a r =>
    match a with
    | none => some r
    | some b => if headBefore j t r b != t.back then some r else some b) none

/-- Elements of the positions that the front tree of a group writes (R309, R310). -/
def frontElems (j : HJob) (t : HTree) : Nat := pairWords j * (if topOn j then topCut j t.pairs else (t.pairs + 1) / 2)

/-- The line that a tree's output has filled: its number in the group, its elements, and what stays. -/
def fullLine (j : HJob) (t : HTree) : Option (Nat × List (Nat × Bool) × List (Nat × Bool)) :=
  if t.back then
    let e := pairWords j * t.pairs
    let k := ceilDiv e 12 - 1 - t.lines
    let n := min 12 (e - 12 * k)
    if frontElems j t ≤ 12 * k ∧ n ≤ t.out.length ∧ 0 < t.out.length then some (k, t.out.drop (t.out.length - n), t.out.take (t.out.length - n))
    else none
  else if 12 ≤ t.out.length then some (t.lines, t.out.take 12, t.out.drop 12) else none

/-- Address of line k of the group of a tree. -/
def groupLine (j : HJob) (t : HTree) (k : Nat) : Nat := runAt j j.pass t.group + 64 * k

/-- A tree goes on with the pairs that have arrived, at most k of them: it outputs them one by one, counts them, and writes every line that they fill
(R309, R318). -/
def treeGo (j : HJob) : Nat → Dev → HTree → Dev × HTree
  | 0, d, t => (d, t)
  | k + 1, d, t =>
    if t.left = 0 ∨ t.runs.any (fun r => r.waits j) then (d, t)
    else match headRun j t with
      | none => (d, t)
      | some r =>
        let es := (r.head j t.back).2
        let t1 : HTree := { t with
          runs := t.runs.map (fun x => if x.first = r.first then x.pop j t.back else x)
          left := t.left - 1, did := t.did + 1, out := if t.back then es ++ t.out else t.out ++ es }
        let d1 := bump d .humpCnt 2
        match fullLine j t1 with
        | none => treeGo j k d1 t1
        | some (n, line, rest) => treeGo j k (humpPut d1 j (groupLine j t n) line) { t1 with out := rest, lines := t.lines + 1 }

/-- Tree m at group g: the pairs of its runs stand in the order of the runs (R309, R310). -/
def treeAt (d : Dev) (j : HJob) (m g did : Nat) : HTree :=
  if groupsOf j ≤ g then { group := g, did := did }
  else
    let rs := (groupRuns j g).foldl (fun (a : List HRun × Nat) x => (a.1 ++ [{ at_ := x.1, size := x.2, first := a.2 }], a.2 + x.2)) ([], 0)
    { group := g, back := !topOn j && decide (m = 1), runs := rs.1, pairs := rs.2, did := did, tie := d.fresh
      left := if topOn j then topCut j rs.2 else if m = 0 then (rs.2 + 1) / 2 else rs.2 / 2 }

/-- The device after the free values of a group's ties have been taken. -/
def tookTies (d : Dev) (j : HJob) (t : HTree) : Dev := if j.fast then { d with fresh := d.fresh + t.pairs } else d

/-- The two trees at their first groups: both at group 0, or under TOP_N at groups 0 and 1 (R309, R310). -/
def openTrees (d : Dev) (j : HJob) : Dev :=
  let t0 := treeAt d j 0 0 0
  let d1 := tookTies d j t0
  if topOn j then let t1 := treeAt d1 j 1 1 0; setJob (tookTies d1 j t1) { j with trees := [t0, t1] }
  else setJob d1 { j with trees := [t0, treeAt d j 1 0 0] }

/-- Writes what is left of a group, the last line under TOP_N or the line in which the two trees meet. -/
def lastLine (d : Dev) (j : HJob) (t : HTree) (es : List (Nat × Bool)) : Dev :=
  if es = [] then d else humpPut d j (groupLine j t t.lines) es

/-- Tree m has done its part of a group: under TOP_N it takes its next one; else both go on together once both have (R309, R310). -/
def closeGroup (d : Dev) (j : HJob) (m : Nat) : Dev :=
  match j.trees with
  | [t0, t1] =>
    if topOn j then
      let t := if m = 0 then t0 else t1
      if t.left ≠ 0 then setJob d j
      else
        let d1 := lastLine d j t t.out
        let u := treeAt d1 j m (t.group + 2) t.did
        let ts := if m = 0 then [u, t1] else [t0, u]
        setJob (tookTies d1 j u) { j with trees := ts, passDone := ts.all (fun x => decide (groupsOf j ≤ x.group)) }
    else if t0.left ≠ 0 ∨ t1.left ≠ 0 then setJob d j
    else
      let d1 := lastLine d j t0 (t0.out ++ t1.out)
      let u := treeAt d1 j 0 (t0.group + 1) t0.did
      setJob (tookTies d1 j u) { j with trees := [u, treeAt d1 j 1 (t0.group + 1) t1.did], passDone := decide (groupsOf j ≤ u.group) }
  | _ => setJob d j

/-- The tree whose line the loader reads next, and the run: of the trees that wait, the one that has output fewer pairs. -/
def nextTree (j : HJob) : Option (Nat × HTree × HRun) :=
  let w := (j.trees.zipIdx).filterMap (fun e =>
    if e.1.left = 0 then none else (e.1.runs.find? (fun r => r.waits j)).map (fun r => (e.2, e.1, r)))
  match w with
  | [] => none
  | [x] => some x
  | x :: y :: _ => if y.2.1.did < x.2.1.did then some y else some x

/-- A line of a run has arrived at tree m, which goes on with it. -/
def humpTakeRun (d : Dev) (j : HJob) (m : Nat) (t : HTree) (r : HRun) (bs : List Byte) : Dev :=
  let t1 := { t with runs := t.runs.map (fun x => if x.first = r.first then x.take j t.back bs else x) }
  let r := treeGo j ((t1.runs.map (fun x => x.buf.length)).foldl (· + ·) 1) d t1
  closeGroup r.1 { j with trees := j.trees.set m r.2 } m

/-! ### Lines -/

/-- The line that the loader reads next: its tree, its address, and what takes it. -/
def humpNext (j : HJob) : Option (Nat × Nat × (Dev → List Byte → Dev)) :=
  if j.pass = 0 then
    if 12 * j.lines < inElems j then some (0, j.inAt + 64 * j.lines, fun d bs => humpTakeIn d j bs) else none
  else (nextTree j).map (fun x => (x.1, x.2.2.at_ + 64 * x.2.2.nextLine j x.2.1.back, fun d bs => humpTakeRun d j x.1 x.2.1 x.2.2 bs))

/-- The loader's next line of a job, once its slice has served it, or found outside its reach or uncorrectable. -/
def humpTakeLine (d : Dev) (j : HJob) : Dev :=
  match humpNext j with
  | none => d
  | some (m, a, put) =>
    match issuedOr d (.hump m) (humpOut d j a 64) with
    | some x => humpFail d j.src 3 x
    | none => whenUp d (humpAddr j a) (fun d =>
        match fetchLines d (.hump m) 49 j.port (humpConsist j) [(humpAddr j a, 64)] with
        | .wait d1 => d1
        | .bad d1 l => humpFail d1 j.src 4 l
        | .got d1 bs => humpEngine (put d1 bs))

/-- HUMP_LINE_ARRIVAL (R307 to R310, R312, R315, R317, R326, R328): lines of output that wait are written first, as far as their slices have room; then
the next input or scratch line arrives, and runs that are full are sorted and written, and a merge tree goes on as far as its lines reach. -/
def humpLineArrival (d : Dev) : Dev :=
  if humpUp d then
    let d1 := humpEngine d
    match d1.hump.cur with
    | some j => if d1.hump.pend ≠ [] ∨ j.passDone then d1 else humpTakeLine d1 j
    | none => d1
  else d

/-- HUMP_LINE_ARRIVAL. -/
def execHumpLineArrival (s : State) : Host.Outcome State Fault Refusal := onUnitTx s humpLineArrival

/-- HUMP_PASS_START (R308): the next merge pass starts after the last line of the one before has been accepted. -/
def humpPassStart (d : Dev) : Dev :=
  match d.hump.cur with
  | some j =>
    if humpUp d ∧ j.passDone ∧ d.hump.pend = [] ∧ j.pass < mergePasses j ∧ j.pairs ≠ 0 then
      openTrees d { j with pass := j.pass + 1, passDone := false }
    else d
  | none => d

/-- HUMP_PASS_START. -/
def execHumpPassStart (s : State) : Host.Outcome State Fault Refusal := onDev s humpPassStart

/-- HUMP_JOB_COMPLETE (R84, R310, R316): the job whose last OUT line has been accepted: WRITTEN, DONE and the Wagon, or the completion of the SORT;
where the unit that holds WRITTEN and DONE is uncorrectable the job ends at that (R315, R325). -/
def humpJobComplete (d : Dev) : Dev :=
  match d.hump.cur with
  | some j =>
    if humpUp d ∧ j.passDone ∧ d.hump.pend = [] ∧ (j.pairs = 0 ∨ j.pass = mergePasses j) then
      let n := topCut j j.pairs
      let d0 := bump { d with hump := { d.hump with cur := none } } .humpCnt 0
      match j.src with
      | .cmd id => finish d0 id 0 (n % 2 ^ 40)
      | .ring r =>
        let line := storeBase r.core + 64 * r.line
        if allOn d (needDoms d line) then
          match firstBadLine d (line + 50) 10 with
          | some l => humpFail (readErr d l) j.src 4 l
          | none =>
            let d1 := unitWrite d0 r.consist (line + 55) (toLE 5 n)
            let d2 := unitWrite d1 r.consist (line + 50) (toLE 5 1)
            workLess (if j.noWagon then d2 else offerDone d2 .hump j.w (ringConsist r)) r
        else wakeAll d (needDoms d line)
    else d
  | none => d

/-- HUMP_JOB_COMPLETE. -/
def execHumpJobComplete (s : State) : Host.Outcome State Fault Refusal := onDevTx s humpJobComplete

end Sys2Proof.Machine
end

