-- ==== Sys2Proof/Machine/JuncRows.lean ====
section
/-!
DEFINITION. The Junction (R279 to R302): entries and matching, tables, the program queue, bank slots, verification and scrubbing, and the commands
JUNCTION_UPDATE and JUNCTION_SEARCH_BATCH.
-/

namespace Sys2Proof.Machine

/-- The Junction acts: the device is Running and its domain is ON. -/
def juncUp (d : Dev) : Bool := running d && domOn d 12

/-- Records a Junction event (R302): CORE and CONSIST for kernel programs, ENTRY for reason 5. -/
def juncErrOf (d : Dev) (reason : Nat) (src : Option JobSrc) (entry a : Nat) : Dev :=
  let who := match src with
    | some (.ring r) => r.core % 32 * 2 ^ 27 + (if reason = 1 then 0 else ringConsist r % 1024 * 2 ^ 16)
    | _ => 0
  recordErrAt d .juncErr .juncErrAddr 0 (reason * 2 ^ 32 + who + entry) (a % 2 ^ 40)

/-- JUNCTION_RING_CAPTURE (R263, R288). -/
def junctionRingCapture (d : Dev) : Dev :=
  match nextRing d.junc.arriving with
  | none => d
  | some r =>
    if juncUp d then
      let j := { d.junc with arriving := d.junc.arriving.erase r }
      match dropReason d r with
      | 0 => { d with junc := { j with rings := j.rings ++ [r] } }
      | k => workLess (juncErrOf (bump { d with junc := j } .juncCnt 6) k (some (.ring r)) 0 0) r
    else d

/-- JUNCTION_RING_CAPTURE. -/
def execJunctionRingCapture (s : State) : Host.Outcome State Fault Refusal := onDev s junctionRingCapture

/-! ## Entries and tables -/

/-- The device with an entry written in the search array and its ECC copy, which takes a new code (R294). -/
def putEntry (d : Dev) (e : Nat) (v : JEntry) : Dev :=
  { d with junc := { d.junc with
      array := mset {} d.junc.array e v, copy := mset {} d.junc.copy e v
      badCopy := sdel d.junc.badCopy e, softCopy := sdel d.junc.softCopy e } }

/-- An entry matches a key under the care mask of its table (R280). -/
def entryHit (global : Bool) (gmask key : Nat) (v : JEntry) : Bool :=
  v.valid && decide ((key ^^^ v.key) &&& (if global then gmask else v.mask) = 0)

/-- Entries of a program's table that match a key in the search array, lowest number first (R280). -/
def matchesOf (d : Dev) (p : JProg) (key : Nat) : List (Nat × JEntry) :=
  d.junc.array.filter (fun e => decide (p.base ≤ e.1 ∧ e.1 < p.base + p.entries) && entryHit p.global p.gmask key e.2)

/-- The winner: the largest PRIORITY, then the lowest entry number (R281). -/
def winnerOf : List (Nat × JEntry) → Option (Nat × JEntry)
  | [] => none
  | e :: es => match winnerOf es with | none => some e | some w => if e.2.prio < w.2.prio then some w else some e

/-- ENTRIES of a descriptor as it behaves (R302). -/
def tableEntries (base n : Nat) : Nat := min n (65536 - base)

/-- The program with its table's descriptor as it stands at its start (R282, R283). DESIGN CHOICE: it keeps that descriptor to its end; what a program
already running on a table does after its JUNC_TABLE is rewritten is unpredictable (R15, R283; log entry 133). -/
def withTable (d : Dev) (p : JProg) : JProg :=
  let f := fun hi lo => fld d .juncTable p.table hi lo
  { p with valid := decide (f 39 39 = 1), counts := decide (f 38 38 = 1), global := decide (f 37 37 = 1), base := f 15 0,
           entries := tableEntries (f 15 0) (f 32 16) }

/-- A table that misses every key and skips every record (R282). -/
def emptyTable (p : JProg) : Bool := !p.valid || decide (p.entries = 0)

/-- Banks that a program's table spans (R283). -/
def tableBanks (p : JProg) : List Nat :=
  (List.range 4).filter (fun b => decide (p.base / 16384 ≤ b ∧ b ≤ (p.base + p.entries - 1) / 16384))

/-- Carves a table (R283): its descriptor, and VALID 0 in every entry of its range and their ECC copies. -/
def carveTable (d : Dev) (t base entries : Nat) (global counts : Bool) : Dev :=
  let n := tableEntries base entries
  let clear : SMap JEntry → SMap JEntry := fun m =>
    m.foldl (fun a e => if base ≤ e.1 ∧ e.1 < base + n then mset {} a e.1 { e.2 with valid := false } else a) m
  wr { d with junc := { d.junc with array := clear d.junc.array, copy := clear d.junc.copy } } .juncTable (t % 1024)
    (BitVec.ofNat 40 (2 ^ 39 + b2n counts * 2 ^ 38 + b2n global * 2 ^ 37 + n * 2 ^ 16 + base))

/-- A program of the table that entered the program queue before number n is unfinished (R283). -/
def tableBusy (d : Dev) (n t : Nat) : Bool :=
  let early : JProg → Bool := fun p => decide (p.table = t % 1024 ∧ p.num < n)
  d.junc.queue.any early || d.junc.active.any early

/-- A carve of the table that took its place before program n has not been made (R283, R293). -/
def carveAhead (d : Dev) (n t : Nat) : Bool :=
  d.consists.any (fun e => e.2.valid && decide (e.2.ph = .starting) && !e.2.carved &&
    (match e.2.carving with | some (m, ts) => decide (m ≤ n) && ts.contains t | none => false))

/-! ## Programs -/

/-- JUNCTION_UPDATE and JUNCTION_SEARCH_BATCH: a command that passes its check with work to do waits for the program queue (R287, R290, R293). -/
def junctionCommand (op id : Nat) (d : Dev) : Dev :=
  checked op id (fun c d =>
    if (if op = 0x40 then pf c 3 16 0 else pf c 4 39 0) = 0 then finish d id 0 0
    else { d with junc := { d.junc with cmds := d.junc.cmds ++ [id] } }) d

/-- JUNCTION_UPDATE. -/
def execJunctionUpdate (id : Nat) (s : State) : Host.Outcome State Fault Refusal := onDevTx s (junctionCommand 0x40 id)

/-- JUNCTION_SEARCH_BATCH. -/
def execJunctionSearchBatch (id : Nat) (s : State) : Host.Outcome State Fault Refusal := onDevTx s (junctionCommand 0x41 id)

/-- The program of a host command (R77, R287). -/
def cmdProg (c : Cmd) (num : Nat) : JProg :=
  let al (n : Nat) : Nat := pw c n / 64 * 64
  if c.opcode = 0x40 then
    { num := num, src := .cmd c.id, port := c.port, table := pf c 1 9 0, upd := true, count := pf c 3 16 0, srcHost := isHost c 2, src_ := al 2 }
  else
    { num := num, src := .cmd c.id, port := c.port, table := pf c 1 9 0, count := pf c 4 39 0, srcHost := isHost c 2, src_ := al 2,
      outHost := isHost c 3, out := al 3, gmask := pw c 5 + pf c 6 15 0 * 2 ^ 64 }

/-- The program of a header line (R289, R290). -/
def ringProg (d : Dev) (r : Ring) (num : Nat) : JProg :=
  let s := slotAt d (storeBase r.core + 64 * r.line)
  let w := fun k => BitVec.ofNat 40 (s (4 + k))
  { num := num, src := .ring r, port := r.port, table := bitsOf (s 0) 9 0, upd := decide (bitOf (s 0) 16 = 1),
    noWagon := decide (bitOf (s 0) 17 = 1), count := min 65536 (bitsOf (s 1) 16 0), src_ := s 2 / 64 * 64, out := s 3 / 64 * 64,
    gmask := s 8 + s 9 * 2 ^ 40, w := { w0 := w 0, w1 := w 1, w2 := w 2, w3 := w 3 } }

/-- The captured ring that the program queue takes next: the oldest of the lowest core (R293). -/
def lowestCoreRing (rs : List Ring) : Option Ring :=
  match (rs.map (fun r => r.core)).min? with
  | some n => rs.find? (fun r => decide (r.core = n))
  | none => none

/-- JUNCTION_QUEUE_ENTRY (R289, R293): with a free place of 64, the first checked command enters the program queue, else a captured ring, whose
header is read now. -/
def junctionQueueEntry (d : Dev) : Dev :=
  let j := d.junc
  if juncUp d ∧ j.queue.length < 64 then
    match j.cmds with
    | id :: ids =>
      let d1 := { d with junc := { j with cmds := ids } }
      (match cmdOf d id with
       | some c => { d1 with junc := { d1.junc with queue := j.queue ++ [cmdProg c j.nextNum], nextNum := j.nextNum + 1 } }
       | none => d1)
    | [] =>
      match lowestCoreRing j.rings with
      | none => d
      | some r =>
        let line := storeBase r.core + 64 * r.line
        whenUp d line (fun d =>
          let j1 := { j with rings := j.rings.erase r }
          match firstBadLine d line 64 with
          | some l => workLess (recordEvent (juncErrOf (readErr { d with junc := j1 } l) 4 (some (.ring r)) 0 l) (ringConsist r) 7 l) r
          | none => { d with junc := { j1 with queue := j1.queue ++ [ringProg d r j1.nextNum], nextNum := j1.nextNum + 1 } })
  else d

/-- JUNCTION_QUEUE_ENTRY. -/
def execJunctionQueueEntry (s : State) : Host.Outcome State Fault Refusal := onDev s junctionQueueEntry

/-- A queued program is free to start: no earlier program of its table is unfinished, where either of the two is an update, nor an earlier carve
of it (R283, R293). -/
def freeToStart (d : Dev) (p : JProg) : Bool :=
  let early : JProg → Bool := fun q => decide (q.num < p.num ∧ q.table = p.table) && (q.upd || p.upd)
  !d.junc.active.any early && !d.junc.queue.any early && !carveAhead d p.num p.table

/-- The device with active program p (by number) replaced. -/
def setJProg (d : Dev) (p : JProg) : Dev :=
  { d with junc := { d.junc with active := d.junc.active.map (fun q => if q.num = p.num then p else q) } }

/-- Host reads of a program. -/
def jReads (p : JProg) (o : Owner) : Bool :=
  match o, p.src with
  | .junction g _, .cmd id => decide (g = id)
  | _, _ => false

/-- The program with its searches, repairs and reads removed. -/
def dropJProg (d0 : Dev) (p : JProg) : Dev :=
  let d := dropReqs (dropReads d0 (jReads p)) (fun o => decide (o = .junc p.num))
  let mine : JFlight → Bool := fun f => decide (f.prog = p.num)
  { d with junc := { d.junc with
      active := d.junc.active.filter (fun q => decide (q.num ≠ p.num))
      flights := d.junc.flights.filter (fun f => !mine f)
      fixes := d.junc.fixes.filter (fun f => !mine f.2)
      retries := d.junc.retries.filter (fun f => !mine f) } }

/-- A program ends at a failure: the event for its Consist, or the status of its command (R287, R291, R298). DESIGN CHOICE: a kernel program whose search
finds an uncorrectable copy ends at once too, with neither TALLY nor DONE, as at an uncorrectable line; R298 does not say (log entry 134). -/
def jFail (d0 : Dev) (p : JProg) (status result : Nat) : Dev :=
  let d := dropJProg d0 p
  match p.src with
  | .ring r => workLess (recordEvent d (ringConsist r) status result) r
  | .cmd id => finish d id status result

/-- A program ends at an access outside its reach or at an uncorrectable line, which JUNC_ERR records. -/
def jFault (d : Dev) (p : JProg) (reason a : Nat) : Dev :=
  jFail (juncErrOf d reason (some p.src) 0 a) p (if reason = 3 then 4 else 7) a

/-- The first address of [a, a+n) outside a program's reach in a space (R74, R287, R291). -/
def jOut (d : Dev) (p : JProg) (host : Bool) (a n : Nat) : Option Nat :=
  match p.src with
  | .ring r => reachOut d (ringReach r [r.core]) a n
  | .cmd _ => if host then hostOut d p.port a n else devOut d p.port a n

/-- Address of line i of an area of a program. -/
def jLine (p : JProg) (base i : Nat) : Nat :=
  match p.src with
  | .ring _ => (base + 64 * i) % 2 ^ 40
  | .cmd _ => base + 64 * i

/-- Number of the line that a program reads next: six keys a line, one record a line (R284, R286). -/
def jNextLine (p : JProg) : Nat := if p.upd then p.next else p.next / 6

/-- The Consist whose own requests a program makes (R166, R291). -/
def jConsist (p : JProg) : Option Nat := match p.src with | .ring r => r.consist | .cmd _ => none

/-- Asks for the next line of a program: in host memory outside the windows it fails; in GDDR6 its read is issued as requester 48 (R287, R291). -/
def jAsk (d : Dev) (p : JProg) : Dev :=
  match p.src with
  | .cmd id =>
    if p.srcHost ∧ p.next < p.count ∧ (readsOf d (jReads p)).isEmpty then
      let a := jLine p p.src_ (jNextLine p)
      match jOut d p true a 64 with
      | some x => jFault d p 3 x
      | none => hostRead d p.port a 64 (.junction id (jNextLine p))
    else if p.srcHost then d
    else askDev d p
  | .ring _ => askDev d p
where
  /-- A read of device memory. -/
  askDev (d : Dev) (p : JProg) : Dev :=
    let a := jLine p p.src_ (jNextLine p)
    if p.next < p.count ∧ lineReads d (.junc p.num) = [] ∧ (jOut d p false a 64).isNone then
      askLines d (.junc p.num) 48 p.port (jConsist p) [(a, 64)]
    else d

/-- JUNCTION_PROGRAM_START (R292, R293): in a free active place, with no completion Wagon stalled, the oldest program that is free to start
starts; it takes its table's descriptor as it stands. -/
def junctionProgramStart (d : Dev) : Dev :=
  if juncUp d ∧ d.junc.active.length < 8 ∧ !wagonStalled d .junction then
    match d.junc.queue.find? (freeToStart d) with
    | none => d
    | some p =>
      let p1 := withTable d p
      jAsk { d with junc := { d.junc with
        queue := d.junc.queue.filter (fun q => decide (q.num ≠ p.num)), active := d.junc.active ++ [p1] } } p1
  else d

/-- JUNCTION_PROGRAM_START. -/
def execJunctionProgramStart (s : State) : Host.Outcome State Fault Refusal := onDevTx s junctionProgramStart

/-! ## Results -/

/-- Words A and B of a result with their NULL bits (R285). -/
def resultWords (counts : Bool) (r : JResult) : List (Nat × Bool) :=
  match r with
  | .hit i prio pay => [(pay, false), (prio * 2 ^ 16 + i, false)]
  | .count n => [(n, false), (0, false)]
  | .miss => if counts then [(0, false), (0, false)] else [(0, true), (0, true)]

/-- The result line of a program whose keys of the line are all answered is written (R285, R287, R291). -/
def jWriteLine (d : Dev) (p : JProg) : Dev :=
  let first := (p.next - 1) / 6 * 6
  if p.keys.isEmpty ∧ p.results.length = p.next - first ∧ p.results ≠ [] then
    let es := ((List.range (p.next - first)).map (fun i =>
      match p.results.find? (fun e => decide (e.1 = first + i)) with
      | some e => resultWords p.counts e.2
      | none => [])).flatten
    let a := jLine p p.out (first / 6)
    match jOut d p p.outHost a 64 with
    | some x => jFault d p 3 x
    | none =>
      let bs := nativeLine (first / 6) es
      let d1 := if p.outHost then hostWrite d p.port a bs else (devWriteFor (jConsist p) d a bs).1
      let p1 := { p with results := [] }
      jAsk (setJProg d1 p1) p1
  else d

/-- A key's result is known: a hit is counted, and it is kept for its line (R281, R285, R302). -/
def jAnswer (d : Dev) (p : JProg) (idx : Nat) (r : JResult) : Dev :=
  let won := match r with | .miss => false | .hit _ _ _ => true | .count n => decide (0 < n)
  let p1 := { p with results := p.results ++ [(idx, r)], done := p.done + 1, tally := p.tally + b2n won }
  jWriteLine (bumpN (setJProg d p1) .juncCnt 1 (b2n won)) p1

/-- The keys of a line (R284): null keys, and every key of an empty table, miss at once; the others wait for their slots, and are counted as
searches when they take them (R302). -/
def jTakeKeys (d : Dev) (p : JProg) (bs : List Byte) : Dev :=
  let n := min (6 - p.next % 6) (p.count - p.next)
  let ks : List JKey := (List.range n).map (fun i =>
    let j := (p.next + i) % 6
    { idx := p.next + i, key := if lineNull bs (2 * j) then none else some (lineWord bs (2 * j) + lineWord bs (2 * j + 1) * 2 ^ 40) })
  let real := ks.filter (fun k => k.key.isSome)
  let wait := if emptyTable p then [] else real
  let misses := ks.filter (fun k => !wait.contains k)
  let p1 := { p with next := p.next + n, keys := wait, results := misses.map (fun k => (k.idx, JResult.miss))
                     done := p.done + misses.length, since := d.junc.stamp }
  let d1 := bumpN (setJProg d p1) .juncCnt 0 (if emptyTable p then real.length else 0)
  jWriteLine { d1 with junc := { d1.junc with stamp := d1.junc.stamp + 1 } } p1

/-- The record of a line (R286): a skipped record changes nothing; any other waits for a slot of its bank. -/
def jTakeRecord (d : Dev) (p : JProg) (bs : List Byte) : Dev :=
  let w := lineWord bs
  let op := bitsOf (w 6) 39 38
  let idx := bitsOf (w 6) 15 0
  let v : JEntry := { valid := true, key := w 0 + w 1 * 2 ^ 40, mask := w 2 + w 3 * 2 ^ 40, prio := bitsOf (w 4) 15 0, payload := w 5 }
  let skip := decide (2 ≤ op) || emptyTable p || decide (p.entries ≤ idx)
  let p1 := { p with next := p.next + 1, record := if skip then none else some (op, p.base + idx, v) }
  if skip then jAsk (setJProg d p1) p1 else setJProg d p1

/-- A program can take its next line: the line before is done. -/
def jReadyForLine (d : Dev) (p : JProg) : Bool :=
  decide (p.next < p.count) && p.keys.isEmpty && p.record.isNone && p.results.isEmpty && !d.junc.flights.any (fun f => decide (f.prog = p.num)) &&
    !d.junc.fixes.any (fun f => decide (f.2.prog = p.num)) && !d.junc.retries.any (fun f => decide (f.prog = p.num))

/-- JUNCTION_LINE_ARRIVAL (R284, R286, R287, R291, R326): the next line of active program i arrives, once its slice has served it, or is found
outside its reach or uncorrectable. -/
def junctionLineArrival (i : Nat) (d : Dev) : Dev :=
  match d.junc.active[i]? with
  | none => d
  | some p =>
    if juncUp d ∧ jReadyForLine d p then
      let take (d : Dev) (bs : List Byte) : Dev := if p.upd then jTakeRecord d p bs else jTakeKeys d p bs
      if p.srcHost then
        match readsOf d (jReads p) with
        | r :: _ => if r.st = .done then take (dropReads d (jReads p)) r.got else d
        | [] => jAsk d p
      else
        let a := jLine p p.src_ (jNextLine p)
        match issuedOr d (.junc p.num) (jOut d p false a 64) with
        | some x => jFault d p 3 x
        | none => whenUp d a (fun d =>
            match fetchLines d (.junc p.num) 48 p.port (jConsist p) [(a, 64)] with
            | .wait d1 => d1
            | .bad d1 l => jFault d1 p 4 l
            | .got d1 bs => take d1 bs)
    else d

/-- JUNCTION_LINE_ARRIVAL. -/
def execJunctionLineArrival (i : Nat) (s : State) : Host.Outcome State Fault Refusal := onUnitTx s (junctionLineArrival i)

/-! ## Slots -/

/-- An entry's ECC copy cannot be corrected: it is invalidated, recorded and logged (R298). -/
def entryLost (d : Dev) (e : Nat) : Dev :=
  let inv : SMap JEntry → SMap JEntry := fun m => mmod {} m e (fun v => { v with valid := false })
  let d1 := { d with junc := { d.junc with
    array := inv d.junc.array, copy := inv d.junc.copy, badCopy := sdel d.junc.badCopy e, softCopy := sdel d.junc.softCopy e } }
  logBook (sboxEvent (juncErrOf (bump d1 .juncCnt 5) 5 none e (0xFFFFF00000 + e)) 7) 2 0x0051 [e]

/-- The fields of the search array agree with the ECC copy: VALID, KEY, MASK and PRIORITY (R296). -/
def sameFields (a b : JEntry) : Bool := decide (a.valid = b.valid ∧ a.key = b.key ∧ a.mask = b.mask ∧ a.prio = b.prio)

/-- The scrubber's visit of an entry (R297, R298). -/
def scrubEntry (d : Dev) (e : Nat) : Dev :=
  if d.junc.badCopy.contains e then entryLost d e
  else
    let c := mget {} d.junc.copy e
    if mget {} d.junc.array e = c ∧ !d.junc.softCopy.contains e then d else bump (putEntry d e c) .juncCnt 4

/-- A scrub slot is due: one in each bank every 2^SCRUB_LOG2 slots (R297). -/
def scrubDue (d : Dev) : Bool :=
  match fld d .juncCtrl 0 7 4 with
  | 0 => false
  | n => decide ((d.junc.slotNo + 1) % 2 ^ max 6 n = 0)

/-- Applies an update record to its entry (R286, R294). -/
def applyRecord (d : Dev) (op e : Nat) (v : JEntry) : Dev :=
  if op = 0 then putEntry d e v
  else
    let inv : SMap JEntry → SMap JEntry := fun m => mmod {} m e (fun v => { v with valid := false })
    { d with junc := { d.junc with array := inv d.junc.array, copy := inv d.junc.copy } }

/-- The oldest active program whose waiting record is for a bank. -/
def bankUpdate (d : Dev) (b : Nat) : Option JProg :=
  d.junc.active.find? (fun p => match p.record with | some (_, e, _) => decide (e / 16384 = b) | none => false)

/-- A program put among others in the order in which their lines of keys arrived. -/
def bySince (p : JProg) : List JProg → List JProg
  | [] => [p]
  | q :: qs => if q.since < p.since then q :: bySince p qs else p :: q :: qs

/-- Searches that wait for a slot, oldest first: those searched again, then the first waiting key of each active program, by the arrival of its
line (R295). -/
def waitingSearches (d : Dev) : List (JProg × JFlight) :=
  d.junc.retries.filterMap (fun f => (d.junc.active.find? (fun p => decide (p.num = f.prog))).map (fun p => (p, f))) ++
  (d.junc.active.foldr bySince []).filterMap (fun p => match p.keys with
    | k :: _ => some (p, { prog := p.num, idx := k.idx, key := k.key.getD 0 })
    | [] => none)

/-- A search waits for a bank. -/
def searchWaits (d : Dev) (b : Nat) : Bool := (waitingSearches d).any (fun s => (tableBanks s.1).contains b)

/-- Gives a slot of every bank that it spans to a search, which the array answers now, with its winner as the array holds it (R281, R294, R295);
a key counts as one search, whether or not it is searched again (R302). -/
def issueSearch (d : Dev) (p : JProg) (f : JFlight) : Dev :=
  let ms := matchesOf d p f.key
  let w := if p.counts then none else winnerOf ms
  let f1 := { f with
    winner := w, copy := (match w with | some (e, _) => mget {} d.junc.copy e | none => {}), matches_ := if p.counts then ms.length else 0 }
  let d1 := { d with junc := { d.junc with flights := d.junc.flights ++ [f1] } }
  if d.junc.retries.contains f then { d1 with junc := { d1.junc with retries := d1.junc.retries.erase f } }
  else bump (setJProg d1 { p with keys := p.keys.drop 1 }) .juncCnt 0

/-- Gives the remaining slots to the waiting searches, oldest first (R295). -/
def serveSearches : List (JProg × JFlight) → Dev → List Nat → Dev
  | [], d, _ => d
  | s :: ss, d, free =>
    let bs := tableBanks s.1
    if bs.all (fun b => free.contains b) then serveSearches ss (issueSearch d s.1 s.2) (free.filter (fun b => !bs.contains b))
    else serveSearches ss d free

/-- The update slot of one bank, where updates have a share of the window or no search waits (R295). -/
def serveUpdate (d : Dev) (b : Nat) : Dev × Bool :=
  match bankUpdate d b with
  | none => (d, false)
  | some p =>
    let used := (d.junc.updates[b]?).getD 0
    let waits := searchWaits d b
    if !waits ∨ used < d.junc.share then
      match p.record with
      | some (op, e, v) =>
        let d1 := applyRecord d op e v
        let p1 := { p with record := none, tally := p.tally + 1 }
        let d2 := bumpN (bump (setJProg d1 p1) .juncCnt 2) .juncCnt 7 (b2n waits)
        (jAsk { d2 with junc := { d2.junc with updates := d2.junc.updates.set b (used + 1) } } p1, true)
      | none => (d, false)
    else (d, false)

/-- Repairs that have their bank's slot: the entry's search-array fields are rewritten from the copy, and the key is searched again in the slot
after (R296). Answers the device, the free banks, and the keys to search again. -/
def serveFixes : List (Nat × JFlight) → Dev → List Nat → List JFlight → Dev × List Nat × List JFlight
  | [], d, free, again => (d, free, again)
  | (e, f) :: fs, d, free, again =>
    if free.contains (e / 16384) then
      let d1 := { d with junc := { d.junc with
        array := mset {} d.junc.array e (mget {} d.junc.copy e), fixes := d.junc.fixes.erase (e, f) } }
      serveFixes fs d1 (free.filter (fun b => decide (b ≠ e / 16384))) (again ++ [f])
    else serveFixes fs d free again

/-- JUNCTION_SLOT (R295 to R297): the slot of each bank goes to scrub, a repair, an update, or the oldest search that has all its banks. -/
def junctionSlot (d0 : Dev) : Dev :=
  if juncUp d0 then
    let share := match fld d0 .juncCtrl 0 1 0 with | 0 => 1 | 1 => 2 | _ => 4
    let d := if d0.junc.slotNo % 8 = 0 then { d0 with junc := { d0.junc with share := share, updates := [0, 0, 0, 0] } } else d0
    let due := scrubDue d
    let next (d : Dev) : Dev := { d with junc := { d.junc with slotNo := d.junc.slotNo + 1 } }
    if due then
      let d1 := (List.range 4).foldl (fun d b => scrubEntry d (16384 * b + d0.junc.scrubPos)) d
      next { d1 with junc := { d1.junc with scrubPos := (d0.junc.scrubPos + 1) % 16384 } }
    else
      let r := serveFixes d.junc.fixes d [0, 1, 2, 3] []
      let u := r.2.1.foldl (fun (a : Dev × List Nat) b => let x := serveUpdate a.1 b; (x.1, if x.2 then a.2 else a.2 ++ [b])) (r.1, [])
      let d2 := serveSearches (waitingSearches u.1) u.1 u.2
      next { d2 with junc := { d2.junc with retries := d2.junc.retries ++ r.2.2 } }
  else d0

/-- JUNCTION_SLOT. -/
def execJunctionSlot (s : State) : Host.Outcome State Fault Refusal := onDevTx s junctionSlot

/-- JUNCTION_SEARCH_RESULT (R281, R294, R296, R298, R299): the i-th search on the way gives its result; an ADDRESS winner is verified against its ECC
copy first, both as the search's slot saw them. -/
def junctionSearchResult (i : Nat) (d : Dev) : Dev :=
  match d.junc.flights[i]? with
  | none => d
  | some f =>
    match d.junc.active.find? (fun p => decide (p.num = f.prog)) with
    | none => d
    | some p =>
      if juncUp d then
        let d1 := { d with junc := { d.junc with flights := d.junc.flights.eraseIdx i } }
        if p.counts then jAnswer d1 p f.idx (if f.matches_ = 0 then .miss else .count f.matches_)
        else match f.winner with
          | none => jAnswer d1 p f.idx .miss
          | some (e, seen) =>
            let lost (d : Dev) : Dev := jFail (entryLost d e) p 7 (0xFFFFF00000 + e)
            if d.junc.badCopy.contains e then lost d1
            else
              if entryHit p.global p.gmask f.key f.copy ∧ sameFields f.copy seen then
                jAnswer d1 p f.idx (.hit (e - p.base) f.copy.prio f.copy.payload)
              else if f.again then lost d1
              else bump { d1 with junc := { d1.junc with fixes := d1.junc.fixes ++ [(e, { f with again := true })] } } .juncCnt 3
      else d

/-- JUNCTION_SEARCH_RESULT. -/
def execJunctionSearchResult (i : Nat) (s : State) : Host.Outcome State Fault Refusal := onUnitTx s (junctionSearchResult i)

/-- JUNCTION_PROGRAM_COMPLETE (R84, R287, R292): active program i has written its last result line or applied its last record: TALLY, DONE and the
Wagon of a kernel program, or the completion of a command; where the unit that holds TALLY and DONE is uncorrectable the program ends at that
(R291, R325). -/
def junctionProgramComplete (i : Nat) (d : Dev) : Dev :=
  match d.junc.active[i]? with
  | none => d
  | some p =>
    if juncUp d ∧ p.count ≤ p.next ∧ jReadyForLine d { p with count := p.next + 1 } then
      match p.src with
      | .cmd id => finish (dropJProg d p) id 0 (if p.upd then p.tally % 2 ^ 17 else p.done % 2 ^ 40)
      | .ring r =>
        let line := storeBase r.core + 64 * r.line
        whenUp d line (fun d =>
          match firstBadLine d (line + 50) 10 with
          | some l => jFault (readErr d l) p 4 l
          | none =>
            let d1 := unitWrite (dropJProg d p) r.consist (line + 55) (toLE 5 p.tally)
            let d2 := unitWrite d1 r.consist (line + 50) (toLE 5 1)
            workLess (if p.noWagon then d2 else offerDone d2 .junction p.w (ringConsist r)) r)
    else d

/-- JUNCTION_PROGRAM_COMPLETE. -/
def execJunctionProgramComplete (i : Nat) (s : State) : Host.Outcome State Fault Refusal := onDevTx s (junctionProgramComplete i)

end Sys2Proof.Machine
end

