-- ==== Sys2Proof/Machine/Shunt.lean ====
section
/-!
DEFINITION. What a MOVE of the Shunting Engine reads and writes (R345, R352 to R360): its pieces, the source ranges of a piece, and the writes
that each transform makes of it.
-/

namespace Sys2Proof.Machine

/-- Bytes of a plain element, 0 for a native one (R352). -/
def elemBytes (esize : Nat) : Nat := match esize with | 0 => 0 | 1 => 1 | 2 => 2 | 3 => 4 | 4 => 5 | _ => 8

/-- Frames of a piece of NATIVE and DEINTERLEAVE: at most 4 KiB of source, whole frames, and whole lines of every output array (R360). -/
def pieceFrames (m : ShMove) : Nat :=
  if m.esize = 0 then 756 / m.k / 12 * 12 else 4096 / (m.k * elemBytes m.esize) / 12 * 12

/-- Bytes of the first piece of a COPY: up to a 4 KiB boundary of the source (R360). -/
def copyFirst (m : ShMove) : Nat := min m.count (4096 - m.src % 4096)

/-- Start and length of piece i of a COPY. -/
def copyPiece (m : ShMove) (i : Nat) : Nat × Nat :=
  if i = 0 then (0, copyFirst m)
  else
    let o := copyFirst m + 4096 * (i - 1)
    (o, min 4096 (m.count - o))

/-- The number of pieces of a MOVE (R360). -/
def pieceCount (m : ShMove) : Nat :=
  match m.xform with
  | 1 | 4 => ceilDiv m.count (pieceFrames m)
  | 2 => 8 * ceilDiv m.count 4096
  | 3 | 5 => ceilDiv m.count 512
  | _ => if m.count ≤ copyFirst m then 1 else 1 + ceilDiv (m.count - copyFirst m) 4096

/-- The bytes of n elements from element e0 of an array: plain elements back to back, or the native lines that hold them (R119, R352). -/
def arrayRange (m : ShMove) (base e0 n : Nat) : Nat × Nat :=
  if n = 0 then (base, 0)
  else if m.esize = 0 then (base / 64 * 64 + 64 * (e0 / 12), 64 * ((e0 + n - 1) / 12 + 1 - e0 / 12))
  else (base + elemBytes m.esize * e0, elemBytes m.esize * n)

/-- Rows that segment s of a TURN or UNTURN holds. -/
def segRows (m : ShMove) (s : Nat) : Nat := min 512 (m.count - 512 * s)

/-- Address of plane p of segment s: block s / 8 of BSTRIDE bytes, 512 bytes a plane, 64 a segment (R129, R269, R356). -/
def planeAt (m : ShMove) (base s p : Nat) : Nat := base + m.bstride * (s / 8) + 512 * p + 64 * (s % 8)

/-- The source ranges of piece i, in reading order (R360). -/
def pieceRanges (m : ShMove) (i : Nat) : List (Nat × Nat) :=
  let rs := match m.xform with
    | 1 | 4 =>
      let f := pieceFrames m
      [arrayRange m m.src (m.k * f * i) (m.k * min f (m.count - f * i))]
    | 2 => [arrayRange m m.src (m.k * 512 * i) (m.k * segRows m i)]
    | 3 => (List.range (m.width + b2n m.nulls)).map (fun p => (planeAt m m.src i p, 64))
    | 5 => (List.range m.k).map (fun c => arrayRange m (m.src + c * m.cstride) (512 * i) (segRows m i))
    | _ => let p := copyPiece m i; [(m.src + p.1, p.2)]
  rs.filter (fun r => decide (0 < r.2))

/-- Bytes that a piece reads. -/
def pieceSize (m : ShMove) (i : Nat) : Nat := (pieceRanges m i).foldl (fun a r => a + r.2) 0

/-- Staging buffers that a piece needs: at least one (R360). -/
def pieceBuffers (m : ShMove) (i : Nat) : Nat := max 1 (ceilDiv (pieceSize m i) 4096)

/-- The swap of one element or unit of n bytes (R353). -/
def swapUnit (swap : Nat) (bs : List Byte) : List Byte :=
  match swap with
  | 1 => bs.reverse
  | 2 => if bs.length = 4 then bs.drop 2 ++ bs.take 2 else bs
  | _ => bs

/-- Element j of the bytes that arrayRange reads from element e0 on: the raw value after the swap, and its NULL bit (R352, R353). -/
def readElem (m : ShMove) (data : List Byte) (e0 j : Nat) : Nat × Bool :=
  if m.esize = 0 then
    let e := e0 + j
    let o := 64 * (e / 12 - e0 / 12)
    let null := decide (bitOf (leAt data (o + 60) 4) (e % 12) = 1)
    (if null then 0 else leAt data (o + 5 * (e % 12)) 5, null)
  else
    let n := elemBytes m.esize
    (ofLE (swapUnit m.swap (sliceB data (n * j) n)), false)

/-- The 40-bit value of a raw element (R352). -/
def elemValue (m : ShMove) (raw : Nat) : Nat :=
  match m.esize with
  | 1 => if m.signed then (sextW 8 raw).toNat else raw
  | 2 => if m.signed then (sextW 16 raw).toNat else raw
  | 3 => if m.signed then (sextW 32 raw).toNat else raw
  | _ => raw % 2 ^ 40

/-- A 40-bit value as a plain element: its low bytes, sign-extended to 8 by SIGNED (R352). -/
def plainElem (m : ShMove) (v : Nat) : List Byte :=
  toLE (elemBytes m.esize) (if m.signed ∧ bitOf v 39 = 1 then v + (2 ^ 64 - 2 ^ 40) else v)

/-- Whole lines of a native output whose elements from e0 on are `es`, the rest kept for the next piece: writes and rest (R121, R359). -/
def nativeOut (base e0 : Nat) (es : List (Nat × Bool)) (last : Bool) : List (Nat × List Byte) × List (Nat × Bool) :=
  let n := if last then ceilDiv es.length 12 else es.length / 12
  ((List.range n).map (fun l => (base / 64 * 64 + 64 * (e0 / 12 + l), nativeLine (e0 / 12 + l) (es.drop (12 * l)))), es.drop (12 * n))

/-- u of one row of TURN (R356). -/
def turnField (m : ShMove) (e : Nat × Bool) : Nat :=
  if e.2 then 0
  else if m.signed then (elemValue m e.1 + 2 ^ (m.width - 1)) % 2 ^ m.width
  else elemValue m e.1 % 2 ^ m.width

/-- A 64-byte plane line whose row r has the bit that f gives. -/
def planeLine (f : Nat → Bool) : List Byte :=
  (List.range 64).map (fun b => BitVec.ofNat 8 ((List.range 8).foldl (fun a j => a + b2n (f (8 * b + j)) * 2 ^ j) 0))

/-- The writes of TURN for segment s: its planes of every channel, and with NULLS its null planes (R356). -/
def turnWrites (m : ShMove) (s : Nat) (data : List Byte) : List (Nat × List Byte) :=
  let n := segRows m s
  let e0 := m.k * 512 * s
  ((List.range m.k).map (fun c =>
    let rows := (List.range n).map (fun r => readElem m data e0 (m.k * r + c))
    let base := m.dst + c * m.cstride
    (List.range m.width).map (fun p => (planeAt m base s p,
      planeLine (fun r => match rows[r]? with | some e => decide (bitOf (turnField m e) (m.width - 1 - p) = 1) | none => false))) ++
    (if m.nulls then [(planeAt m base s m.width, planeLine (fun r => match rows[r]? with | some e => e.2 | none => false))] else []))).flatten

/-- Row r of UNTURN: its value and NULL bit; the offset of a signed field of no bits is the free value (R357). -/
def unturnRow (m : ShMove) (free : Nat) (data : List Byte) (r : Nat) : Nat × Bool :=
  let bit := fun p => bitOf (leAt data (64 * p + r / 8) 1) (r % 8)
  let u := (List.range m.width).foldl (fun a p => 2 * a + bit p) 0
  let null := m.nulls && decide (bit m.width = 1)
  if null then (0, true)
  else if m.signed then (if m.width = 0 then free % 2 ^ 40 else (u + 2 ^ 40 - 2 ^ (m.width - 1)) % 2 ^ 40, false)
  else (u, false)

/-- The writes that piece i makes of its data, and the MOVE with what it keeps for the next piece (R354 to R359). -/
def pieceWrites (m : ShMove) (free i : Nat) (data : List Byte) : List (Nat × List Byte) × ShMove :=
  let last := decide (pieceCount m ≤ i + 1)
  let es := elemBytes m.esize
  match m.xform with
  | 1 | 4 =>
    let f := pieceFrames m
    let n := min f (m.count - f * i)
    let e0 := m.k * f * i
    (((List.range m.k).map (fun c =>
      let base := m.dst + c * m.cstride
      let xs := (List.range n).map (fun r => readElem m data e0 (m.k * r + c))
      if m.esize = 0 ∨ m.xform = 1 then
        (nativeOut base (f * i) (xs.map (fun e => (if m.esize = 0 then e.1 else elemValue m e.1, e.2))) true).1
      else [(base + es * f * i, (xs.map (fun e => toLE es e.1)).flatten)])).flatten, m)
  | 2 => (turnWrites m i data, m)
  | 3 =>
    let rows := (List.range (segRows m i)).map (unturnRow m free data)
    if m.esize = 0 then
      let r := nativeOut m.dst (512 * i - m.elems.length) (m.elems ++ rows) last
      (r.1, { m with elems := r.2 })
    else ([(m.dst + es * 512 * i, (rows.map (fun e => swapUnit m.swap (plainElem m e.1))).flatten)], m)
  | 5 =>
    let n := segRows m i
    let size := (arrayRange m 0 (512 * i) n).2
    let xs := ((List.range n).map (fun r => (List.range m.k).map (fun c => readElem m (data.drop (size * c)) (512 * i) r))).flatten
    if m.esize = 0 then
      let r := nativeOut m.dst (m.k * 512 * i - m.elems.length) (m.elems ++ xs) last
      (r.1, { m with elems := r.2 })
    else ([(m.dst + es * m.k * 512 * i, (xs.map (fun e => toLE es e.1)).flatten)], m)
  | _ =>
    let unit := if m.swap = 0 ∨ es = 0 then 1 else es
    let bs := m.tail ++ data
    let n := bs.length / unit * unit
    let whole := ((List.range (n / unit)).map (fun u => swapUnit (if unit = 1 then 0 else m.swap) (sliceB bs (unit * u) unit))).flatten
    let o := (copyPiece m i).1 - m.tail.length
    if last then ([(m.dst + o, whole ++ bs.drop n)], { m with tail := [] }) else ([(m.dst + o, whole)], { m with tail := bs.drop n })

end Sys2Proof.Machine
end

