-- ==== Sys2Proof/Machine/ShuntRows.lean ====
section
/-!
DEFINITION. The Shunting Engine (R340 to R369): who starts a program, channel programs and their instructions, the read and write engines,
arbitration, failures and completion; the commands DMA_RUN, READ_BACK and WRITE_DOWN.
-/

namespace Sys2Proof.Machine

/-- The Shunting Engine acts: the device is Running and its domain is ON. -/
def shuntUp (d : Dev) : Bool := running d && domOn d 14

/-- Channel ch. -/
def chan (d : Dev) (ch : Nat) : ShChan := mget {} d.shunt.chans ch

/-- The device with a channel replaced. -/
def setChan (d : Dev) (ch : Nat) (c : ShChan) : Dev := { d with shunt := { d.shunt with chans := mset {} d.shunt.chans ch c } }

/-- Source, Consist and port of a channel's program as SHUNT_ERR gives them (R369). -/
def srcCode (s : ShSrc) : Nat := match s with | .dma _ => 0 | .move _ => 1 | .kernel _ _ _ => 2

/-- Records a Shunting Engine event (R369). -/
def shuntErrOf (d : Dev) (reason ch : Nat) (src cs port a : Nat) : Dev :=
  recordErrAt d .shuntErr .shuntErrAddr 0 (reason * 2 ^ 32 + ch % 16 * 2 ^ 28 + src % 4 * 2 ^ 26 + cs % 1024 * 2 ^ 16 + port % 256 * 2 ^ 8) (a % 2 ^ 40)

/-- SHUNT_RING_CAPTURE (R263, R342): the next ring is captured with what slot 0 of its header gives, or dropped. -/
def shuntRingCapture (d : Dev) : Dev :=
  match nextRing d.shunt.arriving with
  | none => d
  | some r =>
    if shuntUp d then
      let line := storeBase r.core + 64 * r.line
      let d1 := { d with shunt := { d.shunt with arriving := d.shunt.arriving.erase r } }
      match dropReason d r with
      | 0 => whenUp d line (fun _ =>
          match firstBadLine d line 5 with
          | some l => workLess (recordEvent (shuntErrOf (readErr d1 l) 2 0 2 (ringConsist r) r.port l) (ringConsist r) 7 l) r
          | none =>
            let s0 := slotAt d line 0
            { d1 with shunt := { d1.shunt with
              rings := d1.shunt.rings ++ [{ ring := r, channel := bitsOf s0 3 0, noWagon := decide (bitOf s0 4 = 1) }] } })
      | _ => workLess (shuntErrOf d1 4 0 2 (ringConsist r) r.port 0) r
    else d

/-- SHUNT_RING_CAPTURE. -/
def execShuntRingCapture (s : State) : Host.Outcome State Fault Refusal := onDev s shuntRingCapture

/-! ## Starting a program -/

/-- No channel holds a program. -/
def allIdle (d : Dev) : Bool := (List.range 16).all (fun ch => decide ((chan d ch).ph = .idle))

/-- SHUNT_STAGE as it behaves (R369). -/
def stageSetting (d : Dev) : Nat × Nat :=
  let n := min 4096 (max 16 (fld d .shuntStage 0 24 12))
  let f := fld d .shuntStage 0 11 0
  (f, min n (4096 - f))

/-- Starts a program on a channel: it runs, or in SERIAL mode waits for its turn; its registers name it (R362, R369). -/
def startChan (d0 : Dev) (ch : Nat) (c : ShChan) : Dev :=
  let d := if allIdle d0 then { d0 with shunt := { d0.shunt with stage := stageSetting d0 } } else d0
  let serial := decide (fld d .shuntStatus 0 39 39 = 1)
  let turns := if serial then d.shunt.turns ++ [ch] else d.shunt.turns
  let waits := serial && !d.shunt.turns.isEmpty
  let d1 := setChan { d with shunt := { d.shunt with turns := turns } } ch { c with ph := if waits then .turn else .run }
  wr (wr d1 .shuntChProg ch (BitVec.ofNat 40 ((c.prog.getD 0) / 64 * 64))) .shuntChBytes ch 0

/-- A change of SHUNT_CTRL.ARB waits for every channel to be idle, and channel starts wait for it (R23). -/
def arbHeld (d : Dev) : Bool := decide (fld d .shuntCtrl 0 16 16 ≠ fld d .shuntStatus 0 39 39)

/-- DMA_RUN (R23, R87, R340, R341): the program starts on the named channel, or the command completes NOT_NOW while that channel is not idle. -/
def dmaRun (id : Nat) (d : Dev) : Dev :=
  match cmdOf d id with
  | some c =>
    if arbHeld d ∧ (chan d (pf c 2 3 0)).ph = .idle then d
    else
      checked 0x30 id (fun c d =>
        let ch := pf c 2 3 0
        if (chan d ch).ph ≠ .idle then finish d id 2 8
        else startChan d ch { src := .dma id, port := c.port, prog := some (pw c 1 / 64 * 64) }) d
  | none => d

/-- DMA_RUN. -/
def execDmaRun (id : Nat) (s : State) : Host.Outcome State Fault Refusal := onDevTx s (dmaRun id)

/-- READ_BACK and WRITE_DOWN (R95, R341): a copy of no bytes is DONE at once; any other waits for a channel. -/
def copyCommand (op id : Nat) (d : Dev) : Dev :=
  checked op id (fun c d =>
    if pf c 3 39 0 = 0 then finish d id 0 0 else { d with shunt := { d.shunt with cmds := d.shunt.cmds ++ [id] } }) d

/-- READ_BACK. -/
def execReadBack (id : Nat) (s : State) : Host.Outcome State Fault Refusal := onDevTx s (copyCommand 0x60 id)

/-- WRITE_DOWN. -/
def execWriteDown (id : Nat) (s : State) : Host.Outcome State Fault Refusal := onDevTx s (copyCommand 0x61 id)

/-- The channel state with which a command move starts (R340, R341): an INGEST's program, or a single COPY. -/
def moveChan (d : Dev) (c : Cmd) : ShChan :=
  let prog := if c.opcode = 0x20 ∧ pw c 6 ≠ 0 then some (pw c 6 / 64 * 64) else none
  let dst := pw c 2
  let src := pw c 1
  let run := if c.opcode = 0x20 then ((c.aux[1]?).getD 0) else 0
  let copy : ShMove := { srcHost := isHost c 1, dstHost := isHost c 2, src := src, dst := dst, count := pf c 3 39 0 }
  { src := .move c.id, port := c.port, consist := if run = 0 then none else consistOf d ((run - 1) / 1024), prog := prog,
    sbaseHost := isHost c 1, sbase := src, dbaseHost := isHost c 2, dbase := dst,
    moves := if prog.isNone then [copy] else [], nextMove := if prog.isNone then 1 else 0 }

/-- COMMAND_MOVE_CHANNEL (R341): the oldest waiting command move takes the lowest idle channel that CMD_MASK allows. -/
def commandMoveChannel (d : Dev) : Dev :=
  match d.shunt.cmds with
  | [] => d
  | id :: ids =>
    match firstIdx 16 (fun ch => decide (bitOf (fld d .shuntCtrl 0 15 0) ch = 1 ∧ (chan d ch).ph = .idle)) with
    | none => d
    | some ch =>
      if shuntUp d ∧ !arbHeld d then
        let d1 := { d with shunt := { d.shunt with cmds := ids } }
        match cmdOf d id with
        | some c =>
          let k := moveChan d c
          let d2 := startChan d1 ch k
          if k.prog.isNone ∧ (chan d2 ch).ph = .run then setChan d2 ch { chan d2 ch with ph := .move } else d2
        | none => d1
      else d

/-- COMMAND_MOVE_CHANNEL. -/
def execCommandMoveChannel (s : State) : Host.Outcome State Fault Refusal := onDev s commandMoveChannel

/-- Sets a channel's bit of SHUNT_IRQ (R365). -/
def chanIrq (d : Dev) (ch : Nat) : Dev := setFld d .shuntIrq 0 ch ch 1

/-- SHUNT_PROGRAM_START (R340, R342, R362): a channel whose SERIAL turn has come runs; an idle one takes the oldest captured ring that names it and
reads its header, whose uncorrectable line ends the program, with its interrupt (R365). -/
def shuntProgramStart (ch : Nat) (d : Dev) : Dev :=
  let c := chan d ch
  if shuntUp d then
    match c.ph with
    | .turn =>
      if d.shunt.turns.head? = some ch then setChan d ch { c with ph := if c.prog.isNone then .move else .run } else d
    | .idle =>
      match d.shunt.rings.find? (fun r => decide (r.channel = ch) && !arbHeld d) with
      | none => d
      | some r =>
        let line := storeBase r.ring.core + 64 * r.ring.line
        whenUp d line (fun d =>
          let d1 := { d with shunt := { d.shunt with rings := d.shunt.rings.erase r } }
          match firstBadLine d line 40 with
          | some l =>
            chanIrq (workLess (recordEvent (shuntErrOf (readErr d1 l) 2 ch 2 (ringConsist r.ring) r.ring.port l) (ringConsist r.ring) 7 l) r.ring) ch
          | none =>
            let s := slotAt d line
            let w := fun k => BitVec.ofNat 40 (s (4 + k))
            startChan d1 ch { src := .kernel r.ring r.noWagon { w0 := w 0, w1 := w 1, w2 := w 2, w3 := w 3 }, port := r.ring.port,
                              consist := r.ring.consist, prog := some (s 1 / 64 * 64), sbase := s 2, dbase := s 3 })
    | _ => d
  else d

/-- SHUNT_PROGRAM_START. -/
def execShuntProgramStart (ch : Fin 16) (s : State) : Host.Outcome State Fault Refusal := onDev s (shuntProgramStart ch.val)

/-! ## Reach and failure -/

/-- The first address of [a, a+n) outside the reach of a channel's program (R351). -/
def chanOut (d : Dev) (c : ShChan) (host : Bool) (a n : Nat) : Option Nat :=
  if n = 0 then none
  else match c.src with
    | .kernel _ _ _ => if host then some a else shuntOut d c.port true a n
    | _ => if host then hostOut d c.port a n else shuntOut d c.port (decide (c.port = 0)) a n

/-- Host reads of a channel. -/
def chanReads (ch : Nat) (o : Owner) : Bool := match o with | .shunt k _ _ => decide (k = ch) | _ => false

/-- A program's first failure (R366): SHUNT_ERR records it, the channel reads no more and writes none but the pieces that satisfy a test, and a kernel
program's Consist records its event. -/
def chanFailKeep (keep : ShPiece → Bool) (d0 : Dev) (ch reason status a : Nat) : Dev :=
  let c := chan d0 ch
  let gone : ShPiece → Bool := fun p => decide (p.ch = ch) && !keep p
  let d := dropReqs (dropReads d0 (chanReads ch)) (fun o => match o with | .prog k | .piece k _ => decide (k = ch) | _ => false)
  let d1 := { d with shunt := { d.shunt with
    reading := d.shunt.reading.filter (fun p => decide (p.ch ≠ ch)), staged := d.shunt.staged.filter (fun p => !gone p) } }
  if c.failed.isSome then d1
  else
    let cs := match c.src with | .kernel r _ _ => ringConsist r | _ => 0
    let d2 := setChan (shuntErrOf d1 reason ch (srcCode c.src) cs c.port a) ch { c with ph := .ended, failed := some (status, a) }
    match c.src with
    | .kernel r _ _ => recordEvent d2 (ringConsist r) status a
    | _ => d2

/-- A failure of a read or of a program line, after which the channel writes no more than the piece whose writes have begun (R366). -/
def chanFail (d0 : Dev) (ch reason status a : Nat) : Dev := chanFailKeep (fun p => p.out.isSome) d0 ch reason status a

/-- A failure of a write, after which the channel writes nothing more (R96, R366). -/
def writeFail (d0 : Dev) (ch reason status a : Nat) : Dev := chanFailKeep (fun _ => false) d0 ch reason status a

/-- The Consist whose own requests a program makes (R166, R351). -/
def chanConsist (c : ShChan) : Option Nat := match c.src with | .kernel r _ _ => r.consist | _ => none

/-- A read of host memory of the program's command has failed, and its outcome waits for the others (R52, R366). -/
def chanFailing (d : Dev) (c : ShChan) : Bool :=
  match c.src with
  | .dma id | .move id => c.failed.isNone && decide (c.ph ≠ .idle) && d.ring.cmds.any (fun k => decide (k.id = id ∧ k.bad ≠ []))
  | .kernel _ _ _ => false

/-! ## Program lines -/

/-- Word Ij of the line that a channel is at. -/
def iw (c : ShChan) (j : Nat) : Nat := ((mget [] c.kept c.pc)[j]?).getD 0

/-- The line that the channel is at has been read. -/
def hasLine (c : ShChan) : Bool := !(mget [] c.kept c.pc).isEmpty

/-- The channel is at an instruction of an opcode and executes it now. -/
def atOp (d : Dev) (ch op : Nat) : Bool :=
  let c := chan d ch
  shuntUp d && decide (c.ph = .run) && !chanFailing d c && c.skip.isNone && hasLine c && decide (iw c 0 % 256 = op)

/-- The channel goes on to a line after counting an execution of the present one. -/
def nextLine (c : ShChan) (pc : Nat) : ShChan := { c with ph := .run, pc := pc, execs := mmod 0 c.execs c.pc (· + 1) }

/-- The skip of a LOOP of count 0 over the lines that are kept: past its matching ENDLOOP, to an END, or to a line still to be read (R348). -/
def skipOn : Nat → ShChan → ShChan
  | 0, c => c
  | f + 1, c =>
    match c.skip with
    | none => c
    | some n =>
      if 64 ≤ c.pc then { c with ph := .ended, skip := none }
      else if !hasLine c then c
      else match iw c 0 % 256 with
        | 1 | 4 | 5 => skipOn f { c with pc := c.pc + 1 }
        | 2 => skipOn f { c with pc := c.pc + 1, skip := some (n + 1) }
        | 3 => if n = 0 then { c with pc := c.pc + 1, skip := none } else skipOn f { c with pc := c.pc + 1, skip := some (n - 1) }
        | _ => { c with ph := .ended, skip := none }

/-- PROGRAM_LINE_ARRIVAL (R326, R343, R348, R351): the line that the channel has reached for the first time is read as requester 50, and kept once
it has come. -/
def programLineArrival (ch : Nat) (d : Dev) : Dev :=
  let c := chan d ch
  match c.prog with
  | none => d
  | some p =>
    if shuntUp d ∧ c.ph = .run ∧ !chanFailing d c ∧ c.pc < 64 ∧ !hasLine c then
      let a := p + 64 * c.pc
      match issuedOr d (.prog ch) (chanOut d c false a 64) with
      | some x => chanFail d ch 1 4 x
      | none => whenUp d a (fun d =>
          match fetchLines d (.prog ch) 50 c.port (chanConsist c) [(a, 64)] with
          | .wait d1 => d1
          | .bad d1 l => chanFail d1 ch 2 7 l
          | .got d1 bs =>
            setChan d1 ch (skipOn 65 { c with kept := mset [] c.kept c.pc ((List.range 8).map (fun j => leAt bs (8 * j) 8)) }))
    else d

/-- PROGRAM_LINE_ARRIVAL. -/
def execProgramLineArrival (ch : Fin 16) (s : State) : Host.Outcome State Fault Refusal := onDev s (programLineArrival ch.val)

/-! ## Control instructions -/

/-- LOOP (R347, R348): a nonzero count is pushed with the line after it; a count of 0 skips the body; with the stack full it is no operation. -/
def shLoopRow (ch : Nat) (d : Dev) : Dev :=
  if atOp d ch 2 then
    let c := chan d ch
    let n := iw c 1 % 2 ^ 40
    let c1 := nextLine c (c.pc + 1)
    if 4 ≤ c.loops.length then setChan d ch c1
    else if n = 0 then setChan d ch (skipOn 65 { c1 with skip := some 0 })
    else setChan d ch { c1 with loops := (n, c.pc + 1) :: c.loops }
  else d

/-- LOOP. -/
def execShLoop (ch : Fin 16) (s : State) : Host.Outcome State Fault Refusal := onDev s (shLoopRow ch.val)

/-- ENDLOOP (R348): the top count goes down; above 0 the saved line follows, at 0 the entry is popped. -/
def shEndloopRow (ch : Nat) (d : Dev) : Dev :=
  if atOp d ch 3 then
    let c := chan d ch
    match c.loops with
    | [] => setChan d ch (nextLine c (c.pc + 1))
    | (n, l) :: ls =>
      if n - 1 = 0 then setChan d ch { nextLine c (c.pc + 1) with loops := ls }
      else setChan d ch { nextLine c l with loops := (n - 1, l) :: ls }
  else d

/-- ENDLOOP. -/
def execShEndloop (ch : Fin 16) (s : State) : Host.Outcome State Fault Refusal := onDev s (shEndloopRow ch.val)

/-- Every write of a MOVE has completed: its pieces are read and written, and writes to host memory have been sent (R349, R365). -/
def moveDone (d : Dev) (ch : Nat) (m : ShMove) : Bool :=
  decide (pieceCount m ≤ m.next ∧ pieceCount m ≤ m.written) && !d.link.txq.any (fun p => decide (p.chan = some (ch, m.num)))

/-- Writes of a channel to host memory wait to be sent (R349). -/
def hostWritesWait (d : Dev) (ch : Nat) : Bool := d.link.txq.any (fun p => match p.chan with | some k => decide (k.1 = ch) | none => false)

/-- Every write that a channel has issued has completed at its target (R349, R364): of all its MOVEs, or of the pieces that a failure left it. -/
def writesDone (d : Dev) (ch : Nat) : Bool :=
  let c := chan d ch
  !hostWritesWait d ch &&
    (if c.failed.isSome then !d.shunt.staged.any (fun p => decide (p.ch = ch)) else c.moves.all (moveDone d ch))

/-- A gate of SHUNT_GATE. -/
def gateSet (d : Dev) (g : Nat) : Bool := decide (fld d .shuntGate 0 g g = 1)

/-- A lower channel waits at the same gate and takes it first (R349). -/
def gateTaken (d : Dev) (ch g : Nat) : Bool :=
  (List.range ch).any (fun k => let c := chan d k
    match c.ph with | .wait 2 _ => decide (bitsOf (iw c 0) 15 12 = g) | _ => false)

/-- A WAIT moves on through its three holds as far as it can (R349). -/
def waitOn (d : Dev) (ch : Nat) : Dev :=
  let c := chan d ch
  let i0 := iw c 0
  let g := bitsOf i0 15 12
  let delay (d : Dev) : Dev :=
    let due := d.cc + iw c 1 % 2 ^ 40
    if due ≤ d.cc then setChan d ch (nextLine c (c.pc + 1)) else setChan d ch { c with ph := .wait 3 due }
  let gate (d : Dev) : Dev :=
    if bitOf i0 8 = 0 then delay d
    else if gateSet d g ∧ !gateTaken d ch g then delay (setFld d .shuntGate 0 g g 0)
    else setChan d ch { c with ph := .wait 2 0 }
  match c.ph with
  | .wait 1 _ => if writesDone d ch then gate d else d
  | .wait 2 _ => gate d
  | .wait _ due => if due ≤ d.cc then setChan d ch (nextLine c (c.pc + 1)) else d
  | _ => d

/-- WAIT (R349): the channel is held, first for its earlier writes. -/
def shWaitRow (ch : Nat) (d : Dev) : Dev :=
  if atOp d ch 4 then waitOn (setChan d ch { chan d ch with ph := .wait 1 0 }) ch else d

/-- WAIT. -/
def execShWait (ch : Fin 16) (s : State) : Host.Outcome State Fault Refusal := onDev s (shWaitRow ch.val)

/-- WAIT_RESUME (R349): what a WAIT waits for has come. -/
def waitResume (ch : Nat) (d : Dev) : Dev := if shuntUp d ∧ !chanFailing d (chan d ch) then waitOn d ch else d

/-- WAIT_RESUME. -/
def execWaitResume (ch : Fin 16) (s : State) : Host.Outcome State Fault Refusal := onDev s (waitResume ch.val)

/-- The Wagon that the present execution of a SIGNAL offers (R350). -/
def signalWagon (c : ShChan) : Wagon :=
  let e := mget 0 c.execs c.pc
  let w := fun j => BitVec.ofNat 40 (iw c j)
  { w0 := w 1, w1 := BitVec.ofNat 40 (iw c 2 + e * iw c 5), w2 := BitVec.ofNat 40 (iw c 3 + e * iw c 6), w3 := w 4 }

/-- SIGNAL (R350): once earlier writes have completed its Wagon is offered, and the gate follows its acceptance; a program that runs for no Consist
offers none and sets its gate at once. -/
def shSignalRow (ch : Nat) (d : Dev) : Dev :=
  let c := chan d ch
  if (atOp d ch 5 || (shuntUp d && decide (c.ph = .signal false) && !chanFailing d c)) then
    if writesDone d ch then
      match c.consist with
      | some k =>
        let c1 := { c with ph := .signal true, execs := mmod 0 c.execs c.pc (· + 1) }
        bump (offerDone (setChan d ch c1) (.shunt ch) (signalWagon c) k) .shuntCnt 3
      | none =>
        let g := bitsOf (iw c 0) 15 12
        let d1 := if bitOf (iw c 0) 8 = 1 then setFld d .shuntGate 0 g g 1 else d
        setChan d1 ch (nextLine c (c.pc + 1))
    else setChan d ch { c with ph := .signal false }
  else d

/-- SIGNAL. -/
def execShSignal (ch : Fin 16) (s : State) : Host.Outcome State Fault Refusal := onDev s (shSignalRow ch.val)

/-- END (R343, R344, R364): END, an undefined opcode and line 64 end the program. -/
def shEndRow (ch : Nat) (d : Dev) : Dev :=
  let c := chan d ch
  let op := iw c 0 % 256
  if shuntUp d ∧ c.ph = .run ∧ !chanFailing d c ∧ c.skip.isNone ∧ (64 ≤ c.pc ∨ (hasLine c ∧ (op = 0 ∨ 5 < op))) then setChan d ch { c with ph := .ended } else d

/-- END. -/
def execShEnd (ch : Fin 16) (s : State) : Host.Outcome State Fault Refusal := onDev s (shEndRow ch.val)

/-! ## MOVE -/

/-- The execution of the MOVE that a channel is at (R345, R346). -/
def parseMove (c : ShChan) : ShMove :=
  let i0 := iw c 0
  let e := mget 0 c.execs c.pc
  let x := bitsOf i0 11 8
  let srel := decide (bitOf i0 12 = 1)
  let drel := decide (bitOf i0 13 = 1)
  { num := c.nextMove, xform := if 5 < x then 0 else x,
    srcHost := if srel then c.sbaseHost else decide (bitOf i0 14 = 1), dstHost := if drel then c.dbaseHost else decide (bitOf i0 15 = 1),
    signed := decide (bitOf i0 16 = 1), nulls := decide (bitOf i0 17 = 1), irq := decide (bitOf i0 18 = 1),
    width := min 40 (bitsOf i0 29 24), esize := bitsOf i0 32 30, k := bitsOf i0 37 34 + 1,
    swap := match bitsOf i0 39 38 with | 3 => 0 | n => n,
    src := ((if srel then c.sbase + iw c 1 else iw c 1) + e * iw c 4) % 2 ^ 64,
    dst := ((if drel then c.dbase + iw c 2 else iw c 2) + e * iw c 5) % 2 ^ 64,
    count := iw c 3 % 2 ^ 40, bstride := bitsOf (iw c 6) 39 6 * 64, cstride := iw c 7 % 2 ^ 40 }

/-- MOVE (R345 to R347): a count of 0 accesses nothing and ends at once; any other starts its pieces. -/
def shMoveRow (ch : Nat) (d : Dev) : Dev :=
  if atOp d ch 1 then
    let c := chan d ch
    let m := parseMove c
    if m.count = 0 then (if m.irq then chanIrq (setChan d ch (nextLine c (c.pc + 1))) ch else setChan d ch (nextLine c (c.pc + 1)))
    else setChan d ch { c with ph := .move, moves := c.moves ++ [m], nextMove := c.nextMove + 1 }
  else d

/-- MOVE. -/
def execShMove (ch : Fin 16) (s : State) : Host.Outcome State Fault Refusal := onDev s (shMoveRow ch.val)

/-! ## The read engine -/

/-- Yard buffers in use as staging. -/
def stageUsed (d : Dev) : List Nat :=
  (d.shunt.reading.map (fun p => p.bufs)).flatten ++ (d.shunt.staged.map (fun p => p.bufs)).flatten

/-- Free staging buffers, lowest first. -/
def stageFree (d : Dev) : List Nat :=
  ((List.range d.shunt.stage.2).map (fun i => d.shunt.stage.1 + i)).filter (fun b => !(stageUsed d).contains b)

/-- Pieces of a channel in staging. -/
def chanPieces (d : Dev) (ch : Nat) : List ShPiece := (d.shunt.reading ++ d.shunt.staged).filter (fun p => decide (p.ch = ch))

/-- The MOVE whose pieces a channel reads. -/
def readingMove (c : ShChan) : Option ShMove := c.moves.reverse.head?.filter (fun m => decide (m.next < pieceCount m))

/-- The first address of a piece's ranges outside the program's reach. -/
def rangesOut (d : Dev) (c : ShChan) (host : Bool) (rs : List (Nat × Nat)) : Option Nat := rs.findSome? (fun r => chanOut d c host r.1 r.2)

/-- A channel's next piece finds too few free buffers (R360, R369). -/
def stageWaits (d : Dev) (ch : Nat) : Bool :=
  match (chan d ch).ph, readingMove (chan d ch) with
  | .move, some m => decide ((stageFree d).length < pieceBuffers m m.next)
  | _, _ => false

/-- The read engine may serve a channel now (R360, R361): it has a piece to read, fewer than two in staging, and room; a COPY that has come to the edge
of its reach waits until what it read before is written (R96, R366). -/
def canRead (d : Dev) (ch : Nat) : Bool :=
  let c := chan d ch
  match c.ph, readingMove c with
  | .move, some m =>
    let ps := chanPieces d ch
    !chanFailing d c && decide (ps.length < 2) && decide (pieceBuffers m m.next ≤ (stageFree d).length) &&
      !(decide (m.xform = 0) && (rangesOut d c m.srcHost (pieceRanges m m.next)).isSome && !ps.isEmpty)
  | _, _ => false

/-- The next channel in rotation after the one served last (R361). -/
def nextReader (d : Dev) : Option Nat := ((List.range 16).map (fun i => (d.shunt.last + 1 + i) % 16)).find? (canRead d)

/-- Writes a piece's bytes into its staging buffers; the line of a bad unit of which a part would be written is answered (R325). -/
def stageBytes : Dev → List Nat → List Byte → Dev × Option Nat
  | d, [], _ => (d, none)
  | d, b :: bs, data =>
    match devWrite d (yardBase + 4096 * b) (data.take 4096) with
    | (d1, some l) => (d1, some l)
    | (d1, none) => stageBytes d1 bs (data.drop 4096)

/-- The part of each staging buffer that holds a piece's bytes. -/
def stageSpans : List Nat → Nat → List (Nat × Nat)
  | [], _ => []
  | b :: bs, n => (yardBase + 4096 * b, min n 4096) :: stageSpans bs (n - 4096)

/-- The bytes of a piece as its staging buffers hold them. -/
def stagedBytes (d : Dev) (p : ShPiece) : List Byte := ((stageSpans p.bufs p.size).map (fun e => memRead d e.1 e.2)).flatten

/-- The first uncorrectable line of a piece in staging (R325). -/
def stagedBad (d : Dev) (p : ShPiece) : Option Nat := (stageSpans p.bufs p.size).findSome? (fun e => firstBadLine d e.1 e.2)

/-- A piece has finished staging: its bytes are counted as read and stand in its buffers (R360, R361, R369). -/
def pieceIn (d : Dev) (p : ShPiece) (data : List Byte) : Dev :=
  let d1 := bumpN d .shuntCnt 0 p.size
  match stageBytes { d1 with shunt := { d1.shunt with reading := d1.shunt.reading.erase p, staged := d1.shunt.staged ++ [p] } } p.bufs data with
  | (d2, some l) => chanFail d2 p.ch 2 7 l
  | (d2, none) => d2

/-- Offset, in a piece, of its ranges' bytes: the reads of host memory of a piece, in order. -/
def askRanges : Dev → Nat → Nat → Nat → Nat → List (Nat × Nat) → Dev
  | d, _, _, _, _, [] => d
  | d, ch, port, pc, off, r :: rs => askRanges (hostRead d port r.1 r.2 (.shunt ch pc off)) ch port pc (off + r.2) rs

/-- Number by which the host reads of a piece name it. -/
def pieceId (mv idx : Nat) : Nat := mv * 2 ^ 48 + idx

/-- The channel after its MOVE's next piece has been taken up: past the last one it goes on to the next line, and a COPY command move ends (R341,
R363). -/
def pieceTaken (c : ShChan) (m : ShMove) : ShChan :=
  let m1 := { m with next := m.next + 1 }
  let c1 := { c with moves := c.moves.map (fun x => if x.num = m.num then m1 else x) }
  if m1.next < pieceCount m then c1 else if c.prog.isNone then { c1 with ph := .ended } else nextLine c1 (c.pc + 1)

/-- SHUNT_PIECE_READ (R326, R360 to R363, R366): the read engine serves the next channel that has a piece and room, and reads it into staging; lines
of GDDR6 come once their slices have served them. -/
def shuntPieceRead (d : Dev) : Dev :=
  if shuntUp d then
    match nextReader d with
    | none => d
    | some ch =>
      let c := chan d ch
      match readingMove c with
      | none => d
      | some m =>
        let rs := pieceRanges m m.next
        let p : ShPiece := { ch := ch, mv := m.num, idx := m.next, size := pieceSize m m.next, bufs := (stageFree d).take (pieceBuffers m m.next) }
        let d0 := { d with shunt := { d.shunt with last := ch } }
        match rangesOut d c m.srcHost rs with
        | some x => chanFail d0 ch 1 4 x
        | none =>
          let d1 := setChan d0 ch (pieceTaken c m)
          let reads (d : Dev) : Dev := { d with shunt := { d.shunt with reading := d.shunt.reading ++ [p] } }
          if m.srcHost ∧ rs ≠ [] then askRanges (reads d1) ch c.port (pieceId m.num m.next) 0 rs
          else if rs.all (fun r => allOn d (needDoms d r.1) && memUp d r.1) then
            match fetchLines d1 (.piece ch (pieceId m.num m.next)) 50 c.port (chanConsist c) rs with
            | .wait d2 => reads d2
            | .bad d2 l => chanFail d2 ch 2 7 l
            | .got d2 bs => pieceIn d2 p bs
          else rs.foldl (fun d r => wakeAll d (needDoms d r.1)) d
  else d

/-- SHUNT_PIECE_READ. -/
def execShuntPieceRead (s : State) : Host.Outcome State Fault Refusal := onUnitTx s shuntPieceRead

/-- Host reads of one piece. -/
def pieceReads (p : ShPiece) (o : Owner) : Bool := match o with | .shunt k i _ => decide (k = p.ch ∧ i = pieceId p.mv p.idx) | _ => false

/-- Offset of a piece's bytes that a read brings. -/
def readOff (o : Owner) : Nat := match o with | .shunt _ _ off => off | _ => 0

/-- A piece in host memory all of whose reads have returned has finished staging (R360, R361). -/
def shuntArrived (d : Dev) (ch i : Nat) : Dev :=
  match d.shunt.reading.find? (fun p => decide (p.ch = ch ∧ pieceId p.mv p.idx = i)) with
  | none => d
  | some p =>
    let rs := readsOf d (pieceReads p)
    if rs.all (fun r => decide (r.st = .done)) then
      let data := (List.range p.size).map (fun k =>
        match rs.find? (fun r => decide (readOff r.owner ≤ k ∧ k < readOff r.owner + r.len)) with
        | some r => (r.got[k - readOff r.owner]?).getD 0
        | none => 0)
      pieceIn (dropReads d (pieceReads p)) p data
    else d

/-- The source of a piece lies in host memory wholly below an address. -/
def pieceBelow (d : Dev) (a : Nat) (p : ShPiece) : Bool :=
  (chan d p.ch).moves.any (fun m => decide (m.num = p.mv) && m.srcHost && (pieceRanges m p.idx).all (fun r => decide (r.1 + r.2 ≤ a)))

/-- Every read of host memory of a program has ended, and one has failed: the failed one with the lowest address decides, and of what has been read only
what lies below it is still written, and what has begun to be (R52, R366). -/
def chanReadFailed (d : Dev) (ch status a : Nat) : Dev :=
  chanFailKeep (fun p => p.out.isSome || pieceBelow d a p) d ch (if status = 0x0D then 3 else 1) status a

/-- Pieces whose lines of GDDR6 have all been served finish staging; an uncorrectable line fails its program (R361, R366). -/
def piecesIn (d : Dev) : Dev :=
  d.shunt.reading.foldl (fun d p =>
    let c := chan d p.ch
    match c.moves.find? (fun m => decide (m.num = p.mv)) with
    | some m =>
      if m.srcHost ∨ !d.shunt.reading.contains p then d
      else match fetchLines d (.piece p.ch (pieceId p.mv p.idx)) 50 c.port (chanConsist c) (pieceRanges m p.idx) with
        | .wait d1 => d1
        | .bad d1 l => chanFail d1 p.ch 2 7 l
        | .got d1 bs => pieceIn d1 p bs
    | none => d) d

/-! ## The write engine -/

/-- A piece's writes may be made: its channel has no earlier piece left, and no earlier write to host memory that one to the device would overtake
(R363); a failed read's outcome is not awaited (R52). -/
def mayWritePiece (d : Dev) (p : ShPiece) : Bool :=
  let c := chan d p.ch
  (chanPieces d p.ch).all (fun q => decide (pieceId p.mv p.idx ≤ pieceId q.mv q.idx)) && !chanFailing d c &&
    (c.moves.any (fun m => decide (m.num = p.mv) && m.dstHost) || !hostWritesWait d p.ch)

/-- The piece that the write engine takes: the first staged one that it may write (R361). -/
def nextWrite (d : Dev) : Option ShPiece := d.shunt.staged.find? (mayWritePiece d)

/-- Bytes written by a channel: SHUNT_CH_BYTES, SHUNT_CNT and the extent of R138 count them. -/
def countBytes (d : Dev) (ch a n : Nat) (host : Bool) : Dev :=
  let c := chan d ch
  let c1 := { c with bytes := c.bytes + n, high := if !host ∧ 0 < n ∧ c.dbase < a + n then max c.high (a + n) else c.high }
  wr (bumpN (setChan d ch c1) .shuntCnt 1 n) .shuntChBytes ch (BitVec.ofNat 40 c1.bytes)

/-- Writes of device memory cut at the lines of GDDR6, whose slices accept them one by one (R328). -/
def cutWrites (ws : List (Nat × List Byte)) : List (Nat × List Byte) :=
  ws.flatMap (fun w => if w.1 < 0x1000000000 then lineParts (w.2.length / 64 + 2) w.1 w.2 else [w])

/-- Makes the writes of a piece in order: those that remain once one finds no room in its slice; none where one leaves the reach, which writes what lies
before the edge and fails the program (R96, R328, R351, R366). -/
def doWrites (mv : Nat) : List (Nat × List Byte) → Dev → Nat → Bool → Dev × Option (List (Nat × List Byte))
  | [], d, _, _ => (d, some [])
  | (a, bs) :: ws, d, ch, host =>
    if !host && !roomFor d a bs.length then (d, some ((a, bs) :: ws))
    else
      let c := chan d ch
      let out := chanOut d c host a bs.length
      let put := match out with | some x => bs.take (x - a) | none => bs
      let r := if put = [] then (d, none) else if host then (hostWriteOf d (ch, mv) c.port (a % 2 ^ 64) put, none) else devWriteFor (chanConsist c) d a put
      let d2 := countBytes r.1 ch a put.length host
      match r.2, out with
      | some l, _ => (writeFail d2 ch 2 7 l, none)
      | none, some x => (writeFail d2 ch 1 4 x, none)
      | none, none => doWrites mv ws d2 ch host

/-- The device with a MOVE of a channel replaced. -/
def putMove (d : Dev) (ch : Nat) (m : ShMove) : Dev :=
  let c := chan d ch
  setChan d ch { c with moves := c.moves.map (fun x => if x.num = m.num then m else x) }

/-- The piece that is next is transformed, and its writes begin (R354 to R359). -/
def pieceBegin (d : Dev) (p : ShPiece) (m : ShMove) : Dev × ShPiece × ShMove :=
  let r := pieceWrites m (freeVal d) p.idx (stagedBytes d p)
  let d1 := (stageSpans p.bufs p.size).foldl (fun d e => yardTouch d e.1 e.2) d
  (if m.xform = 3 ∧ m.width = 0 then tookFree d1 else d1, { p with out := some (if m.dstHost then r.1 else cutWrites r.1) }, r.2)

/-- The write engine goes on with a piece whose writes have begun, until they are made, or one finds no room: then the engine waits with it. A piece
whose writes have been made leaves its buffers free (R328, R360, R361). -/
def pieceOn (d : Dev) (p : ShPiece) (m : ShMove) : Dev :=
  match doWrites m.num (p.out.getD []) d p.ch m.dstHost with
  | (d1, none) => d1
  | (d1, some []) => putMove { d1 with shunt := { d1.shunt with staged := d1.shunt.staged.erase p } } p.ch { m with written := m.written + 1 }
  | (d1, some ws) => { d1 with shunt := { d1.shunt with staged := { p with out := some ws } :: d1.shunt.staged.erase p } }

/-- SHUNT_PIECE_STAGED (R325, R328, R339, R354 to R363, R366): the staged piece that is next is transformed, once its targets are reached, and written as
far as their slices have room. -/
def shuntPieceStaged (d0 : Dev) : Dev :=
  if shuntUp d0 then
    let d := piecesIn d0
    match nextWrite d with
    | none => d
    | some p =>
      match (chan d p.ch).moves.find? (fun m => decide (m.num = p.mv)) with
      | none => d
      | some m =>
        match (if p.out.isSome then none else stagedBad d p) with
        | some l => chanFail (readErr ((stageSpans p.bufs p.size).foldl (fun d e => yardTouch d e.1 e.2) d) l) p.ch 2 7 l
        | none =>
          let b := if p.out.isSome then (d, p, m) else pieceBegin d p m
          let ws := b.2.1.out.getD []
          if m.dstHost || ws.all (fun w => allOn d (needDoms d w.1) && memUp d w.1) then
            pieceOn (putMove { b.1 with shunt := { b.1.shunt with staged := b.2.1 :: b.1.shunt.staged.erase p } } p.ch b.2.2) b.2.1 b.2.2
          else ws.foldl (fun d w => wakeAll d (needDoms d w.1)) d
  else d0

/-- SHUNT_PIECE_STAGED. -/
def execShuntPieceStaged (s : State) : Host.Outcome State Fault Refusal := onUnitTx s shuntPieceStaged

/-- MOVE_COUNT_END (R365): the last write of the oldest MOVE has completed, in a program that has failed since too; its interrupt follows where IRQ is
1. -/
def moveCountEnd (ch : Nat) (d : Dev) : Dev :=
  let c := chan d ch
  match c.moves with
  | m :: ms =>
    if shuntUp d ∧ moveDone d ch m ∧ c.prog.isSome then
      let d1 := setChan d ch { c with moves := ms }
      if m.irq then chanIrq d1 ch else d1
    else d
  | [] => d

/-- MOVE_COUNT_END. -/
def execMoveCountEnd (ch : Fin 16) (s : State) : Host.Outcome State Fault Refusal := onDev s (moveCountEnd ch.val)

/-! ## Completion and arbitration -/

/-- A command move's data is written: a READ_BACK or WRITE_DOWN completes, an INGEST goes on to its walk, in the order in which INGESTs finish moving
data (R138, R364, R492). -/
def moveEnds (d : Dev) (id : Nat) (c : ShChan) : Dev :=
  match cmdOf d id with
  | some k =>
    if k.opcode = 0x20 then
      let extent := if c.prog.isNone then c.bytes else c.high - c.dbase
      modCmd { d with shunt := { d.shunt with moved := d.shunt.moved + 1 } } id
        (fun k => { k with pos := extent, aux := [1, (k.aux[1]?).getD 0, d.shunt.moved] })
    else finish d id 0 (c.bytes % 2 ^ 40)
  | none => d

/-- SHUNT_PROGRAM_COMPLETE (R364 to R366): an ended program whose writes have completed completes its command, or writes WRITTEN and DONE and offers
its Wagon; a failed one gives its status; the channel's interrupt is raised in every case. -/
def shuntProgramComplete (ch : Nat) (d : Dev) : Dev :=
  let c := chan d ch
  if shuntUp d ∧ c.ph = .ended ∧ writesDone d ch ∧ !chanFailing d c then
    let d0 := bump (chanIrq d ch) .shuntCnt 2
    match c.src, c.failed with
    | .dma id, some f => finish (freeChan d0 ch) id f.1 f.2
    | .move id, some f => finish (freeChan d0 ch) id f.1 f.2
    | .kernel r _ _, some _ => workLess (freeChan d0 ch) r
    | .dma id, none => finish (freeChan d0 ch) id 0 (c.bytes % 2 ^ 40)
    | .move id, none => moveEnds (freeChan d0 ch) id c
    | .kernel r noWagon w, none =>
      let line := storeBase r.core + 64 * r.line
      if allOn d (needDoms d line) then
        let d1 := unitWrite d0 r.consist (line + 55) (toLE 5 c.bytes)
        let d2 := workLess (unitWrite d1 r.consist (line + 50) (toLE 5 1)) r
        if noWagon then freeChan d2 ch else offerDone (setChan d2 ch { c with ph := .wagon }) (.shunt ch) w (ringConsist r)
      else wakeAll d (needDoms d line)
  else d

/-- SHUNT_PROGRAM_COMPLETE. -/
def execShuntProgramComplete (ch : Fin 16) (s : State) : Host.Outcome State Fault Refusal := onDev s (shuntProgramComplete ch.val)

/-- SHUNT_ARB_SWITCH (R23, R362): the mode of SHUNT_CTRL.ARB takes effect while every channel is idle. -/
def shuntArbSwitch (d : Dev) : Dev :=
  if shuntUp d ∧ allIdle d then setFld d .shuntStatus 0 39 39 (fld d .shuntCtrl 0 16 16) else d

/-- SHUNT_ARB_SWITCH. -/
def execShuntArbSwitch (s : State) : Host.Outcome State Fault Refusal := onDev s shuntArbSwitch

end Sys2Proof.Machine
end

