-- ==== Sys2Proof/Machine/IngestRows.lean ====
section
/-!
DEFINITION. Tables and epochs (R134 to R143, R488, R492): INGEST with its walk and seed, SNAPSHOT, RETIRE_EPOCH with its walk; and the carving and
way masks of a Consist's start (R150 to R152, R169, R283).
-/

namespace Sys2Proof.Machine

/-! ## The table directory -/

/-- Entry t of the table directory (R135). -/
def dirAt (d : Dev) (t : Nat) : Nat := fld d .ringCtxBase 0 39 21 * 2 ^ 21 + 0x200000 + 32 * t

/-- Word Dj of an entry of the table directory. -/
def dirWord (d : Dev) (t j : Nat) : Nat := memNat d (dirAt d t + 8 * j) 8

/-- The device with word Dj of a directory entry written. -/
def setDir (d : Dev) (t j v : Nat) : Dev := (devWrite d (dirAt d t + 8 * j) (toLE 8 (v % 2 ^ 64))).1

/-- FIRST and VALID of a directory word D0, with RETIRING kept (R135). -/
def dirD0 (old first : Nat) (valid : Bool) : Nat := bitOf old 41 * 2 ^ 41 + b2n valid * 2 ^ 40 + first % 2 ^ 40

/-- RETIRING of a table, on chip and in its directory entry (R488). -/
def setRetiring (d : Dev) (t : Nat) (on : Bool) : Dev :=
  let w := dirWord d t 0
  let w1 := if on then (if bitOf w 41 = 1 then w else w + 2 ^ 41) else (if bitOf w 41 = 1 then w - 2 ^ 41 else w)
  let d1 := setDir d t 0 w1
  { d1 with ring := { d1.ring with retiring := if on then sins d1.ring.retiring t else sdel d1.ring.retiring t } }

/-- Word at offset o of a frame's head (R123). -/
def headWord (d : Dev) (a o : Nat) : Nat := memNat d (a + o) 8

/-- The device with a head word written. -/
def setHead (d : Dev) (a o v : Nat) : Dev := (devWrite d (a + o) (toLE 8 (v % 2 ^ 64))).1

/-- The status and RESULT that end a command whose access of directory bytes [a, a+n) meets unmapped GDDR6 or an uncorrectable line, whichever comes
first (R17, R140, R143). -/
def dirFault (d : Dev) (a n : Nat) : Option (Nat × Nat) :=
  let out := gddrOut d 0 a n
  match firstBadLine d a (match out with | some x => x - a | none => n), out with
  | some l, _ => some (7, l)
  | none, some x => some (4, x)
  | none, none => none

/-- The command has been checked (R89): it has started, or ended at its check; HALT ends a command before its check, ABORTED (R92). -/
def wasChecked (c : Cmd) : Bool := match c.st with | .fetched => false | .done 8 _ => false | _ => true

/-- INGESTs of tables that satisfy a test which have been checked and whose completion is not written; TABLE 0xFFFF names no table (R137, R141). -/
def openIngests (d : Dev) (p : Nat → Bool) : List Nat :=
  (d.ring.cmds.filter (fun c => decide (c.opcode = 0x20 ∧ pf c 5 15 0 ≠ 0xFFFF) && wasChecked c && p (pf c 5 15 0))).map (fun c => c.id)

/-- Every INGEST of a list of fetch numbers has completed: its completion is written (R89, R91, R141). -/
def ingestsDone (d : Dev) (ids : List Nat) : Bool := !d.ring.cmds.any (fun c => ids.contains c.id)

/-! ## INGEST -/

/-- The RUN_CONSIST that an INGEST seeds: the earliest-fetched of its port that matches SQ and CID, has passed its check and not completed (R87, R99). -/
def seedTarget (d : Dev) (c : Cmd) : Option Cmd :=
  d.ring.cmds.find? (fun e => decide (e.opcode = 0x12 ∧ e.port = c.port ∧ e.sq = pf c 7 47 39 ∧ e.cid = pf c 7 63 48 ∧ (consistOf d e.id).isSome))

/-- What an INGEST remembers of the RUN_CONSIST that it seeds: its fetch number and the id of its Consist; 0 for no seed. -/
def seedKey (d : Dev) (r : Cmd) : Nat := 1024 * r.id + (consistOf d r.id).getD 0 + 1

/-- INGEST (R137, R138, R95): refused while its table is retiring or without the RUN_CONSIST it names; then its data is moved by a channel, and with
nothing to move it goes on to its walk. -/
def ingest (id : Nat) (d : Dev) : Dev :=
  checked 0x20 id (fun c d =>
    let t := pf c 5 15 0
    let run := seedTarget d c
    if t ≠ 0xFFFF ∧ d.ring.retiring.contains t then finish d id 2 5
    else if sat4096 (pf c 7 12 0) ≠ 0 ∧ run.isNone then finish d id 2 7
    else
      let target := if sat4096 (pf c 7 12 0) = 0 then 0 else match run with | some r => seedKey d r | none => 0
      if pw c 6 = 0 ∧ pf c 3 39 0 = 0 then
        modCmd { d with shunt := { d.shunt with moved := d.shunt.moved + 1 } } id (fun k => { k with aux := [1, target, d.shunt.moved] })
      else modCmd { d with shunt := { d.shunt with cmds := d.shunt.cmds ++ [id] } } id (fun k => { k with aux := [0, target] })) d

/-- INGEST. -/
def execIngest (id : Nat) (s : State) : Host.Outcome State Fault Refusal := onDevTx s (ingest id)

/-- How a walk of frame heads goes on or ends. -/
inductive WalkEnd where
  /-- It ended in order: first and last frame remembered, 0 for none. -/
  | ok (first last : Nat)
  /-- It met a failure: status and RESULT. -/
  | failed (status result : Nat)
  /-- The slices have no room for its access at a head (R328, R329). -/
  | held (a first last : Nat)
  deriving DecidableEq, Repr

/-- The walk of R139 over the output: frames are stamped with EPOCH and TABLE and linked to each other; each head is read in the looking class (R488).
DESIGN CHOICE: a head that lies in unmapped GDDR6, where R140 lists no failure, reads as zero and so ends the walk in order
(log entry 130). -/
def ingestFrames (epoch t stop : Nat) : Nat → Dev → Nat → Nat → Nat → Dev × WalkEnd
  | 0, d, _, first, last => (d, .ok first last)
  | f + 1, d0, a, first, last =>
    if stop < a + 64 then (d0, .ok first last)
    else if !(lookRoom d0 a && roomOf d0 a 5 && roomOf d0 last 5) then (d0, .held a first last)
    else
    let d := lookLines looker d0 a 64
    match firstBadLine d a 64 with
      | some l => (readErr d l, .failed 7 l)
      | none =>
        let n := bitsOf (headWord d a 48) 39 16
        if n = 0 ∨ n % 64 ≠ 0 ∨ stop < a + n then (d, .ok first last)
        else
          let z2 := headWord d a 16
          let flags := if bitOf z2 53 = 1 then z2 - 2 ^ 53 else z2
          let d1 := setHead d a 16 (flags / 2 ^ 40 * 2 ^ 40 + epoch)
          let d2 := setHead d1 a 24 (headWord d a 24 / 2 ^ 40 * 2 ^ 40)
          let d3 := setHead (setHead d2 a 56 t) a 32 0
          if first = 0 then ingestFrames epoch t stop f d3 (a + n) a a
          else ingestFrames epoch t stop f (setHead d3 last 32 a) (a + n) first a

/-- Links the frames of an INGEST to its table's chain and raises HIGH_EPOCH; an unmapped directory or old last frame changes nothing (R17, R139, R140). -/
def linkChain (d0 : Dev) (t epoch first last : Nat) : Dev × Option (Nat × Nat) :=
  let d := lookLines looker d0 (dirAt d0 t) 32
  match dirFault d (dirAt d t) 32 with
  | some f => (d, some f)
  | none =>
    let w0 := dirWord d t 0
    let valid := decide (bitOf w0 40 = 1)
    let old := dirWord d t 1 % 2 ^ 40
    let high (d : Dev) : Dev := setDir d t 2 (max (dirWord d t 2 % 2 ^ 40) epoch)
    if first = 0 then (high d, none)
    else if valid ∧ regionOf d (old + 32) ≠ .gddr then (d, some (4, (old + 32) % 2 ^ 40))
    else
      let d1 := if valid then setHead d old 32 first else setDir d t 0 (dirD0 w0 first true)
      (high (setDir d1 t 1 last), none)

/-- The seed Wagon of an INGEST (R76): W1 FIRST_ROW, W2 DST, and the CID as its tag. -/
def seedWagon (c : Cmd) : Wagon :=
  { w0 := BitVec.ofNat 40 (pf c 7 38 33 * 2 ^ 34 + pf c 7 32 17 * 2 ^ 18 + sat4096 (pf c 7 12 0)), w1 := BitVec.ofNat 40 (pf c 5 63 24),
    w2 := BitVec.ofNat 40 (pf c 2 39 0), w3 := BitVec.ofNat 40 c.cid }

/-- Places the seed of an INGEST and lets it complete (R139, R154, R170): offered to a running Consist; held by a starting one, when the INGEST
completes; discarded and counted where the Consist has ended. -/
def placeSeed (d : Dev) (c : Cmd) : Dev :=
  match (c.aux[1]?).getD 0 with
  | 0 => finish d c.id 0 (c.pos % 2 ^ 40)
  | r + 1 =>
    match consistOf d (r / 1024) with
    | none => finish (recordDiscard d 1 (r % 1024) (wStage (seedWagon c))) c.id 0 (c.pos % 2 ^ 40)
    | some k =>
      let w := wSetConsist (seedWagon c) k
      let d1 := modConsist d k (fun x => { x with gotSeeds := x.gotSeeds + 1 })
      let x := consist d k
      if x.ph = .starting ∧ !x.seedsOut ∧ x.event = 0 then
        finish (modConsist d1 k (fun x => { x with held := x.held ++ [(c.id, w)] })) c.id 0 (c.pos % 2 ^ 40)
      else offer (modCmd d1 c.id (fun c => { c with aux := [2] })) { prod := .ingest c.id, w := w }

/-- The slices have room for what the linking of frames to a table's chain reads and writes (R328, R329). -/
def linkRoom (d : Dev) (t : Nat) : Bool :=
  lookRoom d (dirAt d t) && roomOf d (dirAt d t) 4 && roomOf d (dirWord d t 1 % 2 ^ 40) 4

/-- The end of an INGEST's walk (R139, R140): its frames are linked, and its seed is placed. -/
def ingestLink (d : Dev) (c : Cmd) (first last : Nat) : Dev :=
  if linkRoom d (pf c 5 15 0) then
    let k := linkChain d (pf c 5 15 0) (pf c 4 39 0) first last
    match k.2 with
    | some f => finish k.1 c.id f.1 f.2
    | none => placeSeed k.1 c
  else modCmd d c.id (fun k => { k with walk := .link first last })

/-- An INGEST's walk from the head at `a` on, as far as the slices have room (R139, R328). -/
def ingestHeads (d : Dev) (c : Cmd) (a first last : Nat) : Dev :=
  match ingestFrames (pf c 4 39 0) (pf c 5 15 0) (pf c 2 39 0 + c.pos) (c.pos / 64 + 1) d a first last with
  | (d1, .failed st x) => finish d1 c.id st x
  | (d1, .held a first last) => modCmd d1 c.id (fun k => { k with walk := .head a first last })
  | (d1, .ok first last) => ingestLink d1 c first last

/-- INGEST_WALK (R137, R139, R140, R328, R492): an INGEST that has moved its data, in its table's order, walks its output, links it, and places its
seed. -/
def ingestWalk (id : Nat) (d : Dev) : Dev :=
  match cmdOf d id with
  | none => d
  | some c =>
    let t := pf c 5 15 0
    let early : Cmd → Bool := fun e => decide (e.opcode = 0x20 ∧ e.st = .running ∧ e.id ≠ id ∧ pf e 5 15 0 = t ∧ e.aux[0]? = some 1 ∧
      (e.aux[2]?).getD 0 < (c.aux[2]?).getD 0)
    if running d ∧ c.opcode = 0x20 ∧ c.st = .running ∧ c.aux[0]? = some 1 ∧ !d.ring.cmds.any early then
      if t = 0xFFFF then placeSeed d c
      else whenUp d 0 (fun d =>
        match c.walk with
        | .head a first last => ingestHeads d c a first last
        | .link first last => ingestLink d c first last
        | _ => ingestHeads d c (pf c 2 39 0) 0 0)
    else d

/-- INGEST_WALK. -/
def execIngestWalk (id : Nat) (s : State) : Host.Outcome State Fault Refusal := onUnitTx s (ingestWalk id)

/-! ## SNAPSHOT -/

/-- SNAPSHOT (R141): past its check it waits for the INGESTs of its table that were checked before it. -/
def execSnapshot (id : Nat) (s : State) : Host.Outcome State Fault Refusal :=
  onDevTx s (checked 0x21 id (fun c d =>
    modCmd d id (fun k => { k with aux := openIngests d (fun t => decide (pf c 1 15 0 = 0xFFFF ∨ t = pf c 1 15 0)) })))

/-- Tables that a table number names: itself, or all (R135). -/
def tablesOf (t : Nat) : List Nat := if t = 0xFFFF then List.range 65535 else [t]

/-- SNAPSHOT_RESULT (R17, R84, R141, R488): once those INGESTs have completed, the largest HIGH_EPOCH; an uncorrectable directory line completes DATA_ECC,
and an unmapped one WINDOW_FAULT. -/
def snapshotResult (id : Nat) (d : Dev) : Dev :=
  match cmdOf d id with
  | none => d
  | some c =>
    if running d ∧ c.opcode = 0x21 ∧ c.st = .running ∧ ingestsDone d c.aux then
      whenUp d 0 (fun d =>
        let ts := tablesOf (pf c 1 15 0)
        let d := lookLines looker d (dirAt d (ts.headD 0)) (32 * ts.length)
        match dirFault d (dirAt d (ts.headD 0)) (32 * ts.length) with
        | some f => finish d id f.1 f.2
        | none => finish d id 0 (ts.foldl (fun a t => max a (dirWord d t 2 % 2 ^ 40)) 0))
    else d

/-- SNAPSHOT_RESULT. -/
def execSnapshotResult (id : Nat) (s : State) : Host.Outcome State Fault Refusal := onUnitTx s (snapshotResult id)

/-! ## RETIRE_EPOCH -/

/-- A running Consist has a SNAPSHOT at or after an epoch (R87). -/
def snapshotsFrom (d : Dev) (e : Nat) : Bool := d.consists.any (fun k => k.2.valid && decide (e ≤ k.2.snapshot))

/-- RETIRING of tables is set, each with its number in the command's list: on chip of all, in GDDR6 as far as the slices have room; with the number of the
first that waits (R328, R488). -/
def markTables : List Nat → Nat → Dev → Dev × Nat
  | [], i, d => (d, i)
  | t :: ts, i, d =>
    if roomOf d (dirAt d t) 1 then markTables ts (i + 1) (setRetiring d t true)
    else ({ d with ring := { d.ring with retiring := (t :: ts).foldl sins d.ring.retiring } }, i)

/-- RETIRE_EPOCH (R17, R87, R142, R488): refused while a retirement of the table is in progress or a running Consist reads a snapshot at or after EPOCH;
then RETIRING is set of its table, or of every VALID one, and it waits for their INGESTs checked before it. A directory that cannot be read or reached
ends it. -/
def retireEpoch (id : Nat) (d : Dev) : Dev :=
  checked 0x22 id (fun c d0 =>
    let t := pf c 1 15 0
    let busy := if t = 0xFFFF then !d0.ring.retiring.isEmpty else d0.ring.retiring.contains t
    if busy then finish d0 id 2 5
    else if snapshotsFrom d0 (pf c 2 39 0) then finish d0 id 2 6
    else
      let span := 32 * (tablesOf t).length
      let d := lookLines looker d0 (dirAt d0 (if t = 0xFFFF then 0 else t)) span
      let at_ := dirAt d (if t = 0xFFFF then 0 else t)
      match (if t = 0xFFFF then dirFault d at_ span else (gddrOut d 0 at_ span).map (fun x => (4, x))) with
      | some f => finish d id f.1 f.2
      | none =>
        let ts := if t = 0xFFFF then (List.range 65535).filter (fun t => decide (bitOf (dirWord d t 0) 40 = 1)) else [t]
        let m := markTables ts 0 d
        modCmd m.1 id (fun k => { k with
          aux := ts.length :: (ts ++ openIngests d (fun u => ts.contains u)), walk := if m.2 = ts.length then .start else .bits m.2 })) d

/-- RETIRE_EPOCH. -/
def execRetireEpoch (id : Nat) (s : State) : Host.Outcome State Fault Refusal := onUnitTx s (retireEpoch id)

/-- The chain's link that leads to a frame: FIRST of the directory, or NEXT of the frame before that stays. -/
def relink (d : Dev) (t prev next : Nat) : Dev :=
  if prev = 0 then setDir d t 0 (dirD0 (dirWord d t 0) next (decide (next ≠ 0))) else setHead d prev 32 next

/-- One frame of the walk of R142 along a table's chain, at `a` behind `prev` that stays: one at or before EPOCH is marked and unlinked; at the chain's
end LAST is written; a failure leaves those marked as they are (R143). None while the slices have no room (R328, R329). DESIGN CHOICE: a chain that
loops ends after as many frames as memory can hold, with LAST as it was (log entry 30); a FIRST or NEXT that names anything but GDDR6, the Yard
among them, ends the walk WINDOW_FAULT as one into unmapped GDDR6 does (log entry 130). -/
def retireFrame (d0 : Dev) (epoch t i a prev left : Nat) : Option (Dev × Walk) :=
  let before := if prev = 0 then dirAt d0 t else prev
  if left = 0 then some (d0, .table (i + 1))
  else if a = 0 then (if roomOf d0 (dirAt d0 t) 1 then some (setDir d0 t 1 prev, .table (i + 1)) else none)
  else if regionOf d0 a ≠ .gddr then some (d0, .clear 0 4 a)
  else if !(lookRoom d0 a && roomOf d0 a 3 && roomOf d0 before 3) then none
  else
    let d := lookLines looker d0 a 64
    match firstBadLine d a 64 with
    | some l => some (readErr d l, .clear 0 7 l)
    | none =>
      let z2 := headWord d a 16
      let next := headWord d a 32 % 2 ^ 40
      if z2 % 2 ^ 40 ≤ epoch ∧ bitOf z2 53 = 0 then
        let d1 := setHead d a 16 (z2 + 2 ^ 53)
        let d2 := setHead d1 a 24 (headWord d a 24 / 2 ^ 40 * 2 ^ 40 + epoch)
        some (relink d2 t prev next, .frame i next prev (left - 1))
      else some (d, .frame i next a (left - 1))

/-- The start of the walk of table number i: its directory entry is read; one without a chain is passed over (R142, R143). -/
def retireTable (d0 : Dev) (t i : Nat) : Option (Dev × Walk) :=
  if lookRoom d0 (dirAt d0 t) then
    let d := lookLines looker d0 (dirAt d0 t) 32
    match dirFault d (dirAt d t) 32 with
    | some f => some (d, .clear 0 f.1 f.2)
    | none =>
      let w0 := dirWord d t 0
      some (d, if bitOf w0 40 = 0 then .table (i + 1) else .frame i (w0 % 2 ^ 40) 0 (usable d / 64 + 1))
  else none

/-- One access of a RETIRE_EPOCH over its tables, in the order of R142: none where it has ended or the slices have no room. RETIRE_MARK is raised once
all walks have ended in order, and of no table otherwise (R143). -/
def retireStep (epoch : Nat) (ts : List Nat) (d : Dev) : Walk → Option (Dev × Walk)
  | .bits i =>
    match ts[i]? with
    | some t => if roomOf d (dirAt d t) 1 then some (setRetiring d t true, .bits (i + 1)) else none
    | none => none
  | .table i => match ts[i]? with | some t => retireTable d t i | none => some (d, .mark 0)
  | .frame i a prev left => retireFrame d epoch ((ts[i]?).getD 0) i a prev left
  | .mark i =>
    match ts[i]? with
    | some t => if roomOf d (dirAt d t) 1 then some (setDir d t 3 (max (dirWord d t 3 % 2 ^ 40) epoch), .mark (i + 1)) else none
    | none => some (d, .clear 0 0 0)
  | .clear i st x =>
    match ts[i]? with
    | some t => if roomOf d (dirAt d t) 1 then some (setRetiring d t false, .clear (i + 1) st x) else none
    | none => none
  | _ => none

/-- At most k of those accesses. -/
def retireGo (epoch : Nat) (ts : List Nat) : Nat → Dev → Walk → Dev × Walk
  | 0, d, w => (d, w)
  | k + 1, d, w => match retireStep epoch ts d w with | some x => retireGo epoch ts k x.1 x.2 | none => (d, w)

/-- Accesses that a RETIRE_EPOCH over n tables makes at most. -/
def retireLimit (d : Dev) (n : Nat) : Nat := (usable d / 64 + 8) * (n + 1)

/-- RETIRE_WALK (R142, R143, R328, R488): what is left of setting RETIRING; once the earlier INGESTs have completed, the chains are walked, RETIRE_MARK is
raised of every table where all walks ended in order and of none otherwise, RETIRING is cleared, and the command completes. -/
def retireWalk (id : Nat) (d : Dev) : Dev :=
  match cmdOf d id with
  | none => d
  | some c =>
    let n := c.aux.headD 0
    let ts := (c.aux.drop 1).take n
    if running d ∧ c.opcode = 0x22 ∧ c.st = .running then
      whenUp d 0 (fun d =>
        let go := retireGo (pf c 2 39 0) ts (retireLimit d n)
        let r0 := match c.walk with | .start => (d, .bits n) | w => go d w
        let r := if r0.2 = .bits n ∧ ingestsDone d (c.aux.drop (1 + n)) then go r0.1 (.table 0) else r0
        match r.2 with
        | .clear i st x => if n ≤ i then finish r.1 id st x else modCmd r.1 id (fun k => { k with walk := r.2 })
        | w => modCmd r.1 id (fun k => { k with walk := w }))
    else d

/-- RETIRE_WALK. -/
def execRetireWalk (id : Nat) (s : State) : Host.Outcome State Fault Refusal := onUnitTx s (retireWalk id)

/-! ## The claims of a start -/

/-- Carries out one claim of a start: a JUNCTION claim with CARVE carves its table, a WAYS claim writes its mask (R150 to R152, R283). -/
def startClaim (d : Dev) (k : Nat × Nat) : Dev :=
  match k.1 % 256 with
  | 1 =>
    if bitOf k.2 35 = 1 then
      carveTable d (bitsOf k.1 23 8) (bitsOf k.2 15 0) (bitsOf k.2 32 16) (decide (bitOf k.2 33 = 1)) (decide (bitOf k.2 34 = 1))
    else d
  | 2 => if bitsOf k.1 15 8 ≤ 50 then wr d .cacheWays (bitsOf k.1 15 8) (BitVec.ofNat 40 (bitsOf k.2 15 0)) else d
  | _ => d

/-- A claim that carves. -/
def carves (k : Nat × Nat) : Bool := decide (k.1 % 256 = 1) && decide (bitOf k.2 35 = 1)

/-- CONSIST_DOMAINS_READY (R152, R163, R169 step 4, R283, R489): with every domain of the Consist ready, its carves take their place behind the programs
that the queue has accepted; once none of those of a table to carve is unfinished, the claims are carried out in list order. -/
def consistDomainsReady (c : Nat) (d : Dev) : Dev :=
  let k := consist d c
  if running d ∧ k.valid ∧ k.ph = .starting ∧ !k.carved then
    if allOn d (consistDoms d k.domains) then
      match imageFault d (imageOf k) k.claimOff (16 * k.claimCount) with
      | some e => modConsist (imageEvent d c e) c (fun k => { k with carved := true })
      | none =>
        let cl := (List.range k.claimCount).map (claimAt d (imageOf k) k.claimOff)
        if cl.any carves && !domOn d 12 then wakeDom d 12
        else
          let place := match k.carving with
            | some x => x
            | none => (d.junc.nextNum, (cl.filter carves).map (fun x => bitsOf x.1 23 8 % 1024))
          if place.2.any (tableBusy d place.1) then modConsist d c (fun k => { k with carving := some place })
          else modConsist (cl.foldl startClaim d) c (fun k => { k with carved := true })
    else d
  else d

/-- CONSIST_DOMAINS_READY. -/
def execConsistDomainsReady (c : ConsistIx) (s : State) : Host.Outcome State Fault Refusal := onDev s (consistDomainsReady c.val)

end Sys2Proof.Machine
end

