-- ==== Sys2Proof/Machine/RegWay.lean ====
section
/-!
DEFINITION. The way of a register write (R9, R21, R425, R483 to R487): who may write, which blocks answer, and the wait for a domain. What a
write does stands with the unit that it acts on.
-/

namespace Sys2Proof.Machine

/-- Debug access is enabled: lifecycle BLANK, or DEBUG set (R460). -/
def dbgOpen (d : Dev) : Bool := decide (fld d .chipLifecycle 0 1 0 = 0) || decide (fld d .chipLifecycle 0 4 4 = 1)

/-- An offset beyond the last unit instance of its block: it belongs to no domain, and an access of it is answered at once in every power state
(R21). -/
def beyondUnits (off : Nat) : Bool := (regDomain off).isNone && decide (regBlock off ≠ 0 ∧ regBlock off ≠ 15)

/-- The register path serves an offset now: in Running every block, in Standing CHIP and AOPWR, and always what lies beyond a block's units (R21,
R487). -/
def pathUp (d : Dev) (off : Nat) : Bool :=
  running d || beyondUnits off || (decide (d.pwr.mode = .standing) && (decide (regBlock off = 0) || decide (regBlock off = 15)))

/-- A requester that may write registers at all (R483). -/
def mayWrite (d : Dev) (who : Requester) : Bool :=
  match who with
  | .port0 | .sbox => true
  | .dbg => dbgOpen d
  | .core _ => false

/-- The Signal Box, or DBG_ACCESS with its rights (R483). -/
def isSbox (who : Requester) : Bool := match who with | .sbox | .dbg => true | _ => false

/-- A write at a register offset: it has its effect f where the path and the domain are open; it wakes a domain that it may wake and waits;
otherwise it is dropped (R425, R486). -/
def viaPath (d : Dev) (who : Requester) (off : Nat) (f : Dev → Dev) : Dev :=
  if mayWrite d who && pathUp d off then
    match regWay d off with
    | .open_ => f d
    | .waits k => wakeDom d k
    | .shut => d
  else d

end Sys2Proof.Machine
end

