-- ==== Sys2Proof/Machine/McRows.lean ====
section
/-!
DEFINITION. The rows of the GDDR6 controllers (R374 to R391): slots and frames, returns and retries, refresh and row disturbance, training,
configuration, self-refresh and rate changes.
-/

namespace Sys2Proof.Machine

/-! ## Frames -/

/-- The reservations that a channel serves from a frame boundary on (R166). -/
def heldSlots (d : Dev) (ch : Nat) : List (Nat × List Byte) :=
  (d.consists.filter (fun e => e.2.valid && !e.2.frame.isEmpty)).map (fun e => (e.1, sliceB e.2.frame (32 * ch) 32))

/-- A channel at the start of a frame (R166, R379, R391). -/
def startFrame (d : Dev) (ch : Nat) : Dev :=
  setMc d ch { mcChan d ch with slot := 0, sched := decide (fld d .mcGlobal 0 23 23 = 1), frames := heldSlots d ch }

/-- Every channel that serves starts frame slot 0, together (R379). -/
def startFrames (d : Dev) : Dev := (channels d).foldl (fun d ch => if mcState d ch = 2 then startFrame d ch else d) d

/-! ## Self-refresh and rate changes -/

/-- A channel serves requests: TRAFFIC_EN, the memory keys, STATE 2, the device Running (R387, R389, R421). -/
def mcServes (d : Dev) (ch : Nat) : Bool :=
  running d && decide (fld d .mcGlobal 0 24 24 = 1) && memKeys d && decide (mcState d ch = 2) && !excluded d ch

/-- Every channel in use is in a state. -/
def allState (d : Dev) (s : Nat) : Bool := (channels d).all (fun ch => decide (mcState d ch = s))

/-- The controllers run at another data rate, which RATE_NOW shows where it shows one (R389, R447). -/
def setRate (d : Dev) (r : Nat) : Dev :=
  let d1 := { d with pwr := { d.pwr with rateNow := r } }
  if fld d .pwrStatus 0 23 19 = 0 then d1 else setFld d1 .pwrStatus 0 23 19 r

/-- A lane register of a channel as training finds it: free (R387). -/
def foundLane (d : Dev) (i : Nat) : Word := (Config.laneValue i d.fresh).setWidth 40

/-- The MC_LANE values saved for a rate (R387 step 9). -/
def savedLanes (d : Dev) (rate : Nat) : SMap (Option Word) := mget [] d.nv.lanes rate

/-- Firmware saves a lane value with its rate in the training and configuration region (R387 step 9). -/
def keepLane (d : Dev) (rate i : Nat) (v : Word) : Dev :=
  { d with nv := { d.nv with lanes := mset [] d.nv.lanes rate (mset none (savedLanes d rate) i (some v)) } }

/-- A lane register takes a value, which is saved with the rate in force (R389 step 5). -/
def saveLane (d : Dev) (i : Nat) (v : Word) : Dev := keepLane (wr d .mcLane i v) d.pwr.rateNow i v

/-- The saved MC_LANE values of a channel for the rate in force are loaded (R389 step 2). -/
def loadLanes (d : Dev) (ch : Nat) : Dev :=
  (List.range 31).foldl (fun d j => match mget none (savedLanes d d.pwr.rateNow) (ch * 31 + j) with | some v => wr d .mcLane (ch * 31 + j) v | none => d) d

/-- A sweep of a channel's data lanes, from instance 0 to 19, finds new values, which are saved (R389 step 5). -/
def sweepLanes (d : Dev) (ch : Nat) : Dev :=
  tookFree ((List.range 20).foldl (fun d j => saveLane d (ch * 31 + j) (foundLane d (ch * 31 + j))) d)

/-- Leaves self-refresh: STATE 2 with frame slot 0, or STATE 4 where the rate has changed since entry (R379, R389). The rate that RATE and the
profile ask for holds from then on, unless a channel still runs at the old one. -/
def leaveSelfRef (d : Dev) (ch : Nat) : Dev :=
  let d1 := if (channels d).any (fun c => decide (mcState d c = 2)) then d else setRate d (mcRate d)
  if (mcChan d ch).rateIn = d1.pwr.rateNow then startFrames (setMcState d1 ch 2) else setMcState d1 ch 4

/-- A helper operation of the governor starts on every channel in use, with the ITER that the governor writes, or as it stands (R389 step 4). -/
def governorOp (d : Dev) (op : Nat) (iter : Option Nat) : Dev :=
  (channels d).foldl (fun d ch =>
    let d1 := match iter with | some n => setFld d .mcTrainCtrl ch 31 16 n | none => d
    setMc d1 ch { mcChan d1 ch with
      train := some { op := op, iter := max 1 (fld d1 .mcTrainCtrl ch 31 16), pat := max 1 (rd d1 .mcTrainPat ch).toNat } }) d

/-- No channel in use runs a helper operation. -/
def trained (d : Dev) : Bool := (channels d).all (fun ch => (mcChan d ch).train.isNone)

/-- SELF_REF of every controller in use is written. -/
def setSelfRef (d : Dev) (v : Nat) : Dev := (channels d).foldl (fun d ch => setFld d .mcCtrl (ch / 2) 2 2 v) d

/-- The channels on which an operation of this change set a FAIL bit are swept (R389 step 5). -/
def sweepFailed (d : Dev) : Dev :=
  (channels d).foldl (fun d ch => if (mcChan d ch).opFail then sweepLanes (setMc d ch { mcChan d ch with opFail := false }) ch else d) d

/-- The next move of a change of data rate by the Signal Box governor, where it is due (R389): self-refresh on every controller in use, the new
rate with its lanes, OP 3, OP 4 and OP 5, a sweep of a channel that failed, and RATE_DONE. -/
def governRate (d : Dev) : Dev :=
  let step (d : Dev) (k : Nat) : Dev := { d with pwr := { d.pwr with rateStep := k } }
  if !running d || !domOn d 1 then d
  else match d.pwr.rateStep with
    | 0 =>
      if fld d .mcGlobal 0 24 24 = 1 ∧ mcRate d ≠ d.pwr.rateNow ∧ allState d 2 then
        step ((channels d).foldl (fun d ch => setMc d ch { mcChan d ch with srWait := true }) (setSelfRef d 1)) 1
      else d
    | 1 =>
      if allState d 3 then
        let d1 := (channels d).foldl leaveSelfRef (setSelfRef (setRate d (mcRate d)) 0)
        if allState d1 4 then step (governorOp ((channels d1).foldl loadLanes d1) 3 none) 2 else step d1 0
      else d
    | 2 => if trained d then step (governorOp d 4 (some 4096)) 3 else d
    | 3 => if trained d then step (governorOp d 5 (some 4096)) 4 else d
    | _ =>
      if trained d then
        step (startFrames ((channels d).foldl (fun d ch => if mcState d ch = 4 then setMcState d ch 2 else d) (sweepFailed d))) 0
      else d

/-- A channel that waits to enter self-refresh enters it once its queues are empty: its changed check halves are written to both copies, an
all-bank refresh closes every row, and STATE is 3 (R376, R380, R389). -/
def trySelfRef (d : Dev) (ch : Nat) : Dev :=
  let v := mcChan d ch
  if v.srWait ∧ mcState d ch = 2 ∧ v.q = [] ∧ v.out = [] ∧ v.wout = [] then
    governRate (setMcState (setMc d ch { flushHalves d v with srWait := false, rows := [], rateIn := d.pwr.rateNow }) ch 3)
  else d

/-- Every channel that can enter self-refresh enters it. -/
def enterSelfRef (d : Dev) : Dev := (channels d).foldl trySelfRef d

/-! ## Slots -/

/-- An earlier request to the same line holds a request back: one that waits, a read-modify-write under way, and for a write any read of the
line that has not returned (R330, R378, R380). -/
def lineHeld (v : McChan) (i : Nat) (r : McReq) : Bool :=
  (v.q.take i).any (fun x => decide (x.line = r.line)) || v.out.any (fun x => (x.write || r.write) && decide (x.line = r.line))

/-- A write in place i of the queues stands in the write queue, which takes 32; the slice still holds those beyond (R380). -/
def inQueue (v : McChan) (i : Nat) (r : McReq) : Bool :=
  !r.write || decide (((v.q.take i).filter (fun x => x.write)).length + (v.out.filter (fun x => x.write)).length < 32)

/-- Positions in the queue of the requests that may be served and satisfy a test, oldest first. -/
def readyAt (v : McChan) (p : McReq → Bool) : List Nat :=
  idxWhere v.q.length (fun i => match v.q[i]? with | some r => p r && !lineHeld v i r && inQueue v i r | none => false)

/-- Slots 0 to 255 of the frame go out, the odd ones not in CAP15 nor while the governor halves the issue (R24, R381, R431). -/
def slotOpen (d : Dev) (k : Nat) : Bool :=
  !decide (k % 2 = 1 ∧ (2 ≤ fld d .pwrStatus 0 39 38 ∨ d.pwr.slotHalf = true))

/-- The Consist whose reservation holds a slot (R165, R166). -/
def slotHolder (v : McChan) (k : Nat) : Option Nat :=
  (v.frames.find? (fun f => decide (bitOf (leAt f.2 (k / 8) 1) (k % 8) = 1))).map Prod.fst

/-- The read that a bank gives to a slot: one to its open row where there is one and fewer than 4 in a row have passed older requests, else its
oldest (R380). -/
def bankPick (d : Dev) (v : McChan) (bank : Nat) : Option (Nat × Bool) :=
  let is := readyAt v (fun r => !r.write && decide (mcBank d r.line = bank))
  let hit := is.find? (fun i => match v.q[i]?, openRow v bank with | some r, some w => decide (mcRow d r.line = w) | _, _ => false)
  match is, hit with
  | [], _ => none
  | i :: _, some j => if j = i then some (i, false) else if mget 0 v.passed bank < 4 then some (j, true) else some (i, false)
  | i :: _, none => some (i, false)

/-- The first bank at or after the pointer that has a read for the slot, with that read (R380). -/
def turnBank (d : Dev) (v : McChan) : Option (Nat × Nat × Bool) :=
  ((List.range 16).map (fun k => (v.ptr + k) % 16)).findSome? (fun b => (bankPick d v b).map (fun x => (b, x)))

/-- A request is issued: its row is open, its burst is on the way, and the counters count it (R378, R382, R391). -/
def issueReq (d0 : Dev) (ch i : Nat) : Dev :=
  match (mcChan d0 ch).q[i]? with
  | none => d0
  | some r =>
    let d := useRow d0 ch r.line
    let v := mcChan d ch
    let v1 := { v with q := v.q.eraseIdx i }
    let edc := decide (fld d .mcCtrl (ch / 2) 7 7 = 1)
    if r.write ∧ !r.part then
      bump (setMc d ch { useCheck d ch v1 r.line true with wout := if edc then v1.wout ++ [r] else v1.wout }) .mcCnt (ch * 10 + 1)
    else
      let d1 := bump (setMc d ch { useCheck d ch v1 r.line false with out := v1.out ++ [r] }) .mcCnt (ch * 10)
      if r.write then bump d1 .mcCnt (ch * 10 + 9) else d1

/-- A change of direction takes this slot and leaves it idle: 2 idle slots from read to write, 4 from write to read (R380). -/
def turnTo (d : Dev) (ch : Nat) (write : Bool) : Dev :=
  setMc d ch { mcChan d ch with drain := write, turn := if write then 1 else 3 }

/-- An unreserved slot: the direction that is served, its changes with their idle slots, the oldest write or the bank pointer's read (R380). -/
def freeSlot (d : Dev) (ch : Nat) : Dev :=
  let v := mcChan d ch
  let ws := readyAt v (fun r => r.write)
  let nw := writesHeld v
  match v.drain, turnBank d v, ws with
  | false, some (b, i, by_), _ =>
    if 24 ≤ nw then turnTo d ch true
    else
      let d1 := issueReq d ch i
      let v1 := mcChan d1 ch
      setMc d1 ch { v1 with ptr := (b + 1) % 16, passed := mset 0 v1.passed b (if by_ then mget 0 v1.passed b + 1 else 0) }
  | false, none, _ :: _ => turnTo d ch true
  | true, some _, i :: _ => if nw ≤ 8 then turnTo d ch false else issueReq d ch i
  | true, some _, [] => turnTo d ch false
  | true, none, i :: _ => issueReq d ch i
  | _, none, [] => d

/-- A reserved slot: the oldest ready request of its holder, after a change of direction where its burst needs one; without one the slot stays
idle (R380, R381). -/
def reservedSlot (d : Dev) (ch c : Nat) : Dev :=
  let v := mcChan d ch
  match readyAt v (fun r => decide (r.consist = some c)) with
  | i :: _ =>
    let w := ((v.q[i]?).map (fun r => r.write)).getD false
    if w = v.drain then issueReq d ch i else turnTo d ch w
  | [] => bump d .mcCnt (ch * 10 + 7)

/-- MC_SLOT_ISSUE (R378 to R381): the next slot of the channel's frame. A refresh that falls on a reserved slot takes it. -/
def mcSlotIssue (ch : Nat) (d : Dev) : Dev :=
  let v := mcChan d ch
  if mcServes d ch ∧ v.slot < 256 then
    let k := v.slot
    let d1 := setMc d ch { v with slot := k + 1, turn := v.turn - 1, refSlot := false }
    if !slotOpen d k ∨ 0 < v.turn then d1
    else
      match (if v.sched then slotHolder v k else none) with
      | some c => if v.refSlot then d1 else trySelfRef (reservedSlot d1 ch c) ch
      | none => trySelfRef (freeSlot d1 ch) ch
  else d

/-- MC_SLOT_ISSUE. -/
def execMcSlotIssue (ch : Fin 16) (s : State) : Host.Outcome State Fault Refusal := onDev s (mcSlotIssue ch.val)

/-- FRAME_BOUNDARY (R166, R379): a frame of 256 slots has ended. -/
def frameBoundary (ch : Nat) (d : Dev) : Dev :=
  if mcServes d ch ∧ 256 ≤ (mcChan d ch).slot then startFrame d ch else d

/-- FRAME_BOUNDARY. -/
def execFrameBoundary (ch : Fin 16) (s : State) : Host.Outcome State Fault Refusal := onDev s (frameBoundary ch.val)

/-! ## Returns -/

/-- A burst has failed its EDC CRC: the sixteenth failure in a row raises the device event (R385, R403). -/
def edcFailed (d : Dev) (ch : Nat) : Dev :=
  let v := mcChan d ch
  let d1 := setMc d ch { v with edcRun := v.edcRun + 1 }
  if v.edcRun + 1 = 16 then logBook (sboxEvent d1 5) 2 0x0042 [ch] else d1

/-- Bytes of a line that a waiting write covers: its requester's order has settled them (R330). -/
def writeCovers (v : McChan) (line k : Nat) : Bool :=
  v.q.any (fun r => r.write && decide (r.line = line) && (!r.part || r.undo.any (fun e => decide (e.1 = line + k))))

/-- Bytes of a line that a read delivers otherwise than GDDR6 should hold them, by offset: what inverted ciphertext bits make of its blocks once
they are deciphered, but for bytes that a waiting write covers (R377, R386). -/
def wrongBytes (d : Dev) (ch line : Nat) (bits : List Nat) : List (Nat × Byte) :=
  if bits = [] then []
  else
    let c := bits.foldl (fun (c : List Byte) b => c.set (b / 8) (c.getD (b / 8) 0 ^^^ BitVec.ofNat 8 (2 ^ (b % 8)))) (cipherLine d line)
    ((List.range 64).zip (xtsLine true d.keys.data d.keys.tweak (line / 64) c)).filter (fun e =>
      decide (e.2 ≠ rawByte d (line + e.1)) && !writeCovers (mcChan d ch) line e.1)

/-- A write request that covers a byte of its line. -/
def covers (line a : Nat) (x : McReq) : Bool :=
  x.write && decide (x.line = line) && (!x.part || x.undo.any (fun u => decide (u.1 = a)))

/-- The list with the first request that covers a byte replacing the byte that it is given. -/
def replaces (line : Nat) (e : Nat × Byte) (l : List McReq) : List McReq :=
  match l.findIdx? (covers line e.1) with
  | some i => l.modify i (fun x => { x with undo := x.undo.map (fun u => if u.1 = e.1 then e else u) })
  | none => l

/-- GDDR6 holds the given bytes of a line in place of those that the model has for it: where a later write of the line covers one, that write now
replaces it (R378). A present line, and a fill entry whose data has come back, keep theirs (R328, R330). -/
def holdBytes (d : Dev) (ch line : Nat) (bs : List (Nat × Byte)) : Dev :=
  bs.foldl (fun d e =>
    let v := mcChan d ch
    if v.out.any (covers line e.1) then setMc d ch { v with out := replaces line e v.out }
    else if v.q.any (covers line e.1) then setMc d ch { v with q := replaces line e v.q }
    else
      let cur := memByte d e.1
      let old := rawByte d e.1
      let d1 := modFill { d with mem := putBytes d.mem e.1 [e.2] } line (fun f =>
        if f.back ∧ !f.wrong.any (fun w => decide (line + w.1 = e.1)) then { f with wrong := f.wrong ++ [(e.1 - line, old)] } else f)
      if lineCached d e.1 then { d1 with cache := { d1.cache with stale := mset none d1.cache.stale e.1 (some cur) } } else d1) d

/-- The bytes that a dropped part write had replaced stand again (R378). -/
def undoWrite (d : Dev) (ch : Nat) (r : McReq) : Dev := holdBytes d ch r.line r.undo

/-- The device with the units of a line marked uncorrectable, as the controller last found it, or not. -/
def markLine (d : Dev) (line : Nat) (bad : Bool) : Dev :=
  let us := (List.range 4).map (fun k => line / 16 + k)
  { d with badUnits := if bad then us.foldl sins d.badUnits else d.badUnits.filter (fun u => !us.contains u) }

/-- The answer of a read past the cache to the oldest one that waits for the line. -/
def answerDirect (d : Dev) (line : Nat) (bad : Bool) (wrong : List (Nat × Byte)) : Dev :=
  match d.cache.reqs.findIdx? (fun g => decide (g.st = .direct ∧ g.line = line)) with
  | some i =>
    let g := (d.cache.reqs[i]?).getD {}
    let bs := ((List.range g.len).zip g.data).map (fun e => ((wrong.find? (fun w => decide (line + w.1 = g.addr + e.1))).map Prod.snd).getD e.2)
    putReq { d with cache := { d.cache with reqs := d.cache.reqs.eraseIdx i } }
      (if bad then { g with st := .failed } else { g with st := .served, data := bs })
  | none => d

/-- The oldest read burst goes to the slice, as data with the bits that are still wrong or as an error; the read of a read-modify-write makes its
write, or drops it (R330, R378, R385, R386). -/
def deliverRead (d0 : Dev) (ch : Nat) (r : McReq) (bad : Bool) (bits : List Nat) : Dev :=
  let d := markLine d0 r.line bad
  let v := mcChan d ch
  let d1 := setMc d ch { v with out := v.out.drop 1 }
  let wrong := if bad then [] else wrongBytes d1 ch r.line bits
  if r.write then
    if bad then undoWrite d1 ch r
    else
      let d2 := (wrong.filter (fun e => !r.undo.any (fun u => decide (u.1 = r.line + e.1)))).foldl
        (fun d e => { d with mem := putBytes d.mem (r.line + e.1) [e.2] }) d1
      let v2 := mcChan d2 ch
      setMc d2 ch { v2 with q := { r with part := false, tries := 0 } :: v2.q }
  else if r.fill then modFill d1 r.line (fun f => { f with back := true, bad := bad, wrong := wrong })
  else answerDirect d1 r.line bad wrong

/-- The line is uncorrectable: it is counted and recorded (R385, R386). -/
def readLost (d : Dev) (ch reason : Nat) (r : McReq) : Dev :=
  deliverRead (mcErrAt (bump d .mcCnt (ch * 10 + 5)) ch reason r.line) ch r true []

/-- A write to a line waits in its channel. -/
def writeWaits (v : McChan) (line : Nat) : Bool := v.q.any (fun r => r.write && decide (r.line = line)) || v.out.any (fun r => r.write && decide (r.line = line))

/-- A correction: counted, delivered, and written back as delivered unless a write to the line is waiting (R386). -/
def readFixed (d : Dev) (ch : Nat) (r : McReq) (bits : List Nat) : Dev :=
  let us := (List.range 4).map (fun k => r.line / 16 + k)
  let d1 := bump { d with softUnits := d.softUnits.filter (fun u => !us.contains u) } .mcCnt (ch * 10 + 4)
  let back := !r.write && !writeWaits (mcChan d ch) r.line
  let wrong := wrongBytes d1 ch r.line bits
  let d2 := deliverRead d1 ch r false bits
  if back then queueReq (holdBytes d2 ch r.line (wrong.map (fun e => (r.line + e.1, e.2)))) { line := r.line, write := true } else d2

/-- What a code finds in one half of a line (R375, R386). -/
inductive HalfCode where
  | clean | corrected | failed
  deriving DecidableEq, Repr

/-- The code over one half with n check bits in error: it corrects one bit and detects two. What it makes of three or more the spec leaves open,
and it is free: the last component gives the bits that are then still wrong. -/
def decodeHalf (free : Nat) (half : Nat) (bits : List Nat) (n : Nat) : HalfCode × List Nat :=
  match bits.length + n with
  | 0 => (.clean, [])
  | 1 => (.corrected, [])
  | 2 => (.failed, bits)
  | _ =>
    let p := 256 * half + free / 4 % 256
    match free % 4 with
    | 0 => (.clean, bits)
    | 1 => (.corrected, bits)
    | 2 => (.corrected, if bits.contains p then bits.erase p else p :: bits)
    | _ => (.failed, bits)

/-- What one copy of the check word gives (R386). -/
inductive EccOut where
  /-- No uncorrectable half, ACHK matches: whether a bit was corrected, and the bits still wrong. -/
  | good (fixed : Bool) (bits : List Nat)
  /-- A half is uncorrectable. -/
  | failed
  /-- The code finds nothing uncorrectable, and ACHK does not match. -/
  | achk
  deriving DecidableEq, Repr

/-- A line decoded with one copy of its check word: the copy as stored, the bits of it and of the ciphertext that have arrived inverted (R375,
R386). -/
def decodeCopy (free line : Nat) (word : BitVec 32) (bits : List Nat) : EccOut :=
  let w := word.toNat
  let lo := decodeHalf (free % 1024) 0 (bits.filter (fun b => decide (b < 256))) (popcN 10 (bitsOf w 9 0))
  let hi := decodeHalf (free / 1024 % 1024) 1 (bits.filter (fun b => decide (256 ≤ b))) (popcN 10 (bitsOf w 19 10))
  if lo.1 = .failed ∨ hi.1 = .failed then .failed
  else if bitsOf w 31 20 ≠ achk line % 4096 then .achk
  else .good (decide (lo.1 = .corrected ∨ hi.1 = .corrected)) (lo.2 ++ hi.2)

/-- A stored check word as the decoder takes it: its code bits stand as differences from the code of the line's bytes as GDDR6 holds them, ACHK as it is
stored. A line that a write of all of it is still to settle agrees with its word. -/
def arrivedWord (d : Dev) (v : McChan) (line : Nat) (stored flips : BitVec 32) : BitVec 32 :=
  let own := match heldLine d v line with | some bs => wordOf d line bs | none => stored
  ((stored ^^^ own ^^^ flips) &&& 0xFFFFF#32) ||| ((stored ^^^ flips) &&& 0xFFF00000#32)

/-- The decoding of a read's check word, and of its mirror (R386). -/
def eccDecode (d0 : Dev) (ch : Nat) (r : McReq) (e : ReadCheck) : Dev :=
  let v := mcChan d0 ch
  let held := (v.halves.find? (fun x => decide (x.num = halfOf d0 r.line))).getD (readHalf d0 ch (halfOf d0 r.line))
  let word := (held.words[mcCol d0 r.line % 8]?).getD 0
  let bits := (e.flips.map Fin.val).eraseDups
  let d := tookFree (tookFree d0)
  let free (k : Nat) : Nat := (Config.freeWord (d0.fresh + k)).toNat
  match decodeCopy (free 0) r.line (arrivedWord d0 v r.line word e.word) bits,
    decodeCopy (free 1) r.line (arrivedWord d0 v r.line (storedWord d0 v.mirrors r.line) e.mirror) bits with
  | .good false bs, _ => deliverRead d ch r false bs
  | .good true bs, _ => readFixed d ch r bs
  | _, .good false bs => deliverRead d ch r false bs
  | _, .good true bs => readFixed d ch r bs
  | .achk, .achk => readLost d ch 5 r
  | _, _ => readLost d ch 3 r

/-- The device with the first burst of a channel's reads on the way changed. -/
def retryRead (d : Dev) (ch : Nat) (r : McReq) : Dev :=
  let v := mcChan d ch
  bump (setMc d ch { v with out := { r with tries := r.tries + 1 } :: v.out.drop 1 }) .mcCnt (ch * 10 + 3)

/-- MC_READ_RETURN (R375, R382, R385, R386): the oldest read burst of a channel returns. -/
def mcReadReturn (ch : Nat) (e : ReadCheck) (d : Dev) : Dev :=
  match (mcChan d ch).out with
  | [] => d
  | r :: _ =>
    if mcServes d ch then
      let ecc := decide (fld d .mcGlobal 0 22 22 = 1)
      let failed := decide (fld d .mcCtrl (ch / 2) 7 7 = 1) && !e.edcOk
      let d1 := if failed then edcFailed d ch else setMc d ch { mcChan d ch with edcRun := 0 }
      if failed ∧ r.tries < fld d .mcCtrl (ch / 2) 11 8 then retryRead d1 ch r
      else if ecc then trySelfRef (eccDecode d1 ch r e) ch
      else if failed then trySelfRef (readLost d1 ch 1 r) ch
      else trySelfRef (deliverRead d1 ch r false (e.flips.map Fin.val).eraseDups) ch
    else d

/-- MC_READ_RETURN. -/
def execMcReadReturn (ch : Fin 16) (e : ReadCheck) (s : State) : Host.Outcome State Fault Refusal := onDev s (mcReadReturn ch.val e)

/-- The 64 bytes that a line holds after something the spec does not describe: free. -/
def freeLine (d : Dev) (k : Nat) : List Byte := ((List.range 8).map (fun i => toLE 8 (Config.freeWord (d.fresh + 8 * k + i)).toNat)).flatten

/-- RETURNED_WRITE_CRC (R385): the CRC of the oldest write burst returns; a failed burst is written again until its retries are exhausted, which
is recorded with reason 2 and leaves GDDR6 with what it took; the cache and later writes keep their bytes (R328). -/
def returnedWriteCrc (ch : Nat) (ok : Bool) (d : Dev) : Dev :=
  let v := mcChan d ch
  match v.wout with
  | [] => d
  | r :: rest =>
    if mcServes d ch then
      if ok then trySelfRef (setMc d ch { v with wout := rest, edcRun := 0 }) ch
      else
        let d1 := edcFailed d ch
        let v1 := mcChan d1 ch
        if r.tries < fld d .mcCtrl (ch / 2) 11 8 then
          bump (setMc d1 ch { v1 with wout := { r with tries := r.tries + 1 } :: rest }) .mcCnt (ch * 10 + 3)
        else
          let d2 := holdBytes (setMc d1 ch { v1 with wout := rest }) ch r.line ((List.range' r.line 64).zip (freeLine d1 0))
          trySelfRef (mcErrAt { d2 with fresh := d2.fresh + 8 } ch 2 r.line) ch
    else d

/-- RETURNED_WRITE_CRC. -/
def execReturnedWriteCrc (ch : Fin 16) (ok : Bool) (s : State) : Host.Outcome State Fault Refusal := onDev s (returnedWriteCrc ch.val ok)

/-! ## Refresh and row disturbance -/

/-- A channel that refreshes by itself: out of reset and of self-refresh. -/
def mcAwake (d : Dev) (ch : Nat) : Bool := running d && decide (mcState d ch ≠ 0 ∧ mcState d ch ≠ 3) && !excluded d ch

/-- Requests wait for a bank, or for any bank where its number is 16. -/
def bankBusy (d : Dev) (v : McChan) (b : Nat) : Bool := v.q.any (fun r => decide (b = 16 ∨ mcBank d r.line = b))

/-- A refresh of a bank closes its row, one of every bank closes all (R380). -/
def refreshBank (v : McChan) (b : Nat) : McChan := if b = 16 then { v with rows := [] } else closeRow v b

/-- REFRESH (R380, R381, R383): the interval has passed and the next bank, or every bank, is due. A refresh is postponed for up to 4 intervals while
its bank has requests waiting; those postponed are made up as soon as they can be. -/
def refreshRow (ch : Nat) (d : Dev) : Dev :=
  let v := mcChan d ch
  if mcAwake d ch then
    let all := decide (fld d .mcCtrl (ch / 2) 3 3 = 1)
    let due := v.owed.map (fun e => (e.1, e.2 + 1)) ++ [(if all then 16 else v.refBank, 0)]
    let go := due.filter (fun e => !bankBusy d v e.1 || decide (4 ≤ e.2))
    let v1 := go.foldl (fun v e => refreshBank v e.1) v
    setMc d ch { v1 with owed := due.filter (fun e => bankBusy d v e.1 && decide (e.2 < 4)), refSlot := v.refSlot || !go.isEmpty,
                         refBank := if all then v.refBank else (v.refBank + 1) % 16 }
  else d

/-- REFRESH. -/
def execRefresh (ch : Fin 16) (s : State) : Host.Outcome State Fault Refusal := onDev s (refreshRow ch.val)

/-- The neighbours that a row's threshold refreshes (R384). -/
def neighbours (d : Dev) (row : Nat) : List Nat :=
  let n := rowsPerBank d
  let near := (if 1 ≤ row then [row - 1] else []) ++ (if row + 1 < n then [row + 1] else [])
  let far := (if 2 ≤ row then [row - 2] else []) ++ (if row + 2 < n then [row + 2] else [])
  if fld d .mcGlobal 0 21 21 = 1 then near ++ far else near

/-- ROW_DISTURB_REFRESH (R384): a counter of the bank has reached the threshold; the neighbour rows are activated and precharged, and the counter
is zeroed. -/
def rowDisturbRefresh (ch bank : Nat) (d : Dev) : Dev :=
  let v := mcChan d ch
  match (mget [] v.counts bank).find? (fun e => decide (rdThresh d ≤ e.2)) with
  | some e =>
    if mcAwake d ch then
      let ns := neighbours d e.1
      let v1 := closeRow (ns.foldl (fun v r => activateRow v bank r) v) bank
      let v2 := { v1 with counts := mset [] v1.counts bank (mset 0 (mget [] v1.counts bank) e.1 0) }
      bump (bumpN (setMc d ch v2) .mcCnt (ch * 10 + 2) ns.length) .mcCnt (ch * 10 + 6)
    else d
  | none => d

/-- ROW_DISTURB_REFRESH. -/
def execRowDisturbRefresh (ch bank : Fin 16) (s : State) : Host.Outcome State Fault Refusal := onDev s (rowDisturbRefresh ch.val bank.val)

/-- The end of a 32 ms interval of one channel (R384). -/
def clearCounts (d : Dev) (ch : Nat) : Dev :=
  let v := mcChan d ch
  let d1 := if v.acts.any (fun e => decide (256 * rdThresh d < e.2)) then bump d .mcCnt (ch * 10 + 8) else d
  setMc d1 ch { v with counts := [], acts := [] }

/-- ROW_COUNTER_CLEAR (R384): every table of every channel clears. -/
def rowCounterClear (d : Dev) : Dev := if running d then (List.range 16).foldl clearCounts d else d

/-- ROW_COUNTER_CLEAR. -/
def execRowCounterClear (s : State) : Host.Outcome State Fault Refusal := onDev s rowCounterClear

/-- Takes a device temperature, in °C plus 40; above 95 °C it is recorded with reason 6 (R383, R391). -/
def takeTemp (d : Dev) (ch t : Nat) : Dev :=
  let d1 := setFld d .mcStatus ch 36 29 t
  if 135 < t then mcErrAt d1 ch 6 0 else d1

/-- DEVICE_TEMP_READ (R383): every 32 ms. -/
def deviceTempRead (ch t : Nat) (d : Dev) : Dev := if mcAwake d ch then takeTemp d ch t else d

/-- DEVICE_TEMP_READ. -/
def execDeviceTempRead (ch : Fin 16) (temp : Byte) (s : State) : Host.Outcome State Fault Refusal :=
  onDev s (deviceTempRead ch.val temp.toNat)

/-! ## Training -/

/-- Offset of a register of a channel from 0xF0_0000_0000 (R391). -/
def mcChOff (ch o : Nat) : Nat := 0xC00000 + ch / 2 * 0x10000 + o + ch % 2 * 0x800

/-- Offset of a register of a controller. -/
def mcOff (k o : Nat) : Nat := 0xC00000 + k * 0x10000 + o

/-- A write of MC_TRAIN_CTRL: ITER and ARG are stored, and OP starts its operation where the channel's STATE lets it act and none runs (R387). -/
def trainCtrlWrite (d : Dev) (ch : Nat) (v : Word) : Dev :=
  let op := bitsOf v.toNat 3 0
  let d1 := regStore d .mcTrainCtrl ch v
  let c := mcChan d1 ch
  let acts := decide (mcState d ch = 1) || (decide (mcState d ch = 4) && [3, 4, 5, 7].contains op)
  if 1 ≤ op ∧ op ≤ 7 ∧ acts ∧ c.train.isNone then
    setMc d1 ch { c with train := some { op := op, arg := bitsOf v.toNat 15 8, iter := max 1 (bitsOf v.toNat 31 16),
                                         pat := max 1 (rd d .mcTrainPat ch).toNat } }
  else d1

/-- A write of MC_TRAIN_CTRL by a row that stands for one OP. -/
def trainRow (op : Nat) (who : Requester) (ch : Fin 16) (v : Word) (d : Dev) : Dev :=
  if bitsOf v.toNat 3 0 = op then viaPath d who (mcChOff ch.val 0x1008) (fun d => trainCtrlWrite d ch.val v) else d

/-- The device address of a line by its place, the inverse of R373. -/
def mcAddr (d : Dev) (ch bank row col : Nat) : Nat :=
  let cs := channels d
  let m := row * 16 + (bank ^^^ (row % 16))
  ((m * dataLines d + col) * cs.length + ((cs.idxOf? ch).getD 0)) * 64

/-- The lines of one row of every bank of a channel. -/
def rowLines (d : Dev) (ch row : Nat) : List Nat :=
  ((List.range 16).map (fun b => (List.range (dataLines d)).map (fun c => mcAddr d ch b row c))).flatten

/-- The rows that OP 6 has written hold its pattern, which bypasses the cipher: as plaintext they hold free values (R377, R387). -/
def patternRows (d : Dev) (ch row : Nat) : Dev :=
  (rowLines d ch row).foldl (fun d a => let d1 := memWrite d a (freeLine d 0); { d1 with fresh := d1.fresh + 8 }) d

/-- MC_TRAIN_DONE (R387): the operation ends, sets FAIL, and has its effect. -/
def mcTrainDone (ch fail found : Nat) (d : Dev) : Dev :=
  let v := mcChan d ch
  match v.train with
  | none => d
  | some t =>
    let d1 := setMc d ch { v with train := none }
    let res (d : Dev) (n : Nat) : Dev :=
      setMc (setFld d .mcTrainRes ch 19 0 n) ch { mcChan d ch with opFail := (mcChan d ch).opFail || decide (d.pwr.rateStep ≠ 0 ∧ n ≠ 0) }
    governRate (match t.op with
    | 1 => res (setMc d1 ch { mcChan d1 ch with modeRegs := mset 0 v.modeRegs (t.arg % 16) (t.pat % 4096) }) 0
    | 2 => res d1 (fail % 1024)
    | 3 => if fail % 2 = 1 then res d1 1 else res (setFld d1 .mcLane (ch * 31 + 30) 15 8 found) 0
    | 6 => res (patternRows d1 ch t.arg) fail
    | 7 => res (takeTemp d1 ch found) 0
    | _ => res d1 fail)

/-- MC_TRAIN_DONE. -/
def execMcTrainDone (ch : Fin 16) (fail : BitVec 20) (found : Byte) (s : State) : Host.Outcome State Fault Refusal :=
  onDev s (mcTrainDone ch.val fail.toNat found.toNat)

/-! ## Configuration -/

/-- GDDR6 without the contents that satisfy a test on the address: they read as bytes that nothing has written. A line that the cache holds
keeps its bytes there. -/
def loseGddr (d : Dev) (p : Nat → Bool) : Dev :=
  let out : Nat → Bool := fun a => decide (a < 0x1000000000) && p a
  { d with mem := d.mem.filter (fun e => !out e.1)
           cache := { d.cache with stale := d.mem.foldl (fun m e =>
             if out e.1 && lineCached d e.1 && (mget none m e.1).isNone then mset none m e.1 (some e.2) else m) d.cache.stale }
           badUnits := d.badUnits.filter (fun u => !out (16 * u)), softUnits := d.softUnits.filter (fun u => !out (16 * u)) }

/-- A channel of a controller leaves reset once CK is stable, unless it is excluded (R374, R387). -/
def channelUp (d : Dev) (ch : Nat) : Dev := if mcState d ch = 0 ∧ !excluded d ch then setMcState d ch 1 else d

/-- RESET_n driven low, or CK stopped: the channel is in STATE 0 and its devices hold nothing any more. -/
def channelReset (d : Dev) (ch : Nat) : Dev :=
  if mcState d ch = 0 then d
  else setMcState (setMc (loseGddr d (fun a => decide (chanOf d a = ch))) ch {}) ch 0

/-- SELF_REF as it has been written: entry is asked for, or the channel leaves self-refresh (R389). -/
def channelSelfRef (d : Dev) (ch : Nat) (enter : Bool) : Dev :=
  let v := mcChan d ch
  if enter then (if mcState d ch = 2 then trySelfRef (setMc d ch { v with srWait := true }) ch else d)
  else
    let d1 := setMc d ch { v with srWait := false }
    if mcState d ch = 3 then leaveSelfRef d1 ch else d1

/-- A write of MC_CTRL of a controller (R379, R387, R389, R391). -/
def mcCtrlWrite (d : Dev) (k : Nat) (v : Word) : Dev :=
  let d1 := regStore d .mcCtrl k v
  let w := v.toNat
  [2 * k, 2 * k + 1].foldl (fun d ch =>
    let d2 := if bitOf w 0 = 1 ∧ bitOf w 1 = 1 then channelUp d ch else channelReset d ch
    let d3 := channelSelfRef d2 ch (decide (bitOf w 2 = 1))
    if bitOf w 4 = 1 ∧ mcState d3 ch = 4 then startFrames (setMcState d3 ch 2) else d3) d1

/-- The fields of MC_GLOBAL that fix the address mapping: EXCL_N, EXCL_B, EXCL_A, CLAMSHELL, DENSITY (R374). -/
def mapMask : Word := maskW 18 6

/-- A write of MC_GLOBAL: the mapping changes only while every channel is in STATE 0, ECC only before LOCKED, and TRAFFIC_EN brings every channel
in use that has been trained to STATE 2 with frame slot 0 (R374, R376, R379, R387, R391). -/
def mcGlobalWrite (d : Dev) (v : Word) : Dev :=
  let old := rd d .mcGlobal 0
  let idle := (List.range 16).all (fun ch => decide (mcState d ch = 0))
  let keep : Word := (if idle then 0 else mapMask) ||| (if fld d .mcGlobal 0 25 25 = 1 then maskW 22 22 else 0)
  let nv := (old &&& keep) ||| (accessWrite .mcGlobal old v &&& ~~~ keep)
  let d1 := wr d .mcGlobal 0 nv
  let d2 := if old &&& mapMask = nv &&& mapMask then d1 else loseGddr d1 (fun _ => true)
  if fld d .mcGlobal 0 24 24 = 1 then enterSelfRef (governRate d2)
  else
    let d3 := setRate d2 (mcRate d2)
    if bitOf v.toNat 24 = 1 then
      startFrames ((channels d3).foldl (fun d ch => if mcState d ch = 1 then setMcState d ch 2 else d) (setFld d3 .mcGlobal 0 25 25 1))
    else d3

end Sys2Proof.Machine
end

