-- ==== Sys2Proof/Machine/RingRows.lean ====
section
/-!
DEFINITION. The rows of the ring engine (R64 to R101) and the port 0 commands on ports (R102 to R114): polling, RESET,
fetching, completions and interrupts, NOP, FENCE, UNKNOWN_OPCODE, PORT_CREATE to PORT_QUOTA.
-/

namespace Sys2Proof.Machine

/-! ## Polling -/

/-- A port is polled: RING_CTRL.EN, and for a data port from the completion of its PORT_CREATE until a PORT_DESTROY passes
its check (R69, R101, R103, R104, R114). -/
def portPolled (d : Dev) (p : Nat) : Bool :=
  decide (fld d .ringCtrl 0 16 16 = 1) &&
    (decide (p = 0) || ((port d p).exists_ && (port d p).live && !(port d p).destroying))

/-- The ring engine reaches host memory: the device is Running and the link is trained (R54, R60, R442). -/
def engineUp (d : Dev) : Bool := running d && domOn d 3 && decide (2 ≤ linkState d)

/-- For a flagged ring of the poll: the doorbell word is read, or, with no context, the roster descriptor first (R69, R70). A ring whose context
must come from GDDR6 that is not ready stays flagged, and the poll goes on until it has been read (R389). -/
def pollRing (d : Dev) (p r : Nat) : Dev :=
  if ctxWaits d p r then d
  else
    let v := port d p
    let d1 := setPort d p { v with flagged := v.flagged.filter (fun q => decide (q ≠ r)) }
    if (ctx d p r).valid then
      let d2 := touchCtx d1 p r
      hostRead d2 p ((ctx d2 p r).dbell / 8 * 8) 8 (.doorbell p r)
    else hostRead d1 p (v.roster + 64 * r) 64 (.roster p r)

/-- The doorbell words of the flagged rings are asked for, lowest ring first (R69). -/
def askFlagged (d : Dev) (p : Nat) : Dev := (port d p).flagged.foldl (fun d r => pollRing d p r) d

/-- Owners of the reads that a poll of port p makes. -/
def pollOwner (p : Nat) (o : Owner) : Bool :=
  match o with
  | .summary q => decide (q = p)
  | .doorbell q _ => decide (q = p)
  | .roster q _ => decide (q = p)
  | _ => false

/-- Takes what one returned read of a poll says: the summary line's flags, a descriptor's DBELL, a doorbell word; nothing of it once a
PORT_DESTROY of the port has passed its check (R114). A doorbell word waits for its ring's context (R328, R329). -/
def takePollRead (d : Dev) (h : HostRead) : Dev :=
  let waits := match h.owner with | .doorbell p r => ctxWaits d p r | _ => false
  if h.st = .done ∧ !waits then
    let d1 := dropReads d (fun o => decide (o = h.owner))
    if (port d h.port).destroying then d1
    else
      match h.owner with
      | .summary p => setPort d1 p { port d1 p with flagged := idxWhere 512 (fun i => decide (bitOf (leAt h.got (i / 8) 1) (i % 8) = 1)) }
      | .roster p r => hostRead d1 p (leAt h.got 8 8 / 8 * 8) 8 (.doorbell p r)
      | .doorbell p r => takeDoorbell d1 p r (leAt h.got 0 4)
      | _ => d
  else d

/-- SUMMARY_LINE_POLL (R67, R69, R70): the port's turn in the poll interval asks for its summary line; as its reads return, the
flagged rings' doorbell words are asked for and taken; when none is out and none is left to ask for the poll has ended. -/
def summaryLinePoll (p : Nat) (d : Dev) : Dev :=
  if engineUp d ∧ portExists d p then
    if (port d p).polling then
      let d1 := askFlagged ((readsOf d (pollOwner p)).foldl takePollRead d) p
      if (readsOf d1 (pollOwner p)).isEmpty ∧ (port d1 p).flagged = [] then setPort d1 p { port d1 p with polling := false } else d1
    else if portPolled d p then
      hostRead (setPort d p { port d p with polling := true }) p ((port d p).summary / 64 * 64) 64 (.summary p)
    else d
  else d

/-- SUMMARY_LINE_POLL. -/
def execSummaryLinePoll (p : PortIx) (s : State) : Host.Outcome State Fault Refusal := onDevTx s (summaryLinePoll p.val)

/-! ## RESET of a ring -/

/-- Every command fetched from the ring, or bound to the CQ, has completed (R70 step 2). -/
def ringDrained (d : Dev) (p r : Nat) : Bool :=
  let c := ctx d p r
  let sqs := if c.valid ∧ !c.sq then boundSqs d p r else [r]
  sqs.all (fun q => decide ((ctx d p q).fetching = 0) && d.ring.cmds.all (fun e => !(decide (e.port = p ∧ e.sq = q))))

/-- The first reason of R66 that refuses an activation, in the order 0x01, 0x02, 0x03, 0x04 (R70 step 3). -/
def refuseReason (d : Dev) (p : Nat) (c : RingCtx) : Option Nat :=
  let t := ctx d p c.target
  if ringAllowance d p ≤ activeRings d p then some 1
  else if 32768 ≤ allActive d then some 2
  else if c.sq ∧ !(ringActive t ∧ !t.sq) then some 3
  else if (hostOut d p c.base (ringSize c * (if c.sq then 64 else 16))).isSome ∨ (hostOut d p c.dbell 4).isSome then some 4
  else none

/-- The fresh context that a descriptor describes (R65, R70). -/
def descCtx (bs : List Byte) (sq : Bool) : RingCtx :=
  let lg := leAt bs 17 1
  let t := leAt bs 18 2
  { valid := true, sq := sq, base := if sq then leAt bs 0 8 / 64 * 64 else leAt bs 0 8 / 16 * 16,
    dbell := leAt bs 8 8 / 8 * 8, log2 := max 6 (min 16 lg), target := if sq then t % 512 else t % 2048,
    weight := max 1 (leAt bs 20 1), ien := decide (!sq ∧ leAt bs 21 1 % 2 = 1), modTime := leAt bs 22 2 }

/-- Reads a descriptor's outcome: a fresh context and ACTIVE, REFUSED with the first reason, or INACTIVE (R70 step 3). DESIGN CHOICE, where the spec
states no outcome: an activation whose descriptor is read after a PORT_DESTROY of its port has passed its check ends INACTIVE (R114), and a CQ index
that a RESET makes an SQ leaves the SQs bound to it neither in ERROR nor fetching (R71). -/
def activate (d : Dev) (p r : Nat) (bs : List Byte) : Dev :=
  let kind := leAt bs 16 1
  if (kind = 1 ∨ kind = 2) ∧ portExists d p ∧ !(port d p).destroying then
    let c := descCtx bs (decide (kind = 1))
    match refuseReason d p c with
    | some k => resetEnds d p r 2 k
    | none =>
      holdRing (writeStatus (cacheCtx (setCtx d p r c) (ringKey p r)) p r 1 0) p r
  else resetEnds d p r 0 0

/-- RING_DESCRIPTOR_REREAD (R70, R71): a ring whose RESET has been seen and whose commands have completed releases its
context and reads its descriptor; when that has returned, the outcome is written. -/
def ringDescriptorReread (p r : Nat) (d : Dev) : Dev :=
  if engineUp d then
    match (slot d p r).reset with
    | .waiting =>
      if ringDrained d p r then
        let d2 := freeCtx d p r
        hostRead (setSlot d2 p r { slot d2 p r with reset := .reading }) p ((port d p).roster + 64 * r) 64 (.descriptor p r)
      else d
    | .reading =>
      match readsOf d (fun o => decide (o = .descriptor p r)) with
      | h :: _ => if h.st = .done ∧ ctxRoom d then activate (dropReads d (fun o => decide (o = .descriptor p r))) p r h.got else d
      | [] => d
    | _ => d
  else d

/-- RING_DESCRIPTOR_REREAD. -/
def execRingDescriptorReread (p : PortIx) (r : RingIx) (s : State) : Host.Outcome State Fault Refusal :=
  onDevTx s (ringDescriptorReread p.val r.val)

/-! ## Fetching -/

/-- Places of a CQ that may still be reserved (R83). -/
def cqRoom (c : RingCtx) : Nat := ringSize c - 1 - ((c.idx + ringSize c - c.index) % ringSize c + c.reserved)

/-- Entries that a fetch from an SQ would take now: up to WEIGHT, to the tail, the ring's end and the next 4 KiB boundary, with
a CQ place and one of the 4,096 commands for each; 0 while the ring or its CQ may not fetch (R70, R71, R83, R90, R100). -/
def fetchCount (d : Dev) (p r : Nat) : Nat :=
  let c := ctx d p r
  let q := ctx d p c.target
  let free := 4096 - (d.ring.cmds.length + d.ring.ctx.foldl (fun a e => a + e.2.fetching) 0)
  let cqBusy := match (slot d p c.target).reset with | .waiting | .reading => true | _ => false
  if c.valid ∧ c.sq ∧ !c.error ∧ c.fetching = 0 ∧ (slot d p r).reset = .none ∧ !cqBusy ∧ q.valid ∧ !q.sq then
    min (min ((c.index + ringSize c - c.idx) % ringSize c) c.weight)
      (min (min (ringSize c - c.idx) ((4096 - (c.base + 64 * c.idx) % 4096) / 64)) (min (cqRoom q) free))
  else 0

/-- The ring of a port whose turn it is (R90): the first after the last one served that has entries to fetch. -/
def turnRing (d : Dev) (p : Nat) : Option Nat :=
  (List.range 512).map (fun i => ((port d p).rr + 1 + i) % 512) |>.find? (fun r => decide (0 < fetchCount d p r))

/-- The port whose turn it is (R90): the first after the one served last that has entries to fetch. -/
def turnPort (d : Dev) : Option Nat :=
  (List.range 256).map (fun i => (d.ring.rr + 1 + i) % 256) |>.find? (fun p =>
    d.ring.ctx.any (fun e => decide (e.1 / 512 = p)) && portPolled d p && (turnRing d p).isSome)

/-- SQ_FETCH (R83, R90): reserves the CQ places and reads up to WEIGHT entries of the SQ whose turn it is, of the port whose turn it is. -/
def sqFetch (p r : Nat) (d0 : Dev) : Dev :=
  let d := { d0 with ring := { d0.ring with rr := p } }
  if engineUp d0 ∧ turnPort d0 = some p ∧ turnRing d0 p = some r ∧ !ctxWaits d0 p r ∧ !ctxWaits d0 p (ctx d0 p r).target then
    let n := fetchCount d p r
    let d1 := touchCtx (touchCtx d p (ctx d p r).target) p r
    let c := ctx d1 p r
    let q := ctx d1 p c.target
    let d2 := setCtx d1 p c.target { q with reserved := q.reserved + n }
    let d3 := setCtx d2 p r { c with fetching := n, fetchId := d.ring.nextId }
    let d4 := setPort { d3 with ring := { d3.ring with nextId := d3.ring.nextId + n } } p { port d3 p with rr := r }
    hostRead d4 p (c.base + 64 * c.idx) (64 * n) (.entries p r)
  else d0

/-- SQ_FETCH. -/
def execSqFetch (p : PortIx) (r : RingIx) (s : State) : Host.Outcome State Fault Refusal := onDevTx s (sqFetch p.val r.val)

/-- The command of a 64-byte submission entry (R73). -/
def parseEntry (p r id : Nat) (bs : List Byte) : Cmd :=
  let fl := leAt bs 1 1
  { id := id, port := p, sq := r, cid := leAt bs 2 2, opcode := leAt bs 0 1, fence := decide (bitOf fl 0 = 1),
    halt := decide (bitOf fl 1 = 1), urgent := decide (bitOf fl 2 = 1), space := leAt bs 4 1,
    p := (List.range 7).map (fun i => leAt bs (8 + 8 * i) 8) }

/-- SUBMISSION_ENTRIES_ARRIVE (R73, R90, R92): the entries of a fetch become commands in flight in ring order, and an entry that
HALT stops completes ABORTED. -/
def submissionEntriesArrive (p r : Nat) (d : Dev) : Dev :=
  let own : Owner → Bool := fun o => decide (o = .entries p r)
  match readsOf d own with
  | h :: _ =>
    if h.st = .done then
      let d1 := dropReads d own
      let c := ctx d1 p r
      let cs := (List.range c.fetching).map (fun i => parseEntry p r (c.fetchId + i) (sliceB h.got (64 * i) 64))
      let d2 := setCtx d1 p r { c with idx := (c.idx + c.fetching) % ringSize c, fetching := 0 }
      haltScan { d2 with ring := { d2.ring with cmds := d2.ring.cmds ++ cs } } p r
    else d
  | [] => d

/-- SUBMISSION_ENTRIES_ARRIVE. -/
def execSubmissionEntriesArrive (p : PortIx) (r : RingIx) (s : State) : Host.Outcome State Fault Refusal :=
  onDevTx s (submissionEntriesArrive p.val r.val)

/-! ## Completions and interrupts -/

/-- Words C0 and C1 of a completion entry (R81). -/
def completionBytes (phase : Bool) (sq head status cid result : Nat) : List Byte :=
  toLE 8 (b2n phase * 2 ^ 63 + sq * 2 ^ 47 + head * 2 ^ 24 + status * 2 ^ 16 + cid) ++ toLE 8 result

/-- Sends the CQ's MSG_INT and clears its pending count and timer (R94). -/
def sendInt (d : Dev) (p q : Nat) : Dev :=
  let c := ctx d p q
  msgInt (setCtx d p q { c with pending := 0, timer := false }) p c.target

/-- Moderation after a completion of a CQ has been written (R94). -/
def moderate (d : Dev) (p q : Nat) (urgent : Bool) : Dev :=
  let c := ctx d p q
  if !c.ien then d
  else
    let n := c.pending + 1
    let d1 := setCtx d p q { c with pending := n, timer := true }
    if urgent ∨ c.modTime = 0 ∨ c.weight ≤ n then sendInt d1 p q else d1

/-- Writes the completion entry of an ended command with one MEM_WR, gives its place back, moves the CQ on and moderates
its interrupt (R81 to R83, R94, R101). -/
def writeEntry (d0 : Dev) (c : Cmd) (status result : Nat) : Dev :=
  let d := touchCtx (touchCtx d0 c.port (ctx d0 c.port c.sq).target) c.port c.sq
  let sq := ctx d c.port c.sq
  let q := sq.target
  let cq := ctx d c.port q
  let d1 := hostWrite d c.port (cq.base + 16 * cq.idx) (completionBytes cq.phase c.sq sq.idx status c.cid result)
  let wrap := cq.idx + 1 = ringSize cq
  let d2 := setCtx d1 c.port q { cq with
    idx := if wrap then 0 else cq.idx + 1, phase := if wrap then !cq.phase else cq.phase, reserved := cq.reserved - 1 }
  let s2 := ctx d2 c.port c.sq
  let d3 := if status = 0 ∨ status = 1 then d2 else setCtx d2 c.port c.sq { s2 with failed := sins s2.failed c.id }
  bump (moderate d3 c.port q c.urgent) .ringCnt 3

/-- The completion of a command may be written now: that of a POWER_REQUEST for Standing is the first after the return to Running (R438). -/
def firstToWrite (d : Dev) (id : Nat) : Bool := match d.pwr.standingDone with | some k => decide (k = id) | none => true

/-- COMPLETION_WRITE (R60, R70, R81 to R84, R91 to R94, R173): an ended command's completion is written and has its on-chip effects;
an FW_ACTIVATE with REBOOT then resets the device (R412, R445). A command that link-down ended has its on-chip effects alone. -/
def completionWrite (id : Nat) (d : Dev) : Dev :=
  match cmdOf d id with
  | some c =>
    match c.st with
    | .done status result =>
      if c.dropped then completed d c
      else if engineUp d && firstToWrite d id && !ctxWaits d c.port c.sq && !ctxWaits d c.port (ctx d c.port c.sq).target then
        let d1 := haltScan (completed (writeEntry d c status result) c) c.port c.sq
        let d2 := { d1 with pwr := { d1.pwr with standingDone := none } }
        if c.opcode = 0xE5 ∧ status = 0 ∧ pf c 1 0 0 = 1 then resetDev (pump d2) 3 else d2
      else d
    | _ => d
  | none => d

/-- COMPLETION_WRITE. -/
def execCompletionWrite (id : Nat) (s : State) : Host.Outcome State Fault Refusal := onDevTx s (completionWrite id)

/-- CQ_MODERATION_TIMER (R94): the timer of a CQ reaches MOD_TIME and its MSG_INT is sent. -/
def cqModerationTimer (p q : Nat) (d : Dev) : Dev :=
  let c := ctx d p q
  if engineUp d ∧ c.valid ∧ !c.sq ∧ c.timer ∧ !ctxWaits d p q then sendInt (touchCtx d p q) p q else d

/-- CQ_MODERATION_TIMER. -/
def execCqModerationTimer (p : PortIx) (r : RingIx) (s : State) : Host.Outcome State Fault Refusal :=
  onDevTx s (cqModerationTimer p.val r.val)

/-- SBOX_NONCE takes a fresh random value (R413, R481). -/
def freshNonce (d : Dev) : Dev := wr { d with fresh := d.fresh + 1 } .sboxNonce 0 ((Config.trng d.fresh).setWidth 40)

/-- Firmware, if it executes the command, lays it down; SBOX_NONCE changes after a TIME_SET (R395, R413). -/
def fwLaysDown (d : Dev) (c : Cmd) : Dev :=
  let d1 := { d with sbox := { d.sbox with cmds := sdel d.sbox.cmds c.id } }
  if c.opcode = 0x78 then freshNonce d1 else d1

/-! ## NOP, FENCE, UNKNOWN_OPCODE -/

/-- NOP (R84): DONE with RESULT 0. -/
def execNop (id : Nat) (s : State) : Host.Outcome State Fault Refusal :=
  onDevTx s (checked 1 id (fun _ d => finish d id 0 0))

/-- What a FENCE waits for: every earlier entry of its SQ, and with SCOPE 1 every earlier-fetched entry of the port,
fetches on the way included (R93). -/
def fenceOpen (d : Dev) (c : Cmd) : Bool :=
  d.ring.cmds.any (fun e => decide (e.id < c.id ∧ e.port = c.port) && (decide (e.sq = c.sq) || decide (pf c 1 0 0 = 1))) ||
    (decide (pf c 1 0 0 = 1) &&
      d.ring.ctx.any (fun e => decide (e.1 / 512 = c.port) && decide (0 < e.2.fetching) && decide (e.2.fetchId < c.id)))

/-- FENCE (R93): it starts, holds back later entries of its SQ, and completes DONE when what it waits for has completed. -/
def fence (id : Nat) (d : Dev) : Dev :=
  let d1 := checked 2 id (fun _ d => d) d
  match cmdOf d1 id with
  | some c => if c.opcode = 2 ∧ c.st = .running ∧ !fenceOpen d1 c then finish d1 id 0 0 else d1
  | none => d1

/-- FENCE. -/
def execFence (id : Nat) (s : State) : Host.Outcome State Fault Refusal := onDevTx s (fence id)

/-- Opcodes listed in R75 to R78, and those of R79 on port 0 (R80). -/
def knownOpcode (p op : Nat) : Bool :=
  [0x01, 0x02, 0x10, 0x11, 0x12, 0x13, 0x20, 0x21, 0x22, 0x30, 0x60, 0x61, 0x40, 0x41, 0x50, 0x70, 0x71, 0x72, 0x78].contains op ||
    (decide (p = 0) && [0xE0, 0xE1, 0xE2, 0xE3, 0xE4, 0xE5, 0xE6, 0xE7, 0xE8].contains op)

/-- UNKNOWN_OPCODE (R80, R85): an unlisted opcode, or a port 0 opcode on another port, completes UNKNOWN_OPCODE with the opcode
in RESULT and no side effect. -/
def unknownOpcode (id : Nat) (d : Dev) : Dev :=
  match cmdOf d id with
  | some c =>
    if mayStart d c ∧ !knownOpcode c.port c.opcode then
      if haltHit d c then finish (noteFence d c) id 8 0 else finish (bump (noteFence d c) .ringCnt 2) id 3 c.opcode
    else d
  | none => d

/-- UNKNOWN_OPCODE. -/
def execUnknownOpcode (id : Nat) (s : State) : Host.Outcome State Fault Refusal := onDevTx s (unknownOpcode id)

/-! ## Ports -/

/-- The check of a port 0 command: UNKNOWN_OPCODE on another port comes first (R80). -/
def checked0 (op id : Nat) (body : Cmd → Dev → Dev) (d : Dev) : Dev :=
  checked op id (fun c d => if c.port = 0 then body c d else d)
    (match cmdOf d id with | some c => (if c.port = 0 then d else unknownOpcode id d) | none => d)

/-- PORT_CREATE (R87, R104): the port exists with every window disabled and every allowance zero; it is polled from the
completion. -/
def portCreate (id : Nat) (d : Dev) : Dev :=
  checked0 0xE0 id (fun c d =>
    let p := pf c 1 7 0
    if p = 0 ∨ portExists d p then finish d id 2 0x0B
    else finish (setPort d p { exists_ := true, summary := pw c 2 / 64 * 64, roster := pw c 3 / 64 * 64 }) id 0 0) d

/-- PORT_CREATE. -/
def execPortCreate (id : Nat) (s : State) : Host.Outcome State Fault Refusal := onDevTx s (portCreate id)

/-- Owners of the ring engine's own reads for port p. -/
def engineOwner (p : Nat) (o : Owner) : Bool :=
  match o with
  | .descriptor q _ | .entries q _ => decide (q = p)
  | o => pollOwner p o

/-- Releases what a port holds: ring contexts and port-table ring entries, Timetables, windows, allowances, addresses; the ring engine's reads for it
lead to nothing more (R114 steps 3 and 4). -/
def releasePort (d : Dev) (p : Nat) : Dev :=
  let mine : Nat → Bool := fun k => decide (k / 512 = p)
  let d1 := { d with
    ring := { d.ring with ctx := d.ring.ctx.filter (fun e => !mine e.1), slots := d.ring.slots.filter (fun e => !mine e.1),
                          cached := d.ring.cached.filter (fun k => !mine k), copies := d.ring.copies.filter (fun e => !mine e.1) }
    handles := d.handles.filter (fun e => decide (e.2.port ≠ p)) }
  setPort (dropReads d1 (engineOwner p)) p { exists_ := true, live := false, destroying := true }

/-- The polling of a port stops: no read of the poll in progress is made any more (R114 step 1). -/
def stopPolling (d : Dev) (p : Nat) : Dev :=
  setPort { d with link := { d.link with reads := d.link.reads.filter (fun r => !(pollOwner p r.owner && decide (r.st = .queued))) } } p
    { port d p with destroying := true, flagged := [] }

/-- PORT_DESTROY (R87, R114): past its check it stops the polling, waits for every command fetched from the port, releases
what the port holds, and completes. DESIGN CHOICE: one that meets another in progress completes NOT_NOW (R89) with reason 0x0B; the spec names no
reason for it (log entry 129). -/
def portDestroy (id : Nat) (d : Dev) : Dev :=
  let d1 := checked0 0xE1 id (fun c d =>
    let p := pf c 1 7 0
    if p = 0 ∨ !portExists d p ∨ (port d p).destroying then finish d id 2 0x0B
    else if 0 < activeRings d p ∨ (portConsists d p) ≠ [] then finish d id 2 0x0C
    else stopPolling d p) d
  match cmdOf d1 id with
  | some c =>
    let p := pf c 1 7 0
    if c.opcode = 0xE1 ∧ c.st = .running ∧ d1.ring.cmds.all (fun e => decide (e.port ≠ p)) ∧
        d1.ring.ctx.all (fun e => decide (e.1 / 512 = p → e.2.fetching = 0)) then finish (releasePort d1 p) id 0 0
    else d1
  | none => d1

/-- PORT_DESTROY. -/
def execPortDestroy (id : Nat) (s : State) : Host.Outcome State Fault Refusal := onDevTx s (portDestroy id)

/-- PORT_WINDOW (R87, R106, R108): sets one window of a data port, in 4 KiB granules; a GDDR6 window uses bits [39:12]. -/
def portWindow (id : Nat) (d : Dev) : Dev :=
  checked0 0xE2 id (fun c d =>
    let p := pf c 1 7 0
    if p = 0 ∨ !portExists d p then finish d id 2 0x0B
    else
      let i := pf c 1 10 8
      let en := decide (pf c 1 17 17 = 1)
      let v := port d p
      if pf c 1 16 16 = 1 then
        finish (setPort d p { v with hwin := mset {} v.hwin i { en := en, base := pw c 2 / 4096 * 4096, size := pw c 3 / 4096 * 4096 } }) id 0 0
      else
        finish (setPort d p { v with gwin := mset {} v.gwin i { en := en, base := pf c 2 39 12 * 4096, size := pf c 3 39 12 * 4096 } }) id 0 0) d

/-- PORT_WINDOW. -/
def execPortWindow (id : Nat) (s : State) : Host.Outcome State Fault Refusal := onDevTx s (portWindow id)

/-- PORT_QUOTA (R87, R110): sets all four allowances at once, or none where one is below the port's present use. -/
def portQuota (id : Nat) (d : Dev) : Dev :=
  checked0 0xE3 id (fun c d =>
    let p := pf c 1 7 0
    let r := min 512 (pf c 2 9 0)
    let k := min 32 (pf c 3 5 0)
    let j := min 65536 (pf c 4 16 0)
    let y := sat4096 (pf c 5 12 0)
    if p = 0 ∨ !portExists d p then finish d id 2 0x0B
    else if r < activeRings d p ∨ k < coresUse d p ∨ j < junctionUse d p ∨ y < yardUse d p then finish d id 2 0x0D
    else finish (setPort d p { port d p with rings := r, cores := k, junction := j, yard := y }) id 0 0) d

/-- PORT_QUOTA. -/
def execPortQuota (id : Nat) (s : State) : Host.Outcome State Fault Refusal := onDevTx s (portQuota id)

end Sys2Proof.Machine
end

