-- ==== Sys2Proof/Machine/LinkDown.lean ====
section
/-!
DEFINITION. The link going down (R59, R60): what the ring engine, the commands in flight and the units that work for them lose.
-/

namespace Sys2Proof.Machine

/-- The units without the programs, jobs and moves of host commands: kernel work goes on (R60). -/
def dropCmdWork (d : Dev) : Dev :=
  let ofCmd : JobSrc → Bool := fun s => match s with | .cmd _ => true | .ring _ => false
  let d1 := (d.junc.active.filter (fun p => ofCmd p.src)).foldl dropJProg d
  let humpOff := (match d1.hump.cur with | some j => ofCmd j.src | none => false)
  let chans := (List.range 16).filter (fun ch => match (chan d1 ch).ph, (chan d1 ch).src with | .idle, _ => false | _, .kernel _ _ _ => false | _, _ => true)
  let mine : ShPiece → Bool := fun p => chans.contains p.ch
  let d2 := { d1 with
    junc := { d1.junc with cmds := [], queue := d1.junc.queue.filter (fun p => !ofCmd p.src) }
    hump := { d1.hump with cmds := [], queue := d1.hump.queue.filter (fun s => !ofCmd s),
                           cur := d1.hump.cur.filter (fun j => !ofCmd j.src), pend := if humpOff then [] else d1.hump.pend }
    shunt := { d1.shunt with cmds := [], reading := d1.shunt.reading.filter (fun p => !mine p),
                             staged := d1.shunt.staged.filter (fun p => !mine p) } }
  dropReqs (chans.foldl freeChan d2) (fun o => match o with
    | .hump _ => humpOff
    | .prog ch | .piece ch _ => chans.contains ch
    | _ => false)

/-- A command in flight at link-down (R60): a running Consist is aborted and winds down without its writes; a command that has ended, and a
PORT_DESTROY past its check, has its on-chip effects; a TIME_SET is over, so SBOX_NONCE is fresh (R413); every other command ends without more. -/
def dropCommand (d : Dev) (c : Cmd) : Dev :=
  match c.st with
  | .done _ _ => completed d c
  | .fetched => dropCmd d c.id
  | .running =>
    match c.opcode with
    | 0x12 =>
      (match consistOf d c.id with
      | some k => recordEvent (modCmd d c.id (fun c => { c with dropped := true })) k 8 0
      | none => dropCmd d c.id)
    | 0x78 => freshNonce (dropCmd d c.id)
    | 0xE1 => dropCmd (if (port d (pf c 1 7 0)).destroying then setPort (releasePort d (pf c 1 7 0)) (pf c 1 7 0) {} else d) c.id
    | _ => dropCmd d c.id

/-- The ring engine and the commands in flight at link-down: contexts and RESET_SEEN are lost, fetching and polling stop, every command
ends (R60, R70). -/
def dropRings (d : Dev) : Dev :=
  let d1 := d.ring.cmds.foldl dropCommand (dropCmdWork d)
  { d1 with
    ring := { d1.ring with
      ctx := []
      cached := []
      copies := []
      retiring := []
      slots := (d1.ring.slots.map (fun e => (e.1, { e.2 with reset := .none }))).filter (fun e => decide (e.2 ≠ {})) }
    ports := (d1.ports.map (fun e => (e.1, { e.2 with polling := false, flagged := [] }))).filter (fun e => decide (e.2 ≠ {}))
    sbox := { d1.sbox with cmds := [] }
    pwr := { d1.pwr with
      standingDone := none
      sleep := { d1.pwr.sleep with cmd := none }
      profile := d1.pwr.profile.map (fun p => { p with cmd := none }) } }

/-- An FW_ACTIVATE with REBOOT has ended and its completion is dropped: the reset that its writing makes follows (R60, R412). -/
def rebootDue (d : Dev) : Bool :=
  d.ring.cmds.any (fun c => decide (c.opcode = 0xE5 ∧ c.st = .done 0 0 ∧ pf c 1 0 0 = 1))

/-- The register reads whose completions were still to be sent have not completed: the RC fields that they cleared are as if unread (R13). -/
def readsUndone (d : Dev) : Dev := d.link.txq.foldl (fun d p => match p.back with | some (r, i, v) => regBack d r i v | none => d) d

/-- The link goes down (R13, R59, R60): DOWN_SEEN, the device event and the Log Book; the link's buffers and credits, the
ring contexts and the commands are lost. -/
def linkDown (d : Dev) : Dev :=
  let reboot := rebootDue d
  let d1 := dropRings { readsUndone d with link := { lastWidth := d.link.lastWidth } }
  let d2 := setFld (setFld (setFld (setLinkState d1 0) .linkStatus 0 29 29 1) .linkStatus 0 17 14 0) .linkStatus 0 13 12 3
  let d3 := if running d ∨ d.pwr.mode = .standing then logBook (sboxEvent d2 1) 2 0x0011 [(rd d2 .linkStatus 0).toNat] else d2
  if reboot then resetDev d3 3 else d3

end Sys2Proof.Machine
end

