-- ==== Sys2Proof/Machine/Power.lean ====
section
/-!
DEFINITION. Power, clocks and reset: the operations of the sequencer and the governor (R422 to R446). The rows stand in PowerRows.lean.
-/

namespace Sys2Proof.Machine

/-- The device with its power state outside the registers changed. -/
def modPwr (d : Dev) (f : PwrSt → PwrSt) : Dev := { d with pwr := f d.pwr }

/-- Firmware ends a command of R395 and takes up the next. -/
def fwFinish (d : Dev) (id status result : Nat) : Dev :=
  finish { d with sbox := { d.sbox with cmds := sdel d.sbox.cmds id } } id status result

/-- Firmware runs: the device is Running and the Signal Box's domain is ON. -/
def fwUp (d : Dev) : Bool := running d && domOn d 1

/-- A command that Signal Box firmware executes (R89, R395): its check puts it in firmware's queue, and each step of its work is done while it
is the first there. -/
def fwCommand (op id : Nat) (port0 : Bool) (work : Cmd → Dev → Dev) (d : Dev) : Dev :=
  let queue : Cmd → Dev → Dev := fun _ d => sboxEvent { d with sbox := { d.sbox with cmds := d.sbox.cmds ++ [id] } } 11
  let d1 := if port0 then checked0 op id queue d else checked op id queue d
  match cmdOf d1 id with
  | some c => if c.opcode = op ∧ c.st = .running ∧ d1.sbox.cmds.head? = some id ∧ fwUp d1 then work c d1 else d1
  | none => d1

/-- Base of a firmware slot, 0 A or 1 B (R396). -/
def slotBase (k : Nat) : Nat := 0xC000000000 + k * 0x300000

/-- The slot that is not running (R412). -/
def otherSlot (d : Dev) : Nat := 1 - fld d .sboxFw 0 0 0

/-! ## What a power-down keeps -/

/-- Registers of a Rake and of its Plane Scanners, with how many instances one Rake has. -/
def rakeBlock : List (Reg × Nat) :=
  [(Reg.coreCtrl, 4), (Reg.coreResetPc, 4), (Reg.coreMsg, 4), (Reg.coreStatus, 4), (Reg.coreFault, 4), (Reg.coreFaultPc, 4), (Reg.coreCnt, 16),
   (Reg.planeCtrl, 2), (Reg.planeStatus, 2), (Reg.planeErr, 2), (Reg.planeErrAddr, 2), (Reg.planeCnt, 8)]

/-- Registers of the Junction, the Hump and the Shunting Engine. -/
def juncBlock : List (Reg × Nat) :=
  [(Reg.juncCtrl, 1), (Reg.juncStatus, 1), (Reg.juncErr, 1), (Reg.juncErrAddr, 1), (Reg.juncCnt, 4096), (Reg.juncTable, 4096)]
def humpBlock : List (Reg × Nat) := [(Reg.humpStatus, 1), (Reg.humpErr, 1), (Reg.humpErrAddr, 1), (Reg.humpCnt, 4096)]
def shuntBlock : List (Reg × Nat) :=
  [(Reg.shuntCtrl, 1), (Reg.shuntStage, 1), (Reg.shuntStatus, 1), (Reg.shuntGate, 1), (Reg.shuntIrq, 1), (Reg.shuntIrqEn, 1), (Reg.shuntErr, 1),
   (Reg.shuntErrAddr, 1), (Reg.shuntCnt, 4096), (Reg.shuntChState, 4096), (Reg.shuntChProg, 4096), (Reg.shuntChBytes, 4096)]

/-- Registers of the FABRIC domain: RING, PORT, DISPATCH, CACHE and YARD. -/
def fabricBlock : List (Reg × Nat) :=
  ([Reg.ringCtrl, Reg.ringCtxBase, Reg.ringStatus, Reg.ringErr, Reg.ringCnt, Reg.port0SummaryLo, Reg.port0SummaryHi, Reg.port0RosterLo,
    Reg.port0RosterHi, Reg.portState, Reg.portLimit, Reg.portJunction, Reg.portUse, Reg.dispCtrl, Reg.dispFlowBase, Reg.dispStatus,
    Reg.dispStatus2, Reg.dispErr, Reg.dispCnt, Reg.dispCore, Reg.dispConsist, Reg.cacheCtrl, Reg.cacheStatus, Reg.cacheMaint,
    Reg.cacheMaintAddr, Reg.cacheMaintEnd, Reg.cacheCnt, Reg.cacheWays, Reg.yardClear, Reg.yardStatus, Reg.memErr, Reg.memErrAddr,
    Reg.yardCnt]).map (fun r => (r, 4096))

/-- The register of a block, unit u, that a key of the register file names. -/
def blockReg (b : List (Reg × Nat)) (u k : Nat) : Option Reg :=
  (b.find? (fun e => decide (e.1.ctorIdx = k / 4096 ∧ k % 4096 / e.2 = u))).map Prod.fst

/-- The register file where unit u of a block keeps its RW fields alone: RO, RC and W1C fields are at their reset value (R423). -/
def keepRw (b : List (Reg × Nat)) (u : Nat) (m : SMap Word) : SMap Word :=
  m.filterMap (fun e =>
    match blockReg b u e.1 with
    | none => some e
    | some r =>
      let z := r.resetVal (e.1 % 4096)
      let v := (e.2 &&& r.rwMask) ||| (z &&& ~~~ r.rwMask)
      if v = z then none else some (e.1, v))

/-- The register file where unit u of a block is at its reset values. -/
def dropBlock (b : List (Reg × Nat)) (u : Nat) (m : SMap Word) : SMap Word := m.filter (fun e => (blockReg b u e.1).isNone)

/-- Cores and scanners of Rake r lose their logic: X and control registers, cells, loads, stores, rings and programs (R239, R423). -/
def loseRake (d0 : Dev) (r : Nat) : Dev :=
  let d := dropReqs d0 (fun o => match o with | .load n _ => decide (n / 4 = r) | .scan m _ _ => decide (m / 2 = r) | _ => false)
  { d with cores := d.cores.filter (fun e => decide (e.1 / 4 ≠ r)), planes := d.planes.filter (fun e => decide (e.1 / 2 ≠ r)) }

/-- The reads of GDDR6 of the unit in domain k are given up. -/
def loseReqs (d : Dev) (k : Nat) : Dev :=
  dropReqs d (fun o => match o with
    | .junc _ => decide (k = 12) | .hump _ => decide (k = 13) | .prog _ | .piece _ _ | .result => decide (k = 14) | _ => false)

/-- What domain k loses as its logic power is removed in an idle power-down or by the profile: R300, R422, R423. -/
def logicLost (d0 : Dev) (k : Nat) : Dev :=
  let d := loseReqs d0 k
  if 4 ≤ k ∧ k ≤ 11 then let d1 := loseRake d (k - 4); { d1 with regs := keepRw rakeBlock (k - 4) d1.regs }
  else match k with
    | 12 => { d with junc := {}, regs := dropBlock juncBlock 0 d.regs }
    | 13 => { d with hump := {}, regs := keepRw humpBlock 0 d.regs }
    | 14 => { d with shunt := { stage := d.shunt.stage, moved := d.shunt.moved }, regs := keepRw shuntBlock 0 d.regs }
    | _ => d

/-- The state that an idle power-down of a domain ends in (R422). -/
def downState (k : Nat) : DomState := if k = 12 then .off else .offRetain

/-- The Rakes whose wakes wait for the limit of CAP15 wake, lowest first, as far as the limit goes: when another has been powered down, or the profile
has been raised (R427). -/
def serveRakeWait (d : Dev) : Dev := d.pwr.rakeWait.foldl (fun d k => if rakesOn d < rakeLimit d then wakeDom d k else d) d

/-- Domain k has been powered down: what it kept is kept, a waiting access wakes it, a Rake that waits takes its place (R424, R427). -/
def powerDown (d : Dev) (k : Nat) : Dev :=
  let v := dom d k
  let d1 := setDom (logicLost d k) k { st := downState k }
  serveRakeWait (if v.wanted then wakeDom d1 k else d1)

/-- A domain that restarted after a refusal is ready: with the last of them the rollback of the sleep sequence is over (R437, R447). -/
def restarted (d : Dev) (k : Nat) : Dev :=
  if d.pwr.rollback.contains k then
    let d1 := modPwr d (fun p => { p with rollback := sdel p.rollback k })
    if d1.pwr.rollback = [] then setFld d1 .sleepStatus 0 38 36 0 else d1
  else d

/-- Core clock, and the cores of a Rake, as a domain becomes ready (R423): a core whose domain was unpowered restarts at CORE_RESET_PC where
CORE_CTRL.RUN is 1; the channels of a controller that was gated leave self-refresh. -/
def becomeReady (d : Dev) (k : Nat) : Dev :=
  let v := dom d k
  let d1 := restarted (setDom d k {}) k
  if 4 ≤ k ∧ k ≤ 11 ∧ (v.prev = .off ∨ v.prev = .offRetain) then [0, 1, 2, 3].foldl (fun d i => coreReset d (4 * (k - 4) + i)) d1
  else if 15 ≤ k ∧ k ≤ 22 then [0, 1].foldl (fun d i => channelSelfRef d (2 * (k - 15) + i) false) d1
  else d1

/-! ## Busy and drained -/

/-- The Junction and the Hump have no program or job, and no completion Wagon holds them (R185, R316, R424, R436). -/
def juncDrained (d : Dev) : Bool :=
  d.junc.arriving.isEmpty && d.junc.rings.isEmpty && d.junc.cmds.isEmpty && d.junc.queue.isEmpty && d.junc.active.isEmpty && !wagonWaits d .junction
def humpDrained (d : Dev) : Bool :=
  d.hump.arriving.isEmpty && d.hump.rings.isEmpty && d.hump.cmds.isEmpty && d.hump.queue.isEmpty && d.hump.cur.isNone && !wagonWaits d .hump

/-- The Shunting Engine has no work: every channel is idle, and nothing waits for one (R367, R436). -/
def shuntDrained (d : Dev) : Bool :=
  allIdle d && d.shunt.arriving.isEmpty && d.shunt.rings.isEmpty && d.shunt.cmds.isEmpty

/-- Domains that running Consists hold (R163). -/
def heldDoms (d : Dev) : List Nat := (d.consists.map (fun e => if e.2.valid then consistDoms d e.2.domains else [])).flatten

/-- Domain k is busy (R424): only the domains that power down by idle are asked. -/
def domBusy (d : Dev) (k : Nat) : Bool :=
  (heldDoms d).contains k ||
    (if 4 ≤ k ∧ k ≤ 11 then
      !rakeDrained d (k - 4) ||
        [0, 1, 2, 3].any (fun i => let c := core d (4 * (k - 4) + i); !(c.loads.isEmpty && c.stores.isEmpty))
    else match k with
      | 12 => !juncDrained d
      | 13 => !humpDrained d
      | 14 => !shuntDrained d
      | _ => true)

/-- The domains that an idle period powers down (R422, R424). -/
def idles (k : Nat) : Bool := decide (4 ≤ k ∧ k ≤ 14)

/-! ## Keys -/

/-- SIGN_OK is brought up to date (R414, R421). -/
def setSignOk (d : Dev) : Dev :=
  let st := fld d .chipLifecycle 0 1 0
  setFld d .cipherStatus 0 37 37
    (b2n (decide ((st = 1 ∨ st = 2) ∧ fld d .chipLifecycle 0 3 3 = 0 ∧ fld d .chipLifecycle 0 4 4 = 0 ∧ fld d .cipherStatus 0 38 38 = 1)))

/-- Signing is available (R414). -/
def signOk (d : Dev) : Bool :=
  let st := fld d .chipLifecycle 0 1 0
  decide ((st = 1 ∨ st = 2) ∧ fld d .chipLifecycle 0 3 3 = 0 ∧ fld d .chipLifecycle 0 4 4 = 0 ∧ fld d .cipherStatus 0 38 38 = 1)

/-- Zeroises the memory keys, and what GDDR6 held under them, and the working signing key (R414, R421). -/
def zeroiseKeys (d : Dev) : Dev :=
  let d1 := { loseGddr d (fun _ => true) with keys := {} }
  setSignOk (setFld (setFld (modPwr d1 (fun p => { p with aoKeys := none })) .cipherStatus 0 39 39 0) .cipherStatus 0 38 38 0)

/-! ## The sleep sequence -/

/-- Domains in stop order (R422); for Standing LINK is not asked (R435). -/
def stopOrder (target : Nat) : List Nat :=
  [4, 5, 6, 7, 8, 9, 10, 11, 12, 13, 14, 3, 15, 16, 17, 18, 19, 20, 21, 22, 23] ++ (if target = 1 then [1] else [2, 1])

/-- The device with the sleep sequence replaced and SLEEP_STATUS.PHASE brought up to date (R447). -/
def setSleep (d : Dev) (s : SleepSeq) (phase : Nat) : Dev := setFld (modPwr d (fun p => { p with sleep := s })) .sleepStatus 0 38 36 phase

/-- The channels of a controller. -/
def mcPair (k : Nat) : List Nat := [2 * (k - 15), 2 * (k - 15) + 1]

/-- For Laid-up a controller that agrees drives RESET_n low and stops CK, which its registers and its channels' STATE show (R436). -/
def stopMc (d : Dev) (k : Nat) : Dev := (mcPair k).foldl (fun d ch => setMcState d ch 0) (setFld d .mcCtrl (k - 15) 1 0 0)

/-- A controller that was stopped for Laid-up goes on after a refusal, which loses no state (R437). -/
def resumeMc (d : Dev) (k : Nat) : Dev :=
  (mcPair k).foldl (fun d ch => if (channels d).contains ch then setMcState d ch 2 else d) (setFld d .mcCtrl (k - 15) 1 0 3)

/-- The domain that the sequence asks next begins to drain: the channels of a controller enter self-refresh once their queues are empty, but
for Laid-up (R389, R436). -/
def askHead (d : Dev) : Dev :=
  match d.pwr.sleep.toAsk with
  | k :: _ =>
    if 15 ≤ k ∧ k ≤ 22 ∧ d.pwr.sleep.target ≠ 3 ∧ domOn d k then (mcPair k).foldl (fun d ch => channelSelfRef d ch true) d else d
  | [] => d

/-- Domain k has drained (R436). -/
def domDrained (d : Dev) (k : Nat) : Bool :=
  let s := d.pwr.sleep
  if 4 ≤ k ∧ k ≤ 11 then rakeDrained d (k - 4)
  else if 15 ≤ k ∧ k ≤ 22 then
    (mcPair k).all (fun ch =>
      if s.target = 3 then decide ((mcChan d ch).q = [] ∧ (mcChan d ch).out = [] ∧ (mcChan d ch).wout = [])
      else decide (mcState d ch ≠ 2 ∧ mcState d ch ≠ 4))
  else match k with
    | 12 => juncDrained d
    | 13 => humpDrained d
    | 14 => shuntDrained d
    | 3 =>
      d.ring.cmds.all (fun c => decide (s.cmd = some c.id)) && d.ring.ctx.all (fun e => decide (e.2.fetching = 0)) &&
        d.consists.all (fun e => !e.2.valid) && d.cache.clear.isNone && d.cache.maint.isNone
    | 2 => decide (linkState d = 4 ∨ linkState d = 0)
    | 1 => (s.cmd.isSome || decide ((core d 32).st = .waiti)) && !waitiEnds d 32 && d.sbox.run.isNone
    | _ => true

/-- A sleep sequence begins (R435): phase 1 asks the first domain. -/
def sleepStart (d : Dev) (target : Nat) (cmd : Option Nat) : Dev :=
  if running d ∧ !d.pwr.sleep.active ∧ 1 ≤ target then
    let d1 := modPwr (if fld d .sleepStatus 0 39 39 = 1 then d else setFld d .sleepStatus 0 1 0 target) (fun p => { p with rollback := [] })
    askHead (setSleep d1 { active := true, target := target, toAsk := stopOrder target, cmd := cmd } 1)
  else d

/-- A domain that the sequence stopped, or asked, goes on. -/
def restartDom (d : Dev) (k : Nat) : Dev := setDom d k { dom d k with st := .waking, prev := .gated }

/-- A domain refuses (R437): the domains that this sequence stopped restart, last stopped first, which PHASE 3 shows until they are ready; SLEEP_STATUS,
which holds the first refusal while REFUSED is 1, the device event and the Log Book say so; the command completes NOT_NOW (R447). -/
def sleepRefuse (d : Dev) (k : Nat) : Dev :=
  let s := d.pwr.sleep
  let d0 := if 15 ≤ k ∧ k ≤ 22 then (mcPair k).foldl (fun d ch => channelSelfRef d ch false) d else d
  let d1 := s.stopped.foldl (fun d k => restartDom (if s.target = 3 ∧ 15 ≤ k ∧ k ≤ 22 then resumeMc d k else d) k) d0
  let d2 := setSleep (modPwr d1 (fun p => { p with wakeDue := [], rollback := s.stopped.foldl sins [] })) {} (if s.stopped = [] then 0 else 3)
  let d3 := if fld d2 .sleepStatus 0 39 39 = 1 then d2
    else setFld (setFld (setFld d2 .sleepStatus 0 39 39 1) .sleepStatus 0 12 8 k) .sleepStatus 0 1 0 s.target
  let d4 := logBook (sboxEvent { d3 with link := { d3.link with parkAsked := false } } 4) 1 0x0030 [k]
  match s.cmd with
  | some id => fwFinish d4 id 2 (0x0E + 256 * k)
  | none => d4

/-! ## Reset and the power states -/

/-- A wake source starts a wake (R439 to R441): its WAKE_CAUSE bit is set; from Standing and Stabled the restart follows as a step of its own, from
Laid-up the first power enable is raised. -/
def startWake (d : Dev) (bit : Nat) : Dev :=
  let d1 := setFld d .wakeCause 0 bit bit 1
  match d.pwr.mode with
  | .standing | .stabled => modPwr d1 (fun p => { p with wakeDue := sins p.wakeDue bit })
  | .laidUp =>
    let d2 := modPwr d1 (fun p => { p with mode := .raising, pwrEn := 1, pwrStep := 0, fromStabled := false })
    if d.pwr.railFault then d2 else setFld d2 .resetCause 0 7 0 7
  | _ => d

/-- A source of R439 is asserted: asleep, it starts a wake; an edge during a sleep sequence is latched; between the pad latch and the arming of the
wake logic it is lost, and a level is seen after it (R58, R440). -/
def wakeSource (d : Dev) (bit : Nat) (edge : Bool) (fromStanding : Bool) : Dev :=
  match d.pwr.mode with
  | .standing => if fromStanding then startWake d bit else d
  | .stabled | .laidUp => if d.pwr.window then d else startWake d bit
  | .running => if edge ∧ d.pwr.sleep.active then modPwr d (fun p => { p with wakeDue := sins p.wakeDue bit }) else d
  | _ => d

/-- The RTC alarm wakes while WAKE_CAUSE.ALARM, its sticky level, and ALARM_EN are set (R439). -/
def alarmWake (d : Dev) : Dev :=
  if fld d .wakeCause 0 2 2 = 1 ∧ fld d .wakeCtrl 0 4 4 = 1 then wakeSource d 2 false true else d

/-- Sleep has been entered: what was latched meanwhile, and an alarm that stands, wake at once (R440). -/
def entered (d : Dev) (latched : List Nat) : Dev := alarmWake (latched.foldl startWake d)

/-- AO time is set to a value; a move from below AO_ALARM to at or above it fires the alarm (R413, R439). -/
def setAoTime (d : Dev) (t : Nat) : Dev :=
  let at_ := (rd d .aoAlarm 0).toNat
  let d1 := wr d .aoTime 0 (BitVec.ofNat 40 t)
  if aoTime d < at_ ∧ at_ ≤ t % 2 ^ 40 then alarmWake (setFld d1 .wakeCause 0 2 2 1) else d1

/-- What the pins of controller k show: CK_EN, RESET_REL, and CKE_n of each channel, which keeps self-refresh (R444). -/
def mcPads (d : Dev) (k : Nat) : Nat :=
  if fld d .padHold 0 k k = 1 then bitsOf d.pwr.padMc (4 * k + 3) (4 * k)
  else fld d .mcCtrl k 1 0 + b2n (decide (mcState d (2 * k) = 3)) * 4 + b2n (decide (mcState d (2 * k + 1) = 3)) * 8

/-- Boundary scan works in Running and Standing (R460). -/
def scanUp (d : Dev) : Bool := match d.pwr.mode with | .running | .standing => true | _ => false

/-- The boundary-scan register drives the pins: EXTEST or CLAMP is in force where boundary scan works (R460). -/
def scanDrives (d : Dev) : Bool := scanUp d && decide (d.tap.ir = .extest ∨ d.tap.ir = .clamp)

/-- THERM_ALERT_N is asserted at its pin: as boundary scan drives it, released under HIGHZ, as it was at the latch while its group is held (R400, R444,
R460). -/
def thermPin (d : Dev) : Bool :=
  if d.tap.ir = .highz then false
  else if scanDrives d then d.tap.bound.getLsbD 8
  else if fld d .padHold 0 9 9 = 1 then d.pwr.padTherm else d.pwr.thermAlert

/-- What the pad latch holds of THERM_ALERT_N: a group that is held already keeps its value (R444). -/
def thermHeld (d : Dev) : Bool := if fld d .padHold 0 9 9 = 1 then d.pwr.padTherm else d.pwr.thermAlert

/-- The pad latch: every group keeps its pins, those of the controllers, the GPIO and THERM_ALERT_N; one that is held already keeps what it has
(R444, R468). -/
def latchPads (d : Dev) : Dev :=
  let held := fld d .padHold 0 8 8
  let now := fld d .gpioOe 0 7 0 * 256 + fld d .gpioOut 0 7 0
  setFld (modPwr d (fun p => { p with
    padGpio := if held = 1 then p.padGpio else now, padTherm := thermHeld d
    padMc := (List.range 8).foldl (fun n k => n + mcPads d k * 16 ^ k) 0 })) .padHold 0 9 0 0x3FF

/-- Every domain but AO is OFF (R432). -/
def domsOff : SMap Dom := (List.range' 1 23).map (fun k => (k, { st := .off }))

/-- Everything but AO, MRAM and the fuses is without power (R432, R433, R457). -/
def allOff (d : Dev) (mode : PowerMode) (pwrEn : Nat) : Dev :=
  let d1 := { resetDev d 0 with
    regs := keptRegs d, mem := keepMram d.mem, cores := []
    badUnits := keepMramUnits d.badUnits, softUnits := keepMramUnits d.softUnits }
  let d2 := modPwr d1 (fun p => { p with mode := mode, doms := domsOff, pwrEn := pwrEn, bootDue := false, railFault := d.pwr.railFault })
  setFld (setFld (setFld d2 .pwrStatus 0 34 24 0) .pwrStatus 0 23 19 0) .pwrStatus 0 18 15 0

/-- The power state that a rail fault ends: none where the rails were rising from Laid-up, or had been low (R403, R433). -/
def fellFrom (p : PwrSt) : Option Nat :=
  match p.mode with
  | .running => some 0
  | .standing => some 1
  | .stabled => some 2
  | .raising => if p.fromStabled then some 2 else p.fell
  | _ => p.fell

/-- A rail fault (R397, R433, R452): the pads are held, every enable is lowered, cause 9 and the step are recorded, the device is in Laid-up. -/
def railFault (d : Dev) (step : Nat) : Dev :=
  let d1 := allOff (mramLost (latchPads d)) .laidUp 0
  let d2 := modPwr d1 (fun p => { p with railFault := true, fell := fellFrom d.pwr })
  alarmWake (setFld (setFld d2 .resetCause 0 7 0 9) .resetCause 0 19 16 step)

/-- Bank of RETAIN_MASK that an SRAM address lies in, if it is one that can be kept (R434). -/
def retained (d : Dev) (a : Nat) : Bool :=
  let bit := fun k => decide (fld d .retainMask 0 k k = 1)
  match regionOf d a with
  | .store n | .imem n => bit n
  | .yard => bit (32 + (a - yardBase) / 0x400000)
  | .gddr | .mram => true
  | _ => false

/-- Entry to Stabled (R375, R387, R432, R434): GDDR6 in self-refresh, with its check words and its mode registers, the memory keys in the AO key
store and the banks of RETAIN_MASK are kept; the controllers keep nothing. -/
def enterStabled (d : Dev) : Dev :=
  let fabric := decide (fld d .retainMask 0 36 36 = 1)
  let rings := if fabric then dropRings d else d
  let kept := keepRegs (aoRegs ++ (if fabric then fabricBlock.map Prod.fst else [])) d.regs
  let fuses (m : SMap Word) : SMap Word := (keepRegs [Reg.sboxPubkey, Reg.sboxFw] (keptRegs d)).foldl (fun m e => mset 0 m e.1 e.2) m
  let d1 := { allOff d .stabled 9 with
    regs := fuses (keepRw fabricBlock 0 kept)
    mc := (d.mc.map (fun e => (e.1, ({ words := e.2.words, mirrors := e.2.mirrors, modeRegs := e.2.modeRegs } : McChan)))).filter
      (fun e => decide (e.2 ≠ {}))
    mem := d.mem.filter (fun e => retained d e.1)
    badUnits := d.badUnits.filter (fun u => retained d (16 * u)), softUnits := d.softUnits.filter (fun u => retained d (16 * u))
    ports := if fabric then rings.ports else [], handles := if fabric then d.handles else []
    ring := if fabric then { slots := rings.ring.slots, nextId := rings.ring.nextId } else {} }
  let d2 := setFld (setFld d1 .ringCtrl 0 16 16 0) .cacheCtrl 0 0 0 0
  setFld (setFld (setFld (modPwr d2 (fun p => { p with aoKeys := d.pwr.aoKeys })) .pwrStatus 0 34 24 0) .pwrStatus 0 23 19 0) .pwrStatus 0 18 15 0

/-- Standing keeps the link in L0 or L-Coast: one that is parked, or asks for it, goes back to L0 (R56, R57). -/
def unpark (d : Dev) : Dev :=
  let d1 := { d with link := { d.link with parkAsked := false } }
  if linkState d1 = 4 then setLinkState d1 2 else d1

/-- Stabled and Laid-up begin with a window in which the wake logic is not armed; what was latched before waits for its end (R440). -/
def openWindow (d : Dev) (latched : List Nat) : Dev :=
  setFld (modPwr d (fun p => { p with window := true, wakeDue := latched })) .sleepStatus 0 38 36 0

/-- Phase 2 (R438, R444): Standing at once, which a beacon that was latched does not end (R439); for Stabled and Laid-up the pads are latched and power
is removed. -/
def sleepEnter (d : Dev) : Dev :=
  let s := d.pwr.sleep
  match s.target with
  | 1 => entered (modPwr (setFld (unpark d) .sleepStatus 0 38 36 0) (fun p => { p with mode := .standing, wakeDue := [] }))
      (d.pwr.wakeDue.filter (fun b => decide (b ≠ 3)))
  | 2 => openWindow (enterStabled (latchPads d)) d.pwr.wakeDue
  | _ => openWindow (allOff (latchPads d) .laidUp 0) d.pwr.wakeDue

/-- Three AO ticks after the latch the wake logic is armed: what was latched, and an alarm that stands, wake at once (R438, R440). -/
def armWake (d : Dev) : Dev := entered (modPwr d (fun p => { p with window := false, wakeDue := [] })) d.pwr.wakeDue

/-- What a domain does as it agrees (R436): CIPHER copies the memory keys to the AO key store for Stabled, or zeroises its keys for Laid-up, for which a
controller drives RESET_n low and stops CK. -/
def agreeWork (d : Dev) (k : Nat) (stopped : Bool) : Dev :=
  let t := d.pwr.sleep.target
  if k = 23 then
    if t = 2 then modPwr d (fun p => { p with aoKeys := if memKeys d then some d.keys else none })
    else if t = 3 then zeroiseKeys d else d
  else if stopped ∧ t = 3 ∧ 15 ≤ k ∧ k ≤ 22 then stopMc d k else d

/-- The domain that was asked has agreed: the next is asked in the next cc; when none is left, firmware has logged the change of power state, as the
last thing before its WAITI, and phase 2 follows (R403, R435, R438). -/
def agreeHead (d : Dev) (stopped : Bool) : Dev :=
  let s := d.pwr.sleep
  match s.toAsk with
  | [] => d
  | k :: ks =>
    let d0 := agreeWork d k stopped
    let d1 := if stopped then setDom d0 k { dom d0 k with st := .gated, falling := false } else d0
    let s1 := { s with toAsk := ks, stopped := if stopped then k :: s.stopped else s.stopped }
    if ks = [] then
      let d2 := logBook d1 0 0x0031 [0, s.target, fld d1 .pwrStatus 0 39 38]
      if s.target = 1 then sleepEnter (setSleep d2 s1 0) else setSleep d2 { s1 with agreed := true } 2
    else askHead (setSleep d1 s1 1)

/-- Standing ends (R441): every domain that the sequence stopped, and that PWR_DOMAIN.WAKE has not woken since, is restarted, the cores resume where
they stopped; the POWER_REQUEST completes DONE as the first completion (R438). -/
def standingEnds (d : Dev) : Dev :=
  let s := d.pwr.sleep
  let d1 := s.stopped.foldl (fun d k => if (dom d k).st = .gated then becomeReady (restartDom d k) k else d) (modPwr d (fun p => { p with mode := .running, wakeDue := [], sleep := {} }))
  let d2 := logBook d1 0 0x0031 [1, 0, fld d1 .pwrStatus 0 39 38]
  match s.cmd with
  | some id => modPwr (fwFinish d2 id 0 0) (fun p => { p with standingDone := some id })
  | none => d2

/-! ## Profiles and the clock -/

/-- The core clock that the PLL slews toward: the ceiling of the profile in force, or of a lower one that has begun to take effect, less the
governor's steps, at least 600 MHz (R24, R430, R431). -/
def mhzTarget (d : Dev) : Nat :=
  let now := (profileCeil d (fld d .pwrStatus 0 39 38)).1
  let ceil := match d.pwr.profile with
    | some q => if q.lower && heldFit d q.want then min now (profileCeil d q.want).1 else now
    | none => now
  max (min 600 ceil) (ceil - 100 * d.pwr.throttleSteps)

/-- The device with CORE_MHZ set. -/
def setMhz (d : Dev) (v : Nat) : Dev := setFld d .pwrStatus 0 34 24 v

/-- AUTOWAKE of JUNCTION, HUMP and the Rakes takes the default of a profile (R24, R427). -/
def loadAutowake (d : Dev) (p : Nat) : Dev :=
  [4, 5, 6, 7, 8, 9, 10, 11, 12, 13].foldl (fun d k => setFld d .pwrDomain k 36 36 (if p = 2 then 0 else 1)) d

/-- The command that asked for a profile goes on once the profile's outcome is known: it completes, or its sleep sequence begins. -/
def profileEnds (d : Dev) (q : ProfileReq) : Dev :=
  let d1 := modPwr d (fun p => { p with profile := none })
  if q.sleep = 0 then (match q.cmd with | some id => fwFinish d1 id 0 0 | none => d1) else sleepStart d1 q.sleep q.cmd

/-- The governor brings the controllers to the data rate that RATE and the profile ask for: by the sequence of R389 once traffic is let through, and
at once before. -/
def governGddr (d : Dev) : Dev :=
  if fld d .mcGlobal 0 24 24 = 1 then enterSelfRef (governRate d) else setRate d (mcRate d)

/-- A profile is in force (R389, R430, R447): PROFILE_NOW shows it, its ceilings apply, and the Log Book says so. -/
def profileInForce (d : Dev) (q : ProfileReq) : Dev :=
  let d1 := governGddr (setFld (modPwr d (fun p => { p with profile := none })) .pwrStatus 0 39 38 q.want)
  profileEnds (logBook d1 0 0x0031 [0, 0, q.want]) q

/-- A profile is applied (R430): PWR_CTRL.PROFILE takes it, AUTOWAKE its defaults; a lower or a higher one takes effect by its own step, the one in
force at once; a lower one that the held Rakes fit begins at once. -/
def applyProfile (d : Dev) (want : Nat) (cmd : Option Nat) (sleep : Nat) : Dev :=
  let now := fld d .pwrStatus 0 39 38
  let old := min 2 (fld d .pwrCtrl 0 1 0)
  let d1 := setFld d .pwrCtrl 0 1 0 want
  let d2 := if old = want then d1 else loadAutowake d1 want
  let q : ProfileReq := { want := want, lower := decide (now < want), cmd := cmd, sleep := sleep }
  if want = now then profileEnds d2 q
  else
    let d3 := modPwr d2 (fun p => { p with profile := some q })
    if q.lower then governGddr (shedRakes d3) else d3

/-- THROTTLED is brought up to date; a change of it makes cause 0x15 pending on every core (R431). -/
def setThrottled (d : Dev) : Dev :=
  let v := b2n (decide (0 < d.pwr.throttleSteps) || d.pwr.slotHalf)
  if fld d .pwrStatus 0 37 37 = v then d
  else (List.range 33).foldl (fun d n => modCore d n (fun c => { c with pend := sins c.pend 0x15 })) (setFld d .pwrStatus 0 37 37 v)

/-- A thermal sensor's value in 1/16 °C, signed (R400). -/
def thermal (d : Dev) (i : Nat) : Int := (BitVec.ofNat 16 (fld d .sboxSensor i 15 0)).toInt

/-- THROTTLE_C as it behaves (R431). -/
def throttleC (d : Dev) : Nat := max 95 (min 120 (fld d .pwrCtrl 0 39 32))

/-- One tick of the governor (R431). -/
def governor (d : Dev) : Dev :=
  let p := d.pwr
  let ceil := (profileCeil d (fld d .pwrStatus 0 39 38)).1
  let low := decide (ceil ≤ 600 + 100 * p.throttleSteps)
  if (List.range 24).any (fun i => decide ((throttleC d * 16 : Nat) < thermal d i)) then
    let steps := if low then p.throttleSteps else p.throttleSteps + 1
    setThrottled (modPwr d (fun p => { p with coolMs := 0, throttleSteps := steps, slotHalf := decide (ceil ≤ 600 + 100 * steps) }))
  else if (List.range 24).all (fun i => decide (thermal d i ≤ ((throttleC d - 5) * 16 : Nat))) then
    if p.coolMs + 1 < 10 then modPwr d (fun p => { p with coolMs := p.coolMs + 1 })
    else setThrottled (modPwr d (fun p => { p with
      coolMs := 0, slotHalf := false, throttleSteps := if p.slotHalf then p.throttleSteps else p.throttleSteps - 1 }))
  else modPwr d (fun p => { p with coolMs := 0 })

end Sys2Proof.Machine
end

