-- ==== Sys2Proof/Machine/LinkRows.lean ====
section
/-!
DEFINITION. The rows of the Abdom Link (R32 to R60): training and retraining, flits and their replay, link power states, completions of reads.
-/

namespace Sys2Proof.Machine

/-- The LINK domain is powered and clocked in a state that keeps the link (R54, R432). -/
def linkOn (d : Dev) : Bool := domOn d 2 && (decide (d.pwr.mode = .running) || decide (d.pwr.mode = .standing))

/-- The link carries flits: L0, or L-Coast about to be left (R54, R55). -/
def linkLive (d : Dev) : Bool := linkOn d && decide (linkState d = 2 ∨ linkState d = 3)

/-- The device with its link changed. -/
def modLink (d : Dev) (f : LinkSt → LinkSt) : Dev := { d with link := f d.link }

/-! ## Width -/

/-- The widest permitted lane set, no wider than LINK_CTRL.WIDTH allows, all of whose lanes pass; lane 0 first (R36): width code and logical lanes. -/
def chooseWidth (limit : Nat) (ok : Nat → Bool) : Option (Nat × List Nat) :=
  let sets := (if limit = 0 then [(0, [0, 1, 2, 3])] else []) ++ ((if limit ≤ 1 then [(1, [0, 1]), (1, [2, 3])] else []) ++ [(2, [0]), (2, [3])])
  sets.find? (fun s => s.2.all ok)

/-- The physical receive lane of a logical one (R31). -/
def physLane (rep : LaneReport) (n : Nat) : Nat := if rep.reversed then 3 - n else n

/-- A logical lane was sensed, locked and identified. -/
def lanePresent (rep : LaneReport) (n : Nat) : Bool := rep.present.getLsbD (physLane rep n)

/-- LINK_CTRL.WIDTH as it behaves (R63). -/
def widthLimit (d : Dev) : Nat := min 2 (fld d .linkCtrl 0 1 0)

/-- LINK_STATUS after a training or retrain has come up: state L0, width, lanes, polarity and reversal (R63). -/
def linkUpStatus (d : Dev) (rep : LaneReport) (w : Nat × List Nat) : Dev :=
  let lanes := w.2.foldl (fun a n => a + 2 ^ physLane rep n) 0
  let d1 := setFld (setFld (setLinkState d 2) .linkStatus 0 13 12 w.1) .linkStatus 0 17 14 lanes
  setFld (setFld d1 .linkStatus 0 18 18 (b2n rep.reversed)) .linkStatus 0 22 19 rep.polarity.toNat

/-! ## Training -/

/-- The order of the preset trials (R34). -/
def presetOrder : List Nat := [4, 5, 3, 6, 2, 7, 1, 0]

/-- Errors of a trial on a lane. -/
def trialErr (e : List Nat) (n : Nat) : Nat := (e[n]?).getD 0

/-- The preset with the fewest errors summed over the lanes; the lower number wins a tie (R34). -/
def bestPreset (errs : List (List Nat)) : Nat :=
  let sums := (presetOrder.zip errs).map (fun e => (e.1, (List.range 4).foldl (fun a n => a + trialErr e.2 n) 0))
  ((List.range 8).foldl (fun (acc : Option (Nat × Nat)) p =>
    match sums.find? (fun s => decide (s.1 = p)), acc with
    | some s, some b => if s.2 < b.2 then some s else some b
    | some s, none => some s
    | none, acc => acc) none |>.map Prod.fst).getD 0

/-- A change of the trained width raises the device event and a Log Book entry (R36, R403). -/
def widthReport (d : Dev) (old new : Nat) : Dev := if old = new then d else logBook (sboxEvent d 1) 1 0x0010 [old, new]

/-- The link that Configure leaves, from the credits that the bridge advertises (R30, R32, R43): the device advertises P 256, NP 64 and CPL 512. -/
def freshLink (p n c fresh w : Nat) (lanes : List Nat) : LinkSt :=
  { credP := p, credNP := n, credCPL := c, advP := 256, advNP := 64, advCPL := 512, farP := 256, farNP := 64, farCPL := 512,
    lanes := lanes, lastWidth := some w, tx := (List.range 4).map (fun k => { scram := Config.scramSeed k fresh }) }

/-- The Configure step (R32, R36, R43): width agreed, sequence numbers 0, credits advertised; the link is in L0. -/
def configure (d : Dev) (rep : LaneReport) (w : Nat × List Nat) (tx rx : Nat) : Dev :=
  let p := rep.credP.toNat
  let n := rep.credNP.toNat
  let c := rep.credCPL.toNat
  let d1 := tookFree { d with link := freshLink p n c d.fresh w.1 w.2 }
  let d2 := wr (linkUpStatus d1 rep w) .linkCredit 0 (BitVec.ofNat 40 (c * 2 ^ 20 + n * 2 ^ 10 + p))
  widthReport (setFld (setFld d2 .linkStatus 0 25 23 tx) .linkStatus 0 28 26 rx) (d.link.lastWidth.getD w.1) w.1

/-- A training attempt fails: the link stays down (R32, R59). -/
def trainFail (d : Dev) : Dev := setLinkState (modLink d (fun l => { l with train := none })) 0

/-- SAVED_TX and SAVED_RX, where LINK_EQ.USE_SAVED is 1 (R35). -/
def savedPair (d : Dev) : Option (Nat × Nat) :=
  if fld d .linkEq 0 8 8 = 1 then some (fld d .linkEq 0 2 0, fld d .linkEq 0 6 4) else none

/-- A training from Detect begins (R35, R59). -/
def startTraining (d : Dev) : Dev := setLinkState (modLink d (fun l => { l with train := some { saved := savedPair d } })) 1

/-- The lanes of a training have been chosen, or none qualify. -/
def trainEnds (d : Dev) (rep : LaneReport) (rxOk : Nat → Bool) (tx rx : Nat) : Dev :=
  match chooseWidth (widthLimit d) (fun n => lanePresent rep n && rep.txPass.getLsbD n && rxOk n) with
  | some w => configure d rep w tx rx
  | none => trainFail d

/-- LINK_TRAINING (R32 to R36): with USE_SAVED the saved pair is checked on every lane and kept where all pass; otherwise the presets are swept,
and the training ends once the eight trials have. After a cold training firmware saves the presets. -/
def linkTraining (rep : LaneReport) (d0 : Dev) : Dev :=
  if linkOn d0 ∧ linkState d0 ≤ 1 then
    let d := if linkState d0 = 0 then startTraining d0 else d0
    match d.link.train with
    | some t =>
      if t.step = 3 then
        if t.errs.length < 8 then d
        else
          let rx := bestPreset t.errs
          let tx := rep.txPreset.toNat
          let d1 := trainEnds d rep (fun n => t.errs.any (fun e => decide (trialErr e n = 0))) tx rx
          if linkState d1 = 2 ∧ fwUp d1 then { d1 with nv := { d1.nv with presets := some (tx, rx) } } else d1
      else
        match (if (List.range 4).all (fun n => rep.txPass.getLsbD n && rep.rxPass.getLsbD n) then t.saved else none) with
        | some (tx, rx) => trainEnds d rep (fun n => rep.rxPass.getLsbD n) tx rx
        | none =>
          if (List.range 4).any (lanePresent rep) then modLink d (fun l => { l with train := some { t with step := 3 } }) else trainFail d
    | none => d
  else d0

/-- LINK_TRAINING. -/
def execLinkTraining (rep : LaneReport) (s : State) : Host.Outcome State Fault Refusal := onDevTx s (linkTraining rep)

/-- PRESET_TRIAL_END (R34): the error counts of one trial, by logical lane. -/
def presetTrialEnd (errs : List Nat) (d : Dev) : Dev :=
  match d.link.train with
  | some t =>
    if linkOn d ∧ linkState d = 1 ∧ t.step = 3 ∧ t.errs.length < 8 then
      modLink d (fun l => { l with train := some { t with trial := t.trial + 1, errs := t.errs ++ [errs] } })
    else d
  | none => d

/-- PRESET_TRIAL_END. -/
def execPresetTrialEnd (errs : List Nat) (s : State) : Host.Outcome State Fault Refusal := onDev s (presetTrialEnd errs)

/-- TRAINING_STEP_TIMEOUT (R32). -/
def execTrainingStepTimeout (s : State) : Host.Outcome State Fault Refusal :=
  onDev s (fun d => if linkOn d ∧ linkState d = 1 then trainFail d else d)

/-- TRAINING_RETRY_TIMER (R59). -/
def execTrainingRetryTimer (s : State) : Host.Outcome State Fault Refusal :=
  onDev s (fun d => if linkOn d ∧ linkState d = 0 then startTraining d else d)

/-! ## Retraining -/

/-- A retrain starts (R41, R63). -/
def startRetrain (d : Dev) : Dev :=
  bumpLink (setLinkState (modLink d (fun l => { l with train := some { step := 1, retrain := true }, parkAsked := false })) 5) 2

/-- A retrain has failed: the third in a row puts the link down, after another one a new one starts (R41). -/
def retrainFailed (d : Dev) : Dev :=
  if 2 ≤ d.link.fails then linkDown d else startRetrain (modLink d (fun l => { l with fails := l.fails + 1 }))

/-- Every unacknowledged data flit is sent again, oldest first; a fourth replay of a flit starts a retrain instead (R41). -/
def replayAll (d : Dev) : Dev :=
  if d.link.replay = [] then d
  else if d.link.replay.any (fun f => decide (3 ≤ f.replays)) then startRetrain d
  else bumpLink (modLink d (fun l => { l with
    replay := l.replay.map (fun f => { f with replays := f.replays + 1 }), tx := l.replay.foldl (fun t f => sendOnLanes l.lanes f.bytes t) l.tx })) 1

/-- RETRAIN (R36, R41): the preset pair in force is checked on every lane; the link comes up, perhaps narrower, and replays; a change of width is
reported. -/
def retrain (rep : LaneReport) (d : Dev) : Dev :=
  if linkOn d ∧ linkState d = 5 then
    match chooseWidth (widthLimit d) (fun n => lanePresent rep n && rep.txPass.getLsbD n && rep.rxPass.getLsbD n) with
    | none => retrainFailed d
    | some w =>
      let old := fld d .linkStatus 0 13 12
      let d1 := linkUpStatus (modLink d (fun l => { l with
        train := none, fails := 0, lanes := w.2, lastWidth := some w.1, replay := l.replay.map (fun f => { f with replays := 0 }) })) rep w
      replayAll (widthReport d1 old w.1)
  else d

/-- RETRAIN. -/
def execRetrain (rep : LaneReport) (s : State) : Host.Outcome State Fault Refusal := onDevTx s (retrain rep)

/-- RETRAIN_TIMEOUT (R41): 2 ms have passed. -/
def execRetrainTimeout (s : State) : Host.Outcome State Fault Refusal :=
  onDev s (fun d => if linkOn d ∧ linkState d = 5 then retrainFailed d else d)

/-- LANE_LOCK_LOSS (R36): a lane in use loses block lock in L0. -/
def execLaneLockLoss (lane : Fin 4) (s : State) : Host.Outcome State Fault Refusal :=
  onDev s (fun d => if linkOn d ∧ linkState d = 2 ∧ bitOf (fld d .linkStatus 0 17 14) lane.val = 1 then startRetrain d else d)

/-- A write of LINK_CTRL: RETRAIN, or a change of WIDTH, starts a retrain of a link that is up, a parked one among them (R36, R63). -/
def linkCtrlWrite (d : Dev) (v : Word) : Dev :=
  let old := fld d .linkCtrl 0 1 0
  let d1 := regStore d .linkCtrl 0 v
  if linkOn d ∧ 2 ≤ linkState d ∧ linkState d ≤ 4 ∧ (bitOf v.toNat 2 = 1 ∨ bitsOf v.toNat 1 0 ≠ old) then startRetrain d1 else d1

/-- LINK_DOWN (R59, R60): the link that was up goes down. -/
def execLinkDown (s : State) : Host.Outcome State Fault Refusal := onDev s (fun d => if 2 ≤ linkState d then linkDown d else d)

/-! ## Acknowledgement -/

/-- An acknowledgement: the data flits up to ACK_SEQ leave the replay buffer, and NAK replays the rest (R38, R40, R41). -/
def takeAck (d : Dev) (h : FlitAck) : Dev :=
  let n := d.link.replay.length
  let oldest := d.link.txSeq - BitVec.ofNat 8 n
  let k := (h.ackSeq - oldest).toNat + 1
  let d1 := if h.ackValid ∧ k ≤ n then modLink d (fun l => { l with replay := l.replay.drop k }) else d
  if h.nak then replayAll d1 else d1

/-- A control flit is received: its acknowledgement, and then its meaning. -/
def ctlRow (h : FlitAck) (f : Dev → Dev) (d : Dev) : Dev :=
  if linkLive d then
    let d1 := takeAck d h
    if linkLive d1 then f d1 else d1
  else d

/-- ACK (R40, R42). -/
def execAck (h : FlitAck) (s : State) : Host.Outcome State Fault Refusal := onDevTx s (ctlRow h id)

/-- COAST (R55): the far side has entered L-Coast. -/
def coastIn (d : Dev) : Dev := setLinkState d 3

/-- COAST. -/
def execCoast (h : FlitAck) (s : State) : Host.Outcome State Fault Refusal := onDevTx s (ctlRow h coastIn)

/-- PARK_REQ (R42, R56, R57): the device agrees where it has no traffic, and the link is parked; it refuses otherwise, and in Standing, which
keeps the link in L0 or L-Coast. -/
def parkIn (d : Dev) : Dev :=
  if running d && linkQuiet d.link then setLinkState (modLink d (fun l => { sendCtl l 0 0x21 with parkAsked := false })) 4
  else modLink d (fun l => sendCtl l 0 0x22)

/-- PARK_REQ. -/
def execParkReq (h : FlitAck) (s : State) : Host.Outcome State Fault Refusal := onDevTx s (ctlRow h parkIn)

/-- PARK_ACK (R42, R56): the bridge agrees. -/
def parkAgreed (d : Dev) : Dev := if running d && d.link.parkAsked then setLinkState (modLink d (fun l => { l with parkAsked := false })) 4 else d

/-- PARK_ACK. -/
def execParkAck (h : FlitAck) (s : State) : Host.Outcome State Fault Refusal := onDevTx s (ctlRow h parkAgreed)

/-- PARK_REFUSE (R56, R437): the bridge refuses, and with it a drain that asked for it. -/
def parkRefused (d : Dev) : Dev :=
  if d.link.parkAsked then
    let d1 := modLink d (fun l => { l with parkAsked := false })
    if running d1 ∧ d1.pwr.sleep.active ∧ d1.pwr.sleep.toAsk.head? = some 2 then sleepRefuse d1 2 else d1
  else d

/-- PARK_REFUSE. -/
def execParkRefuse (h : FlitAck) (s : State) : Host.Outcome State Fault Refusal := onDevTx s (ctlRow h parkRefused)

/-- PARK_REQ_RETRY (R42): 1 µs has passed without an answer. -/
def execParkReqRetry (s : State) : Host.Outcome State Fault Refusal :=
  onDev s (fun d => if linkLive d ∧ d.link.parkAsked then modLink d (fun l => sendCtl l 0 0x20) else d)

/-- ACK_TIMEOUT_REPLAY (R41): the oldest flit has had no acknowledgement within 128 flit times. -/
def execAckTimeoutReplay (s : State) : Host.Outcome State Fault Refusal := onDevTx s (fun d => if linkLive d then replayAll d else d)

/-- COAST_IDLE_EXPIRY (R55): nothing has been carried for COAST_IDLE. -/
def coastIdleExpiry (d : Dev) : Dev :=
  if linkOn d ∧ linkState d = 2 ∧ fld d .linkCtrl 0 15 8 ≠ 0 ∧ d.link.txq = [] then
    setLinkState (modLink d (fun l => sendCtl l 0 0x10)) 3
  else d

/-- COAST_IDLE_EXPIRY. -/
def execCoastIdleExpiry (s : State) : Host.Outcome State Fault Refusal := onDev s coastIdleExpiry

/-- COAST_EXIT (R55): a packet that waits ends L-Coast. -/
def coastExit (d : Dev) : Dev :=
  if linkOn d ∧ linkState d = 3 ∧ (d.link.txq ≠ [] ∨ d.link.reads.any (fun r => decide (r.st = .queued))) then setLinkState d 2 else d

/-- COAST_EXIT. -/
def execCoastExit (s : State) : Host.Outcome State Fault Refusal := onDevTx s coastExit

/-- PARK_IDLE_EXPIRY (R56, R57): PARK_IDLE has passed in L-Coast, and nothing is on the way. -/
def parkIdleExpiry (d : Dev) : Dev :=
  if running d ∧ linkOn d ∧ linkState d = 3 ∧ fld d .linkCtrl 0 23 16 ≠ 0 ∧ linkQuiet d.link then
    modLink d (fun l => { sendCtl l 0 0x20 with parkAsked := true })
  else d

/-- PARK_IDLE_EXPIRY. -/
def execParkIdleExpiry (s : State) : Host.Outcome State Fault Refusal := onDev s parkIdleExpiry

/-- L_PARK_EXIT (R54, R56): a beacon of either side, and the relock, bring a parked link back to L0. -/
def execLParkExit (s : State) : Host.Outcome State Fault Refusal :=
  onDevTx s (fun d => if linkOn d ∧ linkState d = 4 then setLinkState d 2 else d)

/-! ## Received packets -/

/-- Bytes of data that follow the header of a packet of a type. DESIGN CHOICE: a packet of a TYPE that R45 does not list is taken to be its header
alone; the spec states no size for it. -/
def pktData (ty len : Nat) : Nat := match ty with | 0x02 | 0x04 | 0x11 => len | _ => 0

/-- The packet whose bytes stand at the front (R46). -/
def parsePkt (bs : List Byte) : Packet :=
  let h := leAt bs 0 8
  let len := bitsOf h 44 32
  { ty := bitsOf h 7 0, status := bitsOf h 47 45, len := len, tag := bitsOf h 25 16, port := bitsOf h 15 8, addr := leAt bs 8 8,
    data := sliceB bs 16 (pktData (bitsOf h 7 0) len) }

/-- A received packet that R49 drops. -/
def malformed (bs : List Byte) : Bool :=
  let h := leAt bs 0 8
  let p := parsePkt bs
  let reserved := decide (bitsOf h 63 48 ≠ 0 ∨ bitsOf h 31 26 ≠ 0)
  match p.ty with
  | 0x03 => reserved || decide (p.len ≠ 0) || decide (2 ^ 13 ≤ p.addr)
  | 0x04 => reserved || decide (p.len = 0 ∨ 256 < p.len) || decide (2 ^ 13 ≤ p.addr)
  | 0x10 | 0x11 =>
    reserved || decide (p.status ≠ 0) || decide (p.len ≠ 8) || decide (p.port ≠ 0) || (decide (p.ty = 0x11) && decide (p.tag ≠ 0)) ||
      decide (p.addr % 8 ≠ 0 ∨ p.addr < 0xF000000000 ∨ 0xF001000000 ≤ p.addr)
  | _ => true

/-- The link with credits of a class owed back to the bridge (R43). -/
def owe (l : LinkSt) (cls n : Nat) : LinkSt :=
  match cls with
  | 0 => { l with oweP := l.oweP + n }
  | 1 => { l with oweNP := l.oweNP + n }
  | _ => { l with oweCPL := l.oweCPL + n }

/-- The bridge has used credits of the device's (R43). -/
def useFar (l : LinkSt) (cls n : Nat) : LinkSt :=
  match cls with
  | 0 => { l with farP := l.farP - n }
  | 1 => { l with farNP := l.farNP - n }
  | _ => { l with farCPL := l.farCPL - n }

/-- A dropped packet is counted, and one of class NP is answered with a CPL of STATUS 1 (R49). DESIGN CHOICE: that CPL gives a remaining byte count
of 0; the spec states none. -/
def dropPkt (d : Dev) (p : Packet) : Dev :=
  let d1 := bumpLink (modLink d (fun l => owe l (pktClass p.ty) (pktCost p.data.length))) 3
  if pktClass p.ty = 1 then queuePkt d1 { ty := 3, status := 1, tag := p.tag } else d1

/-- A received packet: register transactions and completions join their queues (R47, R50). -/
def takePkt (d0 : Dev) (bs : List Byte) : Dev :=
  let p := { parsePkt bs with num := d0.link.rxNum }
  let d := modLink d0 (fun l => { useFar l (pktClass p.ty) (pktCost p.data.length) with rxNum := l.rxNum + 1 })
  if malformed bs then dropPkt d p
  else if p.ty = 3 ∨ p.ty = 4 then modLink d (fun l => { l with rxCpl := l.rxCpl ++ [p] })
  else modLink d (fun l => { l with rxReg := l.rxReg ++ [p] })

/-- The packets of received slot bytes: pad slots are skipped, a packet that continues in the next flit waits for it (R45). -/
def takeSlots : Nat → Dev → List Byte → Dev
  | 0, d, _ => d
  | k + 1, d, bs =>
    match bs with
    | [] => d
    | b :: _ =>
      if b = 0 then takeSlots k d (bs.drop 8)
      else
        let n := if bs.length < 16 then 16 else 16 + roundUp (parsePkt bs).data.length 8
        if bs.length < n then modLink d (fun l => { l with partialPkt := bs })
        else takeSlots k (takePkt d (bs.take n)) (bs.drop n)

/-- A good data flit in its place in the sequence (R40, R43, R45). -/
def acceptFlit (d : Dev) (h : Nat) (slots : List Byte) : Dev :=
  let held := d.link.partialPkt
  let d1 := modLink d (fun l => { l with
    rxSeq := l.rxSeq + 1, rxAny := true, discarding := false, partialPkt := []
    credP := l.credP + bitsOf h 11 8, credNP := l.credNP + bitsOf h 7 4, credCPL := l.credCPL + bitsOf h 3 0 })
  takeSlots 64 d1 (held ++ slots)

/-- A NAK with the last good flit (R40). -/
def sendNak (d : Dev) : Dev := modLink d (fun l => { sendCtl l 1 1 with discarding := true })

/-- A flit of 256 bytes is received (R37 to R45): a bad CRC and a gap in the sequence are answered with NAK, a duplicate is acknowledged, the
flit that is due is taken. The second component says whether an acknowledgement is owed. -/
def flitIn (f : List Byte) (d : Dev) : Dev × Bool :=
  if leAt f 252 4 ≠ (crc32 (f.take 252)).toNat then (sendNak (bumpLink d 0), false)
  else
    let h := leAt f 0 4
    let a : FlitAck := { ackSeq := BitVec.ofNat 8 (bitsOf h 23 16), ackValid := decide (bitOf h 13 = 1), nak := decide (bitOf h 12 = 1) }
    match bitsOf h 15 14 with
    | 0 =>
      let d1 := takeAck (if linkState d = 3 then setLinkState d 2 else d) a
      if !linkLive d1 then (d1, false)
      else
        let gap := (BitVec.ofNat 8 (bitsOf h 31 24) - d1.link.rxSeq).toNat
        if gap = 0 then (acceptFlit d1 h (sliceB f 4 248), true)
        else if 192 ≤ gap then (d1, true)
        else if d1.link.discarding then (d1, false)
        else (sendNak d1, false)
    | 1 =>
      match leAt f 4 1 with
      | 0x10 => (ctlRow a coastIn d, false)
      | 0x20 => (ctlRow a parkIn d, false)
      | 0x21 => (ctlRow a parkAgreed d, false)
      | 0x22 => (ctlRow a parkRefused d, false)
      | _ => (ctlRow a id d, false)
    | _ => (d, false)

/-- FLIT_RECEIVE (R30, R40): the flit is what the lanes in use bring; where nothing else carries the acknowledgement, an ACK control flit does. -/
def flitReceive (line : List LaneRx) (d : Dev) : Dev :=
  if linkLive d ∧ line.length = d.link.lanes.length then
    let r := flitIn (flitOf line) d
    let d1 := pump r.1
    if r.2 && decide (d1.link.txSeq = r.1.link.txSeq) then modLink d1 (fun l => sendCtl l 0 1) else d1
  else d

/-- FLIT_RECEIVE. -/
def execFlitReceive (line : List LaneRx) (s : State) : Host.Outcome State Fault Refusal := onDev s (flitReceive line)

/-! ## Completions of reads -/

/-- The failed read whose host address is lowest (R52). -/
def lowestBad : List (Nat × Nat) → Option (Nat × Nat)
  | [] => none
  | b :: bs => match lowestBad bs with | some x => if x.1 < b.1 then some x else some b | none => some b

/-- The command that a read of host memory belongs to: its own, that of its channel or Junction program, or the RUN_CONSIST of its Consist (R52). -/
def readCmd (d : Dev) (o : Owner) : Option Nat :=
  match o with
  | .command id _ => some id
  | .junction id _ => some id
  | .shunt ch _ _ => (match (chan d ch).src with | .dma id | .move id => some id | .kernel _ _ _ => none)
  | .params c => if (consist d c).valid then some (consist d c).cmd else none
  | _ => none

/-- The reads of a command that wait for a tag are given up: it issues no further one (R52). -/
def unaskReads (d : Dev) (id : Nat) : Dev :=
  { d with link := { d.link with reads := d.link.reads.filter (fun r => !(decide (readCmd d r.owner = some id) && decide (r.st = .queued))) } }

/-- A read has failed: its command notes it with the read's host address and issues no more, or the ring engine learns it (R52, R100, R105). -/
def readGone (d : Dev) (r : HostRead) : Dev :=
  match readCmd d r.owner with
  | some id => modCmd (unaskReads d id) id (fun c => { c with bad := c.bad ++ [(r.addr, if r.st = .timedOut then 0x0D else 4)] })
  | none => readFailure d r

/-- What an FW_UPDATE_CHUNK writes of the reads that have completed: those that lie below the failed read's address (R52, R412). -/
def chunkBelow (d : Dev) (c : Cmd) (a : Nat) : Dev :=
  if c.opcode = 0xE4 then
    d.link.reads.foldl (fun d r =>
      match r.owner with
      | .command id off =>
        if id = c.id ∧ r.st = .done ∧ r.addr + r.len ≤ a then memWrite d (slotBase (otherSlot d) + pf c 2 21 0 + off) r.got else d
      | _ => d) d
  else d

/-- What a command ends with when its reads have ended and the deciding one gives status and address (R52): its Consist's event, its channel's failure,
its Junction program's end, or its completion. -/
def readsEnd (d : Dev) (c : Cmd) (status a : Nat) : Dev :=
  match firstIdx 16 (fun ch => decide ((chan d ch).ph ≠ .idle ∧ ((chan d ch).src = .dma c.id ∨ (chan d ch).src = .move c.id))),
      d.junc.active.find? (fun p => decide (p.src = .cmd c.id)) with
  | some ch, _ => chanReadFailed d ch status a
  | none, some p => jFail d p status a
  | none, none => match consistOf d c.id with | some k => recordEvent d k status a | none => finish (fwLaysDown d c) c.id status a

/-- COMMAND_READ_FAILURE (R52): after a failed read the command issues no more, and once all its reads have ended it ends by the failed read with
the lowest address, with what has been read below it written. -/
def commandReadFailure (id : Nat) (d : Dev) : Dev :=
  let own : Owner → Bool := fun o => decide (readCmd d o = some id)
  match cmdOf d id with
  | some c =>
    match lowestBad c.bad with
    | some b =>
      let open_ := (readsOf d own).filter (fun r => decide (r.st = .sent))
      if c.st = .running ∧ open_ = [] then readsEnd (modCmd (dropReads (chunkBelow d c b.1) own) id (fun c => { c with bad := [] })) c b.2 b.1
      else unaskReads d id
    | none => d
  | none => d

/-- COMMAND_READ_FAILURE. -/
def execCommandReadFailure (id : Nat) (s : State) : Host.Outcome State Fault Refusal := onDevTx s (commandReadFailure id)

/-- The reads with one of them replaced. -/
def setRead (d : Dev) (i : Nat) (r : HostRead) : Dev := modLink d (fun l => { l with reads := l.reads.set i r })

/-- Read i ends without its data (R52); after a timeout its tag is held until its data comes and is discarded. -/
def failRead (d : Dev) (i : Nat) (r : HostRead) (st : ReadSt) : Dev :=
  if r.owner = .abandoned then
    if st = .timedOut then setRead d i { r with st := .timedOut } else modLink d (fun l => { l with reads := l.reads.eraseIdx i })
  else
    let r1 := { r with st := st }
    let d1 := setRead d i r1
    let d2 := if st = .timedOut then modLink d1 (fun l => { l with reads := l.reads ++ [{ r1 with owner := .abandoned }] }) else d1
    readGone d2 r1

/-- A completion packet of the read with its tag (R47, R52): data is taken, a failure status ends the read. DESIGN CHOICE, where the spec states
nothing: a completion whose TAG names no outstanding read is discarded and counted nowhere, and a CPL without data whose STATUS is neither 1 nor 2
is ignored, so that its read waits for the rest or for its timeout. -/
def takeCompletion (d : Dev) (p : Packet) : Dev :=
  match d.link.reads.findIdx? (fun r => decide ((r.st = .sent ∨ r.owner = .abandoned) ∧ r.tag = p.tag)) with
  | none => d
  | some i =>
    match d.link.reads[i]? with
    | none => d
    | some r =>
      if p.ty = 3 then (if p.status = 1 ∨ p.status = 2 then failRead d i r .refused else d)
      else
        let got := r.got ++ p.data.take (r.len - r.got.length)
        if got.length < r.len then setRead d i { r with got := got }
        else if r.owner = .abandoned then modLink d (fun l => { l with reads := l.reads.eraseIdx i })
        else
          let d1 := setRead d i { r with got := got, st := .done }
          match r.owner with
          | .shunt ch piece _ => shuntArrived d1 ch piece
          | _ => d1

/-- A register write that was received before a packet has not been executed: the packet may not pass it (R48). -/
def writeAhead (d : Dev) (p : Packet) : Bool := d.link.rxReg.any (fun q => decide (q.ty = 0x11 ∧ q.num < p.num))

/-- COMPLETION_RECEIVE (R47, R48): the oldest received completion is taken once every earlier register write has been, and its credits are owed
back. -/
def completionReceive (d : Dev) : Dev :=
  match d.link.rxCpl with
  | p :: ps => if writeAhead d p then d else takeCompletion (modLink d (fun l => owe { l with rxCpl := ps } 2 (pktCost p.data.length))) p
  | [] => d

/-- COMPLETION_RECEIVE. -/
def execCompletionReceive (s : State) : Host.Outcome State Fault Refusal := onDevTx s completionReceive

/-- MEM_RD_TIMEOUT (R52): 1 ms after the request with a tag its data has not fully arrived. -/
def memRdTimeout (tag : Nat) (d : Dev) : Dev :=
  match d.link.reads.findIdx? (fun r => decide (r.st = .sent ∧ r.tag = tag)) with
  | none => d
  | some i => match d.link.reads[i]? with | some r => failRead d i r .timedOut | none => d

/-- MEM_RD_TIMEOUT. -/
def execMemRdTimeout (tag : BitVec 10) (s : State) : Host.Outcome State Fault Refusal := onDevTx s (memRdTimeout tag.toNat)

end Sys2Proof.Machine
end

