-- ==== Sys2Proof/Machine/PowerRows.lean ====
section
/-!
DEFINITION. The rows of power, clocks and reset (R422 to R447, R457, and AO time of R413).
-/

namespace Sys2Proof.Machine

/-! ## Domains -/

/-- IDLE_GATE_EXPIRY (R424): a domain idle for IDLE_GATE is clock-gated. -/
def idleGateExpiry (k : Nat) (d : Dev) : Dev :=
  let v := dom d k
  if running d ∧ idles k ∧ v.st = .on ∧ !v.falling ∧ !domBusy d k ∧ fld d .pwrDomain k 15 4 ≠ 0 then setDom d k { v with st := .gated } else d

/-- IDLE_GATE_EXPIRY. -/
def execIdleGateExpiry (k : Fin 24) (s : State) : Host.Outcome State Fault Refusal := onDev s (idleGateExpiry k.val)

/-- IDLE_OFF_EXPIRY (R424): a domain idle for IDLE_OFF starts its power-down. -/
def idleOffExpiry (k : Nat) (d : Dev) : Dev :=
  let v := dom d k
  if running d ∧ idles k ∧ (v.st = .on ∨ v.st = .gated) ∧ !v.falling ∧ !domBusy d k ∧ fld d .pwrDomain k 31 16 ≠ 0 then
    setDom d k { v with falling := true, fallAt := d.cc }
  else d

/-- IDLE_OFF_EXPIRY. -/
def execIdleOffExpiry (k : Fin 24) (s : State) : Host.Outcome State Fault Refusal := onDev s (idleOffExpiry k.val)

/-- POWER_DOWN_COMPLETE (R424): 5 µs after its start a power-down ends, and an access that waited for it wakes the domain. -/
def execPowerDownComplete (k : Fin 24) (s : State) : Host.Outcome State Fault Refusal :=
  onDev s (fun d => if running d ∧ (dom d k.val).falling then powerDown d k.val else d)

/-- DOMAIN_WAKE (R425): an access to a domain that is not ON, with AUTOWAKE 1, wakes it. -/
def execDomainWake (k : Fin 24) (s : State) : Host.Outcome State Fault Refusal :=
  onDev s (fun d => if running d ∧ k.val ≠ 0 ∧ !domOn d k.val ∧ autowake d k.val then wakeDom d k.val else d)

/-- DOMAIN_READY (R423): a waking domain's wake time has passed; in Standing for one that PWR_DOMAIN.WAKE has woken. -/
def execDomainReady (k : Fin 24) (s : State) : Host.Outcome State Fault Refusal :=
  onDev s (fun d => if scanUp d ∧ (dom d k.val).st = .waking then becomeReady d k.val else d)

/-- A write of PWR_DOMAIN (R447, R486): instance 0 ignores it; WAKE wakes the domain whatever AUTOWAKE holds, in Standing too, where AOPWR is
reachable. -/
def pwrDomainWrite (d : Dev) (k : Nat) (v : Word) : Dev :=
  if k = 0 then d
  else
    let d1 := regStore d .pwrDomain k v
    if bitOf v.toNat 35 = 1 ∧ scanUp d1 then wakeDom d1 k else d1

/-! ## Profiles and clocks -/

/-- A write of PWR_CTRL: PROFILE and SLEEP act for the Signal Box alone (R430, R435, R447). -/
def pwrCtrlWrite (d : Dev) (who : Requester) (v : Word) : Dev :=
  let old := fld d .pwrCtrl 0 1 0
  let d1 := setFld (regStore d .pwrCtrl 0 v) .pwrCtrl 0 1 0 old
  if isSbox who then
    let want := bitsOf v.toNat 1 0
    let d2 := if min 2 want = min 2 old then d1 else applyProfile d1 (min 2 want) none 0
    let d3 := setFld d2 .pwrCtrl 0 1 0 want
    if bitsOf v.toNat 5 4 = 0 then d3 else sleepStart d3 (bitsOf v.toNat 5 4) none
  else d1

/-- What firmware does with a POWER_REQUEST (R430, R435): the retain mask, the profile, then the sleep sequence. -/
def powerWork (id : Nat) (c : Cmd) (d : Dev) : Dev :=
  let st := pf c 1 1 0
  let want := pf c 1 5 4
  if c.aux ≠ [] ∨ d.pwr.sleep.active ∨ d.pwr.profile.isSome then d
  else
    let d1 := modCmd d id (fun c => { c with aux := [1] })
    let d2 := if st = 0 then d1 else setFld d1 .retainMask 0 36 0 (pf c 2 36 0)
    if want = 3 then (if st = 0 then fwFinish d2 id 0 0 else sleepStart d2 st (some id))
    else applyProfile d2 want (some id) st

/-- POWER_REQUEST (R395, R430, R435). -/
def execPowerRequest (id : Nat) (s : State) : Host.Outcome State Fault Refusal := onDevTx s (fwCommand 0xE6 id true (powerWork id))

/-- PROFILE_LOWER_IN_FORCE (R430): the Rakes that Consists hold fit, those beyond the limit have been powered down, the clock has slewed, and the
lower profile is in force once the change of data rate that it asks for has ended; until then the sequencer goes on with the Rakes, and the governor with
the rate. -/
def profileLowerInForce (d : Dev) : Dev :=
  match d.pwr.profile with
  | none => d
  | some q =>
    let c := profileCeil d q.want
    if running d ∧ q.lower ∧ heldFit d q.want then
      if rakesToShed d c.2.1 = [] ∧ fld d .pwrStatus 0 34 24 ≤ c.1 ∧ d.pwr.rateNow = mcRate d ∧ d.pwr.rateStep = 0 then profileInForce d q
      else governGddr (shedRakes d)
    else d

/-- PROFILE_LOWER_IN_FORCE. -/
def execProfileLowerInForce (s : State) : Host.Outcome State Fault Refusal := onDevTx s profileLowerInForce

/-- PROFILE_RAISE_READY (R427, R430): PGOOD and PM_INT_N have been good for 1 ms; the Rakes that waited for the old limit wake. -/
def execProfileRaiseReady (s : State) : Host.Outcome State Fault Refusal :=
  onDevTx s (fun d => match d.pwr.profile with
    | some q => if running d ∧ !q.lower then serveRakeWait (profileInForce d q) else d
    | none => d)

/-- PROFILE_RAISE_TIMEOUT (R430): the old profile stays in force, PWR_CTRL.PROFILE goes back to it, and the request is refused. -/
def profileRaiseTimeout (d : Dev) : Dev :=
  match d.pwr.profile with
  | some q =>
    if running d ∧ !q.lower then
      let now := fld d .pwrStatus 0 39 38
      let d1 := loadAutowake (setFld (modPwr d (fun p => { p with profile := none })) .pwrCtrl 0 1 0 now) now
      let d2 := logBook d1 1 0x0032 [now, q.want]
      match q.cmd with
      | some id => fwFinish d2 id 2 0x0F
      | none => d2
    else d
  | none => d

/-- PROFILE_RAISE_TIMEOUT. -/
def execProfileRaiseTimeout (s : State) : Host.Outcome State Fault Refusal := onDevTx s profileRaiseTimeout

/-- CORE_PLL_SLEW (R429): the core PLL has moved for 10 µs, by 100 MHz at most. -/
def corePllSlew (d : Dev) : Dev :=
  let m := fld d .pwrStatus 0 34 24
  let t := mhzTarget d
  if running d ∧ m ≠ 0 then setMhz d (if m < t then min t (m + 100) else max t (m - 100)) else d

/-- CORE_PLL_SLEW. -/
def execCorePllSlew (s : State) : Host.Outcome State Fault Refusal := onDev s corePllSlew

/-- GOVERNOR_TICK (R389, R430, R431). -/
def execGovernorTick (s : State) : Host.Outcome State Fault Refusal := onDev s (fun d => if fwUp d then governGddr (shedRakes (governor d)) else d)

/-- XTAL_STOP (R429): AO switches to the internal oscillator. -/
def execXtalStop (s : State) : Host.Outcome State Fault Refusal := onDev s (fun d => setFld d .pwrStatus 0 35 35 0)

/-- XTAL_START (R429, R462): the crystal takes the AO clock over. -/
def execXtalStart (s : State) : Host.Outcome State Fault Refusal := onDev s (fun d => setFld d .pwrStatus 0 35 35 1)

/-! ## AO time -/

/-- The levels of GPIO[7:0] (R444, R460, R468): a pin that the device drives has the driven level, which the pad latch holds and boundary scan takes
over; the level of any other pin comes from outside. -/
def gpioLevels (d : Dev) : Nat :=
  let held := decide (fld d .padHold 0 8 8 = 1)
  let oe := if d.tap.ir = .highz then 0 else if held then d.pwr.padGpio / 256 else fld d .gpioOe 0 7 0
  let out := if held then d.pwr.padGpio % 256 else fld d .gpioOut 0 7 0
  if scanDrives d then d.tap.bound.toNat % 256 else (out &&& oe) ||| (freeVal d % 256 &&& (255 - oe % 256))

/-- What the AO block does at an AO tick beside counting: GPIO_IN takes the pins' levels, and TAMPER_A drives a new pseudo-random bit, which is free
(R452, R458, R468). -/
def aoSample (d : Dev) : Dev :=
  let d1 := tookFree (setFld d .gpioIn 0 7 0 (gpioLevels d))
  tookFree (modPwr d1 (fun p => { p with tamperA := decide (bitOf (freeVal d1) 0 = 1) }))

/-- AO_MS_TICK (R171, R413, R458, R468): 1 ms has passed in the AO domain. AO time moves on, but where PPS withholds the increment; the watchdogs count it
in any case; of the AO ticks the one at its end samples. -/
def aoMsTick (d0 : Dev) : Dev :=
  let d := aoSample d0
  let d1 := { d with consists := d.consists.map (fun e => if e.2.valid then (e.1, { e.2 with ms := e.2.ms + 1 }) else e) }
  let d2 := modPwr d1 (fun p => { p with ppsMs := p.ppsMs + 1, ppsTicks := p.ppsTicks + p.aoDiv, ppsSkip := false })
  if d.pwr.ppsSkip then d2 else setAoTime d2 ((aoTime d + 1) % 2 ^ 40)

/-- AO_MS_TICK. -/
def execAoMsTick (s : State) : Host.Outcome State Fault Refusal := onDev s aoMsTick

/-- PPS lost or regained: the device event and the Log Book, where the Signal Box runs (R403, R420). -/
def ppsEvent (d : Dev) (v : Nat) : Dev := if fwUp d then logBook (sboxEvent d 0) 1 0x0081 [v] else d

/-- PPS_EDGE (R413): the divisor takes the ticks counted since the last edge, and the ms phase is slewed toward 0 by one increment. -/
def ppsEdge (d : Dev) : Dev :=
  let ok := decide (fld d .pwrStatus 0 36 36 = 1)
  let p := d.pwr
  let div := if ok ∧ 0 < p.ppsMs then p.ppsTicks / 1000 else p.aoDiv
  let ph := aoTime d % 1000
  let d1 := modPwr d (fun p => { p with aoDiv := div, ppsMs := 0, ppsTicks := 0, ppsSeen := true,
                                        ppsSkip := p.ppsSkip || (ok && decide (0 < ph ∧ ph < 500)) })
  let d2 := setFld d1 .pwrStatus 0 36 36 1
  let d3 := if ok ∧ 500 ≤ ph then setAoTime d2 ((aoTime d + 1) % 2 ^ 40) else d2
  if !ok ∧ p.ppsSeen then ppsEvent d3 1 else d3

/-- PPS_EDGE. -/
def execPpsEdge (s : State) : Host.Outcome State Fault Refusal := onDev s ppsEdge

/-- PPS_LOSS (R413): no pulse for 3 s, by the AO clock. -/
def execPpsLoss (s : State) : Host.Outcome State Fault Refusal :=
  onDev s (fun d => if fld d .pwrStatus 0 36 36 = 1 ∧ 3000 ≤ d.pwr.ppsMs then ppsEvent (setFld d .pwrStatus 0 36 36 0) 0 else d)

/-! ## Sleep and wake -/

/-- DOMAIN_DRAIN_AGREE (R435, R436): the domain that was asked agrees: it was not ON, or it has drained and stops its clock. -/
def domainDrainAgree (d : Dev) : Dev :=
  match d.pwr.sleep.active, d.pwr.sleep.toAsk with
  | true, k :: _ =>
    let v := dom d k
    if running d then
      if v.falling then agreeHead d false
      else match v.st with
        | .on => if domDrained d k then agreeHead d true else d
        | .waking => d
        | _ => agreeHead d false
    else d
  | _, _ => d

/-- DOMAIN_DRAIN_AGREE. -/
def execDomainDrainAgree (s : State) : Host.Outcome State Fault Refusal := onDevTx s domainDrainAgree

/-- DRAIN_LIMIT_REFUSE (R435, R437): the domain that was asked has not drained within DRAIN_LIMIT. -/
def drainLimitRefuse (d : Dev) : Dev :=
  match d.pwr.sleep.active, d.pwr.sleep.toAsk with
  | true, k :: _ => if running d ∧ ((dom d k).st = .on ∨ (dom d k).st = .waking) ∧ !(domOn d k && domDrained d k) then sleepRefuse d k else d
  | _, _ => d

/-- DRAIN_LIMIT_REFUSE. -/
def execDrainLimitRefuse (s : State) : Host.Outcome State Fault Refusal := onDevTx s drainLimitRefuse

/-- SLEEP_PHASE2 (R438, R440, R444): the AO tick boundary after every domain has agreed to Stabled or Laid-up begins the window of 3 AO ticks, and
the end of that window arms the wake logic. -/
def sleepPhase2 (d : Dev) : Dev :=
  if d.pwr.window then armWake d
  else if running d ∧ d.pwr.sleep.active ∧ d.pwr.sleep.agreed then sleepEnter d
  else d

/-- SLEEP_PHASE2. -/
def execSleepPhase2 (s : State) : Host.Outcome State Fault Refusal := onDev s sleepPhase2

/-- WAKE_IGN (R439): the ignition level is recognised. -/
def execWakeIgn (s : State) : Host.Outcome State Fault Refusal :=
  onDev s (fun d => if fld d .wakeCtrl 0 0 0 = 1 then wakeSource d 0 false true else d)

/-- WAKE_AUX (R439): a level, or with AUX_EDGE an edge, of WAKE_AUX. -/
def execWakeAux (s : State) : Host.Outcome State Fault Refusal :=
  onDev s (fun d => if fld d .wakeCtrl 0 1 1 = 1 then wakeSource d 1 (decide (fld d .wakeCtrl 0 2 2 = 1)) true else d)

/-- PMIC_WAKE (R439): PM_INT_N is low. -/
def execPmicWake (s : State) : Host.Outcome State Fault Refusal :=
  onDev s (fun d => if fld d .wakeCtrl 0 6 6 = 1 then wakeSource d 4 false true else d)

/-- BEACON_DETECT (R57, R439, R440): a beacon on physical receive lane 0. -/
def execBeaconDetect (s : State) : Host.Outcome State Fault Refusal :=
  onDev s (fun d => if fld d .wakeCtrl 0 5 5 = 1 then wakeSource d 3 true false else d)

/-- STANDING_ACCESS_WAKE (R439, R487): the register transaction that waits first names a block other than CHIP and AOPWR. It then stalls, as for
AUTOWAKE 1, until the device is Running and its target is ready. -/
def standingAccessWake (d : Dev) : Dev :=
  match d.link.rxReg with
  | q :: qs =>
    if d.pwr.mode = .standing ∧ !pathUp d (q.addr - 0xF000000000) then
      startWake { d with link := { d.link with rxReg := { q with woke := true } :: qs } } 5
    else d
  | [] => d

/-- STANDING_ACCESS_WAKE. -/
def execStandingAccessWake (s : State) : Host.Outcome State Fault Refusal := onDev s standingAccessWake

/-- STANDING_EXIT (R438, R441): a wake of Standing restarts the domains and the device is Running. -/
def execStandingExit (s : State) : Host.Outcome State Fault Refusal :=
  onDevTx s (fun d => if d.pwr.mode = .standing ∧ d.pwr.wakeDue ≠ [] then standingEnds d else d)

/-- STABLED_WAKE (R443): a wake of Stabled raises PWR_EN[1], and after it PWR_EN[2]; boot follows with cause 8. -/
def execStabledWake (s : State) : Host.Outcome State Fault Refusal :=
  onDev s (fun d =>
    if d.pwr.mode = .stabled ∧ !d.pwr.window ∧ d.pwr.wakeDue ≠ [] then
      setFld (modPwr d (fun p => { p with mode := .raising, pwrEn := 11, pwrStep := 1, fromStabled := true, wakeDue := [] })) .resetCause 0 7 0 8
    else d)

/-! ## Rails and resets -/

/-- PWR_EN_RAISE (R433): PGOOD has been high, and 100 µs have passed: the next enable is raised, or after the last one the Signal Box leaves
reset, with the domains at the state that PWR_DOMAIN resets to (R447). -/
def pwrEnRaise (d : Dev) : Dev :=
  if d.pwr.mode = .raising then
    match firstIdx 4 (fun k => decide (bitOf d.pwr.pwrEn k = 0)) with
    | some k => modPwr d (fun p => { p with pwrEn := p.pwrEn + 2 ^ k, pwrStep := k })
    | none => modPwr d (fun p => { p with mode := .running, doms := [], bootDue := true, railFault := false })
  else d

/-- PWR_EN_RAISE. -/
def execPwrEnRaise (s : State) : Host.Outcome State Fault Refusal := onDev s pwrEnRaise

/-- RAIL_FAULT (R433): PGOOD is not high 2 ms after an enable was raised. -/
def execRailFault (s : State) : Host.Outcome State Fault Refusal :=
  onDev s (fun d => if d.pwr.mode = .raising then railFault d d.pwr.pwrStep else d)

/-- PGOOD_LOW (R457): a low PGOOD recognised while enables are high, with the highest enable raised. -/
def execPgoodLow (s : State) : Host.Outcome State Fault Refusal :=
  onDev s (fun d => match [3, 2, 1, 0].find? (fun k => decide (bitOf d.pwr.pwrEn k = 1)) with | some k => railFault d k | none => d)

/-- RESET_N_LOW (R445, R457): the pads are latched and the enables lowered; every domain but AO is reset. -/
def execResetNLow (s : State) : Host.Outcome State Fault Refusal :=
  onDev s (fun d => if d.pwr.mode = .pinReset then d else modPwr (allOff (mramLost (latchPads d)) .pinReset 0) (fun p => { p with railFault := false }))

/-- RESET_N_RELEASE (R457): the power sequence and boot run with cause 1. -/
def execResetNRelease (s : State) : Host.Outcome State Fault Refusal :=
  onDev s (fun d => if d.pwr.mode = .pinReset then
      setFld (modPwr d (fun p => { p with mode := .raising, pwrEn := 1, pwrStep := 0 })) .resetCause 0 7 0 1
    else d)

/-- The registers that show fuses (R398 step 1, R419, R420): CHIP_ID, the serial, the lifecycle, the rollback counter and the public key. -/
def loadFuses (o : Otp) (d : Dev) : Dev :=
  let sn := o.serial.toNat
  let d1 := setFld (setFld (setFld d .chipId 0 23 16 o.major.toNat) .chipId 0 15 8 o.minor.toNat) .chipId 0 7 0 o.grade.toNat
  let d2 := setFld (setFld d1 .chipSerialLo 0 39 0 (sn % 2 ^ 40)) .chipSerialHi 0 23 0 (sn / 2 ^ 40)
  let d3 := setFld (setFld (setFld d2 .chipLifecycle 0 1 0 o.lifecycle) .chipLifecycle 0 2 2 (b2n (decide (o.lifecycle = 2)))) .chipLifecycle 0 3 3 (b2n o.tampered)
  let key := toBE 48 o.pubX.toNat ++ toBE 48 o.pubY.toNat
  (List.range 20).foldl (fun d i => wr d .sboxPubkey i (BitVec.ofNat 40 (leAt key (5 * i) 5))) (setFld d3 .sboxFw 0 23 16 o.rollback)

/-- POWER_ON_RESET (R397, R445, R457): VDD_AO was lost and is back: all but the fuses and MRAM is reset, AO time is 0, DEBUG is clear. -/
def powerOnReset (o : Otp) (d0 : Dev) : Dev :=
  let d := mramLost d0
  loadFuses o
    { fresh := d.fresh, mem := keepMram d.mem, badUnits := keepMramUnits d.badUnits, softUnits := keepMramUnits d.softUnits, nv := d.nv,
      pwr := { mode := .raising, pwrEn := 1, pwrStep := 0, bootDue := false } }

/-- POWER_ON_RESET. -/
def execPowerOnReset (s : State) : Host.Outcome State Fault Refusal := .next { s with dev := powerOnReset s.otp s.dev }

/-- A write of RESET_CTRL: WARM with CONFIRM 0x5A makes a reset of cause 2 (R445, R447). -/
def resetCtrlWrite (d : Dev) (v : Word) : Dev :=
  if bitOf v.toNat 0 = 1 ∧ bitsOf v.toNat 39 32 = 0x5A then resetDev d 2 else d

/-! ## Pads -/

/-- A write of PAD_HOLD: RELEASE releases held groups, for the Signal Box alone (R444, R447). -/
def padHoldWrite (d : Dev) (who : Requester) (v : Word) : Dev :=
  if isSbox who then setFld d .padHold 0 9 0 (fld d .padHold 0 9 0 &&& (1023 - bitsOf v.toNat 19 10)) else d

end Sys2Proof.Machine
end

