-- ==== Sys2Proof/Machine/Sbox.lean ====
section
/-!
DEFINITION. Operations of Signal Box firmware (R394 to R421): command data, the signing engine, the Sealed Journal, firmware images, the registers
that firmware writes. The rows stand in SboxRows.lean and Boot.lean.
-/

namespace Sys2Proof.Machine

/-- The device with the Signal Box's own state changed. -/
def modSbox (d : Dev) (f : SboxSt → SboxSt) : Dev := { d with sbox := f d.sbox }

/-! ## Data of commands -/

/-- What a firmware read of a command's data gives. -/
inductive Fetched where
  /-- It waits for host memory. -/
  | wait
  /-- It failed at its first byte: status and RESULT. -/
  | fail (status result : Nat)
  /-- The bytes, and where they were cut short the failure that follows them. -/
  | data (bs : List Byte) (next : Option (Nat × Nat))
  deriving DecidableEq, Repr

/-- Host reads of a command. -/
def cmdReads (id : Nat) (o : Owner) : Bool := match o with | .command i _ => decide (i = id) | _ => false

/-- Reads n bytes at an offset from address word Pk of a command: window edges and uncorrectable lines cut it short (R74, R96). -/
def fetchData (d : Dev) (c : Cmd) (k off n : Nat) : Dev × Fetched :=
  let a := pw c k + off
  if n = 0 then (d, .data [] none)
  else if isHost c k then
    match readsOf d (cmdReads c.id) with
    | [] =>
      (match hostOut d c.port a n with
      | some x => if x = a then (d, .fail 4 x) else (hostRead d c.port a (x - a) (.command c.id off), .wait)
      | none => (hostRead d c.port a n (.command c.id off), .wait))
    | rs =>
      if rs.all (fun r => decide (r.st = .done)) then
        let bs := (rs.map (fun r => r.got)).flatten
        (dropReads d (cmdReads c.id), .data bs (if bs.length < n then some (4, a + bs.length) else none))
      else (d, .wait)
  else
    match spanFault d c.port a n with
    | none => let d1 := lookLines looker d a n; (d1, .data (memRead d1 a n) none)
    | some (st, x) => if x ≤ a then (d, .fail st x) else let d1 := lookLines looker d a (x - a); (d1, .data (memRead d1 a (x - a)) (some (st, x)))

/-- Writes bytes at an offset from address word Pk of a command; the bytes before a window's edge are written (R96). -/
def storeData (d : Dev) (c : Cmd) (k off : Nat) (bs : List Byte) : Dev × Option Nat :=
  let a := pw c k + off
  let x := wordOut d { c with p := c.p.set (k - 1) a } k bs.length
  let put := match x with | some x => bs.take (x - a) | none => bs
  let d1 := if put = [] then d else if isHost c k then hostWrite d c.port a put else (devWrite d a put).1
  (d1, x)

/-! ## Journal -/

/-- NEXT_SEQ. -/
def nextSeq (d : Dev) : Nat := (rd d .sboxJournal 0).toNat

/-- MRAM address of Journal record n (R404). -/
def recAddr (n : Nat) : Nat := 0xC000800000 + 128 * (n % 49152)

/-- State of the block slot of block b (R404). -/
def jblock (d : Dev) (b : Nat) : JBlock := mget {} d.nv.blocks (b % 768)

/-- The device with a block slot's state replaced. -/
def setJblock (d : Dev) (b : Nat) (v : JBlock) : Dev := { d with nv := { d.nv with blocks := mset {} d.nv.blocks (b % 768) v } }

/-- Block b has been started. -/
def blockStarted (d : Dev) (b : Nat) : Bool := decide (64 * b < nextSeq d)

/-- The slot of block b holds a later block already. -/
def blockGone (d : Dev) (b : Nat) : Bool := blockStarted d (b + 768)

/-- Block b counts as acknowledged (R409). -/
def blockAcked (d : Dev) (b : Nat) : Bool := blockGone d b || (blockStarted d b && (jblock d b).acked)

/-- The Journal has no room for record n (R406). -/
def journalFull (d : Dev) (n : Nat) : Bool := decide (n % 64 = 0 ∧ 768 ≤ n / 64) && !blockAcked d (n / 64 - 768)

/-- A seal is due before the next record (R406). -/
def sealDue (d : Dev) : Bool := decide (nextSeq d % 64 = 63)

/-- AO time with TIME_TRUSTED, as words of records hold it (R404). -/
def timeWord (d : Dev) : Nat := aoTime d + fld d .pwrStatus 0 14 14 * 2 ^ 40

/-- The device serial as CHIP_SERIAL shows it (R418). -/
def serialNat (d : Dev) : Nat := (rd d .chipSerialLo 0).toNat + fld d .chipSerialHi 0 23 0 * 2 ^ 40

/-- Appends a data record (R404 to R406): it is chained and written, ANCHOR is recorded at position 0, and after position 62 the seal is asked for. -/
def appendRecord (d : Dev) (kind p : Nat) (body : List Byte) : Dev :=
  let n := nextSeq d
  let bs := toLE 8 (n + kind * 2 ^ 40 + p * 2 ^ 48) ++ (toLE 8 (timeWord d) ++ sliceB body 0 64)
  let h := sha384 (d.sbox.chain ++ bs)
  let d1 := if n % 64 = 0 then setJblock d (n / 64) { anchor := d.sbox.chain } else d
  let d2 := memWrite d1 (recAddr n) (bs ++ h)
  let d3 := modSbox d2 (fun b => { b with chain := h, signQ := if n % 64 = 62 then b.signQ ++ [.seal_ (n / 64)] else b.signQ })
  wr d3 .sboxJournal 0 (BitVec.ofNat 40 (n + 1))

/-- Appends the Signal Box's own records that wait, while the Journal can take them (R406). -/
def flushEvents : Nat → Dev → Dev
  | 0, d => d
  | k + 1, d =>
    match d.sbox.events with
    | [] => d
    | b :: bs =>
      if sealDue d || journalFull d (nextSeq d) || !signOk d then d
      else flushEvents k (appendRecord (modSbox d (fun s => { s with events := bs })) 3 0 b)

/-- The Signal Box appends a record of its own, with a Log Book code and data, while signing is available (R404, R406, R413, R417). -/
def journalEvent (d : Dev) (code : Nat) (data : List Nat) : Dev :=
  if signOk d then
    let d1 := modSbox d (fun s => { s with events := s.events ++ [toLE 2 code ++ ((data.take 6).map (toLE 8)).flatten] })
    flushEvents d1.sbox.events.length d1
  else d

/-! ## The signing engine -/

/-- Bytes of SRAM that CIPHER_SIGN's ARG names. -/
def sramAt (arg : Nat) : Nat := 0xE001000000 + arg / 8 * 8

/-- M of an attestation, whose first 160 bytes are the record's (R410). -/
def attestBytes (d : Dev) (c : Nat) : List Byte :=
  let k := consist d c
  toLE 5 (aoTime d) ++ (toLE 5 k.snapshot ++ (toLE 5 k.rows ++ ([BitVec.ofNat 8 (b2n k.truncated + 2 * fld d .pwrStatus 0 14 14)] ++
    (sliceB k.digest 0 48 ++ (sliceB (k.startDigest.getD []) 0 48 ++ (sha384 k.written ++
      (sliceB (k.params.getD []) 0 256 ++ toLE 8 (c + k.port * 2 ^ 10 + k.nparams * 2 ^ 18))))))))

/-- Seal bytes 0 to 31 of block b, then ANCHOR[b] and the CHAIN of position 62 (R404, R405). -/
def sealBytes (d : Dev) (b : Nat) : List Byte :=
  toLE 8 (64 * b + 63 + 2 * 2 ^ 40) ++ (toLE 8 (timeWord d) ++ (toLE 8 b ++ (toLE 8 (serialNat d) ++
    (sliceB (jblock d b).anchor 0 48 ++ memRead d (recAddr (64 * b + 62) + 80) 48))))

/-- An operation of the signing engine begins (R421, R491). -/
def engineStart (d : Dev) (req : SignReq) (bs : List Byte) : Dev :=
  setFld (modSbox d (fun s => { s with run := some { req := req, bytes := bs } })) .cipherSignStatus 0 39 39 1

/-- Firmware hands the next request to the idle engine, and fixes its bytes then (R395, R410). A seal or an attestation that cannot be signed is given
up: the block stays unsealed, the RUN_CONSIST completes SEAL_FAILED (R98, R410, R414). -/
def kick : Nat → Dev → Dev
  | 0, d => d
  | k + 1, d =>
    if d.sbox.run.isSome ∨ !fwUp d then d
    else match d.sbox.signQ with
      | [] => d
      | r :: rs =>
        let d1 := modSbox d (fun s => { s with signQ := rs })
        match r with
        | .attest c =>
          if (consist d c).ph ≠ .signing ∨ (consist d c).event ≠ 0 then kick k d1
          else if signOk d then engineStart d1 r (attestBytes d c)
          else kick k (endConsist d1 c 0x0B (consistResult c (consist d c) false))
        | .seal_ b => if signOk d then engineStart d1 r (sealBytes d b) else kick k d1
        | .debug => engineStart d1 r (d.tap.token.getD [])
        | .timeSet id | .image id =>
          (match cmdOf d id with
          | some c => engineStart d1 r ((c.aux.drop 2).map (BitVec.ofNat 8))
          | none => kick k d1)
        | .direct _ _ => kick k d1

/-- Hands requests to the engine until it is busy or none is left. -/
def kickAll (d : Dev) : Dev := kick (d.sbox.signQ.length + 1) d

/-- A request joins the queue of the signing engine. -/
def askSign (d : Dev) (r : SignReq) : Dev := kickAll (modSbox d (fun s => { s with signQ := s.signQ ++ [r] }))

/-- The TIME_SET token at the front of some bytes verifies against the time authority's hash in the fuses (R413). -/
def tokenOk (o : Otp) (tok : List Byte) : Bool :=
  let key := sliceB tok 16 96
  decide (ofBE (sha384 key) = o.timeHash.toNat) &&
    ecdsaVerify (ofBE (key.take 48), ofBE (key.drop 48)) (ofBE (sha384 (sliceB tok 0 16 ++ toLE 8 o.serial.toNat)))
      (ofBE (sliceB tok 112 48)) (ofBE (sliceB tok 160 48))

/-- A verified token sets AO time and TIME_TRUSTED in one write (R413). -/
def trustTime (d : Dev) (tok : List Byte) : Dev := setFld (setAoTime d (leAt tok 0 5)) .pwrStatus 0 14 14 1

/-- The debug token verifies: serial, nonce and signature (R416). -/
def debugOk (o : Otp) (d : Dev) (tok : List Byte) : Bool :=
  decide (leAt tok 0 8 = o.serial.toNat) && decide (leAt tok 8 8 = d.tap.nonce.toNat) &&
    ecdsaVerify (Config.debugKeyX.toNat, Config.debugKeyY.toNat) (ofBE (sha384 (sliceB tok 0 16))) (ofBE (sliceB tok 16 48)) (ofBE (sliceB tok 64 48))

/-- The signature of an image header verifies under its own SIGNER (R411). -/
def headerSigOk (h : List Byte) : Bool :=
  ecdsaVerify (ofBE (sliceB h 128 48), ofBE (sliceB h 176 48)) (ofBE (sha384 (sliceB h 0 128))) (ofBE (sliceB h 224 48)) (ofBE (sliceB h 272 48))

/-- The running operation's result: whether it succeeded, its bytes with the signature (for a TIME_SET the time before it), and what CIPHER itself
writes (R410, R413, R421). A TIME_SET that link-down has ended sets no time (R60). -/
def signResult (o : Otp) (d : Dev) (r : SignRun) : Dev × Bool × List Byte :=
  let sign (fixed : Nat) : Dev × Bool × List Byte :=
    if signOk d then ({ d with fresh := d.fresh + 1 }, true, r.bytes.take fixed ++ ecdsaSign (ofBE (sha384 r.bytes)) d.fresh) else (d, false, [])
  match r.req with
  | .attest _ => sign 160
  | .seal_ _ => sign 32
  | .timeSet id => if tokenOk o r.bytes && (cmdOf d id).isSome then (trustTime d r.bytes, true, toLE 5 (aoTime d)) else (d, false, [])
  | .image _ => (d, headerSigOk r.bytes, [])
  | .debug => (d, debugOk o d r.bytes, [])
  | .direct op arg =>
    let a := sramAt arg
    match op with
    | 1 =>
      if signOk d then (memWrite { d with fresh := d.fresh + 1 } (a + 48) (ecdsaSign (ofBE (memRead d a 48)) d.fresh), true, [])
      else (d, false, [])
    | 2 =>
      (d, ecdsaVerify (ofBE (memRead d (a + 48) 48), ofBE (memRead d (a + 96) 48)) (ofBE (memRead d a 48)) (ofBE (memRead d (a + 144) 48))
        (ofBE (memRead d (a + 192) 48)), [])
    | 3 => let tok := memRead d a 208; if tokenOk o tok then (trustTime d tok, true, []) else (d, false, [])
    | _ => (d, false, [])

/-- The result of an ended request, taken by firmware, which clears DONE and SIGN_DONE then (R491). -/
def takeOut (d : Dev) (r : SignReq) : Option (SignOut × Dev) :=
  (d.sbox.outs.find? (fun x => decide (x.req = r))).map (fun x =>
    (x, setFld (setFld (modSbox d (fun s => { s with outs := s.outs.erase x })) .cipherSignStatus 0 38 38 0) .sboxEvent 0 10 10 0))

/-! ## Firmware images -/

/-- The image of a slot is valid but for its signature (R411). -/
def imageForm (o : Otp) (d : Dev) (k : Nat) : Bool :=
  let b := slotBase k
  let w0 := memNat d b 8
  let len := bitsOf (memNat d (b + 8) 8) 21 0
  let load := bitsOf (memNat d (b + 16) 8) 18 0
  decide (bitsOf w0 15 0 = 0x5346 ∧ bitsOf w0 23 16 = 1 ∧ len ≤ 0x300000 ∧ load ≤ 0x60000 ∧ o.rollback ≤ bitsOf w0 31 24) &&
    !memBad d b (max 512 (min len 0x300000)) &&
    decide (ofBE (sha384 (memRead d (b + 128) 96)) = o.fwHash.toNat) &&
    decide (memRead d (b + 32) 48 = sha384 (memRead d (b + 512) (len - 512)))

/-- The image of a slot is valid (R411). -/
def imageValid (o : Otp) (d : Dev) (k : Nat) : Bool := imageForm o d k && headerSigOk (memRead d (slotBase k) 512)

/-- SVN of the image in a slot. -/
def slotSvn (d : Dev) (k : Nat) : Nat := bitsOf (memNat d (slotBase k) 8) 31 24

/-! ## Registers that firmware writes -/

/-- DBG_NONCE takes a fresh value (R416). -/
def freshDebugNonce (d : Dev) : Dev := { d with fresh := d.fresh + 1, tap := { d.tap with nonce := Config.trng d.fresh } }

/-- A 256-bit number from the TRNG, by the reading of State's counter (R414). -/
def trng256 (k : Nat) : BitVec 256 := BitVec.ofNat 256 ((List.range 4).foldl (fun a i => a * 2 ^ 64 + (Config.trng (k + i)).toNat) 0)

/-- Fresh memory keys: what GDDR6 held under the old ones is lost (R377, R414, R421). -/
def genMem (d : Dev) : Dev :=
  let d1 := loseGddr d (fun _ => true)
  setFld { d1 with keys := { data := trng256 d.fresh, tweak := trng256 (d.fresh + 4) }, fresh := d.fresh + 8 } .cipherStatus 0 39 39 1

/-- A write of CIPHER_CTRL, for the Signal Box alone (R421). -/
def cipherCtrlWrite (d : Dev) (who : Requester) (v : Word) : Dev :=
  if isSbox who then
    let d1 := if bitOf v.toNat 1 = 1 then zeroiseKeys d else d
    if bitOf v.toNat 0 = 1 then genMem d1 else d1
  else d

/-- A write of CIPHER_SIGN starts an operation of an idle engine, for the Signal Box alone (R421). -/
def cipherSignWrite (d : Dev) (who : Requester) (v : Word) : Dev :=
  let op := bitsOf v.toNat 39 38
  if isSbox who ∧ op ≠ 0 ∧ d.sbox.run.isNone then engineStart d (.direct op (bitsOf v.toNat 18 0)) [] else d

/-- A write of AO_TIME, for the Signal Box alone: TIME_TRUSTED is cleared, and firmware logs it (R413). -/
def aoTimeWrite (d : Dev) (who : Requester) (v : Word) : Dev :=
  if isSbox who then
    let old := aoTime d
    let d1 := setFld (setAoTime d v.toNat) .pwrStatus 0 14 14 0
    journalEvent (logBook d1 3 0x0080 [old, v.toNat, 2]) 0x0080 [old, v.toNat, 2]
  else d

/-- A write of RING_CTRL: a change of EN from 0 to 1 samples the summary line and roster of port 0 (R101, R103). -/
def ringCtrlWrite (d : Dev) (v : Word) : Dev :=
  let d1 := regStore d .ringCtrl 0 v
  if fld d .ringCtrl 0 16 16 = 0 ∧ fld d1 .ringCtrl 0 16 16 = 1 then
    setPort d1 0 { port d1 0 with
      summary := ((rd d1 .port0SummaryLo 0).toNat + fld d1 .port0SummaryHi 0 23 0 * 2 ^ 40) / 64 * 64
      roster := ((rd d1 .port0RosterLo 0).toNat + fld d1 .port0RosterHi 0 23 0 * 2 ^ 40) / 64 * 64 }
  else d1

/-- CONFIRM (R399, R412): TRIAL is cleared, and an SVN above the rollback counter raises it. -/
def fwConfirm (s : State) : State :=
  let d := s.dev
  let svn := fld d .sboxFw 0 15 8
  let d1 := setFld { d with nv := { d.nv with trial := false } } .sboxFw 0 4 4 0
  if s.otp.rollback < svn then
    { s with otp := { s.otp with rollback := min 64 svn }
             dev := logBook (setFld d1 .sboxFw 0 23 16 (min 64 svn)) 3 0x0073 [s.otp.rollback, min 64 svn] }
  else { s with dev := d1 }

/-- A write of SBOX_FW, for the Signal Box alone (R399, R420). -/
def sboxFwWrite (s : State) (who : Requester) (v : Word) : State := if isSbox who ∧ bitOf v.toNat 24 = 1 then fwConfirm s else s

/-- A write of CHIP_LIFECYCLE: TARGET = STATE + 1 with CONFIRM 0xA5 advances the state, by port 0; the EVENT record is appended while signing is still
available, that is before the change (R417, R419). -/
def lifecycleWrite (s : State) (who : Requester) (v : Word) : State :=
  let st := s.otp.lifecycle
  let t := bitsOf v.toNat 9 8
  if who = .port0 ∧ t = st + 1 ∧ 1 ≤ st ∧ bitsOf v.toNat 39 32 = 0xA5 then
    let o := { s.otp with lifecycle := t }
    let d0 := journalEvent s.dev 0x0092 [st, t]
    let d1 := setFld (setFld d0 .chipLifecycle 0 1 0 t) .chipLifecycle 0 2 2 (b2n (decide (t = 2)))
    let d2 := if t = 3 then { d1 with nv := { d1.nv with wrapped := false } } else d1
    { s with otp := o, dev := logBook (setSignOk d2) 3 0x0092 [st, t] }
  else s

end Sys2Proof.Machine
end

