-- ==== Sys2Proof/Machine/SboxRows.lean ====
section
/-!
DEFINITION. The rows of the Signal Box, the Sealed Journal, firmware update, time, sensors, tamper, debug and the TAP (R394 to R421, R460, R461,
R491). BOOT stands in Boot.lean.
-/

namespace Sys2Proof.Machine

/-! ## The Journal -/

/-- JOURNAL_APPEND ends with a status: the bodies appended and the sequence number of the first. Where none was appended the spec names no
first record, and the number is free (R84). -/
def appendEnds (d : Dev) (c : Cmd) (status : Nat) : Dev :=
  if c.pos = 0 then fwFinish (tookFree d) c.id status (freeVal d % 2 ^ 40)
  else fwFinish d c.id status (c.pos * 2 ^ 40 + c.aux.headD 0 % 2 ^ 40)

/-- One body of a JOURNAL_APPEND, or its end (R406). No record follows until a seal that is due stands in MRAM. -/
def appendStep (c : Cmd) (d : Dev) : Dev :=
  let n := nextSeq d
  if sealDue d then (if signOk d then kickAll d else fwFinish d c.id 0x0B 0)
  else if pf c 2 15 0 ≤ c.pos then appendEnds d c 0
  else if !signOk d then fwFinish d c.id 0x0B 0
  else if journalFull d n then
    let d1 := if d.sbox.fullLogged then d else modSbox (logBook d 1 0x00A0 [n]) (fun s => { s with fullLogged := true })
    appendEnds d1 c 9
  else match fetchData d c 1 (64 * c.pos) 64 with
    | (d1, .wait) => d1
    | (d1, .fail st r) => fwFinish d1 c.id st r
    | (d1, .data bs none) =>
      kickAll (modCmd (appendRecord d1 1 c.port bs) c.id (fun k => { k with pos := k.pos + 1, aux := if k.pos = 0 then [n] else k.aux }))
    | (d1, .data _ (some e)) => fwFinish d1 c.id e.1 e.2

/-- JOURNAL_APPEND's work (R95, R406): with COUNT 0 it is DONE at once; signing must be available at its start; the sequence number of
the first record appended is kept (R84). -/
def appendWork (c : Cmd) (d : Dev) : Dev :=
  if pf c 2 15 0 = 0 then appendEnds d c 0
  else if c.bad ≠ [] then d
  else if c.aux = [] then
    if signOk d then
      let c1 := { c with aux := [0] }
      appendStep c1 (modCmd d c.id (fun _ => c1))
    else fwFinish d c.id 0x0B 0
  else appendStep c d

/-- JOURNAL_APPEND. -/
def execJournalAppend (id : Nat) (s : State) : Host.Outcome State Fault Refusal := onUnitTx s (fwCommand 0x70 id false appendWork)

/-- Export image of block b but for its records (R408). -/
def exportHead (d : Dev) (b : Nat) : List Byte := toLE 8 (b % 2 ^ 40) ++ (toLE 8 (serialNat d) ++ sliceB (jblock d b).anchor 0 48)

/-- One block of a JOURNAL_EXPORT, or its end (R408): a block that is not sealed, or overwritten, is passed over. -/
def exportWork (c : Cmd) (d : Dev) : Dev :=
  let i := c.aux.headD 0
  let b := pf c 2 39 0 + i
  let next (d : Dev) (n : Nat) : Dev := modCmd d c.id (fun k => { k with pos := k.pos + n, aux := [i + 1] })
  if pf c 3 9 0 ≤ i then fwFinish d c.id 0 c.pos
  else if !blockStarted d b || blockGone d b || !(jblock d b).sealed then next d 0
  else match firstBadLine d (recAddr (64 * b)) 8192 with
    | some l => fwFinish d c.id 7 l
    | none =>
      match storeData d c 1 c.pos (exportHead d b ++ memRead d (recAddr (64 * b)) 8192) with
      | (d1, some x) => fwFinish d1 c.id 4 x
      | (d1, none) => next (setJblock d1 b { jblock d1 b with exported := true }) 8256

/-- JOURNAL_EXPORT. -/
def execJournalExport (id : Nat) (s : State) : Host.Outcome State Fault Refusal := onUnitTx s (fwCommand 0x71 id false exportWork)

/-- JOURNAL_EXPORT_ACK's work (R409): every block of the range is acknowledged or overwritten, or sealed and exported; else nothing changes. -/
def exportAckWork (c : Cmd) (d : Dev) : Dev :=
  let bs := (List.range (pf c 2 9 0)).map (fun i => pf c 1 39 0 + i)
  if bs.all (fun b => blockAcked d b || (blockStarted d b && (jblock d b).sealed && (jblock d b).exported)) then
    let d1 := bs.foldl (fun d b => if blockGone d b then d else setJblock d b { jblock d b with acked := true }) d
    let d2 := if bs = [] then d1 else modSbox d1 (fun s => { s with fullLogged := false })
    kickAll (fwFinish (flushEvents d2.sbox.events.length d2) c.id 0 0)
  else fwFinish d c.id 2 0x0A

/-- JOURNAL_EXPORT_ACK. -/
def execJournalExportAck (id : Nat) (s : State) : Host.Outcome State Fault Refusal := onDevTx s (fwCommand 0x72 id false exportAckWork)

/-- JOURNAL_SEAL (R404 to R406): a seal that has been signed is written; the records that waited for it go on. -/
def journalSeal (d : Dev) : Dev :=
  match d.sbox.outs.findSome? (fun x => match x.req with | .seal_ b => some b | _ => none) with
  | some b =>
    if fwUp d then
      match takeOut d (.seal_ b) with
      | some (o, d1) =>
        if o.ok then
          let d2 := setJblock (memWrite d1 (recAddr (64 * b + 63)) (sliceB o.bytes 0 128)) b { jblock d1 b with sealed := true }
          let d3 := wr d2 .sboxJournal 0 (BitVec.ofNat 40 (64 * b + 64))
          kickAll (flushEvents d3.sbox.events.length d3)
        else kickAll d1
      | none => d
    else d
  | none => d

/-- JOURNAL_SEAL. -/
def execJournalSeal (s : State) : Host.Outcome State Fault Refusal := onDevTx s journalSeal

/-! ## Attestation and the signing engine -/

/-- The signed record of Consist c is delivered, and its RUN_CONSIST ends (R172): nothing is written where a byte lies outside the port's windows. -/
def attestDeliver (d : Dev) (c : Nat) (o : SignOut) : Dev :=
  let k := consist d c
  if k.ph ≠ .signing ∨ k.event ≠ 0 then d
  else if !o.ok then endConsist d c 0x0B (consistResult c k false)
  else match (if k.attestHost then hostOut d k.port k.attestAt 256 else devOut d k.port k.attestAt 256) with
    | some x => endConsist d c 4 x
    | none =>
      let d1 := if k.attestHost then hostWrite d k.port k.attestAt o.bytes else (devWrite d k.attestAt o.bytes).1
      endConsist d1 c (b2n k.truncated) (consistResult c k true)

/-- ATTESTATION_SIGN (R172, R410): firmware hands the waiting requests to the engine, and delivers the record of Consist c once it is signed. -/
def attestationSign (c : Nat) (d : Dev) : Dev :=
  if fwUp d then
    let d0 := kickAll d
    match takeOut d0 (.attest c) with
    | some (o, d1) => attestDeliver d1 c o
    | none => d0
  else d

/-- ATTESTATION_SIGN. -/
def execAttestationSign (c : ConsistIx) (s : State) : Host.Outcome State Fault Refusal := onUnitTx s (attestationSign c.val)

/-- Firmware has a use for the result of a request. -/
def wanted (d : Dev) (r : SignReq) : Bool :=
  match r with
  | .timeSet id | .image id => (cmdOf d id).isSome
  | .direct _ _ => false
  | _ => true

/-- SIGN_DONE (R421, R491): the engine's operation ends. A debug token that fails gives a fresh nonce (R416); the next request follows. -/
def signDone (o : Otp) (d : Dev) : Dev :=
  match d.sbox.run with
  | none => d
  | some r =>
    if running d then
      let x := signResult o d r
      let d1 := modSbox x.1 (fun s => { s with
        run := none, outs := if wanted d r.req then s.outs ++ [{ req := r.req, ok := x.2.1, bytes := x.2.2 }] else s.outs })
      let d2 := sboxEvent (setFld d1 .cipherSignStatus 0 39 37 (2 + b2n x.2.1)) 10
      let d3 := match r.req with
        | .debug =>
          let d3 := { d2 with tap := { d2.tap with token := none, valid := x.2.1 } }
          if x.2.1 then d3 else freshDebugNonce d3
        | _ => d2
      kickAll d3
    else d

/-- SIGN_DONE. -/
def execSignDone (s : State) : Host.Outcome State Fault Refusal := onDevTx s (signDone s.otp)

/-- A write of CIPHER_SIGN with a given OP. -/
def signRow (op : Nat) (who : Requester) (v : Word) (d : Dev) : Dev :=
  if bitsOf v.toNat 39 38 = op then viaPath d who 0xD00010 (fun d => cipherSignWrite d who v) else d

/-! ## Time -/

/-- A TIME_SET is refused (R403, R413). -/
def timeRefused (d : Dev) (c : Cmd) : Dev :=
  fwFinish (freshNonce (logBook d 3 0x0080 [aoTime d, pf c 1 39 0, 0])) c.id 0x0B 0

/-- TIME_SET's work (R413): TOKEN_BYTES, TIME and NONCE are checked, the token goes to the signing engine, and the outcome is logged. -/
def timeSetWork (c : Cmd) (d : Dev) : Dev :=
  if c.bad ≠ [] then d
  else if c.aux = [] then
    if pf c 3 9 0 < 208 then timeRefused d c
    else match fetchData d c 2 0 208 with
      | (d1, .wait) => d1
      | (d1, .fail st r) => fwFinish (freshNonce d1) c.id st r
      | (d1, .data _ (some e)) => fwFinish (freshNonce d1) c.id e.1 e.2
      | (d1, .data tok none) =>
        if leAt tok 0 5 = pf c 1 39 0 ∧ leAt tok 8 5 = (rd d1 .sboxNonce 0).toNat then
          askSign (modCmd d1 c.id (fun k => { k with aux := 1 :: 0 :: tok.map (fun b => b.toNat) })) (.timeSet c.id)
        else timeRefused d1 c
  else match takeOut d (.timeSet c.id) with
    | none => kickAll d
    | some (o, d1) =>
      if o.ok then
        let data := [leAt o.bytes 0 5, pf c 1 39 0, 1]
        kickAll (fwFinish (freshNonce (journalEvent (logBook d1 3 0x0080 data) 0x0080 data)) c.id 0 0)
      else kickAll (timeRefused d1 c)

/-- TIME_SET. -/
def execTimeSet (id : Nat) (s : State) : Host.Outcome State Fault Refusal := onUnitTx s (fwCommand 0x78 id false timeSetWork)

/-! ## Firmware update -/

/-- A chunk clears the slot's VERIFIED state and cancels its pending activation (R412). -/
def chunkClears (d : Dev) : Dev :=
  let d1 := if fld d .sboxFw 0 2 2 = 1 then
      { d with nv := { d.nv with selected := fld d .sboxFw 0 0 0, trial := decide (fld d .sboxFw 0 4 4 = 1), tries := fld d .sboxFw 0 7 5 } }
    else d
  setFld d1 .sboxFw 0 3 2 0

/-- The check of an image has ended (R403, R412): VERIFIED and RESULT bit 0 where it is valid. -/
def imageChecked (d : Dev) (c : Cmd) (ok : Bool) : Dev :=
  let d1 := logBook d 0 0x0070 [otherSlot d, b2n ok, slotSvn d (otherSlot d)]
  kickAll (fwFinish (if ok then setFld d1 .sboxFw 0 3 3 1 else d1) c.id 0 (b2n ok))

/-- FW_UPDATE_CHUNK's work (R95, R412): with BYTES 0 it is DONE at once; the chunk is written piece by piece up to the end of the slot; with LAST the
image is checked after it. -/
def chunkWork (o : Otp) (c : Cmd) (d0 : Dev) : Dev :=
  if pf c 3 16 0 = 0 then fwFinish d0 c.id 0 0
  else if c.bad ≠ [] then d0
  else
    let d := if c.aux = [] then modCmd (chunkClears d0) c.id (fun k => { k with aux := [1] }) else d0
    let off := pf c 2 21 0
    let total := min (pf c 3 16 0) (0x300000 - off)
    let base := slotBase (otherSlot d)
    if c.pos < total then
      let n := min (total - c.pos) 4096
      let put (d : Dev) (bs : List Byte) : Dev :=
        modCmd (memWrite d (base + off + c.pos) bs) c.id (fun k => { k with pos := k.pos + bs.length })
      match fetchData d c 1 c.pos n with
      | (d1, .wait) => d1
      | (d1, .fail st r) => fwFinish d1 c.id st r
      | (d1, .data bs none) => put d1 bs
      | (d1, .data bs (some e)) => fwFinish (put d1 bs) c.id e.1 e.2
    else if total < pf c 3 16 0 then fwFinish d c.id 4 (base + 0x300000)
    else if pf c 4 0 0 = 0 then fwFinish d c.id 0 0
    else if c.aux.length ≤ 1 then
      if imageForm o d (otherSlot d) then
        askSign (modCmd d c.id (fun k => { k with aux := 1 :: 0 :: (memRead d base 512).map (fun b => b.toNat) })) (.image c.id)
      else imageChecked d c false
    else match takeOut d (.image c.id) with
      | none => kickAll d
      | some (x, d1) => imageChecked d1 c x.ok

/-- FW_UPDATE_CHUNK. -/
def execFwUpdateChunk (id : Nat) (s : State) : Host.Outcome State Fault Refusal := onUnitTx s (fwCommand 0xE4 id true (chunkWork s.otp))

/-- FW_ACTIVATE's work (R412): the verified slot is selected on trial; the reset of REBOOT follows the completion. -/
def activateWork (c : Cmd) (d : Dev) : Dev :=
  if fld d .sboxFw 0 3 3 = 0 then fwFinish d c.id 2 9
  else
    let data := [otherSlot d, slotSvn d (otherSlot d)]
    let d1 := setFld { d with nv := { d.nv with selected := otherSlot d, trial := true, tries := 0 } } .sboxFw 0 2 2 1
    kickAll (fwFinish (logBook (journalEvent d1 0x0071 data) 3 0x0071 data) c.id 0 0)

/-- FW_ACTIVATE. -/
def execFwActivate (id : Nat) (s : State) : Host.Outcome State Fault Refusal := onDevTx s (fwCommand 0xE5 id true activateWork)

/-- A write at a register offset whose effect reaches the fuses, by the way of every register write. -/
def viaPathS (s : State) (who : Requester) (off : Nat) (f : State → State) : State :=
  if mayWrite s.dev who && pathUp s.dev off then
    match regWay s.dev off with
    | .open_ => f s
    | .waits k => { s with dev := wakeDom s.dev k }
    | .shut => s
  else s

/-! ## Log Book and sensors -/

/-- LOG_READ's work (R402): an entry in each step. -/
def logReadWork (c : Cmd) (d : Dev) : Dev :=
  if pf c 3 15 0 ≤ c.pos then fwFinish d c.id 0 (fld d .sboxLog 0 14 0)
  else
    let a := 0xC000600000 + 64 * ((pf c 2 14 0 + c.pos) % 32768)
    match firstBadLine d a 64 with
    | some l => fwFinish d c.id 7 l
    | none =>
      match storeData d c 1 (64 * c.pos) (memRead d a 64) with
      | (d1, some x) => fwFinish d1 c.id 4 x
      | (d1, none) => modCmd d1 c.id (fun k => { k with pos := k.pos + 1 })

/-- LOG_READ. -/
def execLogRead (id : Nat) (s : State) : Host.Outcome State Fault Refusal := onUnitTx s (fwCommand 0xE7 id true logReadWork)

/-- The record of a sensor (R401). -/
def sensorRecord (d : Dev) (i : Nat) : List Byte :=
  toLE 2 (fld d .sboxSensor i 15 0) ++ ([BitVec.ofNat 8 i, BitVec.ofNat 8 (fld d .sboxSensor i 39 38)] ++ toLE 4 (d.pwr.sampleTime % 2 ^ 32))

/-- SENSOR_READ's work (R401): the records of the selected sensors in rising order. -/
def sensorReadWork (c : Cmd) (d : Dev) : Dev :=
  let sel := idxWhere 41 (fun i => decide (bitOf (pw c 2) i = 1))
  match storeData d c 1 0 ((sel.map (sensorRecord d)).flatten) with
  | (d1, some x) => fwFinish d1 c.id 4 x
  | (d1, none) => fwFinish d1 c.id 0 sel.length

/-- SENSOR_READ. -/
def execSensorRead (id : Nat) (s : State) : Host.Outcome State Fault Refusal := onUnitTx s (fwCommand 0xE8 id true sensorReadWork)

/-- Nominal voltage of sensors 24 to 35 in mV (R400, R448). -/
def nominal (i : Nat) : Nat :=
  if i ≤ 26 then 750 else if i ≤ 29 then 800 else if i ≤ 32 then 900 else if i ≤ 34 then 1350 else 1800

/-- How far sensor i is from its normal state, and its warning limit, alarm limit and hysteresis, in one unit (R400). -/
def sensorLimits (d : Dev) (i : Nat) (v : BitVec 16) : Int × Int × Int × Int :=
  if i < 24 then (v.toInt, ((throttleC d : Nat) : Int) * 16 - 160, 2000, 32)
  else if i < 36 then
    let n : Int := (nominal i : Nat)
    ((((v.toNat : Nat) : Int) - n).natAbs * 100, 5 * n, 8 * n, n)
  else if i < 40 then (v.toInt.natAbs, 500, 2000, 100)
  else (if v ≠ 0 ∧ fld d .chipLifecycle 0 2 2 = 1 then 1 else 0, 2, 1, 0)

/-- State of sensor i after a sample: 3 where the sensor has failed; otherwise it enters a state at its limit and leaves it once it is back past the
limit by the hysteresis, and a stopped clock is an alarm (R400, R401). DESIGN CHOICE: a sensor that works again is judged as from the normal state. -/
def sensorState (d : Dev) (i : Nat) (x : SensorIn) : Nat :=
  let old := fld d .sboxSensor i 39 38
  let l := sensorLimits d i x.value
  let was (k : Nat) : Bool := decide (k ≤ old ∧ old ≠ 3)
  if x.failed then 3
  else if (36 ≤ i ∧ i < 40 ∧ x.stopped) ∨ l.2.2.1 ≤ l.1 ∨ (was 2 ∧ l.2.2.1 - l.2.2.2 < l.1) then 2
  else if l.2.1 ≤ l.1 ∨ (was 1 ∧ l.2.1 - l.2.2.2 < l.1) then 1
  else 0

/-- One sensor takes its sample (R400); a REFCLK that has stopped takes the link down. -/
def sensorStep (d : Dev) (i : Nat) (x : SensorIn) : Dev :=
  let old := fld d .sboxSensor i 39 38
  let new := sensorState d i x
  let d1 := setFld (setFld d .sboxSensor i 15 0 x.value.toNat) .sboxSensor i 39 38 new
  let d2 := if old = new then d1 else logBook (sboxEvent d1 8) 1 0x0060 [i, old, new, x.value.toNat]
  if i = 37 ∧ x.stopped then (if 2 ≤ linkState d2 then linkDown d2 else trainFail d2) else d2

/-- SENSOR_SAMPLE (R400): THERM_ALERT_N is asserted while a thermal sensor is in alarm. -/
def sensorSample (samples : List SensorIn) (d : Dev) : Dev :=
  if fwUp d then
    let d1 := (samples.take 41).zipIdx.foldl (fun d e => sensorStep d e.2 e.1) d
    modPwr d1 (fun p => { p with
      sampleTime := aoTime d, thermAlert := (List.range 24).any (fun i => decide (fld d1 .sboxSensor i 39 38 = 2)) })
  else d

/-- SENSOR_SAMPLE. -/
def execSensorSample (samples : List SensorIn) (s : State) : Host.Outcome State Fault Refusal := onDev s (sensorSample samples)

/-! ## Tamper and debug -/

/-- The warm reset of a tamper response while the rails are down: what Stabled has kept is reset, and the device stays as it is, since the response wakes
nothing (R415, R439, R445). -/
def resetAsleep (d : Dev) : Dev :=
  let keep (p : PwrSt) : PwrSt := { p with mode := d.pwr.mode, doms := d.pwr.doms, pwrEn := d.pwr.pwrEn, pwrStep := d.pwr.pwrStep, bootDue := false,
                                           window := d.pwr.window, wakeDue := d.pwr.wakeDue, railFault := d.pwr.railFault }
  setFld (modPwr (resetDev d 4) keep) .pwrStatus 0 18 15 0

/-- TAMPER_RESPONSE (R415, R439): the AO block has found TAMPER_B other than TAMPER_A. The keys are zeroised, the fuse is burnt, the Log Book entry is
written, now or, where firmware does not keep the Log Book then, at the next boot, and a warm reset follows; in Stabled and Laid-up the device does not
wake. -/
def tamperResponse (mesh : BitVec 16) (s : State) : State :=
  let d := s.dev
  if fld d .chipLifecycle 0 2 2 = 1 ∧ (mesh = 1 ∨ mesh = 2) then
    let d1 := setSignOk (setFld (zeroiseKeys d) .chipLifecycle 0 3 3 1)
    let due (d : Dev) : Dev := modPwr d (fun p => { p with tamperDue := some mesh.toNat })
    let d2 := match d.pwr.mode with
      | .running => resetDev (if fwUp d ∧ d.sbox.logOn then logBook (sboxEvent d1 9) 3 0x0090 [mesh.toNat] else due d1) 4
      | .standing => resetDev (due d1) 4
      | .stabled => resetAsleep (due d1)
      | _ => due d1
    { s with otp := { s.otp with tampered := true }, dev := d2 }
  else s

/-- TAMPER_RESPONSE. -/
def execTamperResponse (mesh : BitVec 16) (s : State) : Host.Outcome State Fault Refusal := .next (tamperResponse mesh s)

/-- The device with an instruction of the TAP in force; the scan that loads it shifts out 0b00001 (R460). -/
def setIr (d : Dev) (i : TapIr) : Dev := { d with tap := { d.tap with ir := i, irOut := 0b00001 } }

/-- The instruction that a code of the instruction register names: codes that the table does not list act as BYPASS (R460). -/
def tapIr (code : Nat) : TapIr :=
  match code with
  | 0x00 => .extest | 0x01 => .samplePreload | 0x02 => .idcode | 0x03 => .clamp | 0x04 => .highz
  | 0x10 => .dbgNonce | 0x11 => .dbgToken | 0x12 => .dbgStatus | 0x18 => .dbgAccess | _ => .bypass

/-- What DBG_STATUS captures (R461): BUSY, the last token's outcome, DEBUG and STATE. -/
def dbgStatusWord (d : Dev) : BitVec 8 :=
  BitVec.ofNat 8 (b2n d.tap.token.isSome + b2n d.tap.valid * 2 + fld d .chipLifecycle 0 4 4 * 4 + fld d .chipLifecycle 0 1 0 * 8)

/-- DBG_TOKEN (R416, R461): Update-DR starts the check of the token, unless one runs. -/
def dbgToken (token : List Byte) (d : Dev) : Dev :=
  let d1 := setIr d .dbgToken
  if fwUp d ∧ d.tap.token.isNone then askSign { d1 with tap := { d1.tap with token := some (sliceB token 0 112), valid := false } } .debug else d1

/-- DBG_TOKEN. -/
def execDbgToken (token : List Byte) (s : State) : Host.Outcome State Fault Refusal := onDev s (dbgToken token)

/-- DEBUG_UNLOCK (R416): a token that verified zeroises the keys, sets DEBUG, writes the Log Book entry and makes a warm reset. -/
def debugUnlock (d : Dev) : Dev :=
  if fwUp d then
    match takeOut d .debug with
    | some (o, d1) =>
      if o.ok then
        resetDev (logBook (setSignOk (setFld (zeroiseKeys d1) .chipLifecycle 0 4 4 1)) 3 0x0091 [d.tap.nonce.toNat]) 5
      else d1
    | none => d
  else d

/-- DEBUG_UNLOCK. -/
def execDebugUnlock (s : State) : Host.Outcome State Fault Refusal := onDev s debugUnlock

/-! ## The TAP -/

/-- The word of IDCODE (R460). -/
def idcodeWord (d : Dev) : BitVec 32 := BitVec.ofNat 32 (fld d .chipId 0 23 16 % 16 * 2 ^ 28 + 0x0740 * 2 ^ 12 + 0x7A5 * 2 + 1)

/-- An instruction of the TAP is loaded and its data register captured (R460, R461): the boundary-scan instructions work in Running and Standing alone;
SAMPLE/PRELOAD loads the boundary-scan register with what is shifted in, which is free; IDCODE, DBG_NONCE and DBG_STATUS capture what they show. -/
def tapLoad (d : Dev) (i : TapIr) : Dev :=
  let d1 := setIr d i
  match i with
  | .extest | .clamp => if scanUp d then d1 else d
  | .samplePreload => if scanUp d then tookFree { d1 with tap := { d1.tap with bound := Config.freeWord d.fresh } } else d
  | .idcode => { d1 with tap := { d1.tap with idcode := idcodeWord d } }
  | .dbgNonce => { d1 with tap := { d1.tap with shown := d.tap.nonce } }
  | .dbgStatus => { d1 with tap := { d1.tap with shown := (dbgStatusWord d).setWidth 64 } }
  | .highz | .dbgToken | .dbgAccess | .bypass => d1

/-- EXTEST (R460): the boundary-scan register drives the pins. -/
def execExtest (s : State) : Host.Outcome State Fault Refusal := onDev s (fun d => tapLoad d .extest)

/-- SAMPLE/PRELOAD (R460). -/
def execSamplePreload (s : State) : Host.Outcome State Fault Refusal := onDev s (fun d => tapLoad d .samplePreload)

/-- IDCODE (R460): the data register captures the part's code. -/
def execIdcode (s : State) : Host.Outcome State Fault Refusal := onDev s (fun d => tapLoad d .idcode)

/-- CLAMP (R460): the pins hold the boundary-scan values. -/
def execClamp (s : State) : Host.Outcome State Fault Refusal := onDev s (fun d => tapLoad d .clamp)

/-- HIGHZ (R460): every output is high impedance. -/
def execHighz (s : State) : Host.Outcome State Fault Refusal := onDev s (fun d => tapLoad d .highz)

/-- BYPASS (R460). -/
def execBypass (s : State) : Host.Outcome State Fault Refusal := onDev s (fun d => tapLoad d .bypass)

end Sys2Proof.Machine
end

