-- ==== Sys2Proof/Machine/Boot.lean ====
section
/-!
DEFINITION. BOOT (R398, R399, R407, with R35, R136, R387, R388, R402, R443): what ROM and Signal Box firmware do from the reset of the Signal Box
until the device is ready, as one step.
-/

namespace Sys2Proof.Machine

/-! ## The Log Book at boot -/

/-- Entries of the Log Book that hold anything, by index. -/
def logListed (d : Dev) : List Nat :=
  (d.mem.filter (fun e => decide (0xC000600000 ≤ e.1 ∧ e.1 < 0xC000800000))).foldl (fun l e => sins l ((e.1 - 0xC000600000) / 64)) []

/-- NUMBER of the entry at an index (R402). -/
def logNumber (d : Dev) (i : Nat) : Nat := memNat d (0xC000600000 + 64 * (i % 32768) + 8) 4

/-- NUMBER of the next entry: one more than that of the newest, whose next index does not hold its NUMBER plus one (R402). -/
def logHead (d : Dev) : Nat :=
  match (logListed d).find? (fun i => decide (logNumber d i % 32768 = i ∧ logNumber d (i + 1) ≠ (logNumber d i + 1) % 2 ^ 32)) with
  | some i => logNumber d i + 1
  | none => 0

/-- The part has been provisioned and its Log Book holds nothing yet: the lifecycle change into PROVISIONED is its first entry (R402, R417). -/
def firstEntry (o : Otp) (d : Dev) : Bool := decide (1 ≤ o.lifecycle) && (logListed d).isEmpty

/-- Provisioning has made the signing key inside the device: at the part's first boot after it MRAM holds the key wrapped, and the fuses its public key
(R414, R417, R420; log entry 86). -/
def provisioned (first : Bool) (s : State) : State :=
  if first ∧ (s.otp.lifecycle = 1 ∨ s.otp.lifecycle = 2) then
    { s with otp := { s.otp with pubX := BitVec.ofNat 384 devicePub.1, pubY := BitVec.ofNat 384 devicePub.2 }
             dev := { s.dev with nv := { s.dev.nv with wrapped := true } } }
  else s

/-- Firmware takes the Log Book up: past BLANK it writes entries from the head on, the first of them that of the change into PROVISIONED (R402,
R417, R420). -/
def takeLog (o : Otp) (d : Dev) : Dev :=
  let n := logHead d
  let start (d : Dev) : Dev := if firstEntry o d then logBook d 3 0x0092 [0, 1] else d
  start <| setFld (modSbox d (fun s => { s with logOn := decide (1 ≤ o.lifecycle), logNext := n })) .sboxLog 0 14 0 (if n = 0 then 0 else (n - 1) % 32768)

/-! ## The slot -/

/-- The slot that ROM chooses, with the boot selection record as it stands after, and whether a trial was reverted (R399). -/
def chooseSlot (o : Otp) (d : Dev) : NvSt × Bool × Option Nat :=
  let v := d.nv
  let revert := v.trial && decide (3 ≤ v.tries)
  let s := if revert then 1 - v.selected else v.selected
  let v1 := if revert then { v with selected := s, trial := false } else if v.trial then { v with tries := v.tries + 1 } else v
  (v1, revert, if imageValid o d s then some s else if imageValid o d (1 - s) then some (1 - s) else none)

/-- The image of slot s is copied into SRAM and the Signal Box core starts at its ENTRY; SBOX_FW shows it (R398 steps 3 and 5, R420). -/
def startImage (d : Dev) (s : Nat) : Dev :=
  let b := slotBase s
  let d1 := memWrite d 0xE001000000 (memRead d (b + 512) (bitsOf (memNat d (b + 16) 8) 18 0))
  let d2 := setCore d1 32 { coreDefault 32 with cells := (core d1 32).cells, pc := 0xE001000000 + bitsOf (memNat d (b + 24) 8) 18 0 }
  let d3 := setFld (setFld (setFld d2 .sboxFw 0 15 8 (slotSvn d s)) .sboxFw 0 7 5 d.nv.tries) .sboxFw 0 3 0 s
  setFld d3 .sboxFw 0 4 4 (b2n (d.nv.trial && decide (d.nv.selected = s)))

/-- The working copy of the signing key, unless R414 forbids it (R398 step 4). -/
def unwrapKey (d : Dev) : Dev :=
  let st := fld d .chipLifecycle 0 1 0
  let ok := d.nv.wrapped && decide ((st = 1 ∨ st = 2) ∧ fld d .chipLifecycle 0 3 3 = 0 ∧ fld d .chipLifecycle 0 4 4 = 0)
  setSignOk (setFld d .cipherStatus 0 38 38 (b2n ok))

/-- The Log Book entries of a boot (R398 step 6, R403, R415), among them those of the power states that the device has left, and of one that a rail fault
ended. -/
def bootLog (d : Dev) (s : Nat) (revert : Bool) : Dev :=
  let cause := fld d .resetCause 0 7 0
  let kind := if cause = 8 then 2 else if 1 ≤ cause ∧ cause ≤ 6 then 1 else 0
  let d1 := if revert then logBook d 3 0x0072 [d.nv.selected] else d
  let d2 := logBook d1 0 0x0001 [s, slotSvn d s, kind, cause]
  let d3 := if cause = 6 then logBook d2 2 0x0002 [fld d .resetCause 0 15 8, (rd d .resetPc 0).toNat] else d2
  let d4 := match d.pwr.tamperDue with | some m => logBook d3 3 0x0090 [m] | none => d3
  let p := fld d .pwrStatus 0 39 38
  let d5 := match d.pwr.fell with | some k => logBook d4 0 0x0031 [k, 3, p] | none => d4
  if cause = 8 then logBook d5 0 0x0031 [2, 0, p] else if cause = 7 ∨ cause = 9 then logBook d5 0 0x0031 [3, 0, p] else d5

/-! ## Power, GDDR6 and the link -/

/-- GDDR6 was kept: the boot resumes from Stabled with its keys (R443). -/
def gddrKept (d : Dev) : Bool := d.pwr.fromStabled && d.pwr.aoKeys.isSome

/-- The Rakes have been OFF, which keeps nothing of them; from Stabled what RETAIN_MASK kept stays (R321, R423, R434). -/
def rakesOff (d : Dev) : Dev :=
  let rake : Nat → Bool := fun a => match regionOf d a with | .store _ | .imem _ => true | _ => false
  if d.pwr.fromStabled then d
  else { d with
    mem := d.mem.filter (fun e => !rake e.1), cores := d.cores.filter (fun e => decide (e.1 = 32))
    badUnits := d.badUnits.filter (fun u => !rake (16 * u)), softUnits := d.softUnits.filter (fun u => !rake (16 * u)) }

/-- Domains after step 7: RAKE0 to SHUNT and the controllers of unused channels are OFF, the others ON; the core PLL runs at its target (R398, R429). -/
def bootDomains (d0 : Dev) : Dev :=
  let d := rakesOff d0
  let d1 := ([4, 5, 6, 7, 8, 9, 10, 11, 12, 13, 14] ++ (List.range' 15 8).filter (fun k => !(mcDoms d).contains k)).foldl
    (fun d k => setDom d k { st := .off }) d
  setFld (setFld (setRate (setMhz d1 (mhzTarget d1)) (mcRate d1)) .pwrStatus 0 23 19 (mcRate d1)) .pwrStatus 0 37 37 0

/-- The memory keys: taken back from the AO key store, or made fresh (R398 step 7, R443). -/
def bootKeys (d : Dev) : Dev :=
  let d1 := if gddrKept d then setFld { d with keys := d.pwr.aoKeys.getD {} } .cipherStatus 0 39 39 1 else genMem d
  modPwr d1 (fun p => { p with aoKeys := none })

/-- The data rates that the profiles run at (R24, R387 step 9). -/
def profileRates (d : Dev) : List Nat :=
  ([0, 1, 2].map (fun p => min (max 12 (min 20 (fld d .mcGlobal 0 4 0))) (profileCeil d p).2.2)).eraseDups

/-- Values are saved for every lane of a channel at the rate in force. -/
def lanesSaved (d : Dev) (ch : Nat) : Bool := (List.range 31).all (fun j => (mget none (savedLanes d d.pwr.rateNow) (ch * 31 + j)).isSome)

/-- The lanes of a channel at a warm boot: the saved values, with the WCK phase that OP 3 finds (R388). -/
def warmLanes (d : Dev) (ch : Nat) : Dev :=
  let d1 := loadLanes d ch
  tookFree (setFld d1 .mcLane (ch * 31 + 30) 15 8 (bitsOf (foundLane d1 (ch * 31 + 30)).toNat 15 8))

/-- Firmware writes the device mode registers, with the values that its board asks for (R387 step 3). -/
def writeModeRegs (d : Dev) (ch : Nat) : Dev :=
  setMc d ch { mcChan d ch with modeRegs := (List.range 16).foldl (fun m k => mset 0 m k (Config.modeValue k).toNat) (mcChan d ch).modeRegs }

/-- Step 8 of R387: EDC_EN is set, and OP 6 with ITER 4,096 writes its test rows and sets a FAIL bit for each lane that miscompares. The row that
firmware names and the outcome are free. -/
def verifyRun (d : Dev) (ch : Nat) : Dev :=
  let row := freeVal d % 256
  let d1 := setFld (setFld (setFld d .mcCtrl (ch / 2) 7 7 1) .mcTrainCtrl ch 31 16 4096) .mcTrainCtrl ch 15 8 row
  let d2 := patternRows (tookFree d1) ch row
  setFld (tookFree d2) .mcTrainRes ch 19 0 (freeVal d2 % 2 ^ 20)

/-- Steps 4 and 5 of a cold training: the delays of the CA lanes and the WCK phase (R387). -/
def findCa (d : Dev) (ch : Nat) : Dev :=
  tookFree ((List.range' 20 11).foldl (fun d j => setFld d .mcLane (ch * 31 + j) 15 8 (bitsOf (foundLane d (ch * 31 + j)).toNat 15 8)) d)

/-- Steps 6 to 9 of a cold training at one rate: the data lanes are swept and verified, and every lane value is saved with the rate (R387). -/
def trainRate (ch : Nat) (d : Dev) (rate : Nat) : Dev :=
  let d1 := tookFree ((List.range 20).foldl (fun d j => wr d .mcLane (ch * 31 + j) (foundLane d (ch * 31 + j))) d)
  (List.range 31).foldl (fun d j => keepLane d rate (ch * 31 + j) (rd d .mcLane (ch * 31 + j))) (verifyRun d1 ch)

/-- A cold training of a channel: steps 4 and 5 once, steps 6 to 9 at each rate, and then the values of the rate in force are loaded (R387). DESIGN
CHOICE: a channel that fails its verify step cold stays in use, with the FAIL bits in MC_TRAIN_RES; the spec names nothing further (log entry 135). -/
def coldLanes (d : Dev) (ch : Nat) : Dev := loadLanes ((profileRates d).foldl (trainRate ch) (findCa d ch)) ch

/-- Training of a channel at boot, in STATE 1: warm where values are saved, and cold without them or where the warm verify step fails (R387, R388). -/
def trainChannel (d : Dev) (ch : Nat) : Dev :=
  let d1 := writeModeRegs (setMcState d ch 1) ch
  if lanesSaved d1 ch then
    let d2 := verifyRun (warmLanes d1 ch) ch
    if fld d2 .mcTrainRes ch 19 0 = 0 then d2 else coldLanes d2 ch
  else coldLanes d1 ch

/-- A channel in use becomes ready, with its controller's CK_EN and RESET_REL set and SELF_REF clear: trained, or, from Stabled, with the saved lane
values loaded and no OP 6 (R387, R443). -/
def bootChannel (kept : Bool) (d : Dev) (ch : Nat) : Dev :=
  let d1 := setFld d .mcCtrl (ch / 2) 2 0 3
  setMcState (if kept then setFld (loadLanes d1 ch) .mcCtrl (ch / 2) 7 7 1 else trainChannel d1 ch) ch 2

/-- GDDR6 is trained, or its self-refresh ends; traffic is let through, the Column Cache is on, the pads are released (R337, R379, R387, R443,
R444). Firmware writes MC_GLOBAL for its board in both cases: the controllers kept nothing while they were off. -/
def bootGddr (d : Dev) : Dev :=
  let kept := gddrKept d
  let d2 := bootKeys (bootDomains (setFld d .mcGlobal 0 22 0 Config.boardGlobal.toNat))
  let d3 := startFrames (setFld ((channels d2).foldl (bootChannel kept) d2) .mcGlobal 0 25 24 3)
  setFld (setFld d3 .cacheCtrl 0 0 0 1) .padHold 0 9 0 0

/-- The link's presets are loaded and its training starts (R32, R35). -/
def bootLink (d : Dev) : Dev :=
  startTraining (match d.nv.presets with
    | some (tx, rx) => setFld (setFld (setFld d .linkEq 0 2 0 tx) .linkEq 0 6 4 rx) .linkEq 0 8 8 1
    | none => d)

/-! ## The Journal at boot -/

/-- SEQ and KIND of the record where record n lies (R404). -/
def recSeq (d : Dev) (n : Nat) : Nat := memNat d (recAddr n) 5
def recKind (d : Dev) (n : Nat) : Nat := memNat d (recAddr n + 5) 1

/-- CHAIN of the record where record n lies. -/
def recChain (d : Dev) (n : Nat) : List Byte := memRead d (recAddr n + 80) 48

/-- The seal where record n lies is the seal of n's block and verifies under the device key (R405, R407). -/
def sealOk (o : Otp) (d : Dev) (n : Nat) : Bool :=
  decide (n % 64 = 63) && decide (recSeq d n = n) && decide (recKind d n = 2) && !memBad d (recAddr n) 128 && !memBad d (recAddr (n - 1)) 128 &&
    ecdsaVerify (o.pubX.toNat, o.pubY.toNat)
      (ofBE (sha384 (memRead d (recAddr n) 32 ++ (sliceB (jblock d (n / 64)).anchor 0 48 ++ recChain d (n - 1)))))
      (memRead d (recAddr n + 32) 48 |> ofBE) (memRead d (recAddr n + 80) 48 |> ofBE)

/-- Inserts a number into a falling list. -/
def insFalling (x : Nat) : List Nat → List Nat
  | [] => [x]
  | y :: ys => if y ≤ x then x :: y :: ys else y :: insFalling x ys

/-- Block slots whose position 63 holds anything. -/
def sealSlots (d : Dev) : List Nat :=
  (d.mem.filter (fun e => decide (0xC000800000 ≤ e.1 ∧ e.1 < 0xC000E00000 ∧ (e.1 - 0xC000800000) / 128 % 64 = 63))).foldl
    (fun l e => sins l ((e.1 - 0xC000800000) / 8192)) []

/-- The verifying seal with the highest SEQ (R407 step 1). -/
def lastSeal (o : Otp) (d : Dev) : Option Nat :=
  (((sealSlots d).map (fun k => recSeq d (64 * k + 63))).foldl (fun l n => insFalling n l) []).find? (sealOk o d)

/-- The walk forward (R407 steps 2 and 3): the next sequence number and H where it stops. -/
def walkJournal (o : Otp) (d : Dev) : Nat → Nat → List Byte → Nat × List Byte
  | 0, n, h => (n, h)
  | k + 1, n, h =>
    if n % 64 = 63 then (if sealOk o d n then walkJournal o d k (n + 1) h else (n, h))
    else
      let c := sha384 (h ++ memRead d (recAddr n) 80)
      if !memBad d (recAddr n) 128 ∧ recSeq d n = n ∧ (recKind d n = 1 ∨ recKind d n = 3) ∧ recChain d n = c then walkJournal o d k (n + 1) c
      else (n, h)

/-- The place of record n holds something that is neither a good record n nor the record of the lap before (R407 step 5). -/
def recDamaged (d : Dev) (n : Nat) : Bool :=
  memBad d (recAddr n) 128 || ((memRead d (recAddr n) 128).any (fun b => decide (b ≠ 0)) && !decide (recSeq d n + 49152 = n))

/-- The missing seal of the block of record n is signed and written (R407 step 4). -/
def writeSeal (d : Dev) (n : Nat) : Dev :=
  let b := n / 64
  let bs := sealBytes d b
  let d1 := memWrite { d with fresh := d.fresh + 1 } (recAddr n) (sliceB (bs.take 32 ++ ecdsaSign (ofBE (sha384 bs)) d.fresh) 0 128)
  wr (setJblock d1 b { jblock d1 b with sealed := true }) .sboxJournal 0 (BitVec.ofNat 40 (n + 1))

/-- Recovery of the Journal (R407). -/
def recoverJournal (o : Otp) (d : Dev) : Dev :=
  let w := match lastSeal o d with
    | some n => walkJournal o d 128 (n + 1) (recChain d (n - 1))
    | none => walkJournal o d 128 0 (zeros 48)
  let n := w.1
  let d1 := wr (modSbox d (fun s => { s with chain := w.2 })) .sboxJournal 0 (BitVec.ofNat 40 n)
  let d2 := if recDamaged d1 n then logBook d1 2 0x00A1 [n, recAddr n] else d1
  if n % 64 = 63 ∧ signOk d2 then writeSeal d2 n else d2

/-! ## Ready -/

/-- The table directory is zeroed (R135, R136): 32,768 writes of a line each pass their slices, which look them up and count them, and update a line that
they hold, and have gone on to GDDR6, whose controllers count them, when the boot is over (R326, R328). -/
def zeroDirectory (d : Dev) : Dev :=
  let b := fld d .ringCtxBase 0 39 21 * 2 ^ 21 + 0x200000
  let out : Nat → Bool := fun a => decide (a < b ∨ b + 0x200000 ≤ a)
  let held := (d.cache.sets.map (fun e => (e.2.filter (fun w => !out w.line)).length)).foldl (· + ·) 0
  let d1 := dropStale { d with
    mem := d.mem.filter (fun e => out e.1)
    badUnits := d.badUnits.filter (fun u => out (16 * u)), softUnits := d.softUnits.filter (fun u => out (16 * u)) } (fun a => !out a)
  let d2 := if cacheEn d then bumpN (bumpN d1 .cacheCnt 0 held) .cacheCnt 1 (32768 - held) else d1
  let n := (channels d).length
  ((channels d).zipIdx).foldl (fun d e =>
    bumpN d .mcCnt (e.1 * 10 + 1) ((b / 64 + 32768 + (n - 1 - e.2)) / n - (b / 64 + (n - 1 - e.2)) / n)) d2

/-- Steps 6 to 9 but for CONFIRM, from the image of slot s (R398); DESIGN CHOICE: R72 lets firmware set RING_CTX_BASE before EN and no rule gives the
value, so this boot writes none and the register's own value stands (assumption log 124); the first boot of a provisioned part appends the record of
that change (R417). -/
def bootFirmware (o : Otp) (d : Dev) (s : Nat) (revert first : Bool) : Dev :=
  let kept := gddrKept d
  let d1 := recoverJournal o (bootLink (bootGddr (bootLog (unwrapKey (startImage d s)) s revert)))
  let d1a := if first then journalEvent d1 0x0092 [0, 1] else d1
  let d2 := if revert then journalEvent d1a 0x0072 [d.nv.selected] else d1a
  let d3 := if kept then d2 else zeroDirectory d2
  let d4 := ringCtrlWrite d3 (rd d3 .ringCtrl 0 ||| (1#40 <<< 16))
  modPwr d4 (fun p => { p with bootDue := false, fromStabled := false, tamperDue := none, fell := none })

/-- BOOT (R398): the Signal Box runs the steps of ROM and firmware; without a valid image the pads are held and the device enters Laid-up (R399, R403,
R452). -/
def bootStep (s0 : State) : State :=
  if running s0.dev ∧ s0.dev.pwr.bootDue then
    let first := firstEntry s0.otp s0.dev
    let s := provisioned first s0
    let o := s.otp
    let d0 := takeLog o (freshDebugNonce (freshNonce (loadFuses o s.dev)))
    let c := chooseSlot o d0
    let d1 := { d0 with nv := c.1 }
    match c.2.2 with
    | some k => fwConfirm { s with dev := kickAll (bootFirmware o d1 k c.2.1 first) }
    | none =>
      let d2 := logBook (if c.2.1 then logBook d1 3 0x0072 [c.1.selected] else d1) 2 0x0003 [3]
      { s with dev := entered (allOff (latchPads (logBook d2 0 0x0031 [0, 3, fld d2 .pwrStatus 0 39 38])) .laidUp 0) [] }
  else s0

/-- BOOT. -/
def execBoot (s : State) : Host.Outcome State Fault Refusal := .next (bootStep s)

end Sys2Proof.Machine
end

