-- ==== Sys2Proof/Machine/CacheRows.lean ====
section
/-!
DEFINITION. The rows of the Column Cache and of the on-chip stores (R324 to R339): lookups, fills, writes, maintenance, the write-back of a
corrected unit, and the Yard's clear engine.
-/

namespace Sys2Proof.Machine

/-! ## Lookups, fills and writes -/

/-- The place of the read that a lookup is for: the oldest one of its requester and line that waits. -/
def waitingReq (d : Dev) (req line : Nat) : Option Nat :=
  d.cache.reqs.findIdx? (fun g => decide (g.st = .waiting ∧ g.req = req ∧ g.line = line))

/-- The device without the read at a place of the list. -/
def takeReq (d : Dev) (i : Nat) : Dev := { d with cache := { d.cache with reqs := d.cache.reqs.eraseIdx i } }

/-- The read that CACHE_LOOKUP brings to its slice, with the device without it: one that a unit has issued, or, where none waits, one of a
requester that the model does not hold. -/
def lookedUp (q : CacheReq) (d : Dev) : Dev × GReq :=
  match waitingReq d q.req.val (q.addr.toNat / 64 * 64) with
  | some i => (takeReq d i, (d.cache.reqs[i]?).getD {})
  | none => (d, { req := q.req.val, port := q.port.val, consist := q.consist.map Fin.val, addr := q.addr.toNat, len := q.len.val })

/-- CACHE_LOOKUP (R326, R327, R329, R332, R333, R337): a GDDR6 read reaches its slice, where it stalls while the controllers take no request. -/
def cacheLookup (q : CacheReq) (d : Dev) : Dev :=
  let a := q.addr.toNat
  if running d ∧ domOn d 3 ∧ regionOf d a = .gddr ∧ lineUp d a then
    let x := lookedUp q d
    (lookup x.1 x.2 q.corrected q.arrayError).getD d
  else d

/-- CACHE_LOOKUP. -/
def execCacheLookup (q : CacheReq) (s : State) : Host.Outcome State Fault Refusal := onDev s (cacheLookup q)

/-- FILL_HALF_ARRIVAL (R329 to R332): the critical half of a returned line arrives and serves the reads that lie within it; then the second
half, which serves the rest and ends the entry. -/
def fillHalfArrival (line : Nat) (d : Dev) : Dev :=
  match fillOf d line with
  | some f =>
    if f.back then
      if f.half then endFill (serveFill d f (fun _ => true)) f
      else serveFill (modFill d line (fun x => { x with half := true })) f (fun g => decide (g.lo = f.crit ∧ g.hi = f.crit))
    else d
  | none => d

/-- FILL_HALF_ARRIVAL. -/
def execFillHalfArrival (line : Word) (s : State) : Host.Outcome State Fault Refusal := onDev s (fillHalfArrival line.toNat)

/-- CACHE_WRITE_ACCEPT (R328, R330, R333, R337, R378, R380): the slice accepts a write of at most one line; a full write queue, or controllers that
take no request, hold it. A tag error that its lookup meets invalidates the way first. -/
def cacheWriteAccept (a : Nat) (bs : List Byte) (m : WriteMeet) (d : Dev) : Dev :=
  let line := a / 64 * 64
  if running d ∧ domOn d 3 ∧ regionOf d a = .gddr ∧ lineUp d a ∧ 0 < bs.length ∧ a % 64 + bs.length ≤ 64 ∧ writeRoom d line then
    acceptWrite (if cacheEn d then arrayError d line m.err else d) a bs (m.consist.map Fin.val)
  else d

/-- CACHE_WRITE_ACCEPT. -/
def execCacheWriteAccept (a : Word) (data : List Byte) (by_ : WriteMeet) (s : State) : Host.Outcome State Fault Refusal :=
  onDev s (cacheWriteAccept a.toNat data by_)

/-! ## Maintenance -/

/-- The scope of a maintenance operation: first line address and the first one beyond (R334). -/
def maintScope (d : Dev) (op : Nat) : Nat × Nat :=
  let a := fld d .cacheMaintAddr 0 39 6 * 64
  match op with
  | 1 => (a, a + 64)
  | 2 => (a, fld d .cacheMaintEnd 0 39 6 * 64)
  | _ => (0, 2 ^ 40)

/-- A write of OP to CACHE_MAINT: a busy engine loses it, whatever OP; OP 0 starts nothing; an empty range completes at once; else the operation
starts and marks the open fills of its scope (R334, R335). -/
def cacheMaint (d : Dev) (op : Nat) : Dev :=
  if d.cache.maint.isSome then setFld d .cacheStatus 0 38 38 1
  else if op = 0 then d
  else
    let r := maintScope d op
    if r.2 ≤ r.1 then d
    else
      let hit : CFill → Bool := fun f => decide (r.1 ≤ f.line ∧ f.line < r.2)
      { d with cache := { d.cache with
          maint := some { op := op, lo := r.1, hi := r.2 }
          fills := d.cache.fills.map (fun f => if hit f then { f with discard := true, maint := true } else f) } }

/-- A write of CACHE_MAINT by a row that stands for one OP. -/
def maintRow (op : Nat) (who : Requester) (v : Word) (d : Dev) : Dev :=
  if bitsOf v.toNat 1 0 = op then viaPath d who 0x900010 (fun d => cacheMaint d op) else d

/-- CACHE_MAINT_DONE (R334 to R336): every marked fill has returned, and every slice takes the steps that are left to it and has finished. -/
def cacheMaintDone (d : Dev) : Dev :=
  match d.cache.maint with
  | some m =>
    if d.cache.fills.any (fun f => f.maint) then d
    else let d1 := maintSteps d m.steps; { d1 with cache := { d1.cache with maint := none } }
  | none => d

/-- CACHE_MAINT_DONE. -/
def execCacheMaintDone (s : State) : Host.Outcome State Fault Refusal := onDev s cacheMaintDone

/-- A write of CACHE_CTRL: with EN cleared, the open fills will not be installed (R337). -/
def cacheCtrlWrite (d : Dev) (v : Word) : Dev :=
  let d1 := regStore d .cacheCtrl 0 v
  if bitOf v.toNat 0 = 0 then
    { d1 with cache := { d1.cache with fills := d1.cache.fills.map (fun f => { f with discard := true }) } }
  else d1

/-! ## On-chip stores -/

/-- ONCHIP_ECC_WRITEBACK (R325): a corrected unit is written back and counted; one that has become uncorrectable is recorded. -/
def onchipEccWriteback (a : Nat) (d : Dev) : Dev :=
  let u := a / 16
  let k := match regionOf d a with | .yard => some 2 | .store _ | .imem _ => some 3 | _ => none
  match k with
  | some k =>
    if d.badUnits.contains u then chipErr d (a / 64 * 64)
    else if d.softUnits.contains u then bump { d with softUnits := sdel d.softUnits u } .yardCnt k
    else d
  | none => d

/-- ONCHIP_ECC_WRITEBACK. -/
def execOnchipEccWriteback (line : Word) (s : State) : Host.Outcome State Fault Refusal := onDev s (onchipEccWriteback line.toNat)

/-- A write of YARD_CLEAR: a running clear loses it; else buffers FIRST to FIRST + COUNT − 1 up to the last are cleared (R324). -/
def yardClearWrite (d : Dev) (v : Word) : Dev :=
  let first := bitsOf v.toNat 11 0
  let n := min (sat4096 (bitsOf v.toNat 24 12)) (4096 - first)
  if d.cache.clear.isSome then setFld d .yardStatus 0 38 38 1
  else if n = 0 then d
  else { d with cache := { d.cache with clear := some (first, n), cleared := 0 } }

/-- YARD_CLEAR_DONE (R324): the clear zeroes what is left of its last buffers and ends. -/
def yardClearDone (d : Dev) : Dev :=
  if d.cache.clear.isSome ∧ running d ∧ domOn d 3 then
    let d1 := clearSteps d (clearSize d)
    { d1 with cache := { d1.cache with clear := none, cleared := 0 } }
  else d

/-- YARD_CLEAR_DONE. -/
def execYardClearDone (s : State) : Host.Outcome State Fault Refusal := onDev s yardClearDone

end Sys2Proof.Machine
end

