-- ==== Sys2Proof/Machine/RegPath.lean ====
section
/-!
DEFINITION. The register path (R9 to R13, R20 to R22, R50, R483 to R487): what a read returns, what a write does, and the rows that make register
accesses.
-/

namespace Sys2Proof.Machine

/-! ## Reads -/

/-- STATE of PWR_DOMAIN (R447). -/
def domCode (s : DomState) : Nat := match s with | .on => 0 | .gated => 1 | .offRetain => 2 | .off => 3 | .waking => 4

/-- STATE of CORE_STATUS (R234). -/
def coreCode (s : CoreRun) : Nat := match s with | .held => 0 | .running => 1 | .waitw => 2 | .waiti => 3 | .emitw => 4

/-- SHUNT_CH_STATE of a channel (R369). -/
def chanWord (d : Dev) (ch : Nat) : Nat :=
  let c := chan d ch
  let st := match c.ph with
    | .idle => 0 | .turn => 1 | .run | .move | .ended => (if stageWaits d ch then 1 else 2) | .wait _ _ => 3 | .signal _ | .wagon => 4
  let src := match c.ph, c.src with | .idle, _ => 3 | _, .dma _ => 0 | _, .move _ => 1 | _, .kernel _ _ _ => 2
  let run := match c.src with | .kernel r _ _ => r.consist | _ => c.consist
  if st = 0 then 3 * 2 ^ 35 else st * 2 ^ 37 + src * 2 ^ 35 + c.pc % 64 * 2 ^ 29 + (run.getD 0) % 1024 * 2 ^ 19 + c.port % 256 * 2 ^ 11

/-- DISP_CORE of a core (R200). -/
def dispCoreWord (d : Dev) (n : Nat) : Nat :=
  b2n (d.disp.waiting.any (fun e => decide (e.1 = n))) * 2 ^ 39 +
    match serving d n with
    | some s => 2 ^ 38 + wConsist s.w % 1024 * 2 ^ 28 + wStage s.w * 2 ^ 22 + wFlow s.w * 2 ^ 6
    | none => 0

/-- DISP_CONSIST of a consist id (R200): Wagons that are only offered are not counted, but a held output keeps its pool entry until it is accepted. -/
def dispConsistWord (d : Dev) (c : Nat) : Nat :=
  let k := consist d c
  let offered := (d.disp.offers.filter (fun o => decide (wConsist o.w = c) && !fromWindow o)).length
  if k.valid then 2 ^ 39 + k.event % 128 * 2 ^ 32 + min (2 ^ 32 - 1) (wagonCount d c - offered) else 0

/-- A line of PM_SMB is not driven low: it is released by its bit, in pin reset and in Laid-up, and under HIGHZ (R452, R460, R468). -/
def smbReleased (d : Dev) (i : Nat) : Bool :=
  decide (fld d .pmSmb 0 i i = 1) || decide (d.pwr.mode = .pinReset ∨ d.pwr.mode = .laidUp) || decide (d.tap.ir = .highz)

/-- PM_SMB (R468): a line that the device drives low is low; other levels come from outside. -/
def smbLevels (d : Dev) : Nat :=
  let f := freeVal d
  fld d .pmSmb 0 1 0 + (if smbReleased d 0 then bitOf f 0 * 4 else 0) + (if smbReleased d 1 then bitOf f 1 * 8 else 0) + bitOf f 2 * 16

/-- The word that a register shows: what it stores, or for fields that describe the device's present state what that is. -/
def regLive (d : Dev) (r : Reg) (i : Nat) : Word :=
  let v := rd d r i
  let put (hi lo n : Nat) : Word := setBitsW v hi lo n
  match r with
  | .ringStatus => BitVec.ofNat 40 (d.ring.cached.length * 2 ^ 16 + allActive d)
  | .portState => BitVec.ofNat 40 (b2n (portExists d i) * 2 ^ 39 + (portConsists d i).length * 2 ^ 28 + activeRings d i)
  | .portLimit => BitVec.ofNat 40 (ringAllowance d i * 2 ^ 30 + coreShare d i * 2 ^ 24 + yardQuota d i * 2 ^ 11)
  | .portJunction => BitVec.ofNat 40 (junctionUse d i * 2 ^ 17 + junctionAllowance d i)
  | .portUse => BitVec.ofNat 40 (coresUse d i * 2 ^ 13 + yardUse d i)
  | .dispStatus => BitVec.ofNat 40 (d.disp.waiting.length * 2 ^ 28 + d.disp.flows.length * 2 ^ 15 + poolUsed d)
  | .dispStatus2 => BitVec.ofNat 40 ((d.disp.lists.filter (fun e => e.2.spilled)).length * 2 ^ 13 + windowUsed d)
  | .dispCore => BitVec.ofNat 40 (dispCoreWord d i)
  | .dispConsist => BitVec.ofNat 40 (dispConsistWord d i)
  | .coreStatus =>
    let c := core d i
    BitVec.ofNat 40 (coreCode c.st * 2 ^ 37 + levelOf c * 2 ^ 35 + privOf c * 2 ^ 33)
  | .planeStatus =>
    let p := plane d i
    BitVec.ofNat 40 (b2n (!p.progs.isEmpty || wagonWaits d (.scanner i)) * 2 ^ 39 +
      p.progs.foldl (fun a g => a + g.opened.length) 0 * 2 ^ 32 + ringsOf p.queue (2 * i + 1) * 8 + ringsOf p.queue (2 * i))
  | .juncStatus => BitVec.ofNat 40 (d.junc.active.length * 2 ^ 36 + d.junc.queue.length * 2 ^ 29 + d.junc.scrubPos % 16384)
  | .humpStatus =>
    let job := match d.hump.cur with
      | some j => j.pass % 8 * 2 ^ 31 + (match j.src with | .cmd _ => 1 | .ring _ => 2)
      | none => 0
    BitVec.ofNat 40 (b2n (d.hump.cur.isSome || wagonWaits d .hump) * 2 ^ 39 + d.hump.queue.length * 2 ^ 34 + job)
  | .cacheStatus => setBitsW (put 39 39 (b2n d.cache.maint.isSome)) 8 0 d.cache.fills.length
  | .yardStatus =>
    (match d.cache.clear with
    | some (first, _) => setBitsW (put 39 39 1) 11 0 (first + d.cache.cleared / 4096)
    | none => v)
  | .shuntStatus =>
    setBitsW (put 28 16 (stageUsed d).length) 15 0
      (((List.range 16).filter (fun ch => decide ((chan d ch).ph ≠ .idle))).foldl (fun a ch => a + 2 ^ ch) 0)
  | .shuntChState => BitVec.ofNat 40 (chanWord d i)
  | .mcUsable => if fld d .mcGlobal 0 24 24 = 1 then BitVec.ofNat 40 (usable d) else 0
  | .mcStatus =>
    let c := mcChan d i
    setBitsW (put 28 20 (min 256 (c.q.filter (fun x => !x.write)).length)) 19 14 (min 32 (writesHeld c))
  | .mcTrainCtrl => put 39 39 (b2n (mcChan d i).train.isSome)
  | .pwrDomain => if i = 0 then 0x1000000000#40 else put 39 37 (domCode (dom d i).st)
  | .pmSmb => BitVec.ofNat 40 (smbLevels d)
  | _ => v

/-- Registers whose reads take a free value. -/
def readsFree (r : Reg) : Bool := match r with | .pmSmb => true | _ => false

/-- A register read at an offset once its domain is ON: the word, and the device with RC fields cleared unless an operator core reads
(R12, R13, R21, R484). An offset that no register occupies reads zero. -/
def regRead (d : Dev) (who : Requester) (off : Nat) : Word × Dev :=
  match regAt (off / 8 * 8) with
  | none => (0, d)
  | some (r, i) =>
    let v := regLive d r i
    let d1 := if readsFree r then tookFree d else d
    (v, match who with | .core _ => d1 | _ => if r.rcMask = 0 then d1 else regClear d1 r i)

/-! ## Writes -/

/-- A service that a core holds: handed over to it, and not released (R191, R490). -/
def handedTo (d : Dev) (n : Nat) (s : Service) : Bool := decide (s.core = n) && !d.disp.releasing.any (fun t => decide (t.serial = s.serial))

/-- The device without a service, whether its Wagon has arrived at the core or not: it ends as by DROPW (R220, R490). -/
def dropHanded (d : Dev) (s : Service) : Dev :=
  { d with disp := { d.disp with
    service := d.disp.service.filter (fun t => decide (t.serial ≠ s.serial))
    delivering := d.disp.delivering.filter (fun t => decide (t.serial ≠ s.serial)) } }

/-- A write of CORE_CTRL (R234, R490): RESET, or RUN 0 on a core that is not held, resets the core after it ends its service and its Consist;
RUN 1 on a held core starts it. DESIGN CHOICE: a CORE_MSG written while the core was held is pending until that start, which is a reset of the core and
clears it (assumption log 126). -/
def coreCtrlWrite (d : Dev) (n : Nat) (v : Word) : Dev :=
  let held := decide ((core d n).st = .held)
  let d1 := regStore d .coreCtrl n v
  if bitOf v.toNat 3 = 1 ∨ (bitOf v.toNat 2 = 0 ∧ !held) then
    coreReset (match d1.disp.service.find? (handedTo d1 n) with | some s => dropHanded (recordEvent d1 (wConsist s.w) 8 0) s | none => d1) n
  else if bitOf v.toNat 2 = 1 ∧ held then coreReset d1 n
  else d1

/-- A write of CORE_MSG makes cause 0x14 pending (R231, R234). -/
def coreMsgWrite (d : Dev) (n : Nat) (v : Word) : Dev :=
  modCore (regStore d .coreMsg n v) n (fun c => { c with pend := sins c.pend 0x14 })

/-- A write of SHUNT_GATE: CLEAR clears gates and GATE sets them; where both name a gate the spec states no outcome, and it is free (R369). -/
def gateWrite (d : Dev) (v : Word) : Dev :=
  let clr := bitsOf v.toNat 31 16
  let set := bitsOf v.toNat 15 0
  let old := fld d .shuntGate 0 15 0
  setFld (tookFree d) .shuntGate 0 15 0 ((old &&& (65535 - clr)) ||| (set &&& (65535 - clr)) ||| (set &&& clr &&& freeVal d))

/-- What a write does at a register, once its domain is ON: its own effect where the spec gives one, otherwise the access codes of its
fields alone (R12, R338 to R339, R369, R391, R419 to R421, R447, R468, R483). -/
def regEffect (s : State) (who : Requester) (r : Reg) (i : Nat) (v : Word) : State :=
  let d := s.dev
  let on (d : Dev) : State := { s with dev := d }
  let sb (d1 : Dev) : State := if isSbox who then on d1 else s
  match r with
  | .chipLifecycle => lifecycleWrite s who v
  | .linkCtrl => on (linkCtrlWrite d v)
  | .ringCtrl => on (ringCtrlWrite d v)
  | .coreCtrl => on (coreCtrlWrite d i v)
  | .coreMsg => on (coreMsgWrite d i v)
  | .cacheCtrl => on (cacheCtrlWrite d v)
  | .cacheMaint => on (cacheMaint d (bitsOf v.toNat 1 0))
  | .yardClear => on (yardClearWrite d v)
  | .shuntGate => on (gateWrite d v)
  | .mcGlobal => on (mcGlobalWrite d v)
  | .mcCtrl => on (mcCtrlWrite d i v)
  | .mcTrainCtrl => on (trainCtrlWrite d i v)
  | .cipherCtrl => on (cipherCtrlWrite d who v)
  | .cipherSign => on (cipherSignWrite d who v)
  | .cipherSignStatus => sb (regStore d r i v)
  | .sboxFw => sboxFwWrite s who v
  | .pwrCtrl => on (pwrCtrlWrite d who v)
  | .retainMask | .pmSmb => sb (regStore d r i v)
  | .wakeCtrl => on (alarmWake (regStore d r i v))
  | .padHold => on (padHoldWrite d who v)
  | .resetCtrl => on (resetCtrlWrite d v)
  | .aoTime => on (aoTimeWrite d who v)
  | .pwrDomain => on (pwrDomainWrite d i v)
  | _ => on (regStore d r i v)

/-- A register write at an offset once its domain is ON; where no register lies it is ignored (R21). -/
def regWrite (s : State) (who : Requester) (off : Nat) (v : Word) : State :=
  match regAt (off / 8 * 8) with
  | some (r, i) => regEffect s who r i v
  | none => s

/-- A register write by the way of every register write (R425, R483, R486). -/
def regAccess (s : State) (who : Requester) (off : Nat) (v : Word) : State := viaPathS s who off (fun s => regWrite s who off v)

/-- Offset of an address from the start of the register range, if it lies there (R16). -/
def regOff (a : Nat) : Option Nat := if 0xF000000000 ≤ a ∧ a < 0xF001000000 then some (a - 0xF000000000) else none

/-! ## Register transactions of port 0 -/

/-- A register transaction has been executed: it leaves, and its credits are owed (R43, R50). -/
def regTaken (d : Dev) (q : Packet) : Dev :=
  modLink d (fun l => owe { l with rxReg := l.rxReg.drop 1 } (pktClass q.ty) (pktCost q.data.length))

/-- What a read at an offset clears: the register with an RC field that lies there, and its word. -/
def rcBack (off : Nat) (v : Word) : Option (Reg × Nat × Word) :=
  match regAt (off / 8 * 8) with
  | some (r, i) => if r.rcMask = 0 then none else some (r, i, v)
  | none => none

/-- The completion of a REG_RD (R13, R46, R50), with what its read has cleared. -/
def regReply (d : Dev) (q : Packet) (v : Word) (back : Option (Reg × Nat × Word)) : Dev :=
  queuePkt (regTaken d q) { ty := 4, len := 8, tag := q.tag, addr := 8, data := toLE 8 v.toNat, back := back }

/-- REG_RD (R50, R486, R487): the oldest register transaction, if it is a read, reads once its domain is ON; a domain that may not wake gives all ones. -/
def regRd (d : Dev) : Dev :=
  match d.link.rxReg with
  | q :: _ =>
    let off := q.addr - 0xF000000000
    if q.ty = 0x10 ∧ pathUp d off then
      match regWayOf d q.woke off with
      | .open_ => let x := regRead d .port0 off; regReply x.2 q x.1 (rcBack off x.1)
      | .waits k => wakeDom d k
      | .shut => regReply d q 0xFFFFFFFFFF#40 none
    else d
  | [] => d

/-- REG_RD. -/
def execRegRd (s : State) : Host.Outcome State Fault Refusal := onDevTx s regRd

/-- REG_WR (R50, R486, R487): the oldest register transaction, if it is a write, writes once its domain is ON, or is dropped. -/
def regWr (s : State) : State :=
  match s.dev.link.rxReg with
  | q :: _ =>
    let off := q.addr - 0xF000000000
    if q.ty = 0x11 ∧ pathUp s.dev off then
      match regWayOf s.dev q.woke off with
      | .open_ => regWrite { s with dev := regTaken s.dev q } .port0 off (BitVec.ofNat 40 (leAt q.data 0 5))
      | .waits k => { s with dev := wakeDom s.dev k }
      | .shut => { s with dev := regTaken s.dev q }
    else s
  | [] => s

/-- REG_WR. -/
def execRegWr (s : State) : Host.Outcome State Fault Refusal := .next { regWr s with dev := pump (regWr s).dev }

/-! ## Debug access -/

/-- The TAP's record of a debug access. -/
def dbgData (d : Dev) (v : Word) (done : Bool) : Dev := { d with tap := { d.tap with data := v, done := done } }

/-- A debug read: an address outside the register range reads zero (R461). -/
def dbgRead (d : Dev) (a : Nat) : Dev :=
  match regOff a with
  | none => dbgData d 0 true
  | some off =>
    if pathUp d off then
      match regWay d off with
      | .open_ => let x := regRead d .dbg off; dbgData x.2 x.1 true
      | .waits k => dbgData (wakeDom d k) d.tap.data false
      | .shut => dbgData d 0xFFFFFFFFFF#40 true
    else dbgData d d.tap.data false

/-- A debug write: it has completed unless its path is down or its domain has to wake first. -/
def dbgWrite (s : State) (a : Nat) (v : Word) : State :=
  match regOff a with
  | none => { s with dev := { s.dev with tap := { s.dev.tap with done := true } } }
  | some off =>
    let done := pathUp s.dev off && (match regWay s.dev off with | .waits _ => false | _ => true)
    let s1 := regAccess s .dbg off v
    { s1 with dev := { s1.dev with tap := { s1.dev.tap with done := done } } }

/-- DBG_ACCESS (R460, R461): one register access with the Signal Box's rights; where debug access is closed the code acts as BYPASS. -/
def dbgAccess (dr : BitVec 81) (s : State) : State :=
  let a := bitsOf dr.toNat 79 40
  if dbgOpen s.dev then
    let s1 := { s with dev := setIr s.dev .dbgAccess }
    if bitOf dr.toNat 80 = 1 then dbgWrite s1 a (BitVec.ofNat 40 dr.toNat) else { s1 with dev := dbgRead s1.dev a }
  else { s with dev := setIr s.dev .bypass }

/-- Offset of a register of core n (R234). -/
def coreOff (n o : Nat) : Nat := 0x500000 + n / 4 * 0x10000 + n % 4 * 0x100 + o

end Sys2Proof.Machine
end

