-- ==== Sys2Proof/Machine/VecInt.lean ====
section
/-!
DEFINITION. The integer vector instructions, moves, reductions, compares and qualifier operations (R245, R248 to R251).
-/

namespace Sys2Proof.Machine

/-- A word of opcode 0x30 or 0x31 with function fn. -/
def isVInt (fn w : Nat) : Bool := decide ((opOf w = 0x30 ∨ opOf w = 0x31) ∧ fn4 w = fn)

/-- A word of one opcode of format V with function fn. -/
def isV (op fn w : Nat) : Bool := decide (opOf w = op ∧ fn4 w = fn)

/-- Registers of opcodes 0x30 and 0x31. -/
def usesVInt (w : Nat) : Uses :=
  let vb := opOf w = 0x30
  { xs := if vb then [] else [vbOf w % 32], qs := [kV w]
    cells := vecCells (vdOf w) (longV w) ++ (vecCells (vaOf w) (longV w) ++ (if vb then vecCells (vbOf w) (longV w) else [])) }

/-- b of element j: vb[j] in 0x30, X[vb] in 0x31 (R245). -/
def vIntB (c : Core) (w j : Nat) : Word := if opOf w = 0x30 then elem c (vbOf w) (longV w) j else xget c (vbOf w % 32)

/-- vd[j] = f va[j] b for every active element; every result is computed from the old values (R238, R245). -/
def vIntRow (f : Word → Word → Word) (n w : Nat) (d : Dev) : Dev :=
  let c := core d n
  let xs := (actives c (kV w) (longV w)).map (fun j => (j, f (elem c (vaOf w) (longV w) j) (vIntB c w j)))
  retire d n (setElems c (vdOf w) (longV w) xs) (c.pc + 4)

/-- VSEL: for every j < n, a where bit j of Qk is 1, else b (R245). -/
def vselRow (n w : Nat) (d : Dev) : Dev :=
  let c := core d n
  let xs := (List.range (nElems c (longV w))).map (fun j =>
    (j, if (qual c (kV w)).getLsbD j then elem c (vaOf w) (longV w) j else vIntB c w j))
  retire d n (setElems c (vdOf w) (longV w) xs) (c.pc + 4)

/-- VADD: a + b (R245). -/
def execVadd (n : CoreIx) (w : BitVec 32) (s : State) : Host.Outcome State Fault Refusal := onDev s (instr n w (isVInt 0) usesVInt (vIntRow (fun a b => a + b)))

/-- VSUB: a − b (R245). -/
def execVsub (n : CoreIx) (w : BitVec 32) (s : State) : Host.Outcome State Fault Refusal := onDev s (instr n w (isVInt 1) usesVInt (vIntRow (fun a b => a - b)))

/-- VAND: a AND b (R245). -/
def execVand (n : CoreIx) (w : BitVec 32) (s : State) : Host.Outcome State Fault Refusal := onDev s (instr n w (isVInt 2) usesVInt (vIntRow (fun a b => a &&& b)))

/-- VOR: a OR b (R245). -/
def execVor (n : CoreIx) (w : BitVec 32) (s : State) : Host.Outcome State Fault Refusal := onDev s (instr n w (isVInt 3) usesVInt (vIntRow (fun a b => a ||| b)))

/-- VXOR: a XOR b (R245). -/
def execVxor (n : CoreIx) (w : BitVec 32) (s : State) : Host.Outcome State Fault Refusal := onDev s (instr n w (isVInt 4) usesVInt (vIntRow (fun a b => a ^^^ b)))

/-- VSLL: a << (b mod 40) (R245). -/
def execVsll (n : CoreIx) (w : BitVec 32) (s : State) : Host.Outcome State Fault Refusal := onDev s (instr n w (isVInt 5) usesVInt (vIntRow sll))

/-- VSRL: a >> (b mod 40), logical (R245). -/
def execVsrl (n : CoreIx) (w : BitVec 32) (s : State) : Host.Outcome State Fault Refusal := onDev s (instr n w (isVInt 6) usesVInt (vIntRow srl))

/-- VSRA: a >> (b mod 40), arithmetic (R245). -/
def execVsra (n : CoreIx) (w : BitVec 32) (s : State) : Host.Outcome State Fault Refusal := onDev s (instr n w (isVInt 7) usesVInt (vIntRow sra))

/-- VMIN: signed minimum (R245). -/
def execVmin (n : CoreIx) (w : BitVec 32) (s : State) : Host.Outcome State Fault Refusal := onDev s (instr n w (isVInt 8) usesVInt (vIntRow smin))

/-- VMAX: signed maximum (R245). -/
def execVmax (n : CoreIx) (w : BitVec 32) (s : State) : Host.Outcome State Fault Refusal := onDev s (instr n w (isVInt 9) usesVInt (vIntRow smax))

/-- VMINU: unsigned minimum (R245). -/
def execVminu (n : CoreIx) (w : BitVec 32) (s : State) : Host.Outcome State Fault Refusal := onDev s (instr n w (isVInt 10) usesVInt (vIntRow umin))

/-- VMAXU: unsigned maximum (R245). -/
def execVmaxu (n : CoreIx) (w : BitVec 32) (s : State) : Host.Outcome State Fault Refusal := onDev s (instr n w (isVInt 11) usesVInt (vIntRow umax))

/-- VMUL: low 40 bits of a × b (R245). -/
def execVmul (n : CoreIx) (w : BitVec 32) (s : State) : Host.Outcome State Fault Refusal := onDev s (instr n w (isVInt 12) usesVInt (vIntRow (fun a b => a * b)))

/-- VMULHU: high 40 bits of the unsigned product (R245). -/
def execVmulhu (n : CoreIx) (w : BitVec 32) (s : State) : Host.Outcome State Fault Refusal := onDev s (instr n w (isVInt 13) usesVInt (vIntRow mulhu))

/-- VH40: H40(a) (R245). -/
def execVh40 (n : CoreIx) (w : BitVec 32) (s : State) : Host.Outcome State Fault Refusal := onDev s (instr n w (isVInt 14) usesVInt (vIntRow (fun a _ => h40W a)))

/-- VSEL (R245). -/
def execVsel (n : CoreIx) (w : BitVec 32) (s : State) : Host.Outcome State Fault Refusal := onDev s (instr n w (isVInt 15) usesVInt vselRow)

/-! ## Compares -/

/-- A word of opcode 0x35 with function fn or fn + 8. -/
def isCmp (fn w : Nat) : Bool := decide (opOf w = 0x35 ∧ fn4 w % 8 = fn)

/-- Registers of a compare: va, vb as a vector, an X register or an F register, the qualifiers k and vd. -/
def usesCmp (w : Nat) : Uses :=
  let vec := fn4 w < 8
  let fp := 6 ≤ fn4 w % 8
  { xs := if vec ∨ fp then [] else [vbOf w % 32], qs := [kV w, vdOf w % 8]
    cells := vecCells (vaOf w) (longV w) ++ (if vec then vecCells (vbOf w) (longV w) else if fp then [vbOf w % 32] else []) }

/-- Q[vd] takes bit j for each active element for which the test holds, and 0 elsewhere (R241, R248). -/
def cmpRow (f : Word → Word → Bool) (n w : Nat) (d : Dev) : Dev :=
  let c := core d n
  let b := fun j => if fn4 w < 8 then elem c (vbOf w) (longV w) j else xget c (vbOf w % 32)
  let js := (actives c (kV w) (longV w)).filter (fun j => f (elem c (vaOf w) (longV w) j) (b j))
  retire d n (setQual c (vdOf w % 8) (bitsQ js)) (c.pc + 4)

/-- A floating-point compare of binary32 elements, with the OR of its flags (R247, R248). -/
def fcmpRow (f : Bool → Nat → Nat → Bool × Nat) (n w : Nat) (d : Dev) : Dev :=
  let c := core d n
  let b := fun j => if fn4 w < 8 then (elem c (vbOf w) (longV w) j).toNat % 2 ^ 32 else f32 c (vbOf w)
  let rs := (actives c (kV w) (longV w)).map (fun j => (j, f (fzOf c) ((elem c (vaOf w) (longV w) j).toNat % 2 ^ 32) (b j)))
  let c1 := setFlags c (orFlags (rs.map (fun r => r.2.2)))
  retire d n (setQual c1 (vdOf w % 8) (bitsQ ((rs.filter (fun r => r.2.1)).map Prod.fst))) (c.pc + 4)

/-- VEQ (R248). -/
def execVeq (n : CoreIx) (w : BitVec 32) (s : State) : Host.Outcome State Fault Refusal := onDev s (instr n w (isCmp 0) usesCmp (cmpRow (fun a b => decide (a = b))))

/-- VNE (R248). -/
def execVne (n : CoreIx) (w : BitVec 32) (s : State) : Host.Outcome State Fault Refusal := onDev s (instr n w (isCmp 1) usesCmp (cmpRow (fun a b => decide (a ≠ b))))

/-- VLT (R248). -/
def execVlt (n : CoreIx) (w : BitVec 32) (s : State) : Host.Outcome State Fault Refusal := onDev s (instr n w (isCmp 2) usesCmp (cmpRow (fun a b => decide (a.toInt < b.toInt))))

/-- VGE (R248). -/
def execVge (n : CoreIx) (w : BitVec 32) (s : State) : Host.Outcome State Fault Refusal := onDev s (instr n w (isCmp 3) usesCmp (cmpRow (fun a b => decide (b.toInt ≤ a.toInt))))

/-- VLTU (R248). -/
def execVltu (n : CoreIx) (w : BitVec 32) (s : State) : Host.Outcome State Fault Refusal := onDev s (instr n w (isCmp 4) usesCmp (cmpRow (fun a b => decide (a.toNat < b.toNat))))

/-- VGEU (R248). -/
def execVgeu (n : CoreIx) (w : BitVec 32) (s : State) : Host.Outcome State Fault Refusal := onDev s (instr n w (isCmp 5) usesCmp (cmpRow (fun a b => decide (b.toNat ≤ a.toNat))))

/-- FLT (R248). -/
def execFlt (n : CoreIx) (w : BitVec 32) (s : State) : Host.Outcome State Fault Refusal := onDev s (instr n w (isCmp 6) usesCmp (fcmpRow fltBits))

/-- FGE (R248). -/
def execFge (n : CoreIx) (w : BitVec 32) (s : State) : Host.Outcome State Fault Refusal := onDev s (instr n w (isCmp 7) usesCmp (fcmpRow fgeBits))

/-! ## Reductions -/

/-- Registers of an integer reduction. -/
def usesRed (w : Nat) : Uses :=
  { xs := [vdOf w % 32, vbOf w % 32], qs := [kV w], cells := vecCells (vaOf w) (longV w) }

/-- X[vd] = X[vb] combined with the active elements (R249). -/
def redRow (f : Word → Word → Word) (n w : Nat) (d : Dev) : Dev :=
  let c := core d n
  let v := (actives c (kV w) (longV w)).foldl (fun a j => f a (elem c (vaOf w) (longV w) j)) (xget c (vbOf w % 32))
  retire d n (xset c (vdOf w % 32) v) (c.pc + 4)

/-- Registers of a float reduction. -/
def usesFRed (w : Nat) : Uses :=
  { qs := [kV w], cells := [vdOf w % 32, vbOf w % 32] ++ vecCells (vaOf w) (longV w) }

/-- F[vd] = F[vb] combined with the active elements in ascending order, each step rounded (R249). -/
def fredRow (f : Nat → Bool → Nat → Nat → Nat × Nat) (n w : Nat) (d : Dev) : Dev :=
  let c := core d n
  let r := (actives c (kV w) (longV w)).foldl (fun a j =>
    let x := f (rmOf c) (fzOf c) a.1 ((elem c (vaOf w) (longV w) j).toNat % 2 ^ 32)
    (x.1, a.2 ||| x.2)) (f32 c (vbOf w), 0)
  retire d n (setF (setFlags c r.2) (vdOf w) r.1) (c.pc + 4)

/-- VRSUM (R249). -/
def execVrsum (n : CoreIx) (w : BitVec 32) (s : State) : Host.Outcome State Fault Refusal := onDev s (instr n w (isV 0x36 0) usesRed (redRow (fun a b => a + b)))

/-- VRMIN (R249). -/
def execVrmin (n : CoreIx) (w : BitVec 32) (s : State) : Host.Outcome State Fault Refusal := onDev s (instr n w (isV 0x36 1) usesRed (redRow smin))

/-- VRMAX (R249). -/
def execVrmax (n : CoreIx) (w : BitVec 32) (s : State) : Host.Outcome State Fault Refusal := onDev s (instr n w (isV 0x36 2) usesRed (redRow smax))

/-- VRMINU (R249). -/
def execVrminu (n : CoreIx) (w : BitVec 32) (s : State) : Host.Outcome State Fault Refusal := onDev s (instr n w (isV 0x36 3) usesRed (redRow umin))

/-- VRMAXU (R249). -/
def execVrmaxu (n : CoreIx) (w : BitVec 32) (s : State) : Host.Outcome State Fault Refusal := onDev s (instr n w (isV 0x36 4) usesRed (redRow umax))

/-- VRAND (R249). -/
def execVrand (n : CoreIx) (w : BitVec 32) (s : State) : Host.Outcome State Fault Refusal := onDev s (instr n w (isV 0x36 5) usesRed (redRow (fun a b => a &&& b)))

/-- VROR (R249). -/
def execVror (n : CoreIx) (w : BitVec 32) (s : State) : Host.Outcome State Fault Refusal := onDev s (instr n w (isV 0x36 6) usesRed (redRow (fun a b => a ||| b)))

/-- VRXOR (R249). -/
def execVrxor (n : CoreIx) (w : BitVec 32) (s : State) : Host.Outcome State Fault Refusal := onDev s (instr n w (isV 0x36 7) usesRed (redRow (fun a b => a ^^^ b)))

/-- FRSUM (R249). -/
def execFrsum (n : CoreIx) (w : BitVec 32) (s : State) : Host.Outcome State Fault Refusal := onDev s (instr n w (isV 0x36 8) usesFRed (fredRow (fun rm fz a b => fadd b32 rm fz a b)))

/-- FRMIN (R249). -/
def execFrmin (n : CoreIx) (w : BitVec 32) (s : State) : Host.Outcome State Fault Refusal := onDev s (instr n w (isV 0x36 9) usesFRed (fredRow (fun _ fz a b => fminmax b32 fz false a b)))

/-- FRMAX (R249). -/
def execFrmax (n : CoreIx) (w : BitVec 32) (s : State) : Host.Outcome State Fault Refusal := onDev s (instr n w (isV 0x36 10) usesFRed (fredRow (fun _ fz a b => fminmax b32 fz true a b)))

/-! ## Compress, expand and moves -/

/-- Registers of VCOMPRESS, VEXPAND and VMOV. -/
def usesMove (w : Nat) : Uses :=
  { qs := [kV w], cells := vecCells (vdOf w) (longV w) ++ vecCells (vaOf w) (longV w) }

/-- VCOMPRESS: the active elements, in order, then zeros up to n (R250). -/
def compressRow (n w : Nat) (d : Dev) : Dev :=
  let c := core d n
  let js := actives c (kV w) (longV w)
  let xs := (List.range (nElems c (longV w))).map (fun i =>
    (i, match js[i]? with | some j => elem c (vaOf w) (longV w) j | none => 0))
  retire d n (setElems c (vdOf w) (longV w) xs) (c.pc + 4)

/-- VCOMPRESS (R250). -/
def execVcompress (n : CoreIx) (w : BitVec 32) (s : State) : Host.Outcome State Fault Refusal := onDev s (instr n w (isV 0x37 0) usesMove compressRow)

/-- VEXPAND: each active element takes element r of va, r the active elements below it (R250). -/
def expandRow (n w : Nat) (d : Dev) : Dev :=
  let c := core d n
  let js := actives c (kV w) (longV w)
  let xs := ((List.range js.length).zip js).map (fun e => (e.2, elem c (vaOf w) (longV w) e.1))
  retire d n (setElems c (vdOf w) (longV w) xs) (c.pc + 4)

/-- VEXPAND (R250). -/
def execVexpand (n : CoreIx) (w : BitVec 32) (s : State) : Host.Outcome State Fault Refusal := onDev s (instr n w (isV 0x37 1) usesMove expandRow)

/-- Registers of VID and VSPLAT. -/
def usesSplat (w : Nat) : Uses := { xs := [vaOf w % 32], qs := [kV w], cells := vecCells (vdOf w) (longV w) }

/-- vd[j] = f X[va] j for each active j. -/
def splatRow (f : Word → Nat → Word) (n w : Nat) (d : Dev) : Dev :=
  let c := core d n
  let xs := (actives c (kV w) (longV w)).map (fun j => (j, f (xget c (vaOf w % 32)) j))
  retire d n (setElems c (vdOf w) (longV w) xs) (c.pc + 4)

/-- VID: X[va] + j (R250). -/
def execVid (n : CoreIx) (w : BitVec 32) (s : State) : Host.Outcome State Fault Refusal :=
  onDev s (instr n w (isV 0x37 2) usesSplat (splatRow (fun x j => x + BitVec.ofNat 40 j)))

/-- VSPLAT: X[va] (R250). -/
def execVsplat (n : CoreIx) (w : BitVec 32) (s : State) : Host.Outcome State Fault Refusal := onDev s (instr n w (isV 0x37 3) usesSplat (splatRow (fun x _ => x)))

/-- VMOV: va[j] for each active j. -/
def vmovRow (n w : Nat) (d : Dev) : Dev :=
  let c := core d n
  let xs := (actives c (kV w) (longV w)).map (fun j => (j, elem c (vaOf w) (longV w) j))
  retire d n (setElems c (vdOf w) (longV w) xs) (c.pc + 4)

/-- VMOV (R250). -/
def execVmov (n : CoreIx) (w : BitVec 32) (s : State) : Host.Outcome State Fault Refusal := onDev s (instr n w (isV 0x37 4) usesMove vmovRow)

/-- VEXT: X[vd] = element X[vb] of va, 0 from n up (R250). -/
def vextRow (n w : Nat) (d : Dev) : Dev :=
  let c := core d n
  let i := (xget c (vbOf w % 32)).toNat
  let v := if i < nElems c (longV w) then elem c (vaOf w) (longV w) i else 0
  retire d n (xset c (vdOf w % 32) v) (c.pc + 4)

/-- VEXT (R250). -/
def execVext (n : CoreIx) (w : BitVec 32) (s : State) : Host.Outcome State Fault Refusal :=
  onDev s (instr n w (isV 0x37 5) (fun w => { xs := [vdOf w % 32, vbOf w % 32], cells := vecCells (vaOf w) (longV w) }) vextRow)

/-- VINS: element X[vb] of vd = X[va] when X[vb] < n (R250). -/
def vinsRow (n w : Nat) (d : Dev) : Dev :=
  let c := core d n
  let i := (xget c (vbOf w % 32)).toNat
  let c1 := if i < nElems c (longV w) then setElem c (vdOf w) (longV w) i (xget c (vaOf w % 32)) else c
  retire d n c1 (c.pc + 4)

/-- VINS (R250). -/
def execVins (n : CoreIx) (w : BitVec 32) (s : State) : Host.Outcome State Fault Refusal :=
  onDev s (instr n w (isV 0x37 6) (fun w => { xs := [vaOf w % 32, vbOf w % 32], cells := vecCells (vdOf w) (longV w) }) vinsRow)

/-! ## Qualifier operations and SETVL -/

/-- Registers of a qualifier operation: the qualifiers named, and the X registers named. -/
def usesQ (qs xs : Nat → List Nat) (w : Nat) : Uses := { xs := xs w, qs := qs w }

/-- Qd = f Qa Qb, on all 64 bits. -/
def qRow (f : BitVec 64 → BitVec 64 → BitVec 64) (n w : Nat) (d : Dev) : Dev :=
  let c := core d n
  retire d n (setQual c (vdOf w % 8) (f (qual c (vaOf w % 8)) (qual c (vbOf w % 8)))) (c.pc + 4)

/-- The qualifiers of the logic functions. -/
def qAbc (w : Nat) : List Nat := [vdOf w % 8, vaOf w % 8, vbOf w % 8]

/-- QBOTH (R251). -/
def execQboth (n : CoreIx) (w : BitVec 32) (s : State) : Host.Outcome State Fault Refusal := onDev s (instr n w (isV 0x3A 0) (usesQ qAbc (fun _ => [])) (qRow (fun a b => a &&& b)))

/-- QEITHER (R251). -/
def execQeither (n : CoreIx) (w : BitVec 32) (s : State) : Host.Outcome State Fault Refusal := onDev s (instr n w (isV 0x3A 1) (usesQ qAbc (fun _ => [])) (qRow (fun a b => a ||| b)))

/-- QDIFF (R251). -/
def execQdiff (n : CoreIx) (w : BitVec 32) (s : State) : Host.Outcome State Fault Refusal := onDev s (instr n w (isV 0x3A 2) (usesQ qAbc (fun _ => [])) (qRow (fun a b => a ^^^ b)))

/-- QTRIM (R251). -/
def execQtrim (n : CoreIx) (w : BitVec 32) (s : State) : Host.Outcome State Fault Refusal := onDev s (instr n w (isV 0x3A 3) (usesQ qAbc (fun _ => [])) (qRow (fun a b => a &&& ~~~b)))

/-- QFLIP (R251). -/
def execQflip (n : CoreIx) (w : BitVec 32) (s : State) : Host.Outcome State Fault Refusal := onDev s (instr n w (isV 0x3A 4) (usesQ qAbc (fun _ => [])) (qRow (fun a _ => ~~~a)))

/-- X[vd] = f Qa n. -/
def qxRow (f : BitVec 64 → Nat → Nat) (n w : Nat) (d : Dev) : Dev :=
  let c := core d n
  retire d n (xset c (vdOf w % 32) (BitVec.ofNat 40 (f (qual c (vaOf w % 8)) (nElems c (longV w))))) (c.pc + 4)

/-- Registers of the functions that read a qualifier into X. -/
def usesQx : Nat → Uses := usesQ (fun w => [vaOf w % 8]) (fun w => [vdOf w % 32])

/-- QCOUNT: set bits of Qa in bits [n − 1:0] (R251). -/
def execQcount (n : CoreIx) (w : BitVec 32) (s : State) : Host.Outcome State Fault Refusal := onDev s (instr n w (isV 0x3A 5) usesQx (qxRow (fun q n => popcN n q.toNat)))

/-- QFROMX: Qd [39:0] = X[va], [63:40] = X[vb] [23:0]. -/
def qfromxRow (n w : Nat) (d : Dev) : Dev :=
  let c := core d n
  retire d n (setQual c (vdOf w % 8) ((xget c (vbOf w % 32)).extractLsb' 0 24 ++ xget c (vaOf w % 32))) (c.pc + 4)

/-- QFROMX (R251). -/
def execQfromx (n : CoreIx) (w : BitVec 32) (s : State) : Host.Outcome State Fault Refusal :=
  onDev s (instr n w (isV 0x3A 6) (usesQ (fun w => [vdOf w % 8]) (fun w => [vaOf w % 32, vbOf w % 32])) qfromxRow)

/-- QLOW: X[vd] = Qa [39:0] (R251). -/
def execQlow (n : CoreIx) (w : BitVec 32) (s : State) : Host.Outcome State Fault Refusal := onDev s (instr n w (isV 0x3A 7) usesQx (qxRow (fun q _ => q.toNat % 2 ^ 40)))

/-- QHIGH: X[vd] = Qa [63:40] (R251). -/
def execQhigh (n : CoreIx) (w : BitVec 32) (s : State) : Host.Outcome State Fault Refusal := onDev s (instr n w (isV 0x3A 8) usesQx (qxRow (fun q _ => q.toNat / 2 ^ 40)))

/-- QLEAD: X[vd] = lowest j < n with bit j of Qa set, n when none (R251). -/
def execQlead (n : CoreIx) (w : BitVec 32) (s : State) : Host.Outcome State Fault Refusal :=
  onDev s (instr n w (isV 0x3A 9) usesQx (qxRow (fun q n => (firstIdx n (fun j => q.getLsbD j)).getD n)))

/-- SETVL: X[vd] = min(X[va], 64), and VL takes the same value. -/
def setvlRow (n w : Nat) (d : Dev) : Dev :=
  let c := core d n
  let v := BitVec.ofNat 40 (min (xget c (vaOf w % 32)).toNat 64)
  retire d n (csrSet (xset c (vdOf w % 32) v) 0x100 v) (c.pc + 4)

/-- SETVL (R251). -/
def execSetvl (n : CoreIx) (w : BitVec 32) (s : State) : Host.Outcome State Fault Refusal :=
  onDev s (instr n w (isV 0x3A 10) (usesQ (fun _ => []) (fun w => [vdOf w % 32, vaOf w % 32])) setvlRow)

/-- QFILL: Qd = all ones. -/
def qfillRow (n w : Nat) (d : Dev) : Dev :=
  let c := core d n
  retire d n (setQual c (vdOf w % 8) (BitVec.allOnes 64)) (c.pc + 4)

/-- QFILL (R251). -/
def execQfill (n : CoreIx) (w : BitVec 32) (s : State) : Host.Outcome State Fault Refusal := onDev s (instr n w (isV 0x3A 11) (usesQ (fun w => [vdOf w % 8]) (fun _ => [])) qfillRow)

end Sys2Proof.Machine
end

