-- ==== Sys2Proof/Machine/VecMem.lean ====
section
/-!
DEFINITION. Vector loads and stores, unit stride, gather and scatter (R252 to R257).
-/

namespace Sys2Proof.Machine

/-- A word of opcode 0x38 with function fn. -/
def isVM (fn w : Nat) : Bool := decide (opOf w = 0x38 ∧ fnVM w = fn)
/-- A word of opcode 0x39 with function fn. -/
def isVG (fn w : Nat) : Bool := decide (opOf w = 0x39 ∧ fnVG w = fn)

/-- N(A, j): the native-array address j elements after the slot at A (R252). -/
def nativeAt (a j : Nat) : Nat :=
  let s := a % 64 / 5 + j
  (a / 64 * 64 + 64 * (s / 12) + 5 * (s % 12)) % 2 ^ 40

/-- G: the native-array address of index i from B (R253). -/
def gatherAt (b i : Nat) : Nat := (b + 64 * (i / 12) + 5 * (i % 12)) % 2 ^ 40

/-- The trailer of the line of an element. -/
def trailerAt (a : Nat) : Nat := a / 64 * 64 + 60

/-- An active element's access: its number, its address, the bytes it touches, and whether it is aligned. -/
structure ElemAccess where
  j : Nat
  addr : Nat
  start : Nat
  len : Nat
  aligned : Bool
  deriving DecidableEq, Repr

/-- The probe (R254): the lowest-numbered active element that fails steps 1 and 2 of R215, with its cause: 0x07, or the cause of R214 in the
register range. -/
def probe (d : Dev) (n : Nat) (es : List ElemAccess) (store : Bool) : Option (ElemAccess × Nat) :=
  (es.find? (fun e => (accessCause d n e.start e.len e.aligned store).isSome)).map (fun e =>
    (e, if regionOf d e.addr = .regs then (if store then 0x06 else 0x05) else 0x07))

/-- Takes the cause that a probe found, with the element's address in EADDR and its number in VFIDX (R228, R254). -/
def probeFault (d : Dev) (n : Nat) (e : ElemAccess × Nat) : Dev := takeException d n e.2 (core d n).pc e.1.addr e.1.j

/-- The first element whose access a domain that is off with AUTOWAKE 0 shuts out (R425). -/
def shutElem (d : Dev) (es : List ElemAccess) : Option ElemAccess := es.find? (fun e => decide (memGate d [e.start] = .shut))

/-- A vector access that has begun waits for the domains that it needs (R255, R425). -/
def vecWakes (d : Dev) (n : Nat) (ks : List Nat) : Dev := modCore (stallCount (wakeAll d ks) n) n (fun c => { c with inVec := true })

/-- The runs of memory that a unit-stride access touches: one in each line, from its first byte there to its last. -/
def lineRuns (as : List Nat) : List (Nat × Nat) :=
  ((as.map (fun a => a / 64)).eraseDups).map (fun l =>
    let mine := as.filter (fun a => decide (a / 64 = l))
    let lo := mine.foldl min (64 * l + 63)
    (lo, mine.foldl max lo + 1 - lo))

/-- A vector load of its active elements: probe, then one load in flight that returns every element, or cause 0x08 for the lowest-numbered
element that met an uncorrectable line (R254, R257). With no active element nothing is accessed and it ends at once (R240). A gather
accesses its elements one by one, a unit-stride load line by line. -/
def vload (d : Dev) (n : Nat) (es : List ElemAccess) (dest : LoadDest) (gather : Bool) : Dev :=
  let c := core d n
  match probe d n es false with
  | some e => probeFault d n e
  | none =>
    if es = [] then retire d n (deliver c dest []) (c.pc + 4)
    else match shutElem d es, memGate d (es.map (fun e => e.start)) with
    | some e, _ => takeException d n 0x05 c.pc e.addr 0
    | none, .wake ks => vecWakes d n ks
    | none, _ =>
    if 8 ≤ c.loads.length then stallCount d n
    else
      let as := (es.map (fun e => accessBytes e.start e.len)).flatten
      launch d n {
        dest := dest, elems := es.map (fun e => (e.j, e.len)), want := as.map (knownByte d c)
        bad := es.findSome? (fun e => (badAt d (accessBytes e.start e.len)).map (fun l => (l, e.j)))
        addr := ((es.head?).map (fun e => e.addr)).getD 0 }
        (if gather then es.map (fun e => (e.start, e.len)) else lineRuns as)

/-- A vector store of its active elements in ascending order: probe, then one store-buffer entry; with no active element nothing is stored
(R240, R254, R256, R257). -/
def vstore (d : Dev) (n : Nat) (es : List ElemAccess) (val : Nat → List Byte) (native : Bool) : Dev :=
  let c := core d n
  match probe d n es true with
  | some e => probeFault d n e
  | none =>
    match (if native then es.find? (fun e => bellRefused d n e.addr) else none).orElse (fun _ => shutElem d es),
      memGate d (es.map (fun e => e.start)) with
    | some e, _ => takeException d n 0x06 c.pc e.addr 0
    | none, .wake ks => vecWakes d n ks
    | none, _ =>
      if es.isEmpty then retire d n c (c.pc + 4)
      else if 8 ≤ c.stores.length then stallCount d n
      else
        let d1 := if native then es.foldl (fun d e => bellWake d n e.addr) d else d
        buffer d1 n { parts := es.map (fun e => (e.addr, val e.j)), isNat := native }

/-- The slots whose NULL bits VLNQ and VGNQ take, with their elements' numbers (R120). -/
def nullSlots (es : List ElemAccess) : List (Nat × Nat) := es.map (fun e => (e.j, e.addr % 64 / 5))

/-! ## Unit stride -/

/-- The base A = X[ra] + sext(imm8). -/
def baseA (d : Dev) (n w : Nat) : Nat := effAddr (core d n) (raV w) (imm8 w)

/-- Registers of a unit-stride vector instruction. -/
def usesVM (w : Nat) : Uses := { xs := [raV w], qs := [kVM w], cells := vecCells (vdOf w) (longVM w) }

/-- The active elements of a unit-stride instruction: `at_` gives an element's address from A, `sub` the first byte it touches. -/
def unitElems (d : Dev) (n w : Nat) (at_ : Nat → Nat → Nat) (sub : Nat → Nat) (len : Nat) (ok : Nat → Bool) : List ElemAccess :=
  let a := baseA d n w
  (actives (core d n) (kVM w) (longVM w)).map (fun j => ⟨j, at_ a j, sub (at_ a j), len, ok a⟩)

/-- A + k × j, modulo 2^40. -/
def strideAt (k a j : Nat) : Nat := (a + k * j) % 2 ^ 40

/-- The destination of a unit-stride load. -/
def vmDest (d : Dev) (n w width : Nat) : LoadDest := .vec (vdOf w) (longVM w) (actives (core d n) (kVM w) (longVM w)) width

/-- A unit-stride load. -/
def vmLoad (at_ : Nat → Nat → Nat) (len : Nat) (ok : Nat → Bool) (n w : Nat) (d : Dev) : Dev :=
  vload d n (unitElems d n w at_ (fun a => a) len ok) (vmDest d n w len) false

/-- A unit-stride store. -/
def vmStore (at_ : Nat → Nat → Nat) (len : Nat) (ok : Nat → Bool) (native : Bool) (n w : Nat) (d : Dev) : Dev :=
  let c := core d n
  vstore d n (unitElems d n w at_ (fun a => a) len ok) (fun j => toLE len (elem c (vdOf w) (longVM w) j).toNat) native

/-- VLN (R252). -/
def execVln (n : CoreIx) (w : BitVec 32) (s : State) : Host.Outcome State Fault Refusal := onDev s (instr n w (isVM 0) usesVM (vmLoad nativeAt 5 nativeOk))

/-- Registers of VLNQ. -/
def usesVMQ (w : Nat) : Uses := { xs := [raV w], qs := [kVM w, vdOf w % 8] }

/-- VLNQ: Q[v] takes the NULL bits of the active elements' slots. -/
def vlnqRow (n w : Nat) (d : Dev) : Dev :=
  let es := unitElems d n w nativeAt trailerAt 4 nativeOk
  vload d n es (.nullQ (vdOf w % 8) (nullSlots es)) false

/-- VLNQ (R241, R252). -/
def execVlnq (n : CoreIx) (w : BitVec 32) (s : State) : Host.Outcome State Fault Refusal := onDev s (instr n w (isVM 1) usesVMQ vlnqRow)

/-- VLP (R252). -/
def execVlp (n : CoreIx) (w : BitVec 32) (s : State) : Host.Outcome State Fault Refusal := onDev s (instr n w (isVM 2) usesVM (vmLoad (strideAt 5) 5 (fun _ => true)))

/-- VLW (R252). -/
def execVlw (n : CoreIx) (w : BitVec 32) (s : State) : Host.Outcome State Fault Refusal := onDev s (instr n w (isVM 3) usesVM (vmLoad (strideAt 4) 4 (fun a => decide (a % 4 = 0))))

/-- VSN (R252, R261). -/
def execVsn (n : CoreIx) (w : BitVec 32) (s : State) : Host.Outcome State Fault Refusal := onDev s (instr n w (isVM 4) usesVM (vmStore nativeAt 5 nativeOk true))

/-- VSP (R252). -/
def execVsp (n : CoreIx) (w : BitVec 32) (s : State) : Host.Outcome State Fault Refusal := onDev s (instr n w (isVM 5) usesVM (vmStore (strideAt 5) 5 (fun _ => true) false))

/-- VSW (R252). -/
def execVsw (n : CoreIx) (w : BitVec 32) (s : State) : Host.Outcome State Fault Refusal := onDev s (instr n w (isVM 6) usesVM (vmStore (strideAt 4) 4 (fun a => decide (a % 4 = 0)) false))

/-! ## Gather and scatter -/

/-- Registers of a gather or scatter. -/
def usesVG (w : Nat) : Uses :=
  { xs := [raV w], qs := [kVG w], cells := vecCells (vdOf w) (longVG w) ++ vecCells (viOf w) (longVG w) }

/-- The active elements of a gather or scatter: `at_` gives the address from B and the index element. -/
def idxElems (d : Dev) (n w : Nat) (at_ : Nat → Nat → Nat) (sub : Nat → Nat) (len : Nat) (ok : Nat → Bool) : List ElemAccess :=
  let c := core d n
  (actives c (kVG w) (longVG w)).map (fun j =>
    let a := at_ (xget c (raV w)).toNat (elem c (viOf w) (longVG w) j).toNat
    ⟨j, a, sub a, len, ok a⟩)

/-- A gather. -/
def vgLoad (at_ : Nat → Nat → Nat) (len : Nat) (ok : Nat → Bool) (n w : Nat) (d : Dev) : Dev :=
  vload d n (idxElems d n w at_ (fun a => a) len ok)
    (.vec (vdOf w) (longVG w) (actives (core d n) (kVG w) (longVG w)) len) true

/-- A scatter. -/
def vgStore (at_ : Nat → Nat → Nat) (len : Nat) (ok : Nat → Bool) (native : Bool) (n w : Nat) (d : Dev) : Dev :=
  let c := core d n
  vstore d n (idxElems d n w at_ (fun a => a) len ok) (fun j => toLE len (elem c (vdOf w) (longVG w) j).toNat) native

/-- VGN (R253). -/
def execVgn (n : CoreIx) (w : BitVec 32) (s : State) : Host.Outcome State Fault Refusal := onDev s (instr n w (isVG 0) usesVG (vgLoad gatherAt 5 nativeOk))

/-- Registers of VGNQ. -/
def usesVGQ (w : Nat) : Uses := { xs := [raV w], qs := [kVG w, vdOf w % 8], cells := vecCells (viOf w) (longVG w) }

/-- VGNQ: Q[v] takes the NULL bits of the active elements' slots. -/
def vgnqRow (n w : Nat) (d : Dev) : Dev :=
  let es := idxElems d n w gatherAt trailerAt 4 nativeOk
  vload d n es (.nullQ (vdOf w % 8) (nullSlots es)) true

/-- VGNQ (R241, R253). -/
def execVgnq (n : CoreIx) (w : BitVec 32) (s : State) : Host.Outcome State Fault Refusal := onDev s (instr n w (isVG 1) usesVGQ vgnqRow)

/-- VGW (R253). -/
def execVgw (n : CoreIx) (w : BitVec 32) (s : State) : Host.Outcome State Fault Refusal := onDev s (instr n w (isVG 2) usesVG (vgLoad (fun b i => (b + 4 * i) % 2 ^ 40) 4 (fun a => decide (a % 4 = 0))))

/-- VSCN (R253, R256, R261). -/
def execVscn (n : CoreIx) (w : BitVec 32) (s : State) : Host.Outcome State Fault Refusal := onDev s (instr n w (isVG 4) usesVG (vgStore gatherAt 5 nativeOk true))

/-- VSCW (R253, R256). -/
def execVscw (n : CoreIx) (w : BitVec 32) (s : State) : Host.Outcome State Fault Refusal := onDev s (instr n w (isVG 6) usesVG (vgStore (fun b i => (b + 4 * i) % 2 ^ 40) 4 (fun a => decide (a % 4 = 0)) false))

end Sys2Proof.Machine
end

