-- ==== Sys2Proof/Machine/CoreDone.lean ====
section
/-!
DEFINITION. LN, which reads memory or a register (R18, R214, R483, R486), the return of a load and the completion of a store (R204, R210, R215 to
R217, R241, R252 to R257, R261, R325).
-/

namespace Sys2Proof.Machine

/-! ## LN -/

/-- The requester of a register access by core n. -/
def coreWho (n : Nat) : Requester := if h : n < 32 then .core ⟨n, h⟩ else .sbox

/-- LN at an address of the register range (R204, R214, R483, R486): an address that is not 8-byte aligned, a register outside the core's grant, and
for an operator core a domain that does not wake, are cause 0x05. Otherwise the load issues and counts among the 8 in flight, while the
domain wakes too; the register is read when it returns. -/
def lnReg (d : Dev) (n ea rd : Nat) : Dev :=
  let c := core d n
  let off := ea - 0xF000000000
  let go (d : Dev) : Dev := launch d n { dest := .x rd false, elems := [(0, 5)], reg := some off, addr := ea } []
  if ea % 8 ≠ 0 ∨ !lnGrant d n off then takeException d n 0x05 c.pc ea 0
  else if 8 ≤ c.loads.length then stallCount d n
  else match regWay d off with
    | .waits k => go (wakeDom d k)
    | .open_ => go d
    | .shut => if n = 32 then go d else takeException d n 0x05 c.pc ea 0

/-- LN: a native word, or a register (R214, R215). -/
def lnRow (n w : Nat) (d : Dev) : Dev :=
  let ea := effAddr (core d n) (raOf w) (immS w)
  if regionOf d ea = .regs then lnReg d n ea (rdOf w) else loadFrom d n ea ea 5 (nativeOk ea) (.x (rdOf w) false)

/-- LN (R119, R210, R214). -/
def execLn (n : CoreIx) (w : BitVec 32) (s : State) : Host.Outcome State Fault Refusal := onDev s (instr n w (isOp 0x16) usesAb lnRow)

/-! ## The return of a load -/

/-- The bytes of a load, once its reads of GDDR6 have been served. -/
def loadBytes (gs : List GReq) (l : LoadFly) : List Byte :=
  l.want.map (fun w => w.2.getD (((gs.find? (fun g => decide (g.addr ≤ w.1 ∧ w.1 < g.addr + g.len))).bind (fun g => g.data[w.1 - g.addr]?)).getD 0))

/-- The uncorrectable line that a load met, with the number of its element: the lowest-numbered one (R215, R254). -/
def loadBad (gs : List GReq) (l : LoadFly) : Option (Nat × Nat) :=
  let js := (l.elems.map (fun e => List.replicate e.2 e.1)).flatten
  let failed : Nat → Bool := fun a => gs.any (fun g => decide (g.st = .failed ∧ g.addr ≤ a ∧ a < g.addr + g.len))
  let far := ((js.zip l.want).find? (fun e => e.2.2.isNone && failed e.2.1)).map (fun e => (e.2.1 / 64 * 64, e.1))
  match l.bad, far with
  | some x, some y => if y.2 < x.2 then some y else some x
  | some x, none => some x
  | none, y => y

/-- A load that faults leaves with everything that issued after it: registers, loads and stores are as they stood before it, and only CYCLE has
gone on (R205). -/
def squash (d : Dev) (n : Nat) (l : LoadFly) : Dev :=
  let c := core d n
  let r := { l.saved with csr := mset 0 l.saved.csr 0x028 (csrGet c 0x028) }
  setCore (dropReqs d (loadsFrom n l.num)) n { c with
    toCoreRegs := r, st := .running, loads := [], stores := c.stores.filter (fun s => decide (s.num ≤ l.num)), stalled := false, inVec := false }

/-- The i-th load in flight of core n leaves with its data. The registers kept for the younger ones take it too, and the instructions that
retire with it retire, or wait for the load before it (R205, R234). -/
def loadDone (d : Dev) (n i : Nat) (l : LoadFly) (bs : List Byte) : Dev :=
  let c := core d n
  let old := (c.loads.take i).dropLast ++ ((c.loads.take i).getLast?.map (fun o => { o with after := o.after + l.after })).toList
  let young := (c.loads.drop (i + 1)).map (fun y => { y with saved := (deliver { c with toCoreRegs := y.saved } l.dest bs).toCoreRegs })
  let d1 := dropReqs d (fun o => decide (o = .load n l.num))
  setCore (if i = 0 ∧ n ≠ 32 then bumpN d1 .coreCnt (n * 4) l.after else d1) n
    { deliver c l.dest bs with loads := old ++ young, stalled := false }

/-- The return of a load of a register: it is read once every earlier load has returned and its domain is ON; one that has been shut meanwhile
answers as at issue (R204, R214, R425). -/
def regLoadReturn (n off : Nat) (l : LoadFly) (d : Dev) : Dev :=
  match regWay d off with
  | .open_ => let x := regRead d (coreWho n) off; loadDone x.2 n 0 l (toLE 5 x.1.toNat)
  | .waits k => wakeDom d k
  | .shut => if n = 32 then loadDone d n 0 l (toLE 5 (2 ^ 40 - 1)) else takeException (squash d n l) n 0x05 l.saved.pc l.addr 0

/-- LOAD_RETURN (R204, R205, R215): the i-th load in flight, once its data has arrived, leaves and delivers it; one that met an uncorrectable line
changes no register, and when every earlier load has returned takes cause 0x08 with EADDR equal to the line address. -/
def loadReturn (n i : Nat) (d : Dev) : Dev :=
  let c := core d n
  match c.loads[i]? with
  | none => d
  | some l =>
    let gs := lineReads d (.load n l.num)
    if !running d || gs.any (fun g => decide (g.st ≠ .served ∧ g.st ≠ .failed)) then d
    else match l.reg, loadBad gs l with
      | some off, _ => if i = 0 then regLoadReturn n off l d else d
      | none, some (line, j) => if i = 0 then takeException (readErr (squash d n l) line) n 0x08 l.saved.pc line j else d
      | none, none => loadDone d n i l (loadBytes gs l)

/-! ## The completion of a store -/

/-- Core n's oldest store with its first write made; the store leaves when its last write is. -/
def storeTaken (d : Dev) (n : Nat) : Dev :=
  modCore d n (fun c =>
    match c.stores with
    | s :: rest => { c with stores := if s.parts.length ≤ 1 then rest else { s with parts := s.parts.drop 1 } :: rest }
    | [] => c)

/-- A write of core n at a memory address: STORE_ECC_DROP where it covers part of an uncorrectable unit, with DATA_ECC for the Consist of its
Wagon (R325). -/
def storeBytes (d : Dev) (n a : Nat) (bs : List Byte) : Dev :=
  unitWrite d ((serving d n).map (fun s => wConsist s.w)) a bs

/-- One write of core n's oldest store to memory, with its ring where it is a native write to a bell's address as PSWIN stands now (R256, R261,
R262, R288). It waits while its slice has no room or holds GDDR6 requests, or its unit has no place for the ring (R328). -/
def storePart (d : Dev) (n a : Nat) (bs : List Byte) (native : Bool) : Dev :=
  if !memUp d a || !roomFor d a bs.length then d
  else match (if native then bellSlot d n a else none) with
    | none => storeBytes (storeTaken d n) n a bs
    | some k => if bellRoom d n k then ringBell (storeBytes (storeTaken d n) n a bs) n k (ofLE bs) else bellWake d n a

/-- STORE_COMPLETION (R204, R205, R256, R257, R261): the oldest store in the buffer makes its next write, once every load before it has returned;
the Signal Box's store to a register makes a register write (R122, R483). -/
def storeCompletion (n : Nat) (s : State) : State :=
  let d := s.dev
  match (core d n).stores with
  | [] => s
  | t :: _ =>
    if running d ∧ (core d n).loads.all (fun l => decide (t.num ≤ l.num)) then
      match t.parts with
      | [] => { s with dev := storeTaken d n }
      | (a, bs) :: _ =>
        match regOff a with
        | some off =>
          (match regWay d off with
          | .waits k => { s with dev := wakeDom d k }
          | _ => regAccess { s with dev := storeTaken d n } .sbox off (BitVec.ofNat 40 (ofLE bs)))
        | none => { s with dev := storePart d n a bs t.isNat }
    else s

/-! ## The order of the register path -/

/-- Port 0's oldest waiting transaction is served (R22, R50). -/
def port0First (s : State) : State :=
  match s.dev.link.rxReg with
  | [] => s
  | q :: _ => if q.ty = 0x10 then { s with dev := pump (regRd s.dev) } else { regWr s with dev := pump (regWr s).dev }

/-- The oldest load of core n waits to read a register (R204). -/
def regLoadDue (d : Dev) (n : Nat) : Bool := match (core d n).loads with | l :: _ => l.reg.isSome | [] => false

/-- The oldest store of core n waits to write a register (R204, R261). -/
def regStoreDue (d : Dev) (n : Nat) : Bool :=
  match (core d n).stores with
  | t :: _ => (match t.parts with | (a, _) :: _ => (regOff a).isSome | [] => false)
  | [] => false

/-- The oldest register load or store of core n that waits is served: the load first, which a later store does not pass (R205). -/
def coreFirst (s : State) (n : Nat) : State :=
  if regLoadDue s.dev n then { s with dev := loadReturn n 0 s.dev }
  else if regStoreDue s.dev n then storeCompletion n s else s

/-- The register path's order in a cycle (R13, R22, R485): the accesses that wait and go before one of a given requester are served first: port 0's oldest
transaction, then the Signal Box's register load or store, then DBG_ACCESS, then the register loads of operator cores, lowest core first. -/
def pathFirst (s : State) (who : Requester) : State :=
  match who with
  | .port0 => s
  | .sbox => port0First s
  | .dbg => coreFirst (port0First s) 32
  | .core n => (List.range n.val).foldl (fun s m => if regLoadDue s.dev m then coreFirst s m else s) (coreFirst (port0First s) 32)

/-- LOAD_RETURN: a load of a register takes its turn on the register path. -/
def execLoadReturn (n : CoreIx) (i : Fin 8) (s : State) : Host.Outcome State Fault Refusal :=
  let s1 := if i.val = 0 ∧ regLoadDue s.dev n.val then pathFirst s (coreWho n.val) else s
  .next { s1 with dev := loadReturn n.val i.val s1.dev }

/-- STORE_COMPLETION: a store to a register takes its turn on the register path. -/
def execStoreCompletion (n : CoreIx) (s : State) : Host.Outcome State Fault Refusal :=
  .next (storeCompletion n.val (if regStoreDue s.dev n.val then pathFirst s (coreWho n.val) else s))

end Sys2Proof.Machine
end

