-- ==== Sys2Proof/Machine/VecFp.lean ====
section
/-!
DEFINITION. The floating-point instructions (R246, R247): vector binary32 in opcodes 0x32 and 0x33, scalar binary32 and binary64 in 0x34.
-/

namespace Sys2Proof.Machine

/-- A word of opcodes 0x32 to 0x34 with function fn. -/
def isFp (fn w : Nat) : Bool := decide ((opOf w = 0x32 ∨ opOf w = 0x33 ∨ opOf w = 0x34) ∧ fn4 w = fn)

/-- Registers of a floating-point function. -/
def usesFp (w : Nat) : Uses :=
  if opOf w = 0x34 then { cells := [vdOf w % 32, vaOf w % 32, vbOf w % 32] }
  else
    { qs := [kV w]
      cells := vecCells (vdOf w) (longV w) ++ (vecCells (vaOf w) (longV w) ++
        (if opOf w = 0x32 then vecCells (vbOf w) (longV w) else [vbOf w % 32])) }

/-- binary32 in bits [31:0] of an element. -/
def elem32 (c : Core) (v : Nat) (long : Bool) (j : Nat) : Nat := (elem c v long j).toNat % 2 ^ 32

/-- b of element j in binary32: vb[j] in 0x32, F[vb] in 0x33 (R244). -/
def fpB (c : Core) (w j : Nat) : Nat := if opOf w = 0x32 then elem32 c (vbOf w) (longV w) j else f32 c (vbOf w)

/-- A floating-point function of a, b and the old destination d: on every active element, or on scalars in the precision that L selects; its
flags are set in FCSR (R246, R247). -/
def fpRow (f : FFmt → Nat → Bool → Nat → Nat → Nat → Nat × Nat) (n w : Nat) (d : Dev) : Dev :=
  let c := core d n
  if opOf w = 0x34 then
    let r := if longV w then f b64 (rmOf c) (fzOf c) (f64 c (vaOf w)) (f64 c (vbOf w)) (f64 c (vdOf w))
      else f b32 (rmOf c) (fzOf c) (f32 c (vaOf w)) (f32 c (vbOf w)) (f32 c (vdOf w))
    retire d n (setF (setFlags c r.2) (vdOf w) r.1) (c.pc + 4)
  else
    let rs := (actives c (kV w) (longV w)).map (fun j =>
      (j, f b32 (rmOf c) (fzOf c) (elem32 c (vaOf w) (longV w) j) (fpB c w j) (elem32 c (vdOf w) (longV w) j)))
    let c1 := setFlags c (orFlags (rs.map (fun r => r.2.2)))
    retire d n (setElems c1 (vdOf w) (longV w) (rs.map (fun r => (r.1, BitVec.ofNat 40 r.2.1)))) (c.pc + 4)

/-- FADD (R246, R247). -/
def execFadd (n : CoreIx) (w : BitVec 32) (s : State) : Host.Outcome State Fault Refusal := onDev s (instr n w (isFp 0) usesFp (fpRow (fun t rm fz a b _ => fadd t rm fz a b)))

/-- FSUB (R246, R247). -/
def execFsub (n : CoreIx) (w : BitVec 32) (s : State) : Host.Outcome State Fault Refusal := onDev s (instr n w (isFp 1) usesFp (fpRow (fun t rm fz a b _ => fsub t rm fz a b)))

/-- FMUL (R246, R247). -/
def execFmul (n : CoreIx) (w : BitVec 32) (s : State) : Host.Outcome State Fault Refusal := onDev s (instr n w (isFp 2) usesFp (fpRow (fun t rm fz a b _ => fmul t rm fz a b)))

/-- FDIV (R246, R247). -/
def execFdiv (n : CoreIx) (w : BitVec 32) (s : State) : Host.Outcome State Fault Refusal := onDev s (instr n w (isFp 3) usesFp (fpRow (fun t rm fz a b _ => fdiv t rm fz a b)))

/-- FMIN (R246, R247). -/
def execFmin (n : CoreIx) (w : BitVec 32) (s : State) : Host.Outcome State Fault Refusal := onDev s (instr n w (isFp 4) usesFp (fpRow (fun t _ fz a b _ => fminmax t fz false a b)))

/-- FMAX (R246, R247). -/
def execFmax (n : CoreIx) (w : BitVec 32) (s : State) : Host.Outcome State Fault Refusal := onDev s (instr n w (isFp 5) usesFp (fpRow (fun t _ fz a b _ => fminmax t fz true a b)))

/-- FSQRT (R246, R247). -/
def execFsqrt (n : CoreIx) (w : BitVec 32) (s : State) : Host.Outcome State Fault Refusal := onDev s (instr n w (isFp 6) usesFp (fpRow (fun t rm fz a _ _ => fsqrt t rm fz a)))

/-- FMA (R246, R247). -/
def execFma (n : CoreIx) (w : BitVec 32) (s : State) : Host.Outcome State Fault Refusal := onDev s (instr n w (isFp 7) usesFp (fpRow (fun t rm fz a b d => ffma t rm fz a b d)))

/-- FABS: a with sign 0 (R246, R247). -/
def execFabs (n : CoreIx) (w : BitVec 32) (s : State) : Host.Outcome State Fault Refusal := onDev s (instr n w (isFp 10) usesFp (fpRow (fun t _ fz a _ _ => fsignOp t fz (fun _ => false) a)))

/-- FNEG: a with its sign inverted (R246, R247). -/
def execFneg (n : CoreIx) (w : BitVec 32) (s : State) : Host.Outcome State Fault Refusal := onDev s (instr n w (isFp 11) usesFp (fpRow (fun t _ fz a _ _ => fsignOp t fz (fun n => !n) a)))

/-- Registers of FCVTFX: in 0x34 a is X[va]. -/
def usesFx (w : Nat) : Uses :=
  if opOf w = 0x34 then { xs := [vaOf w % 32], cells := [vdOf w % 32] } else { qs := [kV w], cells := vecCells (vdOf w) (longV w) ++ vecCells (vaOf w) (longV w) }

/-- FCVTFX: a signed 40-bit integer to float. -/
def fcvtfxRow (n w : Nat) (d : Dev) : Dev :=
  let c := core d n
  if opOf w = 0x34 then
    let r := fofInt (if longV w then b64 else b32) (rmOf c) (xget c (vaOf w % 32)).toInt
    retire d n (setF (setFlags c r.2) (vdOf w) r.1) (c.pc + 4)
  else
    let rs := (actives c (kV w) (longV w)).map (fun j => (j, fofInt b32 (rmOf c) (elem c (vaOf w) (longV w) j).toInt))
    let c1 := setFlags c (orFlags (rs.map (fun r => r.2.2)))
    retire d n (setElems c1 (vdOf w) (longV w) (rs.map (fun r => (r.1, BitVec.ofNat 40 r.2.1)))) (c.pc + 4)

/-- FCVTFX (R246). -/
def execFcvtfx (n : CoreIx) (w : BitVec 32) (s : State) : Host.Outcome State Fault Refusal := onDev s (instr n w (isFp 8) usesFx fcvtfxRow)

/-- Registers of FCVTXF: in 0x34 the result goes to X[vd]. -/
def usesXf (w : Nat) : Uses :=
  if opOf w = 0x34 then { xs := [vdOf w % 32], cells := [vaOf w % 32] } else { qs := [kV w], cells := vecCells (vdOf w) (longV w) ++ vecCells (vaOf w) (longV w) }

/-- FCVTXF: float to a signed 40-bit integer by FCSR.RM. -/
def fcvtxfRow (n w : Nat) (d : Dev) : Dev :=
  let c := core d n
  if opOf w = 0x34 then
    let r := if longV w then ftoInt b64 (rmOf c) (fzOf c) (f64 c (vaOf w)) else ftoInt b32 (rmOf c) (fzOf c) (f32 c (vaOf w))
    retire d n (xset (setFlags c r.2) (vdOf w % 32) r.1) (c.pc + 4)
  else
    let rs := (actives c (kV w) (longV w)).map (fun j => (j, ftoInt b32 (rmOf c) (fzOf c) (elem32 c (vaOf w) (longV w) j)))
    let c1 := setFlags c (orFlags (rs.map (fun r => r.2.2)))
    retire d n (setElems c1 (vdOf w) (longV w) (rs.map (fun r => (r.1, r.2.1)))) (c.pc + 4)

/-- FCVTXF (R246, R247). -/
def execFcvtxf (n : CoreIx) (w : BitVec 32) (s : State) : Host.Outcome State Fault Refusal := onDev s (instr n w (isFp 9) usesXf fcvtxfRow)

/-- FCVTP: L = 0 binary64 to binary32, L = 1 binary32 to binary64. -/
def fcvtpRow (n w : Nat) (d : Dev) : Dev :=
  let c := core d n
  let r := if longV w then fconv b32 b64 (rmOf c) (fzOf c) (f32 c (vaOf w)) else fconv b64 b32 (rmOf c) (fzOf c) (f64 c (vaOf w))
  retire d n (setF (setFlags c r.2) (vdOf w) r.1) (c.pc + 4)

/-- FCVTP (R246). -/
def execFcvtp (n : CoreIx) (w : BitVec 32) (s : State) : Host.Outcome State Fault Refusal := onDev s (instr n w (isV 0x34 12) (fun w => { cells := [vdOf w % 32, vaOf w % 32] }) fcvtpRow)

/-- FMVXF: X[vd] = cell bits [39:0] of F[va]. -/
def fmvxfRow (n w : Nat) (d : Dev) : Dev :=
  let c := core d n
  retire d n (xset c (vdOf w % 32) ((cell c (vaOf w % 32)).extractLsb' 0 40)) (c.pc + 4)

/-- FMVXF (R246). -/
def execFmvxf (n : CoreIx) (w : BitVec 32) (s : State) : Host.Outcome State Fault Refusal :=
  onDev s (instr n w (isV 0x34 13) (fun w => { xs := [vdOf w % 32], cells := [vaOf w % 32] }) fmvxfRow)

/-- FMVFX: cell bits [39:0] of F[vd] = X[va], bits [79:40] zero. -/
def fmvfxRow (n w : Nat) (d : Dev) : Dev :=
  let c := core d n
  retire d n (setF c (vdOf w) (xget c (vaOf w % 32)).toNat) (c.pc + 4)

/-- FMVFX (R246). -/
def execFmvfx (n : CoreIx) (w : BitVec 32) (s : State) : Host.Outcome State Fault Refusal :=
  onDev s (instr n w (isV 0x34 14) (fun w => { xs := [vaOf w % 32], cells := [vdOf w % 32] }) fmvfxRow)

end Sys2Proof.Machine
end

