-- ==== Sys2Proof/Machine/CoreEntry.lean ====
section
/-!
DEFINITION. The entry of an interrupt (R231), which gives way to the exception of the instruction at the pc.
-/

namespace Sys2Proof.Machine

/-- The meaning of an instruction row. -/
abbrev Meaning := CoreIx → BitVec 32 → State → Host.Outcome State Fault Refusal

/-- Meanings of the instruction rows, part 0. -/
def meanings0 : List Meaning :=
  [execAdd, execSub, execAndd, execOrr, execXorr, execSll, execSrl, execSra, execSlt, execSltu, execMin, execMax, execMinu,
   execMaxu, execMul, execMulh, execMulhu, execDiv, execDivu, execRem, execRemu, execClz, execCtz, execPopc, execH40, execAddi,
   execAndi, execOri, execXori, execSlti, execSltiu, execSlli, execSrli, execSrai, execLui, execOrl, execLb, execLbu, execLh,
   execLhu]

/-- Meanings of the instruction rows, part 1. -/
def meanings1 : List Meaning :=
  [execLw, execLwu, execLn, execLnf, execSb, execSh, execSw, execSn, execBeq, execBne, execBlt, execBge, execBltu, execBgeu,
   execJal, execJalr, execWaitw, execDonew, execEmitw, execEmitwk, execDropw, execFaultw, execMfc, execMtc, execMset, execMclr,
   execEret, execBrk, execWaiti, execTrap, execVadd, execVsub, execVand, execVor, execVxor, execVsll, execVsrl, execVsra,
   execVmin, execVmax]

/-- Meanings of the instruction rows, part 2. -/
def meanings2 : List Meaning :=
  [execVminu, execVmaxu, execVmul, execVmulhu, execVh40, execVsel, execFadd, execFsub, execFmul, execFdiv, execFmin, execFmax,
   execFsqrt, execFma, execFcvtfx, execFcvtxf, execFabs, execFneg, execFcvtp, execFmvxf, execFmvfx, execVeq, execVne, execVlt,
   execVge, execVltu, execVgeu, execFlt, execFge, execVrsum, execVrmin, execVrmax, execVrminu, execVrmaxu, execVrand, execVror,
   execVrxor, execFrsum, execFrmin, execFrmax]

/-- Meanings of the instruction rows, part 3. -/
def meanings3 : List Meaning :=
  [execVcompress, execVexpand, execVid, execVsplat, execVmov, execVext, execVins, execVln, execVlnq, execVlp, execVlw, execVsn,
   execVsp, execVsw, execVgn, execVgnq, execVgw, execVscn, execVscw, execQboth, execQeither, execQdiff, execQtrim, execQflip,
   execQcount, execQfromx, execQlow, execQhigh, execQlead, execSetvl, execQfill, execQld, execQst, execFlw, execFsw, execFld,
   execFsd, execUndefinedOpcode]

/-- Meanings of the instruction rows. -/
def meanings : List Meaning := meanings0 ++ meanings1 ++ meanings2 ++ meanings3

/-- The instruction at core n's pc takes an exception of its own: its fetch faults, or the meaning of its word leads out of level 0 (R231). -/
def ownException (n : CoreIx) (s : State) : Bool :=
  let d := s.dev
  let c := core d n.val
  decide (c.st = .running) &&
    (!fetchable d n.val c.pc || memBad d c.pc 4 ||
      meanings.any (fun m => match m n (BitVec.ofNat 32 (fetchWord d n.val c.pc)) s with
        | .next t => decide (levelOf (core t.dev n.val) ≠ 0)
        | _ => false))

/-- INTERRUPT_ENTRY (R231): the interrupt that is due is taken; where the instruction's own exception falls due together with it, the exception
goes first and the interrupt stays pending. -/
def execInterruptEntry (n : CoreIx) (s : State) : Host.Outcome State Fault Refusal :=
  .next (if ownException n s then s else { s with dev := takeInterrupt n.val s.dev })

end Sys2Proof.Machine
end

