-- ==== Sys2Proof/Machine/PathRows.lean ====
section
/-!
DEFINITION. The rows that make register accesses of a requester of their own (R12, R13, R22, R485): before each, the register path serves the accesses that
wait and go first in its order within a cycle.
-/

namespace Sys2Proof.Machine

/-! ## The link -/

/-- LINK_RETRAIN_WRITE (R63). -/
def execLinkRetrainWrite (who : Requester) (v : Word) (s : State) : Host.Outcome State Fault Refusal :=
  onDev (pathFirst s who) (fun d => if bitOf v.toNat 2 = 1 then viaPath d who 0x100000 (fun d => linkCtrlWrite d v) else d)

/-- LINK_WIDTH_WRITE (R36): a write that changes WIDTH. -/
def execLinkWidthWrite (who : Requester) (v : Word) (s : State) : Host.Outcome State Fault Refusal :=
  onDev (pathFirst s who) (fun d => if bitsOf v.toNat 1 0 ≠ fld d .linkCtrl 0 1 0 then viaPath d who 0x100000 (fun d => linkCtrlWrite d v) else d)

/-! ## The Column Cache and the Yard -/

/-- INVALIDATE_ADDR (R334). -/
def execInvalidateAddr (who : Requester) (v : Word) (s : State) : Host.Outcome State Fault Refusal := onDev (pathFirst s who) (maintRow 1 who v)

/-- INVALIDATE_RANGE (R334). -/
def execInvalidateRange (who : Requester) (v : Word) (s : State) : Host.Outcome State Fault Refusal := onDev (pathFirst s who) (maintRow 2 who v)

/-- INVALIDATE_ALL (R334). -/
def execInvalidateAll (who : Requester) (v : Word) (s : State) : Host.Outcome State Fault Refusal := onDev (pathFirst s who) (maintRow 3 who v)

/-- CACHE_ENABLE_WRITE (R337). -/
def execCacheEnableWrite (who : Requester) (v : Word) (s : State) : Host.Outcome State Fault Refusal :=
  onDev (pathFirst s who) (fun d => viaPath d who 0x900000 (fun d => cacheCtrlWrite d v))

/-- YARD_CLEAR (R324). -/
def execYardClear (who : Requester) (v : Word) (s : State) : Host.Outcome State Fault Refusal :=
  onDev (pathFirst s who) (fun d => viaPath d who 0xA00000 (fun d => yardClearWrite d v))

/-! ## The GDDR6 controllers -/

/-- MODE_REGISTER_WRITE (R387). -/
def execModeRegisterWrite (who : Requester) (ch : Fin 16) (v : Word) (s : State) : Host.Outcome State Fault Refusal :=
  onDev (pathFirst s who) (trainRow 1 who ch v)

/-- CA_TRAINING (R387). -/
def execCaTraining (who : Requester) (ch : Fin 16) (v : Word) (s : State) : Host.Outcome State Fault Refusal :=
  onDev (pathFirst s who) (trainRow 2 who ch v)

/-- WCK_ALIGNMENT (R387). -/
def execWckAlignment (who : Requester) (ch : Fin 16) (v : Word) (s : State) : Host.Outcome State Fault Refusal :=
  onDev (pathFirst s who) (trainRow 3 who ch v)

/-- READ_TRAINING (R387). -/
def execReadTraining (who : Requester) (ch : Fin 16) (v : Word) (s : State) : Host.Outcome State Fault Refusal :=
  onDev (pathFirst s who) (trainRow 4 who ch v)

/-- WRITE_TRAINING (R387). -/
def execWriteTraining (who : Requester) (ch : Fin 16) (v : Word) (s : State) : Host.Outcome State Fault Refusal :=
  onDev (pathFirst s who) (trainRow 5 who ch v)

/-- VERIFY (R387). -/
def execVerify (who : Requester) (ch : Fin 16) (v : Word) (s : State) : Host.Outcome State Fault Refusal :=
  onDev (pathFirst s who) (trainRow 6 who ch v)

/-- TEMPERATURE_READ (R387). -/
def execTemperatureRead (who : Requester) (ch : Fin 16) (v : Word) (s : State) : Host.Outcome State Fault Refusal :=
  onDev (pathFirst s who) (trainRow 7 who ch v)

/-- MC_RESET_RELEASE (R387): a write with CK_EN and RESET_REL set brings the controller's channels into STATE 1. -/
def execMcResetRelease (who : Requester) (k : Fin 8) (v : Word) (s : State) : Host.Outcome State Fault Refusal :=
  onDev (pathFirst s who) (fun d => if bitsOf v.toNat 1 0 = 3 then viaPath d who (mcOff k.val 0x10) (fun d => mcCtrlWrite d k.val v) else d)

/-- SELF_REF (R389): a write that changes SELF_REF. -/
def execSelfRef (who : Requester) (k : Fin 8) (v : Word) (s : State) : Host.Outcome State Fault Refusal :=
  onDev (pathFirst s who) (fun d =>
    if bitOf v.toNat 2 ≠ fld d .mcCtrl k.val 2 2 then viaPath d who (mcOff k.val 0x10) (fun d => mcCtrlWrite d k.val v) else d)

/-- RATE_DONE (R389, R391): a write of 1 to RATE_DONE. -/
def execRateDone (who : Requester) (k : Fin 8) (v : Word) (s : State) : Host.Outcome State Fault Refusal :=
  onDev (pathFirst s who) (fun d => if bitOf v.toNat 4 = 1 then viaPath d who (mcOff k.val 0x10) (fun d => mcCtrlWrite d k.val v) else d)

/-- TRAFFIC_EN (R387): a write of MC_GLOBAL that sets TRAFFIC_EN. -/
def execTrafficEn (who : Requester) (v : Word) (s : State) : Host.Outcome State Fault Refusal :=
  onDev (pathFirst s who) (fun d => if bitOf v.toNat 24 = 1 then viaPath d who (mcOff 0 0) (fun d => mcGlobalWrite d v) else d)

/-- MC_CONFIG_WRITE (R374): a write of MC_GLOBAL. -/
def execMcConfigWrite (who : Requester) (v : Word) (s : State) : Host.Outcome State Fault Refusal :=
  onDev (pathFirst s who) (fun d => viaPath d who (mcOff 0 0) (fun d => mcGlobalWrite d v))

/-! ## Power, clocks and reset -/

/-- PWR_DOMAIN_WAKE (R486). -/
def execPwrDomainWake (who : Requester) (k : Fin 24) (v : Word) (s : State) : Host.Outcome State Fault Refusal :=
  onDev (pathFirst s who) (fun d => if bitOf v.toNat 35 = 1 then viaPath d who (0xF00100 + 8 * k.val) (fun d => pwrDomainWrite d k.val v) else d)

/-- PROFILE (R427, R430). -/
def execProfile (who : Requester) (v : Word) (s : State) : Host.Outcome State Fault Refusal :=
  onDevTx (pathFirst s who) (fun d => viaPath d who 0xF00000 (fun d => pwrCtrlWrite d who v))

/-- SLEEP (R435): a write of PWR_CTRL with SLEEP starts phase 1. -/
def execSleep (who : Requester) (v : Word) (s : State) : Host.Outcome State Fault Refusal :=
  onDevTx (pathFirst s who) (fun d => if bitsOf v.toNat 5 4 = 0 then d else viaPath d who 0xF00000 (fun d => pwrCtrlWrite d who v))

/-- WARM (R445). -/
def execWarm (who : Requester) (v : Word) (s : State) : Host.Outcome State Fault Refusal :=
  onDev (pathFirst s who) (fun d => viaPath d who 0xF00038 (fun d => resetCtrlWrite d v))

/-- PAD_HOLD_RELEASE (R444). -/
def execPadHoldRelease (who : Requester) (v : Word) (s : State) : Host.Outcome State Fault Refusal :=
  onDev (pathFirst s who) (fun d => viaPath d who 0xF00030 (fun d => padHoldWrite d who v))

/-! ## The Signal Box and CIPHER -/

/-- SIGN (R421). -/
def execSign (who : Requester) (v : Word) (s : State) : Host.Outcome State Fault Refusal := onDev (pathFirst s who) (signRow 1 who v)

/-- VERIFY_SIGNATURE (R421). -/
def execVerifySignature (who : Requester) (v : Word) (s : State) : Host.Outcome State Fault Refusal := onDev (pathFirst s who) (signRow 2 who v)

/-- TIME_TOKEN_CHECK (R413, R421). -/
def execTimeTokenCheck (who : Requester) (v : Word) (s : State) : Host.Outcome State Fault Refusal := onDev (pathFirst s who) (signRow 3 who v)

/-- ZEROISE (R414, R421). -/
def execZeroise (who : Requester) (v : Word) (s : State) : Host.Outcome State Fault Refusal :=
  onDev (pathFirst s who) (fun d => if bitOf v.toNat 1 = 1 then viaPath d who 0xD00000 (fun d => cipherCtrlWrite d who v) else d)

/-- GEN_MEM (R414, R421). -/
def execGenMem (who : Requester) (v : Word) (s : State) : Host.Outcome State Fault Refusal :=
  onDev (pathFirst s who) (fun d => if bitOf v.toNat 0 = 1 then viaPath d who 0xD00000 (fun d => cipherCtrlWrite d who v) else d)

/-- AO_TIME_WRITE (R413): a direct write by firmware. -/
def execAoTimeWrite (who : Requester) (v : Word) (s : State) : Host.Outcome State Fault Refusal :=
  onDevTx (pathFirst s who) (fun d => viaPath d who 0xF00050 (fun d => kickAll (aoTimeWrite d who v)))

/-- FW_CONFIRM (R399, R412). -/
def execFwConfirm (who : Requester) (v : Word) (s : State) : Host.Outcome State Fault Refusal :=
  .next (viaPathS (pathFirst s who) who 0xE00010 (fun s => sboxFwWrite s who v))

/-- LIFECYCLE_ADVANCE (R417). -/
def execLifecycleAdvance (who : Requester) (v : Word) (s : State) : Host.Outcome State Fault Refusal :=
  .next (viaPathS (pathFirst s who) who 0x18 (fun s => lifecycleWrite s who v))

/-! ## Any register, and rings, shunting and cores -/

/-- A scan of the TAP (R460, R461): with the code of DBG_ACCESS its register access, with any other the instruction that the code names. -/
def tapScan (x : TapScan) (s : State) : State :=
  match tapIr x.ir.toNat with
  | .dbgAccess => let s1 := dbgAccess x.dr (pathFirst s .dbg); { s1 with dev := pump s1.dev }
  | i => { s with dev := tapLoad s.dev i }

/-- DBG_ACCESS. -/
def execDbgAccess (dr : TapScan) (s : State) : Host.Outcome State Fault Refusal := .next (tapScan dr s)

/-- REGISTER_WRITE (R12). -/
def execRegisterWrite (who : Requester) (a v : Word) (s : State) : Host.Outcome State Fault Refusal :=
  let s0 := pathFirst s who
  .next (match regOff a.toNat with | some off => { regAccess s0 who off v with dev := pump (regAccess s0 who off v).dev } | none => s0)

/-- RC_FIELD_READ (R13, R484): a read of a register with an RC field by a requester that may read it. -/
def execRcFieldRead (who : Requester) (a : Word) (s : State) : Host.Outcome State Fault Refusal :=
  onDev (pathFirst s who) (fun d =>
    match regOff a.toNat with
    | some off =>
      let may := match who with | .core n => lnGrant d n.val off | .dbg => dbgOpen d | _ => true
      (match may && pathUp d off, regWay d off with
      | true, .open_ => (regRead d who off).2
      | true, .waits k => wakeDom d k
      | _, _ => d)
    | none => d)

/-- RING_ENABLE_WRITE (R101, R103). -/
def execRingEnableWrite (who : Requester) (v : Word) (s : State) : Host.Outcome State Fault Refusal :=
  onDev (pathFirst s who) (fun d => viaPath d who 0x200000 (fun d => ringCtrlWrite d v))

/-- SHUNT_ARB_WRITE (R23, R362): the mode written to SHUNT_CTRL.ARB is held until every channel is idle. -/
def execShuntArbWrite (who : Requester) (v : Word) (s : State) : Host.Outcome State Fault Refusal :=
  onDev (pathFirst s who) (fun d => viaPath d who 0xB00000 (fun d => regStore d .shuntCtrl 0 v))

/-- CORE_RESET_WRITE (R490): a write of CORE_CTRL with RESET 1. -/
def execCoreResetWrite (who : Requester) (n : Fin 32) (v : Word) (s : State) : Host.Outcome State Fault Refusal :=
  onDev (pathFirst s who) (fun d => if bitOf v.toNat 3 = 1 then viaPath d who (coreOff n.val 0) (fun d => coreCtrlWrite d n.val v) else d)

/-- CORE_RUN_WRITE (R490): a write of CORE_CTRL with RESET 0. -/
def execCoreRunWrite (who : Requester) (n : Fin 32) (v : Word) (s : State) : Host.Outcome State Fault Refusal :=
  onDev (pathFirst s who) (fun d => if bitOf v.toNat 3 = 0 then viaPath d who (coreOff n.val 0) (fun d => coreCtrlWrite d n.val v) else d)

/-- CORE_MSG_WRITE (R231). -/
def execCoreMsgWrite (who : Requester) (n : Fin 32) (v : Word) (s : State) : Host.Outcome State Fault Refusal :=
  onDev (pathFirst s who) (fun d => viaPath d who (coreOff n.val 0x10) (fun d => coreMsgWrite d n.val v))

end Sys2Proof.Machine
end

