-- ==== Sys2Proof/Machine/PlaneRows.lean ====
section
/-!
DEFINITION. The Plane Scanners (R261 to R278): capture of rings, scan programs, the order of line reads, the decision of rows plane by
plane, and completion.
-/

namespace Sys2Proof.Machine

/-- Records a scanner's event: REASON, which core of the pair, and the Consist (R278). -/
def planeErrOf (d : Dev) (m reason : Nat) (r : Ring) (a : Nat) : Dev :=
  recordErrAt d .planeErr .planeErrAddr m
    (reason * 2 ^ 32 + r.core % 2 * 2 ^ 31 + (if reason = 1 then 0 else ringConsist r % 1024 * 2 ^ 21)) a

/-- PLANE_RING_CAPTURE (R262, R263): the ring that is next is queued, or dropped, counted and recorded. -/
def planeRingCapture (m : Nat) (d : Dev) : Dev :=
  let p := plane d m
  match nextRing p.arriving with
  | none => d
  | some r =>
    if running d ∧ domOn d (4 + m / 2) then
      let p1 := { p with arriving := p.arriving.erase r }
      match dropReason d r with
      | 0 => setPlane d m { p1 with queue := p1.queue ++ [r] }
      | k => workLess (planeErrOf (bump (setPlane d m p1) .planeCnt (m * 4 + 3)) m k r 0) r
    else d

/-- PLANE_RING_CAPTURE. -/
def execPlaneRingCapture (m : Fin 16) (s : State) : Host.Outcome State Fault Refusal := onDev s (planeRingCapture m.val)

/-! ## Programs -/

/-- STEPS, SEGS, ROWS, WIDTH and NVALS as they behave (R268). -/
def scanSteps (n : Nat) : Nat := if n = 0 then 1 else min n 8
def scanSegs (n : Nat) : Nat := min n 128
def scanRows (n : Nat) : Nat := min n 65536
def scanWidth (n : Nat) : Nat := min n 40
def scanVals (n : Nat) : Nat := if n = 0 then 1 else min n 8

/-- The step that a step line describes (R266). -/
def parseStep (d : Dev) (line : Nat) : ScanStep :=
  let s := slotAt d line
  { pred := bitsOf (s 0) 3 0, combine := bitsOf (s 0) 5 4, width := scanWidth (bitsOf (s 0) 11 6), nvals := scanVals (bitsOf (s 0) 15 12),
    planes := s 1 / 64 * 64, stride := s 2 / 64 * 64, nulls := s 3 / 64 * 64, consts := (List.range 8).map (fun i => s (4 + i)) }

/-- The program that a header line and its step lines describe (R265). -/
def parseScan (d : Dev) (r : Ring) : ScanProg :=
  let line := storeBase r.core + 64 * r.line
  let s := slotAt d line
  let w := fun k => BitVec.ofNat 40 (s (4 + k))
  { ring := r, noWagon := decide (bitOf (s 0) 4 = 1), segs := scanSegs (bitsOf (s 1) 7 0), rows := scanRows (bitsOf (s 2) 16 0),
    dst := s 3 / 64 * 64, w := { w0 := w 0, w1 := w 1, w2 := w 2, w3 := w 3 },
    steps := (List.range (scanSteps (bitsOf (s 0) 3 0))).map (fun i => parseStep d (line + 64 * (i + 1))) }

/-- A scan program ends at a failure: WINDOW_FAULT or DATA_ECC for its Consist, and its record (R274). -/
def scanFail (d : Dev) (m : Nat) (r : Ring) (reason a : Nat) : Dev :=
  workLess (recordEvent (planeErrOf d m reason r a) (ringConsist r) (if reason = 3 then 4 else 7) a) r

/-- PLANE_PROGRAM_START (R264, R265, R274, R277): once the program before has opened its last segment, the oldest ring's header and step lines
are read. DESIGN CHOICE: of a program that meets both, an uncorrectable header line comes first, then a line outside its reach, then an uncorrectable
step line; the spec gives no order (log entry 131). -/
def planeProgramStart (m : Nat) (d : Dev) : Dev :=
  let p := plane d m
  match p.queue with
  | [] => d
  | r :: rs =>
    let free := p.progs.all (fun g => decide (g.segs ≤ g.next))
    if running d ∧ free then
      let line := storeBase r.core + 64 * r.line
      whenUp d line (fun d =>
        let n := 64 * (1 + scanSteps (bitsOf (slotAt d line 0) 3 0))
        let d1 := setPlane d m { p with queue := rs }
        match firstBadLine d line 64, reachOut d { stores := [r.core] } line n with
        | some l, _ => scanFail (readErr d1 l) m r 4 l
        | none, some a => scanFail d1 m r 3 a
        | none, none =>
          match firstBadLine d line n with
          | some l => scanFail (readErr d1 l) m r 4 l
          | none => setPlane d m { p with queue := rs, progs := p.progs ++ [{ parseScan d r with num := p.started }], started := p.started + 1 })
    else d

/-- PLANE_PROGRAM_START. -/
def execPlaneProgramStart (m : Fin 16) (s : State) : Host.Outcome State Fault Refusal := onDev s (planeProgramStart m.val)

/-! ## Evaluation -/

/-- Whether a predicate has one result for every value from lo to hi, and which (R271). -/
def scanDecide (st : ScanStep) (lo hi : Nat) : Option Bool :=
  let c := fun i => (st.consts[i]?).getD 0
  let c0 := c 0
  match st.pred with
  | 0 => if lo = c0 ∧ hi = c0 then some true else if c0 < lo ∨ hi < c0 then some false else none
  | 1 => if c0 < lo ∨ hi < c0 then some true else if lo = c0 ∧ hi = c0 then some false else none
  | 2 => if hi < c0 then some true else if c0 ≤ lo then some false else none
  | 3 => if hi ≤ c0 then some true else if c0 < lo then some false else none
  | 4 => if c0 < lo then some true else if hi ≤ c0 then some false else none
  | 5 => if c0 ≤ lo then some true else if hi < c0 then some false else none
  | 6 => if c0 ≤ lo ∧ hi ≤ c 1 then some true else if hi < c0 ∨ c 1 < lo ∨ c 1 < c0 then some false else none
  | 7 =>
    if lo = hi ∧ (List.range st.nvals).any (fun i => decide (c i = lo)) then some true
    else if (List.range st.nvals).all (fun i => decide (c i < lo ∨ hi < c i)) then some false
    else none
  | _ => some true

/-- The high bits of row r that the planes read so far give (R271). -/
def scanTop (planes : List Nat) (r : Nat) : Nat := planes.foldl (fun a p => 2 * a + bitOf p r) 0

/-- The term of row r of a segment in a step, where it is decided (R267, R271): before the null line is read a row is decided only where its
term is 0 whether it is null or not. -/
def scanTerm (st : ScanStep) (g : ScanSeg) (r : Nat) : Option Bool :=
  if st.pred = 9 then g.src.map (fun l => decide (bitOf l r = 1))
  else
    let k := g.planes.length
    let lo := scanTop g.planes r * 2 ^ (st.width - k)
    let v := scanDecide st lo (lo + 2 ^ (st.width - k) - 1)
    if st.nulls = 0 then v
    else match g.nulls with
      | none => if v = some false then some false else none
      | some l => if bitOf l r = 1 then some false else v

/-- A row is live in a step (R270). -/
def scanLive (rows : Nat) (st : ScanStep) (g : ScanSeg) (r : Nat) : Bool :=
  decide (512 * g.s + r < rows) &&
    (match st.combine with
     | 0 => true
     | 2 => decide (bitOf g.res r = 0)
     | _ => decide (bitOf g.res r = 1))

/-- The line that a step of a segment reads next, while it has a live row that is not decided (R272). -/
def scanNeeds (rows : Nat) (st : ScanStep) (g : ScanSeg) : Option ScanLine :=
  if (List.range 512).any (fun r => scanLive rows st g r && (scanTerm st g r).isNone) then
    if st.pred = 9 then some .source
    else if st.nulls ≠ 0 ∧ g.nulls.isNone then some .null
    else some .plane
  else none

/-- R after a step whose live rows are all decided (R270). -/
def scanCombine (rows : Nat) (st : ScanStep) (g : ScanSeg) : Nat :=
  (List.range 512).foldl (fun a r =>
    let old := decide (bitOf g.res r = 1)
    let t := (scanTerm st g r).getD false
    let new := if scanLive rows st g r then
        (match st.combine with | 0 => t | 1 => old && t | 2 => old || t | _ => old && !t)
      else old
    a + b2n (new && decide (512 * g.s + r < rows)) * 2 ^ r) 0

/-- Lines that a full walk of a step reads, and lines read of it so far (R278). -/
def scanFull (st : ScanStep) : Nat := if st.pred = 9 then 1 else st.width + (if st.nulls = 0 then 0 else 1)
def scanRead (g : ScanSeg) : Nat := g.planes.length + b2n g.nulls.isSome + b2n g.src.isSome

/-- Runs the steps of a segment up to the next line it must read, or to their end, with the lines that were not read. -/
def scanRun (rows : Nat) (steps : List ScanStep) : Nat → ScanSeg → Nat → ScanSeg × Option ScanLine × Nat
  | 0, g, u => (g, none, u)
  | f + 1, g, u =>
    match steps[g.step]? with
    | none => (g, none, u)
    | some st =>
      match scanNeeds rows st g with
      | some l => (g, some l, u)
      | none =>
        scanRun rows steps f { s := g.s, step := g.step + 1, res := scanCombine rows st g } (u + (scanFull st - scanRead g))

/-- Address of a line of segment s (R269). -/
def scanLineAddr (st : ScanStep) (g : ScanSeg) (l : ScanLine) : Nat :=
  let b := g.s / 8
  let t := g.s % 8
  match l with
  | .plane => (st.planes + st.stride * b + 512 * g.planes.length + 64 * t) % 2 ^ 40
  | .null => (st.nulls + st.stride * b + 64 * t) % 2 ^ 40
  | .source => (st.planes + 64 * g.s) % 2 ^ 40

/-- The two cores of a scanner's pair. -/
def scanPair (m : Nat) : List Nat := [2 * m, 2 * m + 1]

/-- OPEN_MAX as it behaves (R278). -/
def openMax (d : Dev) (m : Nat) : Nat := match fld d .planeCtrl m 6 0 with | 0 => 1 | n => min n 64

/-- Replaces program i of a scanner. -/
def setProg (d : Dev) (m i : Nat) (g : ScanProg) : Dev :=
  let p := plane d m
  setPlane d m { p with progs := p.progs.set i g }

/-- Ends program i of a scanner at a failure. -/
def scanAbort (d : Dev) (m i reason a : Nat) : Dev :=
  let p := plane d m
  match p.progs[i]? with
  | some g =>
    scanFail (dropReqs (setPlane d m { p with progs := p.progs.eraseIdx i }) (fun o => match o with
      | .scan m' k _ => decide (m' = m ∧ k = g.num) | _ => false)) m g.ring reason a
  | none => d

/-- A segment of program i that has run its steps: its bitmap line is written and it closes (R272, R274). -/
def scanClose (d : Dev) (m i : Nat) (g : ScanProg) (s : ScanSeg) : Dev :=
  let a := (g.dst + 64 * s.s) % 2 ^ 40
  match reachOut d { ringReach g.ring (scanPair m) with gddr := false } a 64 with
  | some x => scanAbort d m i 3 x
  | none =>
    let g1 := { g with opened := g.opened.filter (fun o => decide (o.s ≠ s.s)), selected := g.selected + popBelow 512 s.res }
    setProg (devWriteFor g.ring.consist d a (toLE 64 s.res)).1 m i g1

/-- Carries an open segment on: it needs no line now and closes, or it stays open (R271, R272). -/
def scanOn (d : Dev) (m i : Nat) (g : ScanProg) (s : ScanSeg) : Dev :=
  let r := scanRun g.rows g.steps 9 s 0
  let d1 := bumpN d .planeCnt (m * 4 + 2) r.2.2
  match r.2.1 with
  | none => scanClose d1 m i g r.1
  | some _ => setProg d1 m i { g with opened := g.opened.map (fun o => if o.s = r.1.s then r.1 else o) }

/-- A scanner's read of a line, as its Consist's own request (R166, R274, R326). -/
def scanOwner (m : Nat) (g : ScanProg) (s : ScanSeg) : GOwner := .scan m g.num s.s

/-- Issues the next line read of an open segment: outside its reach it ends the program (R272, R274). -/
def scanIssue (d : Dev) (m i : Nat) (g : ScanProg) (s : ScanSeg) : Dev :=
  match g.steps[s.step]? with
  | none => d
  | some st =>
    match scanNeeds g.rows st s with
    | none => d
    | some l =>
      let a := scanLineAddr st s l
      match reachOut d (ringReach g.ring (scanPair m)) a 64 with
      | some x => scanAbort d m i 3 x
      | none =>
        askLines (setProg d m i { g with opened := g.opened.map (fun o => if o.s = s.s then { s with flight := some l } else o) })
          (scanOwner m g s) (32 + m) g.ring.port g.ring.consist [(a, 64)]

/-- The oldest open segment with a line ready to issue: its program's place and itself (R277). -/
def scanReady : Nat → List ScanProg → Option (Nat × ScanProg × ScanSeg)
  | _, [] => none
  | i, g :: gs =>
    match g.opened.find? (fun s => s.flight.isNone) with
    | some s => some (i, g, s)
    | none => scanReady (i + 1) gs

/-- The first program with an unopened segment (R277). -/
def scanUnopened : Nat → List ScanProg → Option (Nat × ScanProg)
  | _, [] => none
  | i, g :: gs => if g.next < g.segs then some (i, g) else scanUnopened (i + 1) gs

/-- PLANE_SEGMENT_OPEN (R272, R276, R277): one line read is issued, of the oldest open segment that has one, else of the next segment, which
opens; a segment that needs no line closes at once. -/
def planeSegmentOpen (m : Nat) (d : Dev) : Dev :=
  let p := plane d m
  if running d ∧ domOn d (4 + m / 2) then
    match scanReady 0 p.progs with
    | some (i, g, s) => scanIssue d m i g s
    | none =>
      match scanUnopened 0 p.progs with
      | some (i, g) =>
        if p.progs.foldl (fun a q => a + q.opened.length) 0 < openMax d m ∧ !wagonStalled d (.scanner m) then
          let s0 : ScanSeg := { s := g.next }
          let r := scanRun g.rows g.steps 9 s0 0
          let g1 := { g with next := g.next + 1, opened := g.opened ++ [r.1] }
          let d1 := bumpN (setProg d m i g1) .planeCnt (m * 4 + 2) r.2.2
          match r.2.1 with
          | none => scanClose d1 m i g1 r.1
          | some _ => scanIssue d1 m i g1 r.1
        else d
      | none => d
  else d

/-- PLANE_SEGMENT_OPEN. -/
def execPlaneSegmentOpen (m : Fin 16) (s : State) : Host.Outcome State Fault Refusal := onUnit s (planeSegmentOpen m.val)

/-- The segments with a read in flight, oldest first, with their programs' places. -/
def scanFlights : Nat → List ScanProg → List (Nat × ScanProg × ScanSeg)
  | _, [] => []
  | i, g :: gs => (g.opened.filter (fun s => s.flight.isSome)).map (fun s => (i, g, s)) ++ scanFlights (i + 1) gs

/-- The segment with the line it read. -/
def scanTake (s : ScanSeg) (l : ScanLine) (v : Nat) : ScanSeg :=
  match l with
  | .null => { s with flight := none, nulls := some v }
  | .source => { s with flight := none, src := some v }
  | .plane => { s with flight := none, planes := s.planes ++ [v] }

/-- PLANE_LINE_ARRIVAL (R271, R272, R274, R326): the line of the i-th read in flight, once its slice has served it, arrives and its segment is
evaluated; an uncorrectable line ends the program. DESIGN CHOICE: LINES and PLANE_CNT instance 1 count a line when its data has arrived, so neither an
uncorrectable line nor a read still on its way when the program ends; the spec does not say (log entry 132). -/
def planeLineArrival (m i : Nat) (d : Dev) : Dev :=
  match (scanFlights 0 (plane d m).progs)[i]? with
  | none => d
  | some (j, g, s) =>
    match s.flight, g.steps[s.step]? with
    | some l, some st =>
      let a := scanLineAddr st s l
      if running d then
        whenUp d a (fun d =>
          match fetchLines d (scanOwner m g s) (32 + m) g.ring.port g.ring.consist [(a, 64)] with
          | .wait d1 => d1
          | .bad d1 b => scanAbort d1 m j 4 b
          | .got d1 bs =>
            let g1 := { g with lines := g.lines + 1 }
            scanOn (bump (setProg d1 m j g1) .planeCnt (m * 4 + 1)) m j g1 (scanTake s l (ofLE bs)))
      else d
    | _, _ => d

/-- PLANE_LINE_ARRIVAL. -/
def execPlaneLineArrival (m : Fin 16) (i : Nat) (s : State) : Host.Outcome State Fault Refusal := onUnit s (planeLineArrival m.val i)

/-- PLANE_PROGRAM_COMPLETE (R264, R275): the oldest program, once its last bitmap line is written, writes SELECTED and LINES, then DONE, and
offers its Wagon; where a unit that holds them is uncorrectable the program ends at that, with none of them written (R274, R325). -/
def planeProgramComplete (m : Nat) (d : Dev) : Dev :=
  let p := plane d m
  match p.progs with
  | [] => d
  | g :: gs =>
    if running d ∧ g.segs ≤ g.next ∧ g.opened = [] then
      let line := storeBase g.ring.core + 64 * g.ring.line
      whenUp d line (fun d =>
        let d0 := setPlane d m { p with progs := gs }
        match firstBadLine d (line + 40) 15 with
        | some l => scanFail (readErr d0 l) m g.ring 4 l
        | none =>
          let d1 := unitWrite d0 g.ring.consist (line + 40) (toLE 5 g.selected)
          let d2 := unitWrite d1 g.ring.consist (line + 45) (toLE 5 g.lines)
          let d3 := unitWrite d2 g.ring.consist (line + 50) (toLE 5 1)
          let d4 := if g.noWagon then d3 else offerDone d3 (.scanner m) g.w (ringConsist g.ring)
          workLess (bump d4 .planeCnt (m * 4)) g.ring)
    else d

/-- PLANE_PROGRAM_COMPLETE. -/
def execPlaneProgramComplete (m : Fin 16) (s : State) : Host.Outcome State Fault Refusal := onDev s (planeProgramComplete m.val)

end Sys2Proof.Machine
end

