-- ==== Sys2Proof/Machine/Dispatch.lean ====
section
/-!
DEFINITION. The dispatch of a command to its meaning: one arm per row of the command table.
-/

namespace Sys2Proof.Machine

/-- The effect of a command on everything but the queue. -/
def exec (i : Instr) (s : State) : Host.Outcome State Fault Refusal :=
  match i with
  | .nop id => Sys2Proof.Machine.execNop id s
  | .fence id => Sys2Proof.Machine.execFence id s
  | .loadTimetable id => Sys2Proof.Machine.execLoadTimetable id s
  | .dropTimetable id => Sys2Proof.Machine.execDropTimetable id s
  | .runConsist id => Sys2Proof.Machine.execRunConsist id s
  | .abortConsist id => Sys2Proof.Machine.execAbortConsist id s
  | .ingest id => Sys2Proof.Machine.execIngest id s
  | .snapshot id => Sys2Proof.Machine.execSnapshot id s
  | .retireEpoch id => Sys2Proof.Machine.execRetireEpoch id s
  | .dmaRun id => Sys2Proof.Machine.execDmaRun id s
  | .readBack id => Sys2Proof.Machine.execReadBack id s
  | .writeDown id => Sys2Proof.Machine.execWriteDown id s
  | .junctionUpdate id => Sys2Proof.Machine.execJunctionUpdate id s
  | .junctionSearchBatch id => Sys2Proof.Machine.execJunctionSearchBatch id s
  | .sort id => Sys2Proof.Machine.execSort id s
  | .journalAppend id => Sys2Proof.Machine.execJournalAppend id s
  | .journalExport id => Sys2Proof.Machine.execJournalExport id s
  | .journalExportAck id => Sys2Proof.Machine.execJournalExportAck id s
  | .timeSet id => Sys2Proof.Machine.execTimeSet id s
  | .portCreate id => Sys2Proof.Machine.execPortCreate id s
  | .portDestroy id => Sys2Proof.Machine.execPortDestroy id s
  | .portWindow id => Sys2Proof.Machine.execPortWindow id s
  | .portQuota id => Sys2Proof.Machine.execPortQuota id s
  | .fwUpdateChunk id => Sys2Proof.Machine.execFwUpdateChunk id s
  | .fwActivate id => Sys2Proof.Machine.execFwActivate id s
  | .powerRequest id => Sys2Proof.Machine.execPowerRequest id s
  | .logRead id => Sys2Proof.Machine.execLogRead id s
  | .sensorRead id => Sys2Proof.Machine.execSensorRead id s
  | .unknownOpcode id => Sys2Proof.Machine.execUnknownOpcode id s
  | .summaryLinePoll p => Sys2Proof.Machine.execSummaryLinePoll p s
  | .ringDescriptorReread p r => Sys2Proof.Machine.execRingDescriptorReread p r s
  | .sqFetch p r => Sys2Proof.Machine.execSqFetch p r s
  | .submissionEntriesArrive p r => Sys2Proof.Machine.execSubmissionEntriesArrive p r s
  | .completionWrite id => Sys2Proof.Machine.execCompletionWrite id s
  | .cqModerationTimer p r => Sys2Proof.Machine.execCqModerationTimer p r s
  | .memRdTimeout tag => Sys2Proof.Machine.execMemRdTimeout tag s
  | .commandReadFailure id => Sys2Proof.Machine.execCommandReadFailure id s
  | .flitReceive line => Sys2Proof.Machine.execFlitReceive line s
  | .ack h => Sys2Proof.Machine.execAck h s
  | .coast h => Sys2Proof.Machine.execCoast h s
  | .parkReq h => Sys2Proof.Machine.execParkReq h s
  | .parkAck h => Sys2Proof.Machine.execParkAck h s
  | .parkRefuse h => Sys2Proof.Machine.execParkRefuse h s
  | .parkReqRetry => Sys2Proof.Machine.execParkReqRetry s
  | .ackTimeoutReplay => Sys2Proof.Machine.execAckTimeoutReplay s
  | .retrain rep => Sys2Proof.Machine.execRetrain rep s
  | .retrainTimeout => Sys2Proof.Machine.execRetrainTimeout s
  | .laneLockLoss lane => Sys2Proof.Machine.execLaneLockLoss lane s
  | .linkTraining rep => Sys2Proof.Machine.execLinkTraining rep s
  | .presetTrialEnd errs => Sys2Proof.Machine.execPresetTrialEnd errs s
  | .trainingStepTimeout => Sys2Proof.Machine.execTrainingStepTimeout s
  | .trainingRetryTimer => Sys2Proof.Machine.execTrainingRetryTimer s
  | .linkDown => Sys2Proof.Machine.execLinkDown s
  | .coastIdleExpiry => Sys2Proof.Machine.execCoastIdleExpiry s
  | .coastExit => Sys2Proof.Machine.execCoastExit s
  | .parkIdleExpiry => Sys2Proof.Machine.execParkIdleExpiry s
  | .regRd => Sys2Proof.Machine.execRegRd s
  | .regWr => Sys2Proof.Machine.execRegWr s
  | .completionReceive => Sys2Proof.Machine.execCompletionReceive s
  | .beaconDetect => Sys2Proof.Machine.execBeaconDetect s
  | .linkRetrainWrite who v => Sys2Proof.Machine.execLinkRetrainWrite who v s
  | .linkWidthWrite who v => Sys2Proof.Machine.execLinkWidthWrite who v s
  | .ringEnableWrite who v => Sys2Proof.Machine.execRingEnableWrite who v s
  | .consistRakeReady c r => Sys2Proof.Machine.execConsistRakeReady c r s
  | .consistDomainsReady c => Sys2Proof.Machine.execConsistDomainsReady c s
  | .consistSeedPlacement c => Sys2Proof.Machine.execConsistSeedPlacement c s
  | .startDigestDone c => Sys2Proof.Machine.execStartDigestDone c s
  | .consistFinish c => Sys2Proof.Machine.execConsistFinish c s
  | .attestationSign c => Sys2Proof.Machine.execAttestationSign c s
  | .consistWatchdog c => Sys2Proof.Machine.execConsistWatchdog c s
  | .terminatingEvent c => Sys2Proof.Machine.execTerminatingEvent c s
  | .ingestWalk id => Sys2Proof.Machine.execIngestWalk id s
  | .retireWalk id => Sys2Proof.Machine.execRetireWalk id s
  | .snapshotResult id => Sys2Proof.Machine.execSnapshotResult id s
  | .wagonAcceptance => Sys2Proof.Machine.execWagonAcceptance s
  | .sidingMove c st => Sys2Proof.Machine.execSidingMove c st s
  | .producerStallRelease => Sys2Proof.Machine.execProducerStallRelease s
  | .handOver => Sys2Proof.Machine.execHandOver s
  | .flowSpillReadReturn => Sys2Proof.Machine.execFlowSpillReadReturn s
  | .affinityHoldExpiry c st => Sys2Proof.Machine.execAffinityHoldExpiry c st s
  | .wagonDelivery n => Sys2Proof.Machine.execWagonDelivery n s
  | .wagonReleaseEffect => Sys2Proof.Machine.execWagonReleaseEffect s
  | .resultPathCopy => Sys2Proof.Machine.execResultPathCopy s
  | .add n w => Sys2Proof.Machine.execAdd n w s
  | .sub n w => Sys2Proof.Machine.execSub n w s
  | .andd n w => Sys2Proof.Machine.execAndd n w s
  | .orr n w => Sys2Proof.Machine.execOrr n w s
  | .xorr n w => Sys2Proof.Machine.execXorr n w s
  | .sll n w => Sys2Proof.Machine.execSll n w s
  | .srl n w => Sys2Proof.Machine.execSrl n w s
  | .sra n w => Sys2Proof.Machine.execSra n w s
  | .slt n w => Sys2Proof.Machine.execSlt n w s
  | .sltu n w => Sys2Proof.Machine.execSltu n w s
  | .min n w => Sys2Proof.Machine.execMin n w s
  | .max n w => Sys2Proof.Machine.execMax n w s
  | .minu n w => Sys2Proof.Machine.execMinu n w s
  | .maxu n w => Sys2Proof.Machine.execMaxu n w s
  | .mul n w => Sys2Proof.Machine.execMul n w s
  | .mulh n w => Sys2Proof.Machine.execMulh n w s
  | .mulhu n w => Sys2Proof.Machine.execMulhu n w s
  | .div n w => Sys2Proof.Machine.execDiv n w s
  | .divu n w => Sys2Proof.Machine.execDivu n w s
  | .rem n w => Sys2Proof.Machine.execRem n w s
  | .remu n w => Sys2Proof.Machine.execRemu n w s
  | .clz n w => Sys2Proof.Machine.execClz n w s
  | .ctz n w => Sys2Proof.Machine.execCtz n w s
  | .popc n w => Sys2Proof.Machine.execPopc n w s
  | .h40 n w => Sys2Proof.Machine.execH40 n w s
  | .addi n w => Sys2Proof.Machine.execAddi n w s
  | .andi n w => Sys2Proof.Machine.execAndi n w s
  | .ori n w => Sys2Proof.Machine.execOri n w s
  | .xori n w => Sys2Proof.Machine.execXori n w s
  | .slti n w => Sys2Proof.Machine.execSlti n w s
  | .sltiu n w => Sys2Proof.Machine.execSltiu n w s
  | .slli n w => Sys2Proof.Machine.execSlli n w s
  | .srli n w => Sys2Proof.Machine.execSrli n w s
  | .srai n w => Sys2Proof.Machine.execSrai n w s
  | .lui n w => Sys2Proof.Machine.execLui n w s
  | .orl n w => Sys2Proof.Machine.execOrl n w s
  | .lb n w => Sys2Proof.Machine.execLb n w s
  | .lbu n w => Sys2Proof.Machine.execLbu n w s
  | .lh n w => Sys2Proof.Machine.execLh n w s
  | .lhu n w => Sys2Proof.Machine.execLhu n w s
  | .lw n w => Sys2Proof.Machine.execLw n w s
  | .lwu n w => Sys2Proof.Machine.execLwu n w s
  | .ln n w => Sys2Proof.Machine.execLn n w s
  | .lnf n w => Sys2Proof.Machine.execLnf n w s
  | .sb n w => Sys2Proof.Machine.execSb n w s
  | .sh n w => Sys2Proof.Machine.execSh n w s
  | .sw n w => Sys2Proof.Machine.execSw n w s
  | .sn n w => Sys2Proof.Machine.execSn n w s
  | .loadReturn n ix => Sys2Proof.Machine.execLoadReturn n ix s
  | .storeCompletion n => Sys2Proof.Machine.execStoreCompletion n s
  | .beq n w => Sys2Proof.Machine.execBeq n w s
  | .bne n w => Sys2Proof.Machine.execBne n w s
  | .blt n w => Sys2Proof.Machine.execBlt n w s
  | .bge n w => Sys2Proof.Machine.execBge n w s
  | .bltu n w => Sys2Proof.Machine.execBltu n w s
  | .bgeu n w => Sys2Proof.Machine.execBgeu n w s
  | .jal n w => Sys2Proof.Machine.execJal n w s
  | .jalr n w => Sys2Proof.Machine.execJalr n w s
  | .waitw n w => Sys2Proof.Machine.execWaitw n w s
  | .donew n w => Sys2Proof.Machine.execDonew n w s
  | .emitw n w => Sys2Proof.Machine.execEmitw n w s
  | .emitwk n w => Sys2Proof.Machine.execEmitwk n w s
  | .dropw n w => Sys2Proof.Machine.execDropw n w s
  | .faultw n w => Sys2Proof.Machine.execFaultw n w s
  | .mfc n w => Sys2Proof.Machine.execMfc n w s
  | .mtc n w => Sys2Proof.Machine.execMtc n w s
  | .mset n w => Sys2Proof.Machine.execMset n w s
  | .mclr n w => Sys2Proof.Machine.execMclr n w s
  | .eret n w => Sys2Proof.Machine.execEret n w s
  | .brk n w => Sys2Proof.Machine.execBrk n w s
  | .waiti n w => Sys2Proof.Machine.execWaiti n w s
  | .trap n w => Sys2Proof.Machine.execTrap n w s
  | .interruptEntry n => Sys2Proof.Machine.execInterruptEntry n s
  | .timerCompare n => Sys2Proof.Machine.execTimerCompare n s
  | .vadd n w => Sys2Proof.Machine.execVadd n w s
  | .vsub n w => Sys2Proof.Machine.execVsub n w s
  | .vand n w => Sys2Proof.Machine.execVand n w s
  | .vor n w => Sys2Proof.Machine.execVor n w s
  | .vxor n w => Sys2Proof.Machine.execVxor n w s
  | .vsll n w => Sys2Proof.Machine.execVsll n w s
  | .vsrl n w => Sys2Proof.Machine.execVsrl n w s
  | .vsra n w => Sys2Proof.Machine.execVsra n w s
  | .vmin n w => Sys2Proof.Machine.execVmin n w s
  | .vmax n w => Sys2Proof.Machine.execVmax n w s
  | .vminu n w => Sys2Proof.Machine.execVminu n w s
  | .vmaxu n w => Sys2Proof.Machine.execVmaxu n w s
  | .vmul n w => Sys2Proof.Machine.execVmul n w s
  | .vmulhu n w => Sys2Proof.Machine.execVmulhu n w s
  | .vh40 n w => Sys2Proof.Machine.execVh40 n w s
  | .vsel n w => Sys2Proof.Machine.execVsel n w s
  | .fadd n w => Sys2Proof.Machine.execFadd n w s
  | .fsub n w => Sys2Proof.Machine.execFsub n w s
  | .fmul n w => Sys2Proof.Machine.execFmul n w s
  | .fdiv n w => Sys2Proof.Machine.execFdiv n w s
  | .fmin n w => Sys2Proof.Machine.execFmin n w s
  | .fmax n w => Sys2Proof.Machine.execFmax n w s
  | .fsqrt n w => Sys2Proof.Machine.execFsqrt n w s
  | .fma n w => Sys2Proof.Machine.execFma n w s
  | .fcvtfx n w => Sys2Proof.Machine.execFcvtfx n w s
  | .fcvtxf n w => Sys2Proof.Machine.execFcvtxf n w s
  | .fabs n w => Sys2Proof.Machine.execFabs n w s
  | .fneg n w => Sys2Proof.Machine.execFneg n w s
  | .fcvtp n w => Sys2Proof.Machine.execFcvtp n w s
  | .fmvxf n w => Sys2Proof.Machine.execFmvxf n w s
  | .fmvfx n w => Sys2Proof.Machine.execFmvfx n w s
  | .veq n w => Sys2Proof.Machine.execVeq n w s
  | .vne n w => Sys2Proof.Machine.execVne n w s
  | .vlt n w => Sys2Proof.Machine.execVlt n w s
  | .vge n w => Sys2Proof.Machine.execVge n w s
  | .vltu n w => Sys2Proof.Machine.execVltu n w s
  | .vgeu n w => Sys2Proof.Machine.execVgeu n w s
  | .flt n w => Sys2Proof.Machine.execFlt n w s
  | .fge n w => Sys2Proof.Machine.execFge n w s
  | .vrsum n w => Sys2Proof.Machine.execVrsum n w s
  | .vrmin n w => Sys2Proof.Machine.execVrmin n w s
  | .vrmax n w => Sys2Proof.Machine.execVrmax n w s
  | .vrminu n w => Sys2Proof.Machine.execVrminu n w s
  | .vrmaxu n w => Sys2Proof.Machine.execVrmaxu n w s
  | .vrand n w => Sys2Proof.Machine.execVrand n w s
  | .vror n w => Sys2Proof.Machine.execVror n w s
  | .vrxor n w => Sys2Proof.Machine.execVrxor n w s
  | .frsum n w => Sys2Proof.Machine.execFrsum n w s
  | .frmin n w => Sys2Proof.Machine.execFrmin n w s
  | .frmax n w => Sys2Proof.Machine.execFrmax n w s
  | .vcompress n w => Sys2Proof.Machine.execVcompress n w s
  | .vexpand n w => Sys2Proof.Machine.execVexpand n w s
  | .vid n w => Sys2Proof.Machine.execVid n w s
  | .vsplat n w => Sys2Proof.Machine.execVsplat n w s
  | .vmov n w => Sys2Proof.Machine.execVmov n w s
  | .vext n w => Sys2Proof.Machine.execVext n w s
  | .vins n w => Sys2Proof.Machine.execVins n w s
  | .vln n w => Sys2Proof.Machine.execVln n w s
  | .vlnq n w => Sys2Proof.Machine.execVlnq n w s
  | .vlp n w => Sys2Proof.Machine.execVlp n w s
  | .vlw n w => Sys2Proof.Machine.execVlw n w s
  | .vsn n w => Sys2Proof.Machine.execVsn n w s
  | .vsp n w => Sys2Proof.Machine.execVsp n w s
  | .vsw n w => Sys2Proof.Machine.execVsw n w s
  | .vgn n w => Sys2Proof.Machine.execVgn n w s
  | .vgnq n w => Sys2Proof.Machine.execVgnq n w s
  | .vgw n w => Sys2Proof.Machine.execVgw n w s
  | .vscn n w => Sys2Proof.Machine.execVscn n w s
  | .vscw n w => Sys2Proof.Machine.execVscw n w s
  | .qboth n w => Sys2Proof.Machine.execQboth n w s
  | .qeither n w => Sys2Proof.Machine.execQeither n w s
  | .qdiff n w => Sys2Proof.Machine.execQdiff n w s
  | .qtrim n w => Sys2Proof.Machine.execQtrim n w s
  | .qflip n w => Sys2Proof.Machine.execQflip n w s
  | .qcount n w => Sys2Proof.Machine.execQcount n w s
  | .qfromx n w => Sys2Proof.Machine.execQfromx n w s
  | .qlow n w => Sys2Proof.Machine.execQlow n w s
  | .qhigh n w => Sys2Proof.Machine.execQhigh n w s
  | .qlead n w => Sys2Proof.Machine.execQlead n w s
  | .setvl n w => Sys2Proof.Machine.execSetvl n w s
  | .qfill n w => Sys2Proof.Machine.execQfill n w s
  | .qld n w => Sys2Proof.Machine.execQld n w s
  | .qst n w => Sys2Proof.Machine.execQst n w s
  | .flw n w => Sys2Proof.Machine.execFlw n w s
  | .fsw n w => Sys2Proof.Machine.execFsw n w s
  | .fld n w => Sys2Proof.Machine.execFld n w s
  | .fsd n w => Sys2Proof.Machine.execFsd n w s
  | .coreResetWrite who n v => Sys2Proof.Machine.execCoreResetWrite who n v s
  | .coreRunWrite who n v => Sys2Proof.Machine.execCoreRunWrite who n v s
  | .coreMsgWrite who n v => Sys2Proof.Machine.execCoreMsgWrite who n v s
  | .planeRingCapture m => Sys2Proof.Machine.execPlaneRingCapture m s
  | .planeProgramStart m => Sys2Proof.Machine.execPlaneProgramStart m s
  | .planeLineArrival m ix => Sys2Proof.Machine.execPlaneLineArrival m ix s
  | .planeSegmentOpen m => Sys2Proof.Machine.execPlaneSegmentOpen m s
  | .planeProgramComplete m => Sys2Proof.Machine.execPlaneProgramComplete m s
  | .junctionRingCapture => Sys2Proof.Machine.execJunctionRingCapture s
  | .junctionQueueEntry => Sys2Proof.Machine.execJunctionQueueEntry s
  | .junctionProgramStart => Sys2Proof.Machine.execJunctionProgramStart s
  | .junctionLineArrival ix => Sys2Proof.Machine.execJunctionLineArrival ix s
  | .junctionSlot => Sys2Proof.Machine.execJunctionSlot s
  | .junctionSearchResult ix => Sys2Proof.Machine.execJunctionSearchResult ix s
  | .junctionProgramComplete ix => Sys2Proof.Machine.execJunctionProgramComplete ix s
  | .humpRingCapture => Sys2Proof.Machine.execHumpRingCapture s
  | .humpJobStart => Sys2Proof.Machine.execHumpJobStart s
  | .humpLineArrival => Sys2Proof.Machine.execHumpLineArrival s
  | .humpPassStart => Sys2Proof.Machine.execHumpPassStart s
  | .humpJobComplete => Sys2Proof.Machine.execHumpJobComplete s
  | .shuntRingCapture => Sys2Proof.Machine.execShuntRingCapture s
  | .shuntProgramStart ch => Sys2Proof.Machine.execShuntProgramStart ch s
  | .commandMoveChannel => Sys2Proof.Machine.execCommandMoveChannel s
  | .programLineArrival ch => Sys2Proof.Machine.execProgramLineArrival ch s
  | .shMove ch => Sys2Proof.Machine.execShMove ch s
  | .shLoop ch => Sys2Proof.Machine.execShLoop ch s
  | .shEndloop ch => Sys2Proof.Machine.execShEndloop ch s
  | .shWait ch => Sys2Proof.Machine.execShWait ch s
  | .waitResume ch => Sys2Proof.Machine.execWaitResume ch s
  | .shSignal ch => Sys2Proof.Machine.execShSignal ch s
  | .shEnd ch => Sys2Proof.Machine.execShEnd ch s
  | .shuntPieceRead => Sys2Proof.Machine.execShuntPieceRead s
  | .shuntPieceStaged => Sys2Proof.Machine.execShuntPieceStaged s
  | .moveCountEnd ch => Sys2Proof.Machine.execMoveCountEnd ch s
  | .shuntProgramComplete ch => Sys2Proof.Machine.execShuntProgramComplete ch s
  | .shuntArbWrite who v => Sys2Proof.Machine.execShuntArbWrite who v s
  | .shuntArbSwitch => Sys2Proof.Machine.execShuntArbSwitch s
  | .cacheLookup q => Sys2Proof.Machine.execCacheLookup q s
  | .fillHalfArrival line => Sys2Proof.Machine.execFillHalfArrival line s
  | .cacheWriteAccept a data by_ => Sys2Proof.Machine.execCacheWriteAccept a data by_ s
  | .invalidateAddr who v => Sys2Proof.Machine.execInvalidateAddr who v s
  | .invalidateRange who v => Sys2Proof.Machine.execInvalidateRange who v s
  | .invalidateAll who v => Sys2Proof.Machine.execInvalidateAll who v s
  | .cacheMaintDone => Sys2Proof.Machine.execCacheMaintDone s
  | .cacheEnableWrite who v => Sys2Proof.Machine.execCacheEnableWrite who v s
  | .onchipEccWriteback line => Sys2Proof.Machine.execOnchipEccWriteback line s
  | .yardClear who v => Sys2Proof.Machine.execYardClear who v s
  | .yardClearDone => Sys2Proof.Machine.execYardClearDone s
  | .mcSlotIssue ch => Sys2Proof.Machine.execMcSlotIssue ch s
  | .frameBoundary ch => Sys2Proof.Machine.execFrameBoundary ch s
  | .mcReadReturn ch e => Sys2Proof.Machine.execMcReadReturn ch e s
  | .refresh ch => Sys2Proof.Machine.execRefresh ch s
  | .rowDisturbRefresh ch bank => Sys2Proof.Machine.execRowDisturbRefresh ch bank s
  | .rowCounterClear => Sys2Proof.Machine.execRowCounterClear s
  | .deviceTempRead ch temp => Sys2Proof.Machine.execDeviceTempRead ch temp s
  | .modeRegisterWrite who ch v => Sys2Proof.Machine.execModeRegisterWrite who ch v s
  | .caTraining who ch v => Sys2Proof.Machine.execCaTraining who ch v s
  | .wckAlignment who ch v => Sys2Proof.Machine.execWckAlignment who ch v s
  | .readTraining who ch v => Sys2Proof.Machine.execReadTraining who ch v s
  | .writeTraining who ch v => Sys2Proof.Machine.execWriteTraining who ch v s
  | .verify who ch v => Sys2Proof.Machine.execVerify who ch v s
  | .temperatureRead who ch v => Sys2Proof.Machine.execTemperatureRead who ch v s
  | .mcTrainDone ch fail found => Sys2Proof.Machine.execMcTrainDone ch fail found s
  | .mcResetRelease who k v => Sys2Proof.Machine.execMcResetRelease who k v s
  | .trafficEn who v => Sys2Proof.Machine.execTrafficEn who v s
  | .mcConfigWrite who v => Sys2Proof.Machine.execMcConfigWrite who v s
  | .selfRef who k v => Sys2Proof.Machine.execSelfRef who k v s
  | .rateDone who k v => Sys2Proof.Machine.execRateDone who k v s
  | .sensorSample samples => Sys2Proof.Machine.execSensorSample samples s
  | .governorTick => Sys2Proof.Machine.execGovernorTick s
  | .tamperResponse mesh => Sys2Proof.Machine.execTamperResponse mesh s
  | .sign who v => Sys2Proof.Machine.execSign who v s
  | .verifySignature who v => Sys2Proof.Machine.execVerifySignature who v s
  | .timeTokenCheck who v => Sys2Proof.Machine.execTimeTokenCheck who v s
  | .signDone => Sys2Proof.Machine.execSignDone s
  | .journalSeal => Sys2Proof.Machine.execJournalSeal s
  | .zeroise who v => Sys2Proof.Machine.execZeroise who v s
  | .genMem who v => Sys2Proof.Machine.execGenMem who v s
  | .boot => Sys2Proof.Machine.execBoot s
  | .fwConfirm who v => Sys2Proof.Machine.execFwConfirm who v s
  | .lifecycleAdvance who v => Sys2Proof.Machine.execLifecycleAdvance who v s
  | .dbgToken token => Sys2Proof.Machine.execDbgToken token s
  | .debugUnlock => Sys2Proof.Machine.execDebugUnlock s
  | .dbgAccess dr => Sys2Proof.Machine.execDbgAccess dr s
  | .extest => Sys2Proof.Machine.execExtest s
  | .samplePreload => Sys2Proof.Machine.execSamplePreload s
  | .idcode => Sys2Proof.Machine.execIdcode s
  | .clamp => Sys2Proof.Machine.execClamp s
  | .highz => Sys2Proof.Machine.execHighz s
  | .bypass => Sys2Proof.Machine.execBypass s
  | .aoMsTick => Sys2Proof.Machine.execAoMsTick s
  | .ppsEdge => Sys2Proof.Machine.execPpsEdge s
  | .ppsLoss => Sys2Proof.Machine.execPpsLoss s
  | .aoTimeWrite who v => Sys2Proof.Machine.execAoTimeWrite who v s
  | .xtalStop => Sys2Proof.Machine.execXtalStop s
  | .wakeIgn => Sys2Proof.Machine.execWakeIgn s
  | .wakeAux => Sys2Proof.Machine.execWakeAux s
  | .pmicWake => Sys2Proof.Machine.execPmicWake s
  | .standingAccessWake => Sys2Proof.Machine.execStandingAccessWake s
  | .standingExit => Sys2Proof.Machine.execStandingExit s
  | .stabledWake => Sys2Proof.Machine.execStabledWake s
  | .sleep who v => Sys2Proof.Machine.execSleep who v s
  | .domainDrainAgree => Sys2Proof.Machine.execDomainDrainAgree s
  | .drainLimitRefuse => Sys2Proof.Machine.execDrainLimitRefuse s
  | .sleepPhase2 => Sys2Proof.Machine.execSleepPhase2 s
  | .pwrEnRaise => Sys2Proof.Machine.execPwrEnRaise s
  | .railFault => Sys2Proof.Machine.execRailFault s
  | .pgoodLow => Sys2Proof.Machine.execPgoodLow s
  | .resetNLow => Sys2Proof.Machine.execResetNLow s
  | .resetNRelease => Sys2Proof.Machine.execResetNRelease s
  | .powerOnReset => Sys2Proof.Machine.execPowerOnReset s
  | .warm who v => Sys2Proof.Machine.execWarm who v s
  | .idleGateExpiry d => Sys2Proof.Machine.execIdleGateExpiry d s
  | .idleOffExpiry d => Sys2Proof.Machine.execIdleOffExpiry d s
  | .powerDownComplete d => Sys2Proof.Machine.execPowerDownComplete d s
  | .domainWake d => Sys2Proof.Machine.execDomainWake d s
  | .domainReady d => Sys2Proof.Machine.execDomainReady d s
  | .pwrDomainWake who d v => Sys2Proof.Machine.execPwrDomainWake who d v s
  | .profile who v => Sys2Proof.Machine.execProfile who v s
  | .profileLowerInForce => Sys2Proof.Machine.execProfileLowerInForce s
  | .profileRaiseReady => Sys2Proof.Machine.execProfileRaiseReady s
  | .profileRaiseTimeout => Sys2Proof.Machine.execProfileRaiseTimeout s
  | .corePllSlew => Sys2Proof.Machine.execCorePllSlew s
  | .padHoldRelease who v => Sys2Proof.Machine.execPadHoldRelease who v s
  | .rcFieldRead who a => Sys2Proof.Machine.execRcFieldRead who a s
  | .registerWrite who a v => Sys2Proof.Machine.execRegisterWrite who a v s
  | .lParkExit => Sys2Proof.Machine.execLParkExit s
  | .xtalStart => Sys2Proof.Machine.execXtalStart s
  | .undefinedOpcode n w => Sys2Proof.Machine.execUndefinedOpcode n w s
  | .instructionFetchFault n => Sys2Proof.Machine.execInstructionFetchFault n s
  | .returnedWriteCrc ch ok => Sys2Proof.Machine.execReturnedWriteCrc ch ok s

end Sys2Proof.Machine
end

