-- ==== Sys2Proof/Safety.lean ====
section
/-!
DEFINITION. What counts as a safe state and a safe run of the block, and the terms that the claims are written in.
-/

namespace Sys2Proof.Machine

/-! ## Safe states -/

/-- The memory of the device stands in its one canonical form. -/
abbrev MemoryCanonical (s : State) : Prop := Memory.wf s.dev.mem = true

/-- The fuses hold values that burning can reach (R412, R417): a lifecycle state of two bits and at most 64 rollback fuses. -/
abbrev FusesLegal (o : Otp) : Prop := o.lifecycle ≤ 3 ∧ o.rollback ≤ 64

/-- Fuses only burn (R412, R415, R417, R418): the lifecycle moves on, TAMPERED stays, the rollback counter grows, what the factory burnt is
unchanged, and the public key stays, or becomes that of the signing key which a provisioned part has made (R414, R420). -/
def FusesBurnOn (a b : Otp) : Prop :=
  a.lifecycle ≤ b.lifecycle ∧ (a.tampered = true → b.tampered = true) ∧ a.rollback ≤ b.rollback ∧
    b.serial = a.serial ∧ b.fwHash = a.fwHash ∧ b.timeHash = a.timeHash ∧
    ((b.pubX = a.pubX ∧ b.pubY = a.pubY) ∨
      (1 ≤ a.lifecycle ∧ b.pubX = BitVec.ofNat 384 devicePub.1 ∧ b.pubY = BitVec.ofNat 384 devicePub.2)) ∧ b.major = a.major ∧ b.minor = a.minor ∧ b.grade = a.grade

/-! ## Terms of the core claims -/

/-- The row of word w acts on core n in a state: the word issues there, no load in flight writes a register that it uses, and no interrupt is due that
would go before it (R203, R204, R231). -/
abbrev Acts (s : State) (n : CoreIx) (w : BitVec 32) (u : Uses) : Prop :=
  issues s.dev n.val w.toNat = true ∧ usesReady (core s.dev n.val) u = true ∧ dueInterrupt s.dev n.val = none

/-- The state after core n has retired an instruction with registers c and next pc. -/
def Retired (s : State) (n : CoreIx) (c : Core) (pc : Nat) : State := { s with dev := retire s.dev n.val c pc }

/-- The state after core n has taken an exception; while an earlier load is in flight it waits as it stands (R205). -/
def Excepted (s : State) (n : CoreIx) (cause eaddr vfidx : Nat) : State :=
  { s with dev := takeException s.dev n.val cause (core s.dev n.val).pc eaddr vfidx }

/-- A row of the core: its command, its words, the registers it uses, and what it makes of the core's registers. -/
structure CoreRow where
  cmd : CoreIx → BitVec 32 → Instr
  word : Nat → Bool
  uses : Nat → Uses
  result : Core → Nat → Core

/-- The row completes: where it acts, the registers are as `result` says, and the pc is 4 further. -/
def CoreRow.Completes (r : CoreRow) : Prop :=
  ∀ (n : CoreIx) (w : BitVec 32) (s : State), r.word w.toNat = true → Acts s n w (r.uses w.toNat) →
    exec (r.cmd n w) s = .next (Retired s n (r.result (core s.dev n.val) w.toNat) ((core s.dev n.val).pc + 4))

/-- A register-to-register row of opcode 0x00 (R211). -/
def aluRowOf (cmd : CoreIx → BitVec 32 → Instr) (fn : Nat) (f : Word → Word → Word) : CoreRow :=
  { cmd := cmd, word := fun w => decide (opOf w = 0x00 ∧ fnA w = fn), uses := fun w => { xs := [rdOf w, raOf w, rbOf w] }
    result := fun c w => xset c (rdOf w) (f (xget c (raOf w)) (xget c (rbOf w))) }

/-- A one-source row of opcode 0x00 (R211). -/
def unaryRowOf (cmd : CoreIx → BitVec 32 → Instr) (fn : Nat) (f : Word → Word) : CoreRow :=
  { cmd := cmd, word := fun w => decide (opOf w = 0x00 ∧ fnA w = fn), uses := fun w => { xs := [rdOf w, raOf w] }
    result := fun c w => xset c (rdOf w) (f (xget c (raOf w))) }

/-- An immediate row with opcode op (R210). -/
def immRowOf (cmd : CoreIx → BitVec 32 → Instr) (op : Nat) (im : Nat → Word) (f : Word → Word → Word) : CoreRow :=
  { cmd := cmd, word := fun w => decide (opOf w = op), uses := fun w => { xs := [rdOf w, raOf w] }
    result := fun c w => xset c (rdOf w) (f (xget c (raOf w)) (im w)) }

/-- The rows of R211 that cannot fault. -/
def aluRows : List CoreRow :=
  [aluRowOf .add 0x000 (fun a b => a + b), aluRowOf .sub 0x001 (fun a b => a - b), aluRowOf .andd 0x002 (fun a b => a &&& b),
   aluRowOf .orr 0x003 (fun a b => a ||| b), aluRowOf .xorr 0x004 (fun a b => a ^^^ b),
   aluRowOf .sll 0x005 (fun a b => a <<< (b.toNat % 40)), aluRowOf .srl 0x006 (fun a b => a >>> (b.toNat % 40)),
   aluRowOf .sra 0x007 (fun a b => a.sshiftRight (b.toNat % 40)),
   aluRowOf .slt 0x008 (fun a b => if a.slt b then 1 else 0), aluRowOf .sltu 0x009 (fun a b => if a.ult b then 1 else 0),
   aluRowOf .min 0x00A (fun a b => if a.slt b then a else b), aluRowOf .max 0x00B (fun a b => if a.slt b then b else a),
   aluRowOf .minu 0x00C (fun a b => if a.ult b then a else b), aluRowOf .maxu 0x00D (fun a b => if a.ult b then b else a),
   aluRowOf .mul 0x010 (fun a b => a * b),
   aluRowOf .mulh 0x011 (fun a b => (a.signExtend 80 * b.signExtend 80).extractLsb' 40 40),
   aluRowOf .mulhu 0x012 (fun a b => (a.setWidth 80 * b.setWidth 80).extractLsb' 40 40),
   unaryRowOf .clz 0x020 (fun a => BitVec.ofNat 40 (a.clz).toNat),
   unaryRowOf .ctz 0x021 (fun a => BitVec.ofNat 40 ((firstIdx 40 (fun i => a.getLsbD i)).getD 40)),
   unaryRowOf .popc 0x022 (fun a => BitVec.ofNat 40 (idxWhere 40 (fun i => a.getLsbD i)).length),
   unaryRowOf .h40 0x030 (fun a => (a * 0xC6A4A7935B#40) ^^^ ((a * 0xC6A4A7935B#40) >>> 19))]

/-- The rows of R210 with an immediate. -/
def immRows : List CoreRow :=
  let sx := fun w => (BitVec.ofNat 16 w).signExtend 40
  let zx := fun w => (BitVec.ofNat 16 w).setWidth 40
  let sh := fun w => (BitVec.ofNat 6 w).setWidth 40
  [immRowOf .addi 0x01 sx (fun a b => a + b), immRowOf .andi 0x02 zx (fun a b => a &&& b), immRowOf .ori 0x03 zx (fun a b => a ||| b),
   immRowOf .xori 0x04 zx (fun a b => a ^^^ b), immRowOf .slti 0x05 sx (fun a b => if a.slt b then 1 else 0),
   immRowOf .sltiu 0x06 sx (fun a b => if a.ult b then 1 else 0), immRowOf .slli 0x07 sh (fun a b => a <<< (b.toNat % 40)),
   immRowOf .srli 0x08 sh (fun a b => a >>> (b.toNat % 40)), immRowOf .srai 0x09 sh (fun a b => a.sshiftRight (b.toNat % 40)),
   { cmd := .lui, word := fun w => decide (opOf w = 0x0A), uses := fun w => { xs := [rdOf w] }
     result := fun c w => xset c (rdOf w) ((BitVec.ofNat 21 w).setWidth 40 <<< 19) },
   { cmd := .orl, word := fun w => decide (opOf w = 0x0B), uses := fun w => { xs := [rdOf w] }
     result := fun c w => xset c (rdOf w) (xget c (rdOf w) ||| (BitVec.ofNat 19 w).setWidth 40) }]

/-! ## Rows of the cell file -/

/-- An element-wise row of opcodes 0x30 and 0x31: b is element j of vb, or X[vb] (R245). -/
def vecRowOf (cmd : CoreIx → BitVec 32 → Instr) (fn : Nat) (f : Word → Word → Word) : CoreRow :=
  { cmd := cmd, word := fun w => decide ((opOf w = 0x30 ∨ opOf w = 0x31) ∧ fn4 w = fn), uses := usesVInt
    result := fun c w => setElems c (vdOf w) (longV w) ((actives c (kV w) (longV w)).map (fun j =>
      (j, f (elem c (vaOf w) (longV w) j) (if opOf w = 0x30 then elem c (vbOf w) (longV w) j else xget c (vbOf w % 32))))) }

/-- The integer vector rows of R245. -/
def vecRows : List CoreRow :=
  [vecRowOf .vadd 0 (fun a b => a + b), vecRowOf .vsub 1 (fun a b => a - b), vecRowOf .vand 2 (fun a b => a &&& b),
   vecRowOf .vor 3 (fun a b => a ||| b), vecRowOf .vxor 4 (fun a b => a ^^^ b), vecRowOf .vsll 5 (fun a b => a <<< (b.toNat % 40)),
   vecRowOf .vsrl 6 (fun a b => a >>> (b.toNat % 40)), vecRowOf .vsra 7 (fun a b => a.sshiftRight (b.toNat % 40)),
   vecRowOf .vmin 8 (fun a b => if a.slt b then a else b), vecRowOf .vmax 9 (fun a b => if a.slt b then b else a),
   vecRowOf .vminu 10 (fun a b => if a.ult b then a else b), vecRowOf .vmaxu 11 (fun a b => if a.ult b then b else a),
   vecRowOf .vmul 12 (fun a b => a * b), vecRowOf .vmulhu 13 (fun a b => (a.setWidth 80 * b.setWidth 80).extractLsb' 40 40),
   vecRowOf .vh40 14 (fun a _ => (a * 0xC6A4A7935B#40) ^^^ ((a * 0xC6A4A7935B#40) >>> 19)),
   { cmd := .vsel, word := fun w => decide ((opOf w = 0x30 ∨ opOf w = 0x31) ∧ fn4 w = 15), uses := usesVInt
     result := fun c w => setElems c (vdOf w) (longV w) ((List.range (nElems c (longV w))).map (fun j =>
       (j, if (qual c (kV w)).getLsbD j then elem c (vaOf w) (longV w) j
           else if opOf w = 0x30 then elem c (vbOf w) (longV w) j else xget c (vbOf w % 32)))) }]

/-- An integer compare: Q[vd] has bit j for each active element for which the test holds, and 0 elsewhere (R241, R248). -/
def cmpRowOf (cmd : CoreIx → BitVec 32 → Instr) (fn : Nat) (f : Word → Word → Bool) : CoreRow :=
  { cmd := cmd, word := fun w => decide (opOf w = 0x35 ∧ fn4 w % 8 = fn), uses := usesCmp
    result := fun c w => setQual c (vdOf w % 8) (bitsQ ((actives c (kV w) (longV w)).filter (fun j =>
      f (elem c (vaOf w) (longV w) j) (if fn4 w < 8 then elem c (vbOf w) (longV w) j else xget c (vbOf w % 32))))) }

/-- A floating-point compare of binary32 elements; its flags join FCSR (R247, R248). -/
def fcmpRowOf (cmd : CoreIx → BitVec 32 → Instr) (fn : Nat) (f : Bool → Nat → Nat → Bool × Nat) : CoreRow :=
  { cmd := cmd, word := fun w => decide (opOf w = 0x35 ∧ fn4 w % 8 = fn), uses := usesCmp
    result := fun c w =>
      let at_ := fun j => f (fzOf c) ((elem c (vaOf w) (longV w) j).toNat % 2 ^ 32)
        (if fn4 w < 8 then (elem c (vbOf w) (longV w) j).toNat % 2 ^ 32 else f32 c (vbOf w))
      let js := actives c (kV w) (longV w)
      setQual (setFlags c (orFlags (js.map (fun j => (at_ j).2)))) (vdOf w % 8) (bitsQ (js.filter (fun j => (at_ j).1))) }

/-- The compares of R248. -/
def compareRows : List CoreRow :=
  [cmpRowOf .veq 0 (fun a b => a == b), cmpRowOf .vne 1 (fun a b => a != b), cmpRowOf .vlt 2 (fun a b => a.slt b),
   cmpRowOf .vge 3 (fun a b => b.sle a), cmpRowOf .vltu 4 (fun a b => a.ult b), cmpRowOf .vgeu 5 (fun a b => b.ule a),
   fcmpRowOf .flt 6 fltBits, fcmpRowOf .fge 7 fgeBits]

/-- An integer reduction: X[vd] = X[vb] combined with the active elements (R249). -/
def redRowOf (cmd : CoreIx → BitVec 32 → Instr) (fn : Nat) (f : Word → Word → Word) : CoreRow :=
  { cmd := cmd, word := fun w => decide (opOf w = 0x36 ∧ fn4 w = fn), uses := usesRed
    result := fun c w => xset c (vdOf w % 32)
      (((actives c (kV w) (longV w)).map (elem c (vaOf w) (longV w))).foldl f (xget c (vbOf w % 32))) }

/-- A float reduction: F[vd] = F[vb] combined with the active elements in ascending order, each step rounded, with the flags of every step
(R249). -/
def fredRowOf (cmd : CoreIx → BitVec 32 → Instr) (fn : Nat) (f : Nat → Bool → Nat → Nat → Nat × Nat) : CoreRow :=
  { cmd := cmd, word := fun w => decide (opOf w = 0x36 ∧ fn4 w = fn), uses := usesFRed
    result := fun c w =>
      let r := ((actives c (kV w) (longV w)).map (elem32 c (vaOf w) (longV w))).foldl
        (fun a x => let y := f (rmOf c) (fzOf c) a.1 x; (y.1, a.2 ||| y.2)) (f32 c (vbOf w), 0)
      setF (setFlags c r.2) (vdOf w) r.1 }

/-- The reductions of R249. -/
def reductionRows : List CoreRow :=
  [redRowOf .vrsum 0 (fun a b => a + b), redRowOf .vrmin 1 (fun a b => if a.slt b then a else b),
   redRowOf .vrmax 2 (fun a b => if a.slt b then b else a), redRowOf .vrminu 3 (fun a b => if a.ult b then a else b),
   redRowOf .vrmaxu 4 (fun a b => if a.ult b then b else a), redRowOf .vrand 5 (fun a b => a &&& b),
   redRowOf .vror 6 (fun a b => a ||| b), redRowOf .vrxor 7 (fun a b => a ^^^ b),
   fredRowOf .frsum 8 (fun rm fz a b => fadd b32 rm fz a b), fredRowOf .frmin 9 (fun _ fz a b => fminmax b32 fz false a b),
   fredRowOf .frmax 10 (fun _ fz a b => fminmax b32 fz true a b)]

/-- A row of opcode 0x37. -/
def moveRowOf (cmd : CoreIx → BitVec 32 → Instr) (fn : Nat) (uses : Nat → Uses) (result : Core → Nat → Core) : CoreRow :=
  { cmd := cmd, word := fun w => decide (opOf w = 0x37 ∧ fn4 w = fn), uses := uses, result := result }

/-- Compress, expand and the moves of R250. -/
def moveRows : List CoreRow :=
  let act := fun c w => actives c (kV w) (longV w)
  let va := fun c w j => elem c (vaOf w) (longV w) j
  let put := fun c w xs => setElems c (vdOf w) (longV w) xs
  [moveRowOf .vcompress 0 usesMove (fun c w => put c w ((List.range (nElems c (longV w))).map (fun i =>
     (i, match (act c w)[i]? with | some j => va c w j | none => 0)))),
   moveRowOf .vexpand 1 usesMove (fun c w => put c w ((act c w).zipIdx.map (fun e => (e.1, va c w e.2)))),
   moveRowOf .vid 2 usesSplat (fun c w => put c w ((act c w).map (fun j => (j, xget c (vaOf w % 32) + BitVec.ofNat 40 j)))),
   moveRowOf .vsplat 3 usesSplat (fun c w => put c w ((act c w).map (fun j => (j, xget c (vaOf w % 32))))),
   moveRowOf .vmov 4 usesMove (fun c w => put c w ((act c w).map (fun j => (j, va c w j)))),
   moveRowOf .vext 5 (fun w => { xs := [vdOf w % 32, vbOf w % 32], cells := vecCells (vaOf w) (longV w) }) (fun c w =>
     let i := (xget c (vbOf w % 32)).toNat
     xset c (vdOf w % 32) (if i < nElems c (longV w) then va c w i else 0)),
   moveRowOf .vins 6 (fun w => { xs := [vaOf w % 32, vbOf w % 32], cells := vecCells (vdOf w) (longV w) }) (fun c w =>
     let i := (xget c (vbOf w % 32)).toNat
     if i < nElems c (longV w) then setElem c (vdOf w) (longV w) i (xget c (vaOf w % 32)) else c)]

/-- A row of opcode 0x3A, with the qualifiers and X registers that it uses. -/
def qualRowOf (cmd : CoreIx → BitVec 32 → Instr) (fn : Nat) (qs xs : Nat → List Nat) (result : Core → Nat → Core) : CoreRow :=
  { cmd := cmd, word := fun w => decide (opOf w = 0x3A ∧ fn4 w = fn), uses := fun w => { qs := qs w, xs := xs w }, result := result }

/-- The qualifier rows and SETVL of R251. -/
def qualRows : List CoreRow :=
  let q3 := fun w => [vdOf w % 8, vaOf w % 8, vbOf w % 8]
  let logic := fun (f : BitVec 64 → BitVec 64 → BitVec 64) (c : Core) (w : Nat) =>
    setQual c (vdOf w % 8) (f (qual c (vaOf w % 8)) (qual c (vbOf w % 8)))
  let toX := fun (f : BitVec 64 → Nat → Nat) (c : Core) (w : Nat) =>
    xset c (vdOf w % 32) (BitVec.ofNat 40 (f (qual c (vaOf w % 8)) (nElems c (longV w))))
  let qa := fun w => [vaOf w % 8]
  let xd := fun w => [vdOf w % 32]
  [qualRowOf .qboth 0 q3 (fun _ => []) (logic (fun a b => a &&& b)), qualRowOf .qeither 1 q3 (fun _ => []) (logic (fun a b => a ||| b)),
   qualRowOf .qdiff 2 q3 (fun _ => []) (logic (fun a b => a ^^^ b)), qualRowOf .qtrim 3 q3 (fun _ => []) (logic (fun a b => a &&& ~~~b)),
   qualRowOf .qflip 4 q3 (fun _ => []) (logic (fun a _ => ~~~a)),
   qualRowOf .qcount 5 qa xd (toX (fun q n => (idxWhere (min n 64) (fun j => q.getLsbD j)).length)),
   qualRowOf .qfromx 6 (fun w => [vdOf w % 8]) (fun w => [vaOf w % 32, vbOf w % 32]) (fun c w =>
     setQual c (vdOf w % 8) ((xget c (vaOf w % 32)).setWidth 64 ||| (xget c (vbOf w % 32)).setWidth 64 <<< 40)),
   qualRowOf .qlow 7 qa xd (fun c w => xset c (vdOf w % 32) ((qual c (vaOf w % 8)).setWidth 40)),
   qualRowOf .qhigh 8 qa xd (fun c w => xset c (vdOf w % 32) ((qual c (vaOf w % 8) >>> 40).setWidth 40)),
   qualRowOf .qlead 9 qa xd (toX (fun q n => (firstIdx n (fun j => q.getLsbD j)).getD n)),
   qualRowOf .setvl 10 (fun _ => []) (fun w => [vdOf w % 32, vaOf w % 32]) (fun c w =>
     let v := if 64 < (xget c (vaOf w % 32)).toNat then 64 else xget c (vaOf w % 32)
     csrSet (xset c (vdOf w % 32) v) 0x100 v),
   qualRowOf .qfill 11 (fun w => [vdOf w % 8]) (fun _ => []) (fun c w => setQual c (vdOf w % 8) (BitVec.allOnes 64))]

/-- A floating-point row of opcodes 0x32 to 0x34: f gives result and flags in a format from the rounding mode, FZ, a, b and the old
destination (R246, R247). -/
def fpRowOf (cmd : CoreIx → BitVec 32 → Instr) (fn : Nat) (f : FFmt → Nat → Bool → Nat → Nat → Nat → Nat × Nat) : CoreRow :=
  { cmd := cmd, word := fun w => decide ((opOf w = 0x32 ∨ opOf w = 0x33 ∨ opOf w = 0x34) ∧ fn4 w = fn), uses := usesFp
    result := fun c w =>
      if opOf w = 0x34 then
        let r := if longV w then f b64 (rmOf c) (fzOf c) (f64 c (vaOf w)) (f64 c (vbOf w)) (f64 c (vdOf w))
          else f b32 (rmOf c) (fzOf c) (f32 c (vaOf w)) (f32 c (vbOf w)) (f32 c (vdOf w))
        setF (setFlags c r.2) (vdOf w) r.1
      else
        let rs := (actives c (kV w) (longV w)).map (fun j =>
          (j, f b32 (rmOf c) (fzOf c) (elem32 c (vaOf w) (longV w) j)
            (if opOf w = 0x32 then elem32 c (vbOf w) (longV w) j else f32 c (vbOf w)) (elem32 c (vdOf w) (longV w) j)))
        setElems (setFlags c (orFlags (rs.map (fun r => r.2.2)))) (vdOf w) (longV w)
          (rs.map (fun r => (r.1, BitVec.ofNat 40 r.2.1))) }

/-- FABS and FNEG: f gives the operand with its sign changed; a NaN gives the quiet NaN, invalid where it signals, and with FZ a subnormal counts as
the zero of its sign (R247). -/
def signRowOf (f : FFmt → Nat → Nat) : FFmt → Nat → Bool → Nat → Nat → Nat → Nat × Nat := fun t _ fz a _ _ =>
  let ex := bitsOf a (t.eb + t.mb - 1) t.mb
  if ex = 2 ^ t.eb - 1 ∧ a % 2 ^ t.mb ≠ 0 then (t.qnan, if bitOf a (t.mb - 1) = 0 then fNV else 0)
  else (f t (if fz ∧ ex = 0 then a / t.signBit % 2 * t.signBit else a), 0)

/-- The floating-point rows of R246. -/
def floatRows : List CoreRow :=
  [fpRowOf .fadd 0 (fun t rm fz a b _ => fadd t rm fz a b), fpRowOf .fsub 1 (fun t rm fz a b _ => fadd t rm fz a (fnegBits t b)),
   fpRowOf .fmul 2 (fun t rm fz a b _ => fmul t rm fz a b), fpRowOf .fdiv 3 (fun t rm fz a b _ => fdiv t rm fz a b),
   fpRowOf .fmin 4 (fun t _ fz a b _ => fminmax t fz false a b), fpRowOf .fmax 5 (fun t _ fz a b _ => fminmax t fz true a b),
   fpRowOf .fsqrt 6 (fun t rm fz a _ _ => fsqrt t rm fz a), fpRowOf .fma 7 (fun t rm fz a b d => ffma t rm fz a b d),
   { cmd := .fcvtfx, word := fun w => decide ((opOf w = 0x32 ∨ opOf w = 0x33 ∨ opOf w = 0x34) ∧ fn4 w = 8), uses := usesFx
     result := fun c w =>
       if opOf w = 0x34 then
         let r := fofInt (if longV w then b64 else b32) (rmOf c) (xget c (vaOf w % 32)).toInt
         setF (setFlags c r.2) (vdOf w) r.1
       else
         let rs := (actives c (kV w) (longV w)).map (fun j => (j, fofInt b32 (rmOf c) (elem c (vaOf w) (longV w) j).toInt))
         setElems (setFlags c (orFlags (rs.map (fun r => r.2.2)))) (vdOf w) (longV w) (rs.map (fun r => (r.1, BitVec.ofNat 40 r.2.1))) },
   { cmd := .fcvtxf, word := fun w => decide ((opOf w = 0x32 ∨ opOf w = 0x33 ∨ opOf w = 0x34) ∧ fn4 w = 9), uses := usesXf
     result := fun c w =>
       if opOf w = 0x34 then
         let r := if longV w then ftoInt b64 (rmOf c) (fzOf c) (f64 c (vaOf w)) else ftoInt b32 (rmOf c) (fzOf c) (f32 c (vaOf w))
         xset (setFlags c r.2) (vdOf w % 32) r.1
       else
         let rs := (actives c (kV w) (longV w)).map (fun j => (j, ftoInt b32 (rmOf c) (fzOf c) (elem32 c (vaOf w) (longV w) j)))
         setElems (setFlags c (orFlags (rs.map (fun r => r.2.2)))) (vdOf w) (longV w) (rs.map (fun r => (r.1, r.2.1))) },
   fpRowOf .fabs 10 (signRowOf (fun t a => a % t.signBit)), fpRowOf .fneg 11 (signRowOf fnegBits),
   { cmd := .fcvtp, word := fun w => decide (opOf w = 0x34 ∧ fn4 w = 12), uses := fun w => { cells := [vdOf w % 32, vaOf w % 32] }
     result := fun c w =>
       let r := if longV w then fconv b32 b64 (rmOf c) (fzOf c) (f32 c (vaOf w)) else fconv b64 b32 (rmOf c) (fzOf c) (f64 c (vaOf w))
       setF (setFlags c r.2) (vdOf w) r.1 },
   { cmd := .fmvxf, word := fun w => decide (opOf w = 0x34 ∧ fn4 w = 13), uses := fun w => { xs := [vdOf w % 32], cells := [vaOf w % 32] }
     result := fun c w => xset c (vdOf w % 32) ((cell c (vaOf w % 32)).setWidth 40) },
   { cmd := .fmvfx, word := fun w => decide (opOf w = 0x34 ∧ fn4 w = 14), uses := fun w => { xs := [vaOf w % 32], cells := [vdOf w % 32] }
     result := fun c w => setCell c (vdOf w % 32) ((xget c (vaOf w % 32)).setWidth 80) }]

/-! ## Terms of the command and event claims -/

/-- The command brings the device to a new device state, and touches neither queue nor fuses. -/
def Makes (i : Instr) (s : State) (d : Dev) : Prop := exec i s = .next { s with dev := d }

/-- As `Makes`, once the transmitter of the link has sent what it may (R40, R44). -/
def MakesTx (i : Instr) (s : State) (d : Dev) : Prop := exec i s = .next { s with dev := pump d }

/-- No write and no read waits in a GDDR6 channel and no fill of a slice is open, so that what one step of a unit asks has not to wait (R328, R329, R380). -/
abbrev QueuesFree (d : Dev) : Prop :=
  (∀ ch, writesHeld (mcChan d ch) = 0 ∧ ∀ b, bankReads d ch b = 0) ∧ ∀ k, fillsIn d k = 0

/-- The transmitter acts after a data flit has been received; where it sends none of its own, an ACK control flit carries the acknowledgement (R40, R42). -/
def Acked (d : Dev) : Dev :=
  if (pump d).link.txSeq = d.link.txSeq then { pump d with link := sendCtl (pump d).link 0 1 } else pump d

/-- The bytes of one whole packet, padded to a slot; a packet's first byte is its TYPE, which is not 0 (R45, R46). -/
abbrev WholePkt (bs : List Byte) : Prop := (∃ b, bs.head? = some b ∧ b ≠ 0) ∧ bs.length = 16 + roundUp (parsePkt bs).data.length 8

/-- As `Makes`, for a unit's row, where the write queues have room for what the row writes (R328). -/
def MakesUnit (i : Instr) (s : State) (d : Dev) : Prop := overfills s.dev d = false → exec i s = .next { s with dev := d }

/-- As `MakesUnit`, once the transmitter of the link has sent what it may. -/
def MakesUnitTx (i : Instr) (s : State) (d : Dev) : Prop := overfills s.dev d = false → exec i s = .next { s with dev := pump d }

/-- A submission entry passes its check and starts (R74, R89 to R93, R425): it is in flight with the opcode, nothing before it in its queue holds it, no HALT
stops it, its SPACE bits are permitted, its domains are ON, and GDDR6 is up where it needs it. -/
abbrev Begins (d : Dev) (c : Cmd) (op : Nat) : Prop :=
  cmdOf d c.id = some c ∧ c.opcode = op ∧ mayStart d c = true ∧ haltHit d c = false ∧ badSpace c = none ∧ allOn d (neededDoms d c) = true ∧
    ((neededDoms d c).contains 23 = true → gddrUp d = true)

/-- The device as a started command finds it: the start is counted, and the command runs (R101). -/
def begun (d : Dev) (c : Cmd) : Dev := modCmd (bump (noteFence d c) .ringCnt 2) c.id (fun c => { c with st := .running })

/-- The register path serves a requester now: nothing waits that goes first in its order within a cycle, which is port 0, the Signal Box, DBG_ACCESS,
then the loads of operator cores, lowest core first (R485). -/
def firstOnPath (d : Dev) (who : Requester) : Bool :=
  let sbox := d.link.rxReg.isEmpty && !regLoadDue d 32 && !regStoreDue d 32
  match who with
  | .port0 => true
  | .sbox => d.link.rxReg.isEmpty
  | .dbg => sbox
  | .core n => sbox && (List.range n.val).all (fun m => !regLoadDue d m)

/-- Nothing waits at the register path that goes before a requester. -/
abbrev FirstOnPath (d : Dev) (who : Requester) : Prop := firstOnPath d who = true

/-- No way of the set of a line has an error in its arrays (R333). -/
abbrev SetSound (d : Dev) (line : Nat) : Prop := ∀ w ∈ setOf d line, w.flaw = .sound

/-- No way of the Column Cache has an error in its arrays (R333). -/
abbrev CacheSound (d : Dev) : Prop := ∀ line, SetSound d line

/-- What a walk of a table's frames finds where nothing holds it up: GDDR6 is up, nothing waits in its queues, no error stands in the cache's arrays or in
memory, and memory is canonical (R139, R142, R328, R329). -/
abbrev WalksFree (s : State) : Prop :=
  allOn s.dev (needDoms s.dev 0) = true ∧ memUp s.dev 0 = true ∧ QueuesFree s.dev ∧ CacheSound s.dev ∧ s.dev.badUnits = [] ∧ MemoryCanonical s

/-- The directory entry of a table lies in GDDR6 (R135). -/
abbrev DirReadable (d : Dev) (t : Nat) : Prop := regionOf d (dirAt d t) = .gddr ∧ gddrOut d 0 (dirAt d t) 32 = none

/-- A frame's head may stand at an address: a line of GDDR6 other than that at 0, which says that there is none (R123, R135). -/
abbrev HeadAt (d : Dev) (a : Nat) : Prop := a ≠ 0 ∧ a % 64 = 0 ∧ regionOf d a = .gddr

/-- Two spans of bytes have none in common. -/
abbrev Apart (a n b m : Nat) : Prop := a + n ≤ b ∨ b + m ≤ a

/-- A RETIRE_EPOCH of one table walks it now: the INGESTs that it waits for have completed (R142). -/
abbrev Retires (s : State) (c : Cmd) (t : Nat) (ids : List Nat) : Prop :=
  cmdOf s.dev c.id = some c ∧ running s.dev = true ∧ c.opcode = 0x22 ∧ c.st = .running ∧ c.aux = 1 :: t :: ids ∧ c.walk = .start ∧
    ingestsDone s.dev ids = true ∧ allOn s.dev (needDoms s.dev 0) = true ∧ memUp s.dev 0 = true

/-- A register write of a requester reaches the register at an offset: the requester may write, the path serves it and the block, and the block's domain is
ON (R425, R483, R485 to R487). -/
abbrev WriteOpen (d : Dev) (who : Requester) (off : Nat) : Prop := mayWrite d who = true ∧ pathUp d off = true ∧ regWay d off = .open_ ∧ FirstOnPath d who

/-- A scalar load of the core's rows: its words, the registers it uses, the bytes it reads from its effective address, its alignment, and where its
data go. -/
def scalarLoads : List ((CoreIx → BitVec 32 → Instr) × (Nat → Bool) × (Nat → Uses) × (Core → Nat → Nat) × (Nat → Nat) × Nat × (Nat → Bool) × (Nat → Nat → LoadDest)) :=
  let ea := fun c w => (xget c (raOf w) + immS w).toNat
  let eq := fun c w => (xget c (raV w) + imm8 w).toNat
  let ab := fun w => ({ xs := [rdOf w, raOf w] } : Uses)
  let fx := fun w => ({ xs := [raOf w], cells := [rdOf w] } : Uses)
  let op := fun k w => decide (opOf w = k)
  let al := fun k a => decide (a % k = 0)
  [(.lb, op 0x10, ab, ea, id, 1, al 1, fun w _ => .x (rdOf w) true), (.lbu, op 0x11, ab, ea, id, 1, al 1, fun w _ => .x (rdOf w) false),
   (.lh, op 0x12, ab, ea, id, 2, al 2, fun w _ => .x (rdOf w) true), (.lhu, op 0x13, ab, ea, id, 2, al 2, fun w _ => .x (rdOf w) false),
   (.lw, op 0x14, ab, ea, id, 4, al 4, fun w _ => .x (rdOf w) true), (.lwu, op 0x15, ab, ea, id, 4, al 4, fun w _ => .x (rdOf w) false),
   (.ln, op 0x16, ab, ea, id, 5, nativeOk, fun w _ => .x (rdOf w) false),
   (.lnf, op 0x17, ab, ea, fun a => a / 64 * 64 + 60, 4, nativeOk, fun w a => .lnf (rdOf w) (a % 64 / 5)),
   (.flw, op 0x3C, fx, ea, id, 4, al 4, fun w _ => .f (rdOf w)), (.fld, op 0x3E, fx, ea, id, 8, al 8, fun w _ => .f (rdOf w)),
   (.qld, fun w => decide (opOf w = 0x3B ∧ fnVM w = 0), fun w => { xs := [raV w], qs := [vdOf w % 8] }, eq, id, 8, al 8,
     fun w _ => .q (vdOf w % 8))]

/-- A scalar store of the core's rows: its words, the registers it uses, its effective address, its bytes, its alignment, and whether it is native. -/
def scalarStores : List ((CoreIx → BitVec 32 → Instr) × (Nat → Bool) × (Nat → Uses) × (Core → Nat → Nat) × (Core → Nat → List Byte) × (Nat → Bool) × Bool) :=
  let ea := fun c w => (xget c (raOf w) + immS w).toNat
  let eq := fun c w => (xget c (raV w) + imm8 w).toNat
  let ab := fun w => ({ xs := [rdOf w, raOf w] } : Uses)
  let fx := fun w => ({ xs := [raOf w], cells := [rdOf w] } : Uses)
  let op := fun k w => decide (opOf w = k)
  let al := fun k a => decide (a % k = 0)
  let x := fun k c w => toLE k (xget c (rdOf w)).toNat
  let f := fun k c w => toLE k (cell c (rdOf w)).toNat
  [(.sb, op 0x18, ab, ea, x 1, al 1, false), (.sh, op 0x19, ab, ea, x 2, al 2, false), (.sw, op 0x1A, ab, ea, x 4, al 4, false),
   (.sn, op 0x1B, ab, ea, x 5, nativeOk, true), (.fsw, op 0x3D, fx, ea, f 4, al 4, false), (.fsd, op 0x3F, fx, ea, f 8, al 8, false),
   (.qst, fun w => decide (opOf w = 0x3B ∧ fnVM w = 1), fun w => { xs := [raV w], qs := [vdOf w % 8] }, eq,
     fun c w => toLE 8 (qual c (vdOf w % 8)).toNat, al 8, false)]

/-- A vector load: its words, its registers, its active elements, and its destination, from them for the NULL bits of their slots. -/
def vectorLoads : List ((CoreIx → BitVec 32 → Instr) × (Nat → Bool) × (Nat → Uses) × (Dev → Nat → Nat → List ElemAccess) ×
    (Core → Nat → List ElemAccess → LoadDest)) :=
  let vm := fun k w => decide (opOf w = 0x38 ∧ fnVM w = k)
  let vg := fun k w => decide (opOf w = 0x39 ∧ fnVG w = k)
  let act := fun c w => actives c (kVM w) (longVM w)
  let actG := fun c w => actives c (kVG w) (longVG w)
  let nul := fun (es : List ElemAccess) => es.map (fun e => (e.j, e.addr % 64 / 5))
  [(.vln, vm 0, usesVM, fun d n w => unitElems d n w nativeAt id 5 nativeOk, fun c w _ => .vec (vdOf w) (longVM w) (act c w) 5),
   (.vlnq, vm 1, usesVMQ, fun d n w => unitElems d n w nativeAt trailerAt 4 nativeOk, fun _ w es => .nullQ (vdOf w % 8) (nul es)),
   (.vlp, vm 2, usesVM, fun d n w => unitElems d n w (fun a j => (a + 5 * j) % 2 ^ 40) id 5 (fun _ => true),
     fun c w _ => .vec (vdOf w) (longVM w) (act c w) 5),
   (.vlw, vm 3, usesVM, fun d n w => unitElems d n w (fun a j => (a + 4 * j) % 2 ^ 40) id 4 (fun a => decide (a % 4 = 0)),
     fun c w _ => .vec (vdOf w) (longVM w) (act c w) 4),
   (.vgn, vg 0, usesVG, fun d n w => idxElems d n w gatherAt id 5 nativeOk, fun c w _ => .vec (vdOf w) (longVG w) (actG c w) 5),
   (.vgnq, vg 1, usesVGQ, fun d n w => idxElems d n w gatherAt trailerAt 4 nativeOk, fun _ w es => .nullQ (vdOf w % 8) (nul es)),
   (.vgw, vg 2, usesVG, fun d n w => idxElems d n w (fun b i => (b + 4 * i) % 2 ^ 40) id 4 (fun a => decide (a % 4 = 0)),
     fun c w _ => .vec (vdOf w) (longVG w) (actG c w) 4)]

/-- A vector store: its words, its registers, its active elements, an element's bytes, and whether it is native. -/
def vectorStores : List ((CoreIx → BitVec 32 → Instr) × (Nat → Bool) × (Nat → Uses) × (Dev → Nat → Nat → List ElemAccess) ×
    (Core → Nat → Nat → List Byte) × Bool) :=
  let vm := fun k w => decide (opOf w = 0x38 ∧ fnVM w = k)
  let vg := fun k w => decide (opOf w = 0x39 ∧ fnVG w = k)
  let v := fun k c w j => toLE k (elem c (vdOf w) (longVM w) j).toNat
  let g := fun k c w j => toLE k (elem c (vdOf w) (longVG w) j).toNat
  [(.vsn, vm 4, usesVM, fun d n w => unitElems d n w nativeAt id 5 nativeOk, v 5, true),
   (.vsp, vm 5, usesVM, fun d n w => unitElems d n w (fun a j => (a + 5 * j) % 2 ^ 40) id 5 (fun _ => true), v 5, false),
   (.vsw, vm 6, usesVM, fun d n w => unitElems d n w (fun a j => (a + 4 * j) % 2 ^ 40) id 4 (fun a => decide (a % 4 = 0)), v 4, false),
   (.vscn, vg 4, usesVG, fun d n w => idxElems d n w gatherAt id 5 nativeOk, g 5, true),
   (.vscw, vg 6, usesVG, fun d n w => idxElems d n w (fun b i => (b + 4 * i) % 2 ^ 40) id 4 (fun a => decide (a % 4 = 0)), g 4, false)]

/-- Core n has issued load l, and its instruction is done: the load joins those in flight with its number and the registers as they stood, INSTRET
counts, the pc is 4 further, and every byte that is not known at issue has its read on the way to GDDR6 (R204, R205, R216). Beside the core, the
requests of the slices and the Yard's counters of bank accesses, the device stays as it was. -/
def Launched (s t : State) (n : CoreIx) (l : LoadFly) : Prop :=
  let c := core s.dev n.val
  core t.dev n.val = { csrSet c 0x029 (csrGet c 0x029 + 1) with
    pc := (c.pc + 4) % 2 ^ 40, loads := c.loads ++ [{ l with num := c.nextLoad, saved := c.toCoreRegs, after := 1 }]
    nextLoad := c.nextLoad + 1, stalled := false, inVec := false } ∧
  (∀ a, (a, none) ∈ l.want → ∃ g ∈ lineReads t.dev (.load n.val c.nextLoad), g.addr ≤ a ∧ a < g.addr + g.len) ∧
  (∀ m : CoreIx, m ≠ n → core t.dev m.val = core s.dev m.val) ∧ (∀ a, memByte t.dev a = memByte s.dev a) ∧
  (∀ r i, (∀ j, r.key i ≠ Reg.yardCnt.key j) → rd t.dev r i = rd s.dev r i) ∧ t.pending = s.pending ∧ t.otp = s.otp ∧
  t.dev = { s.dev with cores := t.dev.cores, cache := t.dev.cache, regs := t.dev.regs }

/-- Core n has entered the next exception level (R227): EPC, ESTAT, EADDR and ECAUSE of that level save the pc, STATUS, the address and the cause with
its element index, STATUS has the new level, privilege CEILING, IE 0 and AT 0, and the pc is EVEC or DVEC with bits [1:0] cleared. -/
def Entered (s t : State) (n : CoreIx) (cause epc eaddr vfidx : Nat) : Prop :=
  let c := core s.dev n.val
  let k := core t.dev n.val
  let base := if levelOf c = 0 then 0x010 else 0x018
  csrGet k base = BitVec.ofNat 40 epc ∧ csrGet k (base + 1) = c.status ∧ csrGet k (base + 2) = BitVec.ofNat 40 eaddr ∧
    csrGet k (base + 3) = BitVec.ofNat 40 (cause + vfidx % 256 * 256) ∧ levelOf k = levelOf c + 1 ∧ privOf k = ceilingOf s.dev n.val ∧
    ieOf k = false ∧ atOf k = false ∧ k.pc = (csrGet c (if levelOf c = 0 then 0x008 else 0x009)).toNat / 4 * 4 ∧ k.x = c.x ∧
    k.cells = c.cells ∧ k.q = c.q ∧ k.oldCode = [] ∧ (∀ a, memByte t.dev a = memByte s.dev a) ∧ (∀ m : CoreIx, m ≠ n → core t.dev m.val = core s.dev m.val)

/-- A command of R395 that Signal Box firmware takes up at once: it starts, and firmware has no other command (R89, R395). -/
abbrev FwBegins (d : Dev) (c : Cmd) (op : Nat) : Prop := Begins d c op ∧ d.sbox.cmds = [] ∧ fwUp d = true

/-- The device as firmware finds it when it takes the command up: the start is counted, the command is firmware's first, and the device event says so. -/
def fwTaken (d : Dev) (c : Cmd) : Dev := sboxEvent { begun d c with sbox := { (begun d c).sbox with cmds := [c.id] } } 11

/-- The registers whose writes act beyond their access codes, or are only the Signal Box's to make (R417, R419 to R421, R447, R483 and the blocks' own
rules). -/
def writesAct : List Reg :=
  [.chipLifecycle, .linkCtrl, .ringCtrl, .coreCtrl, .coreMsg, .cacheCtrl, .cacheMaint, .yardClear, .shuntGate, .mcGlobal, .mcCtrl, .mcTrainCtrl, .cipherCtrl,
   .cipherSign, .cipherSignStatus, .sboxFw, .pwrCtrl, .retainMask, .pmSmb, .wakeCtrl, .padHold, .resetCtrl, .aoTime, .pwrDomain]

end Sys2Proof.Machine
end

