-- ==== Sys2Proof/Certificates/Slice0/Obligations.lean ====
section
/-!
DEFINITION. The statements about the block, for the provers. Each names the rules of spec/ that it formalises.
-/

open Sys2Proof hiding core

open Sys2Proof.Machine

/-! ## The machine as a whole -/

/-- The front command of the queue runs, and takes the rest of the queue with it.
It rests on the model's choices of log entry 3. -/
def Obligations.StepRunsTheFrontCommand : Prop :=
  ∀ (c : Instr) (rest : List Instr) (s : State), s.pending = c :: rest → step s = exec c { s with pending := rest }

/-- On an empty queue one cc passes: the clock is one further, CYCLE of every core that is out of reset counts the cycles of its own clock, one for an
operator core and those of 600 MHz for the Signal Box, and the cores' other state, the queue, the fuses and, where no clear of the Yard and no
maintenance of the cache runs, memory stay (the model's choice, log entry 1; CYCLE counts by R226, the Signal Box's clock by R3). -/
def Obligations.EmptyQueueIsOneCycle : Prop :=
  ∀ s : State, s.pending = [] → ∃ t, step s = .next t ∧ t.pending = [] ∧ t.otp = s.otp ∧ t.dev.cc = s.dev.cc + 1 ∧
    (s.dev.cache.clear = none → s.dev.cache.maint = none → ∀ a, memByte t.dev a = memByte s.dev a) ∧
    (∀ n : CoreIx, let c := core s.dev n.val
      core t.dev n.val = if c.st = .held then c else csrSet c 0x028 (csrGet c 0x028 +
        (if n.val < 32 then 1 else BitVec.ofNat 40 ((s.dev.pwr.scPart + 600) / coreMhz s.dev))))

/-- No command stops the machine, and none touches the commands that wait behind it (DESIGN: every effect of the spec is a next state).
It rests on the model's choices of log entry 98. -/
def Obligations.EveryCommandLeavesItsQueue : Prop :=
  ∀ s : State, ∃ t, step s = .next t ∧ t.pending = s.pending.tail

/-- Fuses only burn, whatever command runs: from every state whose fuses are legal, a step gives legal fuses that burnt on; the public key is burnt at
the first boot of a provisioned part (R412, R414, R415, R417, R418, R420).
It rests on the model's choices of log entry 86. -/
def Obligations.FusesOnlyBurnOn : Prop :=
  ∀ s t : State, FusesLegal s.otp → step s = .next t → FusesLegal t.otp ∧ FusesBurnOn s.otp t.otp

/-- What reset leaves: legal fuses, every register at the value of its reset column (R11, R469), memory canonical and empty, no command waiting, every
operator core held with X0 to X31 zero, and the Signal Box running at the start of its ROM at M (R233, R234).
It rests on the model's choices of log entries 5, 6. -/
def Obligations.ResetLeaves : Prop :=
  FusesLegal State.reset.otp ∧ (∀ (r : Reg) (i : Nat), rd State.reset.dev r i = r.resetVal i) ∧ MemoryCanonical State.reset ∧
    (∀ a : Nat, memByte State.reset.dev a = 0) ∧ State.reset.pending = [] ∧
    (∀ n : Fin 32, (core State.reset.dev n.val).st = .held ∧ ∀ i, xget (core State.reset.dev n.val) i = 0) ∧
    (core State.reset.dev 32).st = .running ∧ (core State.reset.dev 32).pc = 0xE000000000 ∧ privOf (core State.reset.dev 32) = 2

/-- A write of memory puts each byte at its address and changes no other byte.
It rests on the model's choices of log entries 6, 49. -/
def Obligations.MemoryReadsWhatWasWritten : Prop :=
  ∀ (d : Dev) (a : Nat) (bs : List Byte) (x : Nat),
    (∀ b, a ≤ x → bs[x - a]? = some b → memByte (memWrite d a bs) x = b) ∧
    (x < a ∨ a + bs.length ≤ x → memByte (memWrite d a bs) x = memByte d x)

/-- Writes keep the canonical form of memory: the plain write, the write that steps round uncorrectable units, and the warm reset, which keeps the
memories on chip alone (R321, R325, R445).
It rests on the model's choices of log entries 6, 7. -/
def Obligations.MemoryWritesKeepTheCanonicalForm : Prop :=
  ∀ (d : Dev), Memory.wf d.mem = true →
    (∀ a bs, Memory.wf (memWrite d a bs).mem = true) ∧ (∀ a bs, Memory.wf (devWrite d a bs).1.mem = true) ∧
      ∀ cause, Memory.wf (resetDev d cause).mem = true

/-! ## Scalar instructions -/

/-- ADD, SUB, AND, OR, XOR, SLL, SRL, SRA, SLT, SLTU, MIN, MAX, MINU, MAXU, MUL, MULH, MULHU, CLZ, CTZ, POPC and H40, and ADDI, ANDI, ORI, XORI, SLTI,
SLTIU, SLLI, SRLI, SRAI, LUI and ORL write their result to rd and go on (R160, R210, R211).
It rests on the model's choices of log entry 34. -/
def Obligations.ScalarResults : Prop := ∀ r ∈ aluRows ++ immRows, r.Completes

/-- Integer arithmetic wraps: ADD, SUB and MUL write their result modulo 2^40 and nothing of an overflow. DIV, DIVU, REM and REMU: the quotient
truncated toward zero and its remainder; by zero all ones and the dividend; DIV of −2^39 by −1 gives −2^39, and REM 0; with STATUS.AT 1 a zero divisor
takes cause 0x0A with EADDR 0 instead (R211, R212).
It rests on the model's choices of log entry 34. -/
def Obligations.DivisionResults : Prop :=
  (∀ r ∈ [aluRowOf .add 0x000 (fun a b => BitVec.ofNat 40 (a.toNat + b.toNat)), aluRowOf .sub 0x001 (fun a b => BitVec.ofInt 40 (a.toInt - b.toInt)),
      aluRowOf .mul 0x010 (fun a b => BitVec.ofNat 40 (a.toNat * b.toNat))], r.Completes) ∧
  (∀ e ∈ [((Instr.div : CoreIx → BitVec 32 → Instr), 0x014, fun a b : Word => if b = 0 then 0xFFFFFFFFFF else BitVec.ofInt 40 (a.toInt.tdiv b.toInt)),
      (.divu, 0x015, fun a b => if b = 0 then 0xFFFFFFFFFF else BitVec.ofNat 40 (a.toNat / b.toNat)),
      (.rem, 0x016, fun a b => if b = 0 then a else BitVec.ofInt 40 (a.toInt.tmod b.toInt)),
      (.remu, 0x017, fun a b => if b = 0 then a else BitVec.ofNat 40 (a.toNat % b.toNat))],
    ∀ (n : CoreIx) (w : BitVec 32) (s : State), opOf w.toNat = 0x00 → fnA w.toNat = e.2.1 →
      Acts s n w { xs := [rdOf w.toNat, raOf w.toNat, rbOf w.toNat] } →
      let c := core s.dev n.val
      let a := xget c (raOf w.toNat)
      let b := xget c (rbOf w.toNat)
      (b ≠ 0 ∨ atOf c = false → exec (e.1 n w) s = .next (Retired s n (xset c (rdOf w.toNat) (e.2.2 a b)) (c.pc + 4))) ∧
      (b ≠ 0 → a = 0x8000000000 → b = 0xFFFFFFFFFF → (e.2.1 = 0x014 → e.2.2 a b = 0x8000000000) ∧ (e.2.1 = 0x016 → e.2.2 a b = 0)) ∧
      (b = 0 → atOf c = true → exec (e.1 n w) s = .next (Excepted s n 0x0A 0 0)))

/-- BEQ, BNE, BLT, BGE, BLTU and BGEU go to pc + 4 × sext(off16) where their test holds, else to pc + 4; JAL and JALR write pc + 4 to rd and go to pc
+ 4 × sext(off21) and to (ra + sext(imm16)) with bits [1:0] cleared, ra read first (R210).
It rests on the model's choices of log entry 34. -/
def Obligations.BranchesAndJumps : Prop :=
  (∀ e ∈ [((Instr.beq : CoreIx → BitVec 32 → Instr), 0x20, fun a b : Word => a == b), (.bne, 0x21, fun a b => a != b),
      (.blt, 0x22, fun a b => a.slt b), (.bge, 0x23, fun a b => b.sle a), (.bltu, 0x24, fun a b => a.ult b), (.bgeu, 0x25, fun a b => b.ule a)],
    ∀ (n : CoreIx) (w : BitVec 32) (s : State), opOf w.toNat = e.2.1 → Acts s n w { xs := [rdOf w.toNat, raOf w.toNat] } →
      let c := core s.dev n.val
      exec (e.1 n w) s = .next (Retired s n c
        (if e.2.2 (xget c (rdOf w.toNat)) (xget c (raOf w.toNat)) then
          (BitVec.ofNat 40 c.pc + 4 * (w.setWidth 16).signExtend 40).toNat else c.pc + 4))) ∧
  (∀ (n : CoreIx) (w : BitVec 32) (s : State), opOf w.toNat = 0x26 → Acts s n w { xs := [rdOf w.toNat] } →
    let c := core s.dev n.val
    exec (.jal n w) s = .next (Retired s n (xset c (rdOf w.toNat) (BitVec.ofNat 40 (c.pc + 4)))
      (BitVec.ofNat 40 c.pc + 4 * (w.setWidth 21).signExtend 40).toNat)) ∧
  (∀ (n : CoreIx) (w : BitVec 32) (s : State), opOf w.toNat = 0x27 → Acts s n w { xs := [rdOf w.toNat, raOf w.toNat] } →
    let c := core s.dev n.val
    exec (.jalr n w) s = .next (Retired s n (xset c (rdOf w.toNat) (BitVec.ofNat 40 (c.pc + 4)))
      ((xget c (raOf w.toNat) + (w.setWidth 16).signExtend 40).toNat / 4 * 4)))

/-- What an instruction that issues with no load in flight changes: it retires, INSTRET of its core counts it, the core's pc moves, CORE_CNT instance
0 of an operator core counts it, and every other register of the device, every other core and all of memory stay (R205, R226, R234). With loads in
flight it retires with the youngest of them, and its core's registers are the same. -/
def Obligations.RetirementChangesNothingElse : Prop :=
  ∀ (s : State) (n : CoreIx) (c : Core) (pc : Nat),
    let t := Retired s n c pc
    (c.loads = [] → core t.dev n.val = { csrSet c 0x029 (csrGet c 0x029 + 1) with pc := pc % 2 ^ 40, stalled := false, inVec := false } ∧
      (n.val < 32 → rd t.dev .coreCnt (4 * n.val) = rd (bump s.dev .coreCnt (4 * n.val)) .coreCnt (4 * n.val))) ∧
    (c.loads ≠ [] → t.dev.regs = s.dev.regs ∧
      (core t.dev n.val).toCoreRegs = { (csrSet c 0x029 (csrGet c 0x029 + 1)).toCoreRegs with pc := pc % 2 ^ 40 } ∧
      (core t.dev n.val).loads.map (fun l => l.after) = (c.loads.map (fun l => l.after)).modify (c.loads.length - 1) (fun k => k + 1) ∧
      (core t.dev n.val).loads.map (fun l => l.dest) = c.loads.map (fun l => l.dest)) ∧
    (∀ m : CoreIx, m ≠ n → core t.dev m.val = core s.dev m.val) ∧
    (∀ r i, r.key i ≠ Reg.coreCnt.key (4 * n.val) → rd t.dev r i = rd s.dev r i) ∧
    (∀ a, memByte t.dev a = memByte s.dev a) ∧ t.pending = s.pending ∧ t.otp = s.otp ∧
    t.dev = { s.dev with cores := t.dev.cores, regs := t.dev.regs }

/-- The frame of the scalar rows, DIV to REMU, branches and jumps included: whatever they answer on a core below level 2, X registers other than rd,
control registers other than INSTRET and those of the exception level that they enter, cells and qualifiers, other cores and all of memory stay.
It rests on the model's choices of log entry 34. -/
def Obligations.ScalarRowsFrame : Prop :=
  ∀ i ∈ [(Instr.add : CoreIx → BitVec 32 → Instr), .sub, .andd, .orr, .xorr, .sll, .srl, .sra, .slt, .sltu, .min, .max, .minu, .maxu, .mul, .mulh, .mulhu,
      .div, .divu, .rem, .remu, .clz, .ctz, .popc, .h40, .addi, .andi, .ori, .xori, .slti, .sltiu, .slli, .srli, .srai, .lui, .orl,
      .beq, .bne, .blt, .bge, .bltu, .bgeu, .jal, .jalr],
    ∀ (n : CoreIx) (w : BitVec 32) (s t : State), levelOf (core s.dev n.val) < 2 → exec (i n w) s = .next t →
      (∀ k, k ≠ rdOf w.toNat → xget (core t.dev n.val) k = xget (core s.dev n.val) k) ∧ xget (core t.dev n.val) 0 = 0 ∧
      (∀ k, k ≠ 0x029 → ¬(levelOf (core s.dev n.val) = 0 ∧ 0x010 ≤ k ∧ k ≤ 0x013) → ¬(levelOf (core s.dev n.val) = 1 ∧ 0x018 ≤ k ∧ k ≤ 0x01B) →
        csrGet (core t.dev n.val) k = csrGet (core s.dev n.val) k) ∧
      (core t.dev n.val).cells = (core s.dev n.val).cells ∧ (core t.dev n.val).q = (core s.dev n.val).q ∧
      (∀ m : CoreIx, m ≠ n → core t.dev m.val = core s.dev m.val) ∧
      (∀ r i, (∀ j, j < 4 → r.key i ≠ Reg.coreCnt.key (4 * n.val + j)) → rd t.dev r i = rd s.dev r i) ∧
      (∀ a, memByte t.dev a = memByte s.dev a) ∧ t.otp = s.otp ∧ t.dev = { s.dev with cores := t.dev.cores, regs := t.dev.regs }

/-! ## The cell file -/

/-- VADD to VH40 write f of a and b to each active element, VSEL selects by Qk for every j < n (R236, R238, R241, R245).
It rests on the model's choices of log entry 34. -/
def Obligations.VectorResults : Prop := ∀ r ∈ vecRows, r.Completes

/-- VEQ, VNE, VLT, VGE, VLTU, VGEU, FLT and FGE write Q[vd]; VRSUM to VRXOR and FRSUM, FRMIN and FRMAX combine the active elements in ascending order
with X[vb] or F[vb] (R241, R247, R248, R249). VCOMPRESS, VEXPAND, VID, VSPLAT, VMOV, VEXT and VINS (R250), and QBOTH, QEITHER, QDIFF, QTRIM, QFLIP,
QCOUNT, QFROMX, QLOW, QHIGH, QLEAD, SETVL and QFILL (R251).
It rests on the model's choices of log entry 34. -/
def Obligations.ComparesReductionsAndMoves : Prop := ∀ r ∈ compareRows ++ reductionRows ++ moveRows ++ qualRows, r.Completes

/-- FADD, FSUB, FMUL, FDIV, FMIN, FMAX, FSQRT, FMA, FCVTFX, FCVTXF, FABS, FNEG, FCVTP, FMVXF and FMVFX (R237, R246, R247, R260).
It rests on the model's choices of log entries 34, 45, 46. -/
def Obligations.FloatResults : Prop := ∀ r ∈ floatRows, r.Completes

/-- Where elements lie, and writing them is pointwise (R236, R238): element e of Sk and of Lk is the low or high half of its cell, element e of Lk is
element e mod 8 of S(8k + e / 8), F registers share the same cells; each listed element takes its value, every other element of the same form of the
vector and every cell that holds none of them keeps its own. -/
def Obligations.ElementWritesArePointwise : Prop :=
  (∀ (c : Core) (k e : Nat), k < 64 → e < 8 → elem c k false e = (cell c (4 * k + e / 2)).extractLsb' (if e % 2 = 0 then 0 else 40) 40) ∧
  (∀ (c : Core) (k e : Nat), k < 8 → e < 64 → elem c k true e = (cell c (32 * k + e / 2)).extractLsb' (if e % 2 = 0 then 0 else 40) 40 ∧
    elem c k true e = elem c (8 * k + e / 8) false (e % 8)) ∧
  (∀ (c : Core) (i : Nat), i < 32 → f32 c i = (cell c i).toNat % 2 ^ 32 ∧ f64 c i = (cell c i).toNat % 2 ^ 64) ∧
  ∀ (c : Core) (v : Nat) (long : Bool) (xs : List (Nat × Word)), (xs.map Prod.fst).Nodup →
    (∀ e ∈ xs, elem (setElems c v long xs) v long e.1 = e.2) ∧
    (∀ j, j ∉ xs.map Prod.fst → elem (setElems c v long xs) v long j = elem c v long j) ∧
    (∀ i, (∀ e ∈ xs, elemCell v long e.1 ≠ i) → cell (setElems c v long xs) i = cell c i) ∧
    setElems c v long xs = { c with cells := (setElems c v long xs).cells }

/-- The frame of the rows of the cell file that access no memory: whatever they answer, the core's control registers other than INSTRET, VL and FCSR,
its privilege and level, the other cores, every register but CORE_CNT and all of memory stay.
It rests on the model's choices of log entry 34. -/
def Obligations.CellRowsFrame : Prop :=
  ∀ r ∈ vecRows ++ compareRows ++ reductionRows ++ moveRows ++ qualRows ++ floatRows,
    ∀ (n : CoreIx) (w : BitVec 32) (s t : State), exec (r.cmd n w) s = .next t →
      (∀ k, k ≠ 0x029 → k ≠ 0x100 → k ≠ 0x101 → csrGet (core t.dev n.val) k = csrGet (core s.dev n.val) k) ∧
      (core t.dev n.val).status = (core s.dev n.val).status ∧ xget (core t.dev n.val) 0 = 0 ∧
      (∀ m : CoreIx, m ≠ n → core t.dev m.val = core s.dev m.val) ∧
      (∀ r i, (∀ j, j < 4 → r.key i ≠ Reg.coreCnt.key (4 * n.val + j)) → rd t.dev r i = rd s.dev r i) ∧
      (∀ a, memByte t.dev a = memByte s.dev a) ∧ t.otp = s.otp ∧ t.dev = { s.dev with cores := t.dev.cores, regs := t.dev.regs }

/-! ## Loads and stores -/

/-- LB, LBU, LH, LHU, LW, LWU, LN, LNF, FLW, FLD and QLD: where the access is aligned, mapped, in reach and at domains that are ON, and fewer than 8
loads are in flight, the load joins them with the bytes known at issue, its core's own buffered stores over the stores on chip, and the instruction is
done; LN of a register that the core may read joins them too, while its domain wakes as well, and the register is read when it returns (R204, R210,
R213 to R216, R244).
It rests on the model's choices of log entries 31, 42. -/
def Obligations.ScalarLoadsIssue : Prop :=
  (∀ e ∈ scalarLoads, ∀ (n : CoreIx) (w : BitVec 32) (s : State),
    let c := core s.dev n.val
    let a := e.2.2.2.1 c w.toNat
    let start := e.2.2.2.2.1 a
    let len := e.2.2.2.2.2.1
    e.2.1 w.toNat = true → Acts s n w (e.2.2.1 w.toNat) → regionOf s.dev a ≠ .regs →
    accessCause s.dev n.val start len (e.2.2.2.2.2.2.1 a) false = none → memGate s.dev [start] = .open_ → c.loads.length < 8 →
      ∃ t, exec (e.1 n w) s = .next t ∧ Launched s t n
        { dest := e.2.2.2.2.2.2.2 w.toNat a, elems := [(0, len)], want := (accessBytes start len).map (knownByte s.dev c)
          bad := (badAt s.dev (accessBytes start len)).map (fun l => (l, 0)), addr := a }) ∧
  (∀ (n : CoreIx) (w : BitVec 32) (s : State),
    let c := core s.dev n.val
    let a := (xget c (raOf w.toNat) + immS w.toNat).toNat
    let l : LoadFly := { dest := .x (rdOf w.toNat) false, elems := [(0, 5)], reg := some (a - 0xF000000000), addr := a }
    opOf w.toNat = 0x16 → Acts s n w { xs := [rdOf w.toNat, raOf w.toNat] } → regionOf s.dev a = .regs → a % 8 = 0 →
    lnGrant s.dev n.val (a - 0xF000000000) = true → c.loads.length < 8 →
      (regWay s.dev (a - 0xF000000000) = .open_ → ∃ t, exec (.ln n w) s = .next t ∧ Launched s t n l) ∧
      (∀ k, regWay s.dev (a - 0xF000000000) = .waits k → ∃ t, exec (.ln n w) s = .next t ∧
        (core t.dev n.val).loads = c.loads ++ [{ l with num := c.nextLoad, saved := c.toCoreRegs, after := 1 }] ∧
        (core t.dev n.val).pc = (c.pc + 4) % 2 ^ 40))

/-- Scalar loads and stores that fault, in the order of R215: a misaligned one takes cause 0x04 with the effective address; one of whose bytes some
lies outside the mapping or the core's reach, or whose domain is shut, takes cause 0x05 for a load and 0x06 for a store, and so does a native store to
a bell of a unit that may not wake; LN of a register that is not 8-byte aligned, that the core may not read, or that an operator core finds shut takes
cause 0x05. Nothing is loaded or stored (R18, R213 to R215, R218, R288, R425).
It rests on the model's choices of log entries 31, 32. -/
def Obligations.ScalarAccessFaults : Prop :=
  (∀ e ∈ scalarLoads, ∀ (n : CoreIx) (w : BitVec 32) (s : State),
    let c := core s.dev n.val
    let a := e.2.2.2.1 c w.toNat
    let start := e.2.2.2.2.1 a
    let aligned := e.2.2.2.2.2.2.1 a
    let reached := ∀ b ∈ accessBytes start e.2.2.2.2.2.1, byteReach s.dev n.val b false = true
    e.2.1 w.toNat = true → Acts s n w (e.2.2.1 w.toNat) → (opOf w.toNat = 0x16 → regionOf s.dev a ≠ .regs) →
      (aligned = false → exec (e.1 n w) s = .next (Excepted s n 0x04 a 0)) ∧
      (aligned = true → ¬reached → exec (e.1 n w) s = .next (Excepted s n 0x05 a 0)) ∧
      (aligned = true → reached → memGate s.dev [start] = .shut → exec (e.1 n w) s = .next (Excepted s n 0x05 a 0))) ∧
  (∀ (n : CoreIx) (w : BitVec 32) (s : State),
    let c := core s.dev n.val
    let a := (xget c (raOf w.toNat) + immS w.toNat).toNat
    opOf w.toNat = 0x16 → Acts s n w { xs := [rdOf w.toNat, raOf w.toNat] } → regionOf s.dev a = .regs →
      (a % 8 ≠ 0 ∨ lnGrant s.dev n.val (a - 0xF000000000) = false → exec (.ln n w) s = .next (Excepted s n 0x05 a 0)) ∧
      (n.val < 32 → a % 8 = 0 → lnGrant s.dev n.val (a - 0xF000000000) = true → c.loads.length < 8 →
        regWay s.dev (a - 0xF000000000) = .shut → exec (.ln n w) s = .next (Excepted s n 0x05 a 0))) ∧
  (∀ e ∈ scalarStores, ∀ (n : CoreIx) (w : BitVec 32) (s : State),
    let c := core s.dev n.val
    let a := e.2.2.2.1 c w.toNat
    let aligned := e.2.2.2.2.2.1 a
    let reached := ∀ b ∈ accessBytes a (e.2.2.2.2.1 c w.toNat).length, byteReach s.dev n.val b true = true
    e.2.1 w.toNat = true → Acts s n w (e.2.2.1 w.toNat) → ¬(n.val = 32 ∧ opOf w.toNat = 0x1B ∧ regionOf s.dev a = .regs ∧ a % 8 = 0) →
      (aligned = false → exec (e.1 n w) s = .next (Excepted s n 0x04 a 0)) ∧
      (aligned = true → ¬reached → exec (e.1 n w) s = .next (Excepted s n 0x06 a 0)) ∧
      (aligned = true → reached → (e.2.2.2.2.2.2 = true ∧ bellRefused s.dev n.val a = true) ∨ memGate s.dev [a] = .shut →
        exec (e.1 n w) s = .next (Excepted s n 0x06 a 0)))

/-- SB, SH, SW, SN, FSW, FSD and QST: where the access is aligned, mapped, in reach, at domains that are ON, and rings no bell that wakes or refuses,
and fewer than 8 stores are buffered, the store joins the buffer with its address and bytes, native for SN alone, after the loads that issued before
it, and the instruction is done; every byte of memory reads as before. SN of the Signal Box to an 8-byte aligned address of the register range joins
it too, and writes no register yet (R122, R204, R205, R210, R213, R215, R244, R261, R483).
It rests on the model's choices of log entry 32. -/
def Obligations.ScalarStoresIssue : Prop :=
  (∀ e ∈ scalarStores, ∀ (n : CoreIx) (w : BitVec 32) (s : State),
    let c := core s.dev n.val
    let a := e.2.2.2.1 c w.toNat
    let bs := e.2.2.2.2.1 c w.toNat
    e.2.1 w.toNat = true → Acts s n w (e.2.2.1 w.toNat) → regionOf s.dev a ≠ .regs →
    accessCause s.dev n.val a bs.length (e.2.2.2.2.2.1 a) true = none → memGate s.dev [a] = .open_ →
    (e.2.2.2.2.2.2 = true → ∀ k, bellSlot s.dev n.val a = some k → domOn s.dev (bellDom n.val k) = true) → c.stores.length < 8 →
      ∃ t, exec (e.1 n w) s = .next t ∧
        (core t.dev n.val).stores = c.stores ++ [{ parts := [(a, bs)], isNat := e.2.2.2.2.2.2, num := c.nextLoad }] ∧
        (core t.dev n.val).pc = (c.pc + 4) % 2 ^ 40 ∧ (core t.dev n.val).x = c.x ∧ (core t.dev n.val).cells = c.cells ∧
        (core t.dev n.val).q = c.q ∧ csrGet (core t.dev n.val) 0x029 = csrGet c 0x029 + 1 ∧ (∀ y, memByte t.dev y = memByte s.dev y) ∧
        (∀ m : CoreIx, m ≠ n → core t.dev m.val = core s.dev m.val)) ∧
  (∀ (w : BitVec 32) (s : State),
    let c := core s.dev 32
    let a := (xget c (raOf w.toNat) + immS w.toNat).toNat
    opOf w.toNat = 0x1B → Acts s 32 w { xs := [rdOf w.toNat, raOf w.toNat] } → regionOf s.dev a = .regs → a % 8 = 0 → c.stores.length < 8 →
      ∃ t, exec (.sn 32 w) s = .next t ∧
        (core t.dev 32).stores = c.stores ++ [{ parts := [(a, toLE 5 (xget c (rdOf w.toNat)).toNat)], isNat := true, num := c.nextLoad }] ∧
        (core t.dev 32).pc = (c.pc + 4) % 2 ^ 40 ∧ (core t.dev 32).x = c.x ∧ csrGet (core t.dev 32) 0x029 = csrGet c 0x029 + 1 ∧
        t.dev.regs = s.dev.regs ∧ (∀ y, memByte t.dev y = memByte s.dev y))

/-- VLN, VLNQ, VLP, VLW, VGN, VGNQ and VGW: where the probe finds no failing element, every element's domains are ON and fewer than 8 loads are in
flight, one load joins them with the bytes of every active element in order, and the instruction is done; with no active element nothing is accessed,
the destination takes no element, and the instruction retires; the lowest-numbered active element that fails the probe takes cause 0x07, or 0x05 in
the register range, with its address in EADDR and its number in VFIDX, and nothing is loaded (R205, R240, R252 to R254, R257).
It rests on the model's choices of log entry 31. -/
def Obligations.VectorLoadsIssue : Prop :=
  (∀ e ∈ vectorLoads, ∀ (n : CoreIx) (w : BitVec 32) (s : State) (before after : List ElemAccess) (x : ElemAccess),
    e.2.1 w.toNat = true → Acts s n w (e.2.2.1 w.toNat) → e.2.2.2.1 s.dev n.val w.toNat = before ++ x :: after →
    (∀ y ∈ before, accessCause s.dev n.val y.start y.len y.aligned false = none) → accessCause s.dev n.val x.start x.len x.aligned false ≠ none →
      exec (e.1 n w) s = .next (Excepted s n (if regionOf s.dev x.addr = .regs then 0x05 else 0x07) x.addr x.j)) ∧
  ∀ e ∈ vectorLoads, ∀ (n : CoreIx) (w : BitVec 32) (s : State),
    let c := core s.dev n.val
    let es := e.2.2.2.1 s.dev n.val w.toNat
    let dest := e.2.2.2.2 c w.toNat es
    e.2.1 w.toNat = true → Acts s n w (e.2.2.1 w.toNat) → probe s.dev n.val es false = none →
      (es ≠ [] → (∀ x ∈ es, memGate s.dev [x.start] = .open_) → c.loads.length < 8 →
        ∃ t, exec (e.1 n w) s = .next t ∧ Launched s t n
          { dest := dest, elems := es.map (fun x => (x.j, x.len))
            want := (es.map (fun x => (accessBytes x.start x.len).map (knownByte s.dev c))).flatten
            bad := es.findSome? (fun x => (badAt s.dev (accessBytes x.start x.len)).map (fun l => (l, x.j)))
            addr := ((es.head?).map (fun x => x.addr)).getD 0 }) ∧
      (es = [] → exec (e.1 n w) s = .next (Retired s n (match dest with | .nullQ k _ => setQual c k 0 | _ => c) (c.pc + 4)))

/-- VSN, VSP, VSW, VSCN and VSCW: where the probe finds no failing element, every element's domains are ON and no bell is wakened or refused, and
fewer than 8 stores are buffered, one buffer entry takes a write for each active element in ascending order, and the instruction is done; with no
active element it only retires; every byte of memory reads as before; the lowest-numbered active element that fails the probe takes cause 0x07, or
0x06 in the register range, with its address in EADDR and its number in VFIDX, and nothing is stored (R240, R252 to R254, R256, R257, R261).
It rests on the model's choices of log entries 32, 44. -/
def Obligations.VectorStoresIssue : Prop :=
  (∀ e ∈ vectorStores, ∀ (n : CoreIx) (w : BitVec 32) (s : State) (before after : List ElemAccess) (x : ElemAccess),
    e.2.1 w.toNat = true → Acts s n w (e.2.2.1 w.toNat) → e.2.2.2.1 s.dev n.val w.toNat = before ++ x :: after →
    (∀ y ∈ before, accessCause s.dev n.val y.start y.len y.aligned true = none) → accessCause s.dev n.val x.start x.len x.aligned true ≠ none →
      exec (e.1 n w) s = .next (Excepted s n (if regionOf s.dev x.addr = .regs then 0x06 else 0x07) x.addr x.j)) ∧
  ∀ e ∈ vectorStores, ∀ (n : CoreIx) (w : BitVec 32) (s : State),
    let c := core s.dev n.val
    let es := e.2.2.2.1 s.dev n.val w.toNat
    e.2.1 w.toNat = true → Acts s n w (e.2.2.1 w.toNat) → probe s.dev n.val es true = none →
    (∀ x ∈ es, memGate s.dev [x.start] = .open_) →
    (e.2.2.2.2.2 = true → ∀ x ∈ es, ∀ k, bellSlot s.dev n.val x.addr = some k → domOn s.dev (bellDom n.val k) = true) → c.stores.length < 8 →
      ∃ t, exec (e.1 n w) s = .next t ∧
        (core t.dev n.val).stores = (if es = [] then c.stores else
          c.stores ++ [{ parts := es.map (fun x => (x.addr, e.2.2.2.2.1 c w.toNat x.j)), isNat := e.2.2.2.2.2, num := c.nextLoad }]) ∧
        (core t.dev n.val).pc = (c.pc + 4) % 2 ^ 40 ∧ (core t.dev n.val).x = c.x ∧ (core t.dev n.val).cells = c.cells ∧
        (core t.dev n.val).q = c.q ∧ (∀ y, memByte t.dev y = memByte s.dev y) ∧ (∀ m : CoreIx, m ≠ n → core t.dev m.val = core s.dev m.val)

/-- LOAD_RETURN: a load whose reads have been served leaves the loads in flight and delivers: sign- or zero-extended to X, the NULL bit of its slot to
X, zero-extended to a cell of the F registers, the listed elements of a vector, the NULL bits of the listed elements to a qualifier with every other
bit 0, or 8 bytes to a qualifier; no other register of the core changes. LN of a register, with every earlier load returned, the domain ON and nothing
before it at the register path, reads the register then. The oldest load, where it met an uncorrectable line, takes cause 0x08 with EPC its own
instruction and EADDR the line address; registers are as they stood before it and the loads after it are gone (R204, R205, R210, R214, R215, R237,
R241, R244, R252, R485). STORE_COMPLETION: the oldest store, with every earlier load returned and room at its slice, makes its next write: its bytes
stand at its address and every other byte reads as before; the write leaves the buffer; a native write to the address of one of the core's bells, with
a place at the unit, rings it: the unit's list of arriving rings grows by the ring of that core and value as they stand at that moment, and no other
unit's does. The Signal Box's store to the register range, with nothing before it at the register path, writes its register by the access codes (R122,
R205, R216, R256, R261, R262, R313, R328, R342).
It rests on the model's choices of log entries 31, 32. -/
def Obligations.AccessesComplete : Prop :=
  ((∀ (n : CoreIx) (i : Fin 8) (s : State) (l : LoadFly),
    (core s.dev n.val).loads[i.val]? = some l → running s.dev = true → l.reg = none → l.bad = none →
    (∀ g ∈ lineReads s.dev (.load n.val l.num), g.st = .served) →
      let c := core s.dev n.val
      let bs := loadBytes (lineReads s.dev (.load n.val l.num)) l
      ∃ t, exec (.loadReturn n i) s = .next t ∧
        (core t.dev n.val).toCoreRegs = ((match l.dest with
        | .x rd signed => xset c rd (if signed then sextW (8 * bs.length) (ofLE bs) else BitVec.ofNat 40 (ofLE bs))
        | .lnf rd slot => xset c rd (if (ofLE bs).testBit slot then 1 else 0)
        | .f rd => setCell c (rd % 32) (BitVec.ofNat 80 (ofLE bs))
        | .vec v long js width => setElems c v long (js.zipIdx.map (fun e => (e.1, BitVec.ofNat 40 (leAt bs (width * e.2) width))))
        | .nullQ k slots => setQual c k (bitsQ ((slots.zipIdx.filter (fun (e : (Nat × Nat) × Nat) => (leAt bs (4 * e.2) 4).testBit e.1.2)).map (fun e => e.1.1)))
        | .q k => setQual c k (BitVec.ofNat 64 (ofLE bs))) : Core).toCoreRegs ∧
        (core t.dev n.val).loads.map (fun x => x.num) = (c.loads.eraseIdx i.val).map (fun x => x.num) ∧
        (core t.dev n.val).stores = c.stores ∧ (∀ m : CoreIx, m ≠ n → core t.dev m.val = core s.dev m.val) ∧
        (∀ a, memByte t.dev a = memByte s.dev a)) ∧
  (∀ (n : CoreIx) (s : State) (l : LoadFly) (off rd_ k : Nat) (r : Reg),
    (core s.dev n.val).loads[0]? = some l → running s.dev = true → l.reg = some off → l.dest = .x rd_ false →
    FirstOnPath s.dev (coreWho n.val) → lineReads s.dev (.load n.val l.num) = [] → regWay s.dev off = .open_ → regAt (off / 8 * 8) = some (r, k) →
      ∃ t, exec (.loadReturn n 0) s = .next t ∧
        (core t.dev n.val).toCoreRegs = (xset (core s.dev n.val) rd_ (regLive s.dev r k)).toCoreRegs) ∧
  (∀ (n : CoreIx) (s : State) (l : LoadFly) (line j : Nat),
    (core s.dev n.val).loads[0]? = some l → running s.dev = true → l.reg = none →
    (∀ g ∈ lineReads s.dev (.load n.val l.num), g.st = .served ∨ g.st = .failed) →
    loadBad (lineReads s.dev (.load n.val l.num)) l = some (line, j) → bitsOf l.saved.status.toNat 5 4 = 0 →
      ∃ t, exec (.loadReturn n 0) s = .next t ∧ csrGet (core t.dev n.val) 0x010 = BitVec.ofNat 40 l.saved.pc ∧
        csrGet (core t.dev n.val) 0x012 = BitVec.ofNat 40 line ∧ csrGet (core t.dev n.val) 0x013 = BitVec.ofNat 40 (8 + j % 256 * 256) ∧
        (core t.dev n.val).x = l.saved.x ∧ (core t.dev n.val).cells = l.saved.cells ∧ (core t.dev n.val).q = l.saved.q ∧
        (core t.dev n.val).loads = [] ∧ levelOf (core t.dev n.val) = 1)) ∧
  ((∀ (n : CoreIx) (s : State) (a : Nat) (bs : List Byte) (more : List (Nat × List Byte)) (native : Bool) (num : Nat) (rest : List StoreBuf),
    (core s.dev n.val).stores = { parts := (a, bs) :: more, isNat := native, num := num } :: rest → running s.dev = true → regOff a = none →
    (∀ l ∈ (core s.dev n.val).loads, num ≤ l.num) → memUp s.dev a = true → roomFor s.dev a bs.length = true →
    (a < 0x1000000000 ∨ spoiled s.dev a bs.length = []) → (a < 0x1000000000 → ∀ k, k < bs.length → SetSound s.dev ((a + k) / 64 * 64)) →
    (native = true → ∀ k, bellSlot s.dev n.val a = some k → bellRoom s.dev n.val k = true) →
      ∃ t, exec (.storeCompletion n) s = .next t ∧
        (∀ y b, a ≤ y → bs[y - a]? = some b → memByte t.dev y = b) ∧ (∀ y, y < a ∨ a + bs.length ≤ y → memByte t.dev y = memByte s.dev y) ∧
        core t.dev n.val = { core s.dev n.val with
          stores := if more = [] then rest else { parts := more, isNat := native, num := num } :: rest } ∧
        (∀ m : CoreIx, m ≠ n → core t.dev m.val = core s.dev m.val) ∧
        (let bell := if native then bellSlot s.dev n.val a else none
         let r := ringOf s.dev n.val (ofLE bs)
         (∀ m, (plane t.dev m).arriving = (plane s.dev m).arriving ++ if bell = some 0 ∧ m = n.val / 2 then [r] else []) ∧
         t.dev.junc.arriving = s.dev.junc.arriving ++ (if bell = some 1 then [r] else []) ∧
         t.dev.hump.arriving = s.dev.hump.arriving ++ (if bell = some 2 then [r] else []) ∧
         t.dev.shunt.arriving = s.dev.shunt.arriving ++ if bell = some 3 then [r] else [])) ∧
  (∀ (s : State) (a off k : Nat) (bs : List Byte) (more : List (Nat × List Byte)) (native : Bool) (num : Nat) (rest : List StoreBuf) (r : Reg),
    (core s.dev 32).stores = { parts := (a, bs) :: more, isNat := native, num := num } :: rest → running s.dev = true → regOff a = some off →
    (∀ l ∈ (core s.dev 32).loads, num ≤ l.num) → FirstOnPath s.dev .sbox → regWay s.dev off = .open_ → regAt (off / 8 * 8) = some (r, k) → r ∉ writesAct →
      ∃ t, exec (.storeCompletion 32) s = .next t ∧ t.dev.regs = (regStore s.dev r k (BitVec.ofNat 40 (ofLE bs))).regs ∧
        core t.dev 32 = { core s.dev 32 with stores := if more = [] then rest else { parts := more, isNat := native, num := num } :: rest } ∧
        (∀ y, memByte t.dev y = memByte s.dev y)))

/-! ## Exceptions, control registers and the Wagon instructions -/

/-- With no load in flight and below level 2, TRAP enters the next level with cause 0x0B and EADDR its code, BRK with cause 0x0C and EADDR 0, an
undefined word with cause 0x02 and EADDR the word; EPC is the instruction's address, and entry changes no memory and no other register of the core
(R205, R209, R210, R225, R227, R228). A cause taken at level 2 with no load in flight, by TRAP, BRK or an undefined word, is a triple fault. On an
operator core CORE_FAULT and CORE_FAULT_PC record cause, pc and whether a Wagon was in service where no fault stands there, and keep the first fault
where one stands; either way the count goes on; the Signal Box has its device event; a Wagon in service leaves and its Consist takes
CORE_TRIPLE_FAULT; and the core is reset: at CORE_RESET_PC at level 0 where RUN is 1, held where it is 0. On the Signal Box it is a warm reset of
cause 6, and RESET_CAUSE and RESET_PC keep the fault (R85, R98, R230, R234, R420, R445).
It rests on the model's choices of log entry 34. -/
def Obligations.TrapsAndTripleFaults : Prop :=
  (∀ (n : CoreIx) (w : BitVec 32) (s : State), levelOf (core s.dev n.val) < 2 → (core s.dev n.val).loads = [] → Acts s n w {} →
    (opOf w.toNat = 0x2D → ∃ t, exec (.trap n w) s = .next t ∧ Entered s t n 0x0B (core s.dev n.val).pc (w.setWidth 16).toNat 0) ∧
    (opOf w.toNat = 0x2C → fn4 w.toNat = 5 → ∃ t, exec (.brk n w) s = .next t ∧ Entered s t n 0x0C (core s.dev n.val).pc 0 0) ∧
    (definedWord w.toNat = false → ∃ t, exec (.undefinedOpcode n w) s = .next t ∧ Entered s t n 0x02 (core s.dev n.val).pc w.toNat 0)) ∧
  (∀ e ∈ [((Instr.trap : CoreIx → BitVec 32 → Instr), (fun w : Nat => decide (opOf w = 0x2D)), 0x0B), (.brk, fun w => decide (opOf w = 0x2C ∧ fn4 w = 5), 0x0C),
      (.undefinedOpcode, fun w => !definedWord w, 0x02)],
    ∀ (n : CoreIx) (w : BitVec 32) (s : State), e.2.1 w.toNat = true → Acts s n w {} → (core s.dev n.val).loads = [] → levelOf (core s.dev n.val) = 2 →
      let pc := (core s.dev n.val).pc
      (n.val < 32 → ∃ t, exec (e.1 n w) s = .next t ∧ fld t.dev .coreFault n.val 39 39 = 1 ∧
        fld t.dev .coreFault n.val 13 0 = min 0x3FFF (fld s.dev .coreFault n.val 13 0 + 1) ∧
        (fld s.dev .coreFault n.val 39 39 = 0 → fld t.dev .coreFault n.val 37 30 = e.2.2 ∧ rd t.dev .coreFaultPc n.val = BitVec.ofNat 40 pc ∧
          fld t.dev .coreFault n.val 38 38 = if (serving s.dev n.val).isSome then 1 else 0) ∧
        (fld s.dev .coreFault n.val 39 39 = 1 → fld t.dev .coreFault n.val 38 14 = fld s.dev .coreFault n.val 38 14 ∧
          rd t.dev .coreFaultPc n.val = rd s.dev .coreFaultPc n.val) ∧
        fld t.dev .sboxEvent 0 3 3 = 1 ∧
        (∀ v, serving s.dev n.val = some v → v ∉ t.dev.disp.service ∧
          ((consist s.dev (wConsist v.w)).valid = true → (consist s.dev (wConsist v.w)).event = 0 → (consist s.dev (wConsist v.w)).ph ≠ .completing →
            (consist t.dev (wConsist v.w)).event = 6)) ∧
        levelOf (core t.dev n.val) = 0 ∧ (∀ i, xget (core t.dev n.val) i = 0) ∧ (core t.dev n.val).pc = (rd s.dev .coreResetPc n.val).toNat ∧
        (core t.dev n.val).st = (if fld s.dev .coreCtrl n.val 2 2 = 1 then .running else .held)) ∧
      (n.val = 32 → ∃ t, exec (e.1 n w) s = .next t ∧ fld t.dev .resetCause 0 7 0 = 6 ∧ fld t.dev .resetCause 0 15 8 = e.2.2 ∧
        rd t.dev .resetPc 0 = BitVec.ofNat 40 pc ∧ (core t.dev 32).pc = 0xE000000000 ∧ (∀ m : Fin 32, (core t.dev m.val).st = .held) ∧
        t.dev.mem = keepChip s.dev.mem ∧ t.dev.pwr.bootDue = true))

/-- INSTRUCTION_FETCH_FAULT: a running core whose pc lies outside the memory it may fetch from takes cause 0x01 with EPC and EADDR the pc, once its
loads have returned, whether an interrupt is due or not (R202, R205, R228, R231). INTERRUPT_ENTRY: at level 0 a running core takes the lowest pending
cause of 0x10 to 0x16 that is cause 0x12 or that IE and IMASK admit, with EPC its pc, once the loads in flight and a vector access that has begun are
done, unless the instruction at its pc takes an exception of its own; taking causes 0x12, 0x14 and 0x15 clears them (R205, R224, R225, R227, R228,
R231, R255).
It rests on the model's choices of log entry 35. -/
def Obligations.FetchFaultsAndInterruptsEnter : Prop :=
  (∀ (n : CoreIx) (s : State), levelOf (core s.dev n.val) < 2 → running s.dev = true → domOn s.dev (coreDom n.val) = true →
    (core s.dev n.val).st = .running → (core s.dev n.val).loads = [] →
    fetchable s.dev n.val (core s.dev n.val).pc = false →
      ∃ t, exec (.instructionFetchFault n) s = .next t ∧ Entered s t n 0x01 (core s.dev n.val).pc (core s.dev n.val).pc 0) ∧
  (∀ (n : CoreIx) (s : State) (k : Nat), running s.dev = true → domOn s.dev (coreDom n.val) = true → (core s.dev n.val).st = .running →
    (core s.dev n.val).loads = [] → (core s.dev n.val).inVec = false → ownException n s = false → levelOf (core s.dev n.val) = 0 → k ∈ [0x10, 0x12, 0x13, 0x14, 0x15, 0x16] → causePending s.dev n.val k = true →
    (k = 0x12 ∨ (ieOf (core s.dev n.val) = true ∧ (csrGet (core s.dev n.val) 0x002).getLsbD (k - 0x10) = true)) →
    (∀ j ∈ [0x10, 0x12, 0x13, 0x14, 0x15, 0x16], j < k → causePending s.dev n.val j = true →
      j ≠ 0x12 ∧ ¬(ieOf (core s.dev n.val) = true ∧ (csrGet (core s.dev n.val) 0x002).getLsbD (j - 0x10) = true)) →
      ∃ t, exec (.interruptEntry n) s = .next t ∧ Entered s t n k (core s.dev n.val).pc
          (if k = 0x12 then (core s.dev n.val).abortId else if k = 0x14 then (rd s.dev .coreMsg n.val).toNat else 0) 0 ∧
        (k = 0x12 ∨ k = 0x14 ∨ k = 0x15 → k ∉ (core t.dev n.val).pend))

/-- ERET at S or M above level 0 with a legal ESTAT.PRIV: STATUS takes PRIV, IE and AT of ESTAT and the level below, the pc is EPC with bits [1:0]
cleared (R229). At U it takes cause 0x03, at level 0 cause 0x02, with a refused privilege cause 0x09 and EADDR that privilege. -/
def Obligations.EretReturns : Prop :=
  ∀ (n : CoreIx) (w : BitVec 32) (s : State), opOf w.toNat = 0x2C → fn4 w.toNat = 4 → Acts s n w {} →
    let c := core s.dev n.val
    let base := if levelOf c = 1 then 0x010 else 0x018
    let es := csrGet c (base + 1)
    let p := (es.setWidth 2).toNat
    (privOf c ≠ 0 → levelOf c ≠ 0 → p ≠ 3 → p ≤ ceilingOf s.dev n.val →
      ∃ t, exec (.eret n w) s = .next t ∧ privOf (core t.dev n.val) = p ∧ (levelOf c ≤ 2 → levelOf (core t.dev n.val) = levelOf c - 1) ∧
        ieOf (core t.dev n.val) = es.getLsbD 6 ∧ atOf (core t.dev n.val) = es.getLsbD 7 ∧
        (core t.dev n.val).pc = (csrGet c base).toNat / 4 * 4 ∧ (core t.dev n.val).x = c.x ∧ (core t.dev n.val).oldCode = [] ∧
        csrGet (core t.dev n.val) 0x029 = csrGet c 0x029 + 1) ∧
    (privOf c = 0 → exec (.eret n w) s = .next (Excepted s n 0x03 w.toNat 0)) ∧
    (privOf c ≠ 0 → levelOf c = 0 → exec (.eret n w) s = .next (Excepted s n 0x02 w.toNat 0)) ∧
    (privOf c ≠ 0 → levelOf c ≠ 0 → (p = 3 ∨ ceilingOf s.dev n.val < p) → exec (.eret n w) s = .next (Excepted s n 0x09 p 0))

/-- MFC, MTC, MSET and MCLR of a listed control register that the core's privilege may access: rd takes the old value, and MTC, MSET and MCLR write
ra, old OR ra and old AND NOT ra; a write of CYCLE follows the loads in flight (R205, R225, R226, R260). A control register above the core's privilege
takes cause 0x03, an unlisted one cause 0x02, with EADDR the word (R226, R228).
It rests on the model's choices of log entries 36, 37, 38, 40. -/
def Obligations.ControlRegisterRows : Prop :=
  (∀ (n : CoreIx) (w : BitVec 32) (s : State) (r : Nat) (wp : Option Nat),
    let c := core s.dev n.val
    let k := csrOf w.toNat
    let old := csrRead s.dev n.val k
    let a := xget c (raOf w.toNat)
    opOf w.toNat = 0x2C → Acts s n w (usesCsr w.toNat) → csrAccess n.val k = some (r, wp) → r ≤ privOf c →
      (fn4 w.toNat = 0 → exec (.mfc n w) s = .next (Retired s n (xset c (rdOf w.toNat) old) (c.pc + 4))) ∧
      (∀ p, wp = some p → p ≤ privOf c → (k = 0x028 → c.loads = []) →
        (fn4 w.toNat = 1 → exec (.mtc n w) s = .next (Retired s n (xset (csrWrite c k a) (rdOf w.toNat) old) (c.pc + 4))) ∧
        (fn4 w.toNat = 2 → exec (.mset n w) s = .next (Retired s n (xset (csrWrite c k (old ||| a)) (rdOf w.toNat) old) (c.pc + 4))) ∧
        (fn4 w.toNat = 3 → exec (.mclr n w) s = .next (Retired s n (xset (csrWrite c k (old &&& ~~~a)) (rdOf w.toNat) old) (c.pc + 4)))) ∧
      (wp = none → fn4 w.toNat = 1 → exec (.mtc n w) s = .next (Excepted s n 0x02 w.toNat 0))) ∧
  (∀ (n : CoreIx) (w : BitVec 32) (s : State), opOf w.toNat = 0x2C → Acts s n w (usesCsr w.toNat) →
    ∀ e ∈ [((Instr.mfc : CoreIx → BitVec 32 → Instr), 0), (.mtc, 1), (.mset, 2), (.mclr, 3)], fn4 w.toNat = e.2 →
      (csrAccess n.val (csrOf w.toNat) = none → exec (e.1 n w) s = .next (Excepted s n 0x02 w.toNat 0)) ∧
      (∀ r wp, csrAccess n.val (csrOf w.toNat) = some (r, wp) → privOf (core s.dev n.val) < r →
        exec (e.1 n w) s = .next (Excepted s n 0x03 w.toNat 0)))

/-- What a write of a control register leaves (R219, R226, R240, R260): STATUS takes IE and AT alone, VL saturates at 64, a half of a qualifier leaves
the other half, and a reserved bit of IMASK, ESTAT, ECAUSE, PSWIN, YWIN and FCSR stays zero. -/
def Obligations.ControlRegisterWrites : Prop :=
  ∀ (c : Core) (v : Word),
    privOf (csrWrite c 0x000 v) = privOf c ∧ levelOf (csrWrite c 0x000 v) = levelOf c ∧ ieOf (csrWrite c 0x000 v) = v.getLsbD 6 ∧
    atOf (csrWrite c 0x000 v) = v.getLsbD 7 ∧ (csrGet (csrWrite c 0x100 v) 0x100).toNat = min 64 (v.toNat % 128) ∧
    (∀ k, k < 8 → qual (csrWrite c (0x110 + k) v) k = (qual c k &&& 0xFFFFFF0000000000#64) ||| v.setWidth 64 ∧
      qual (csrWrite c (0x118 + k) v) k = (qual c k &&& 0xFFFFFFFFFF#64) ||| (v.setWidth 64 <<< 40)) ∧
    csrGet (csrWrite c 0x002 v) 0x002 = v &&& 0xFFFF ∧ csrGet (csrWrite c 0x011 v) 0x011 = v &&& 0xF3 ∧ csrGet (csrWrite c 0x019 v) 0x019 = v &&& 0xF3 ∧
    csrGet (csrWrite c 0x013 v) 0x013 = v &&& 0xFFFF ∧ csrGet (csrWrite c 0x01B v) 0x01B = v &&& 0xFFFF ∧ csrGet (csrWrite c 0x101 v) 0x101 = v &&& 0x1FF ∧
    csrGet (csrWrite c 0x040 v) 0x040 = v &&& 0x3FFFFFFFFF ∧ csrGet (csrWrite c 0x041 v) 0x041 = v &&& 0x1FFFFFF

/-- The Wagon instructions on an operator core whose earlier loads and stores are done: WAITW at level 0 releases the Wagon in service and waits as a
candidate; DONEW releases it and goes on; EMITW and EMITWK offer X10 to X13 with the Consist's own id, and with key X14, and wait for acceptance;
DROPW and FAULTW at S end the service, and FAULTW records KERNEL_FAULT, or DATA_ECC for cause 0x08, for a Consist without a terminating event (R178,
R187, R190, R191, R216, R220, R222 to R224). A Wagon instruction on the Signal Box, WAITW above level 0, EMITW and EMITWK with no Wagon in service
take cause 0x02, and DROPW and FAULTW at U take cause 0x03, with EADDR the word (R220, R222, R233).
It rests on the model's choices of log entry 41. -/
def Obligations.WagonInstructions : Prop :=
  (∀ (n : CoreIx) (w : BitVec 32) (s : State), n.val < 32 → opOf w.toNat = 0x28 →
    let c := core s.dev n.val
    (fnA w.toNat = 0x001 → Acts s n w { xs := [10, 11, 12, 13] } → levelOf c = 0 → c.loads = [] → c.stores = [] →
      ∃ t, exec (.waitw n w) s = .next t ∧ (core t.dev n.val).st = .waitw ∧ (core t.dev n.val).pc = c.pc ∧ (n.val, s.dev.cc) ∈ t.dev.disp.waiting ∧
        (∀ v, serving s.dev n.val = some v → (consist s.dev (wConsist v.w)).valid = true → (consist s.dev (wConsist v.w)).event = 0 →
          v ∈ t.dev.disp.releasing)) ∧
    (fnA w.toNat = 0x002 → Acts s n w {} → c.loads = [] → c.stores = [] →
      ∃ t, exec (.donew n w) s = .next t ∧ (core t.dev n.val).pc = (c.pc + 4) % 2 ^ 40 ∧ (core t.dev n.val).x = c.x ∧
        (∀ v, serving s.dev n.val = some v → (consist s.dev (wConsist v.w)).valid = true → (consist s.dev (wConsist v.w)).event = 0 →
          v ∈ t.dev.disp.releasing)) ∧
    (∀ v, serving s.dev n.val = some v → c.loads = [] → c.stores = [] →
      let wg : Wagon := wSetConsist { w0 := xget c 10, w1 := xget c 11, w2 := xget c 12, w3 := xget c 13 } (wConsist v.w)
      (fnA w.toNat = 0x003 → Acts s n w { xs := [10, 11, 12, 13] } →
        ∃ t, exec (.emitw n w) s = .next t ∧ t.dev.disp.offers = s.dev.disp.offers ++ [{ prod := .core n.val, w := wg, key := none, time := s.dev.cc }] ∧
          core t.dev n.val = { c with st := .emitw }) ∧
      (fnA w.toNat = 0x004 → Acts s n w { xs := [10, 11, 12, 13, 14] } →
        ∃ t, exec (.emitwk n w) s = .next t ∧
          t.dev.disp.offers = s.dev.disp.offers ++ [{ prod := .core n.val, w := wg, key := some (xget c 14).toNat, time := s.dev.cc }] ∧
          core t.dev n.val = { c with st := .emitw })) ∧
    (fnA w.toNat = 0x010 → Acts s n w {} → privOf c ≠ 0 → c.loads = [] →
      ∃ t, exec (.dropw n w) s = .next t ∧ (∀ v, serving s.dev n.val = some v → v ∉ t.dev.disp.service) ∧ (core t.dev n.val).pc = (c.pc + 4) % 2 ^ 40) ∧
    (fnA w.toNat = 0x011 → Acts s n w { xs := [raOf w.toNat, rbOf w.toNat] } → privOf c ≠ 0 → c.loads = [] →
      ∃ t, exec (.faultw n w) s = .next t ∧ (∀ v, serving s.dev n.val = some v → v ∉ t.dev.disp.service) ∧ (core t.dev n.val).pc = (c.pc + 4) % 2 ^ 40 ∧
        (∀ v, serving s.dev n.val = some v → (consist s.dev (wConsist v.w)).valid = true → (consist s.dev (wConsist v.w)).event = 0 →
          (consist s.dev (wConsist v.w)).ph ≠ .completing →
          (consist t.dev (wConsist v.w)).event = if (xget c (raOf w.toNat)).toNat % 256 = 8 then 7 else 0x0C))) ∧
  (∀ e ∈ [((Instr.waitw : CoreIx → BitVec 32 → Instr), 0x001, fun _ : Nat => ({ xs := [10, 11, 12, 13] } : Uses)), (.donew, 0x002, fun _ => {}),
      (.emitw, 0x003, fun _ => { xs := [10, 11, 12, 13] }), (.emitwk, 0x004, fun _ => { xs := [10, 11, 12, 13, 14] }), (.dropw, 0x010, fun _ => {}),
      (.faultw, 0x011, fun w => { xs := [raOf w, rbOf w] })],
    ∀ (n : CoreIx) (w : BitVec 32) (s : State), opOf w.toNat = 0x28 → fnA w.toNat = e.2.1 → Acts s n w (e.2.2 w.toNat) →
      (n.val = 32 ∨ (e.2.1 = 0x001 ∧ levelOf (core s.dev n.val) ≠ 0) ∨ ((e.2.1 = 0x003 ∨ e.2.1 = 0x004) ∧ serving s.dev n.val = none) →
        exec (e.1 n w) s = .next (Excepted s n 0x02 w.toNat 0)) ∧
      (n.val < 32 → (e.2.1 = 0x010 ∨ e.2.1 = 0x011) → privOf (core s.dev n.val) = 0 → exec (e.1 n w) s = .next (Excepted s n 0x03 w.toNat 0)))

/-- WAITI at S or M stops the core until a pending cause that IMASK admits ends it, and goes on at once where one is pending; at U it takes cause
0x03. TIMER_COMPARE lets time pass until CYCLE reaches TCMP, and then cause 0x10 is pending; CYCLE of the Signal Box counts 600 MHz beside a core
clock that is no slower (R3, R205, R225, R226, R231).
It rests on the model's choices of log entries 1, 35. -/
def Obligations.WaitiAndTimer : Prop :=
  (∀ (n : CoreIx) (w : BitVec 32) (s : State), opOf w.toNat = 0x2C → fn4 w.toNat = 6 → Acts s n w {} →
    (privOf (core s.dev n.val) = 0 → exec (.waiti n w) s = .next (Excepted s n 0x03 w.toNat 0)) ∧
    (privOf (core s.dev n.val) ≠ 0 → waitiEnds s.dev n.val = true →
      exec (.waiti n w) s = .next (Retired s n (core s.dev n.val) ((core s.dev n.val).pc + 4))) ∧
    (privOf (core s.dev n.val) ≠ 0 → waitiEnds s.dev n.val = false → (core s.dev n.val).loads = [] →
      exec (.waiti n w) s = .next { s with dev := setCore s.dev n.val { core s.dev n.val with st := .waiti } })) ∧
  (∀ (n : CoreIx) (w : BitVec 32) (s : State), opOf w.toNat = 0x2C → fn4 w.toNat = 6 → running s.dev = true → (core s.dev n.val).st = .waiti →
    waitiEnds s.dev n.val = true → dueInterrupt s.dev n.val = none →
      exec (.waiti n w) s = .next (Retired s n { core s.dev n.val with st := .running } ((core s.dev n.val).pc + 4))) ∧
  (∀ (n : CoreIx) (s : State), (core s.dev n.val).st ≠ .held → (csrGet (core s.dev n.val) 0x028).toNat < (csrGet (core s.dev n.val) 0x02A).toNat →
    (n.val < 32 ∨ (600 ≤ coreMhz s.dev ∧ s.dev.pwr.scPart < coreMhz s.dev)) →
    ∃ t, exec (.timerCompare n) s = .next t ∧ csrGet (core t.dev n.val) 0x028 = csrGet (core s.dev n.val) 0x02A ∧
      causePending t.dev n.val 0x10 = true ∧
      (n.val < 32 → t.dev.cc = s.dev.cc + ((csrGet (core s.dev n.val) 0x02A).toNat - (csrGet (core s.dev n.val) 0x028).toNat)))

/-! ## Rings, commands and ports -/

/-- NOP completes DONE with RESULT 0; FENCE completes DONE with RESULT 0 once nothing earlier of its scope is open, and runs on until then;
UNKNOWN_OPCODE completes with status 3 and the opcode in RESULT; an entry that HALT stops completes ABORTED (R80, R84, R85, R89 to R93). -/
def Obligations.NopFenceAndUnknownOpcode : Prop :=
  ∀ (s : State) (c : Cmd),
    (Begins s.dev c 0x01 → MakesTx (.nop c.id) s (finish (begun s.dev c) c.id 0 0)) ∧
    (Begins s.dev c 0x02 → MakesTx (.fence c.id) s
      (if fenceOpen (begun s.dev c) { c with st := .running } then begun s.dev c else finish (begun s.dev c) c.id 0 0)) ∧
    (cmdOf s.dev c.id = some c → mayStart s.dev c = true → haltHit s.dev c = false → knownOpcode c.port c.opcode = false →
      MakesTx (.unknownOpcode c.id) s (finish (bump (noteFence s.dev c) .ringCnt 2) c.id 3 c.opcode)) ∧
    (cmdOf s.dev c.id = some c → c.opcode = 0x01 → mayStart s.dev c = true → haltHit s.dev c = true →
      MakesTx (.nop c.id) s (finish (noteFence s.dev c) c.id 8 0))

/-- PORT_CREATE makes a free port exist with its summary line and roster and nothing else; PORT_DESTROY of a port with no active ring and no Consist
stops its polling, and releases it once no command of it is in flight or being fetched; a second one meanwhile is NOT_NOW; PORT_WINDOW sets one window
in 4 KiB granules; PORT_QUOTA sets the four allowances, saturated, where none is below the present use (R87, R89, R104, R106, R108, R110, R114). That
NOT_NOW has reason 0x0B is the model's choice (log entry 129). -/
def Obligations.PortCommands : Prop :=
  ∀ (s : State) (c : Cmd), c.port = 0 →
    let d := begun s.dev c
    let p := pf c 1 7 0
    (Begins s.dev c 0xE0 → p ≠ 0 → portExists d p = false →
      MakesTx (.portCreate c.id) s (finish (setPort d p { exists_ := true, summary := pw c 2 / 64 * 64, roster := pw c 3 / 64 * 64 }) c.id 0 0)) ∧
    (Begins s.dev c 0xE1 → p ≠ 0 → portExists d p = true → activeRings d p = 0 → portConsists d p = [] →
      (port d p).destroying = false →
      ((∀ e ∈ s.dev.ring.cmds, e.port ≠ p) → (∀ e ∈ s.dev.ring.ctx, e.1 / 512 = p → e.2.fetching = 0) →
        MakesTx (.portDestroy c.id) s (finish (releasePort (stopPolling d p) p) c.id 0 0)) ∧
      ((∃ e ∈ s.dev.ring.cmds, e.port = p) → MakesTx (.portDestroy c.id) s (stopPolling d p))) ∧
    (Begins s.dev c 0xE1 → p ≠ 0 → portExists d p = true → (port d p).destroying = true → MakesTx (.portDestroy c.id) s (finish d c.id 2 0x0B)) ∧
    (Begins s.dev c 0xE2 → p ≠ 0 → portExists d p = true → pf c 1 16 16 = 0 →
      let g : Window := { en := decide (pf c 1 17 17 = 1), base := pf c 2 39 12 * 4096, size := pf c 3 39 12 * 4096 }
      MakesTx (.portWindow c.id) s (finish (setPort d p { port d p with gwin := mset {} (port d p).gwin (pf c 1 10 8) g }) c.id 0 0)) ∧
    (Begins s.dev c 0xE2 → p ≠ 0 → portExists d p = true → pf c 1 16 16 = 1 →
      let g : Window := { en := decide (pf c 1 17 17 = 1), base := pw c 2 / 4096 * 4096, size := pw c 3 / 4096 * 4096 }
      MakesTx (.portWindow c.id) s (finish (setPort d p { port d p with hwin := mset {} (port d p).hwin (pf c 1 10 8) g }) c.id 0 0)) ∧
    (Begins s.dev c 0xE3 → p ≠ 0 → portExists d p = true → activeRings d p ≤ min 512 (pf c 2 9 0) → coresUse d p ≤ min 32 (pf c 3 5 0) →
      junctionUse d p ≤ min 65536 (pf c 4 16 0) → yardUse d p ≤ min 4096 (pf c 5 12 0) →
      MakesTx (.portQuota c.id) s (finish (setPort d p { port d p with
        rings := min 512 (pf c 2 9 0), cores := min 32 (pf c 3 5 0), junction := min 65536 (pf c 4 16 0), yard := min 4096 (pf c 5 12 0) }) c.id 0 0)) ∧
    (Begins s.dev c 0xE0 → (p = 0 ∨ portExists d p = true) → MakesTx (.portCreate c.id) s (finish d c.id 2 0x0B)) ∧
    (Begins s.dev c 0xE1 → p ≠ 0 → portExists d p = true → (0 < activeRings d p ∨ portConsists d p ≠ []) →
      ∃ t, exec (.portDestroy c.id) s = .next t ∧ t.dev.ports = s.dev.ports)

/-- LOAD_TIMETABLE, from the step in which its image stands whole at HOME, either because SRC is HOME or because the copy has reached its end, and
where the image lies in the port's windows and has no uncorrectable line, ends DONE with the lowest free handle in RESULT; that handle holds the port,
HOME, BYTES and the image's digest, and every other handle stays. One of BYTES 0 ends DONE with RESULT 0 (R155, R156). DROP_TIMETABLE of a handle of
its port that no Consist uses frees it and ends DONE with RESULT 0; of another handle it ends with status 2 and reason 1 (R87, R157, R158).
RUN_CONSIST that passes its check takes the lowest free Consist id, which then names the command, the port, the handle and the frame and is Starting;
one that fails it ends with the status and RESULT of the check (R163, R168, R169). ABORT_CONSIST: with no RUN_CONSIST of its SQ and CID it ends with
status 2 and reason 7; a target that has not started ends ABORTED; a running one has status 8 recorded for its Consist, where nothing stands there
before; and the command waits for its target's completion (R87, R99).
It rests on the model's choices of log entries 22, 25, 102. -/
def Obligations.TimetableAndConsistCommands : Prop :=
  ∀ (s : State) (c : Cmd), cmdOf s.dev c.id = some c →
    let d := begun s.dev c
    let ends := fun (t : State) (h : Nat) =>
      handle t.dev h = { handle t.dev h with valid := true, port := c.port, home := pw c 2, bytes := pf c 3 39 0,
                                             digest := imageDigest (memRead s.dev (pw c 2) (pf c 3 39 0)) } ∧
      (∀ k, k ≠ h → handle t.dev k = handle s.dev k) ∧ (cmdOf t.dev c.id).map (fun e => e.st) = some (.done 0 h)
    (∀ h, Begins s.dev c 0x10 → isHost c 1 = false → pw c 1 = pw c 2 → pf c 3 39 0 ≠ 0 → handlesHeld d ≤ 1024 → c.bad = [] →
      spanFault d c.port (pw c 2) (pf c 3 39 0) = none → firstIdx 1024 (fun h => !(handle d h).valid) = some h → QueuesFree s.dev → CacheSound s.dev →
        ∃ t, exec (.loadTimetable c.id) s = .next t ∧ ends t h) ∧
    (∀ h, c.opcode = 0x10 → c.st = .running → c.bad = [] → (isHost c 1 = true ∨ pw c 1 < 2 ^ 40) → pf c 3 39 0 ≤ c.pos →
      spanFault s.dev c.port (pw c 2) (pf c 3 39 0) = none → firstIdx 1024 (fun h => !(handle s.dev h).valid) = some h → QueuesFree s.dev → CacheSound s.dev →
        ∃ t, exec (.loadTimetable c.id) s = .next t ∧ ends t h) ∧
    (Begins s.dev c 0x10 → pf c 3 39 0 = 0 → MakesTx (.loadTimetable c.id) s (finish d c.id 0 0)) ∧
    (Begins s.dev c 0x11 → (handle d (pf c 1 9 0)).valid = true → (handle d (pf c 1 9 0)).port = c.port → handleBusy d (pf c 1 9 0) = false →
      MakesTx (.dropTimetable c.id) s (finish { d with handles := mset {} d.handles (pf c 1 9 0) {} } c.id 0 0)) ∧
    (Begins s.dev c 0x11 → ((handle d (pf c 1 9 0)).valid = false ∨ (handle d (pf c 1 9 0)).port ≠ c.port) →
      MakesTx (.dropTimetable c.id) s (finish d c.id 2 1)) ∧
    (∀ frame i, Begins s.dev c 0x12 → consistCheck d c (handle d (pf c 1 9 0)) = .ok frame →
      firstIdx 1024 (fun i => !(consist d i).valid) = some i → QueuesFree s.dev →
      ∃ t, exec (.runConsist c.id) s = .next t ∧ (consist t.dev i).valid = true ∧ (consist t.dev i).cmd = c.id ∧ (consist t.dev i).port = c.port ∧
        (consist t.dev i).handle = pf c 1 9 0 ∧ (consist t.dev i).frame = frame ∧ (consist t.dev i).ph = .starting) ∧
    (∀ st r, Begins s.dev c 0x12 → consistCheck d c (handle d (pf c 1 9 0)) = .error (st, r) → QueuesFree s.dev →
      ∃ t, exec (.runConsist c.id) s = .next t ∧ (cmdOf t.dev c.id).map (fun e => e.st) = some (.done st r) ∧ t.dev.consists = s.dev.consists) ∧
    (Begins s.dev c 0x13 →
      let m := matchRun d c.port (pf c 1 8 0) (pf c 1 31 16)
      (m = none → MakesTx (.abortConsist c.id) s (finish d c.id 2 7)) ∧
      (∀ r, m = some r →
        let d1 := modCmd d c.id (fun c => { c with aux := [r.id] })
        (r.st = .fetched → MakesTx (.abortConsist c.id) s (finish d1 r.id 8 0)) ∧
        (∀ st x, r.st = .done st x → MakesTx (.abortConsist c.id) s d1) ∧
        (∀ k, r.st = .running → consistOf d r.id = some k → (consist d k).valid = true → (consist d k).event = 0 → (consist d k).ph ≠ .completing →
          ∃ t, exec (.abortConsist c.id) s = .next t ∧ (consist t.dev k).event = 8 ∧
            (cmdOf t.dev c.id).map (fun e => (e.st, e.aux)) = some (.running, [r.id]))))

/-- SUMMARY_LINE_POLL asks for the port's summary line where no poll of it is open, asks in the same poll for the doorbell word of a flagged ring once
its context is at hand, and ends the poll where none of its reads is out and no flagged ring is left (R67, R69). RING_DESCRIPTOR_REREAD releases a
drained ring's context and asks for its descriptor; a returned descriptor that describes no ring leaves the ring INACTIVE, and one that no reason
refuses gives it a fresh context, ACTIVE and held (R65, R66, R70). SQ_FETCH, for the port and the SQ whose turn it is, with both contexts on chip,
reserves CQ places and asks for the entries; SUBMISSION_ENTRIES_ARRIVE makes the entries that have returned commands in flight, in ring order (R73,
R83, R90). COMPLETION_WRITE of an ended command, while the ring engine reaches the host and the contexts are at hand, writes its entry, and the
command leaves; after an FW_ACTIVATE with REBOOT the device resets; a command that link-down ended leaves without an entry. The entry goes to the CQ's
next place with the phase that stands, its place is given back, and the CQ moves on. CQ_MODERATION_TIMER sends the CQ's MSG_INT and clears its count
(R60, R81 to R83, R94, R412). COMMAND_READ_FAILURE: while a read of the command is out its queued reads are given up; once none is, the failed read
with the lowest address ends the command, or is recorded for its Consist (R52).
It rests on the model's choices of log entries 9, 19, 20, 21. -/
def Obligations.RingRows : Prop :=
  ((∀ (s : State) (p : PortIx), engineUp s.dev = true → portExists s.dev p.val = true →
    ((port s.dev p.val).polling = false → portPolled s.dev p.val = true →
      MakesTx (.summaryLinePoll p) s (hostRead (setPort s.dev p.val { port s.dev p.val with polling := true }) p.val
        ((port s.dev p.val).summary / 64 * 64) 64 (.summary p.val))) ∧
    ((port s.dev p.val).polling = true → readsOf s.dev (pollOwner p.val) = [] →
      ((port s.dev p.val).flagged = [] → MakesTx (.summaryLinePoll p) s (setPort s.dev p.val { port s.dev p.val with polling := false })) ∧
      (∀ r, (port s.dev p.val).flagged = [r] →
        (ctxWaits s.dev p.val r = true → MakesTx (.summaryLinePoll p) s s.dev) ∧
        (ctxWaits s.dev p.val r = false → (ctx s.dev p.val r).valid = true → ∃ t, exec (.summaryLinePoll p) s = .next t ∧
          (∃ h ∈ readsOf t.dev (fun o => decide (o = .doorbell p.val r)), h.port = p.val ∧ h.len = 8) ∧ (port t.dev p.val).flagged = [])))) ∧
  (∀ (s : State) (p : PortIx) (r : RingIx), engineUp s.dev = true →
    let v := slot s.dev p.val r.val
    (v.reset = .waiting → ringDrained s.dev p.val r.val = true →
      MakesTx (.ringDescriptorReread p r) s (hostRead (setSlot (freeCtx s.dev p.val r.val) p.val r.val { v with reset := .reading }) p.val
        ((port s.dev p.val).roster + 64 * r.val) 64 (.descriptor p.val r.val))) ∧
    (∀ (h : HostRead) (hs : List HostRead), v.reset = .reading →
      readsOf s.dev (fun o => decide (o = .descriptor p.val r.val)) = h :: hs → h.st = .done → ctxRoom s.dev = true →
      let kind := leAt h.got 16 1
      (kind ≠ 1 → kind ≠ 2 → boundSqs s.dev p.val r.val = [] →
        ∃ t, exec (.ringDescriptorReread p r) s = .next t ∧ (slot t.dev p.val r.val).state = 0 ∧ (slot t.dev p.val r.val).reset = .held ∧
          (slot t.dev p.val r.val).gen = (v.gen + 1) % 65536) ∧
      (kind = 1 ∨ kind = 2 → portExists s.dev p.val = true → (port s.dev p.val).destroying = false →
        refuseReason s.dev p.val (descCtx h.got (decide (kind = 1))) = none →
        ∃ t, exec (.ringDescriptorReread p r) s = .next t ∧ (slot t.dev p.val r.val).state = 1 ∧ (slot t.dev p.val r.val).reset = .held ∧
          (slot t.dev p.val r.val).gen = (v.gen + 1) % 65536 ∧ ctx t.dev p.val r.val = descCtx h.got (decide (kind = 1))))) ∧
  (∀ (s : State) (p : PortIx) (r : RingIx), engineUp s.dev = true → turnPort s.dev = some p.val → turnRing s.dev p.val = some r.val →
    let c := ctx s.dev p.val r.val
    let n := fetchCount s.dev p.val r.val
    ringKey p.val r.val ∈ s.dev.ring.cached → ringKey p.val c.target ∈ s.dev.ring.cached → s.dev.ring.cached.length ≤ 1024 →
      ∃ d, MakesTx (.sqFetch p r) s (hostRead d p.val (c.base + 64 * c.idx) (64 * n) (.entries p.val r.val)) ∧ 0 < n ∧
        (ctx d p.val r.val).fetching = n ∧ (ctx d p.val r.val).fetchId = s.dev.ring.nextId ∧ d.ring.nextId = s.dev.ring.nextId + n ∧
        (port d p.val).rr = r.val ∧ d.ring.rr = p.val ∧
        (c.target ≠ r.val → (ctx d p.val c.target).reserved = (ctx s.dev p.val c.target).reserved + n)) ∧
  (∀ (s : State) (p : PortIx) (r : RingIx) (h : HostRead) (hs : List HostRead),
    readsOf s.dev (fun o => decide (o = .entries p.val r.val)) = h :: hs → h.st = .done →
    ∃ t, exec (.submissionEntriesArrive p r) s = .next t ∧
      t.dev.ring.cmds.map (fun e => (e.id, e.port, e.sq, e.opcode, e.cid, e.p)) = (s.dev.ring.cmds ++
        (List.range (ctx s.dev p.val r.val).fetching).map (fun i =>
          parseEntry p.val r.val ((ctx s.dev p.val r.val).fetchId + i) (sliceB h.got (64 * i) 64))).map
            (fun e => (e.id, e.port, e.sq, e.opcode, e.cid, e.p)))) ∧
  ((∀ (s : State) (c : Cmd) (status result : Nat), cmdOf s.dev c.id = some c → c.st = .done status result →
    let d1 := haltScan (completed (writeEntry s.dev c status result) c) c.port c.sq
    let d2 := { d1 with pwr := { d1.pwr with standingDone := none } }
    (c.dropped = true → MakesTx (.completionWrite c.id) s (completed s.dev c)) ∧
    (c.dropped = false → engineUp s.dev = true → firstToWrite s.dev c.id = true → ctxWaits s.dev c.port c.sq = false →
      ctxWaits s.dev c.port (ctx s.dev c.port c.sq).target = false →
        (¬(c.opcode = 0xE5 ∧ status = 0 ∧ pf c 1 0 0 = 1) → MakesTx (.completionWrite c.id) s d2) ∧
        (c.opcode = 0xE5 → status = 0 → pf c 1 0 0 = 1 → MakesTx (.completionWrite c.id) s (resetDev (pump d2) 3)))) ∧
  (∀ (d0 : Dev) (c : Cmd) (status result : Nat),
    let d := touchCtx (touchCtx d0 c.port (ctx d0 c.port c.sq).target) c.port c.sq
    let sq := ctx d c.port c.sq
    let cq := ctx d c.port sq.target
    cq.ien = false → status ≤ 1 →
      writeEntry d0 c status result =
        bump (setCtx (hostWrite d c.port (cq.base + 16 * cq.idx) (completionBytes cq.phase c.sq sq.idx status c.cid result)) c.port sq.target
          { cq with idx := if cq.idx + 1 = ringSize cq then 0 else cq.idx + 1, phase := if cq.idx + 1 = ringSize cq then !cq.phase else cq.phase,
                    reserved := cq.reserved - 1 }) .ringCnt 3) ∧
  (∀ (s : State) (p : PortIx) (r : RingIx), engineUp s.dev = true → (ctx s.dev p.val r.val).valid = true → (ctx s.dev p.val r.val).sq = false →
    (ctx s.dev p.val r.val).timer = true → ctxWaits s.dev p.val r.val = false →
      let d := touchCtx s.dev p.val r.val
      MakesTx (.cqModerationTimer p r) s
        (queuePkt (setCtx d p.val r.val { ctx d p.val r.val with pending := 0, timer := false })
          { ty := 0x20, port := p.val, addr := (ctx d p.val r.val).target })) ∧
  (∀ (s : State) (c : Cmd) (b : Nat × Nat), cmdOf s.dev c.id = some c → lowestBad c.bad = some b →
    let own := fun o => decide (readCmd s.dev o = some c.id)
    ((∃ r ∈ readsOf s.dev own, r.st = .sent) →
      MakesTx (.commandReadFailure c.id) s { s.dev with link := { s.dev.link with
        reads := s.dev.link.reads.filter (fun r => !(own r.owner && decide (r.st = .queued))) } }) ∧
    (c.st = .running → (∀ r ∈ readsOf s.dev own, r.st ≠ .sent) → (∀ ch, ch < 16 → (chan s.dev ch).ph = .idle) →
      (∀ p ∈ s.dev.junc.active, p.src ≠ .cmd c.id) →
        (consistOf s.dev c.id = none →
          ∃ t, exec (.commandReadFailure c.id) s = .next t ∧ (cmdOf t.dev c.id).map (fun e => e.st) = some (.done b.2 b.1)) ∧
        (∀ k, consistOf s.dev c.id = some k → (consist s.dev k).valid = true → (consist s.dev k).event = 0 → (consist s.dev k).ph ≠ .completing →
          ∃ t, exec (.commandReadFailure c.id) s = .next t ∧ (consist t.dev k).event = b.2 ∧ (consist t.dev k).evResult = b.1))))

/-! ## The Abdom Link -/

/-- Training and retraining, with the link powered and WIDTH x4 where a lane set is chosen. TRAINING_RETRY_TIMER starts a training from down with the
saved presets that LINK_EQ.USE_SAVED admits, TRAINING_STEP_TIMEOUT ends one down, PRESET_TRIAL_END keeps a trial's errors. LINK_TRAINING: saved
presets that pass on all four lanes, or a finished sweep in which every lane has a trial without errors, bring the link up x4 in L0 with the bridge's
credits, sequence numbers 0 and that preset pair; without saved presets the sweep begins; with no lane present the link stays down (R32 to R36, R43,
R59). A loss of lane lock, and a write of RETRAIN or of another WIDTH on a link that is up or parked, put the link into retrain. RETRAIN with four
good lanes brings it back x4 to L0; one with none, and RETRAIN_TIMEOUT, start another, and the third failure in a row puts the link down with
DOWN_SEEN (R36, R41, R60, R63).
It rests on the model's choices of log entries 14, 15. -/
def Obligations.LinkTrainingRows : Prop :=
  ∀ s : State, linkOn s.dev = true →
    let d := s.dev
    let goodLanes := fun rep : LaneReport => rep.present = 15 ∧ rep.txPass = 15 ∧ rep.rxPass = 15
    let up := fun (t : State) (rep : LaneReport) =>
      linkState t.dev = 2 ∧ fld t.dev .linkStatus 0 13 12 = 0 ∧ t.dev.link.train = none ∧ t.dev.link.credP = rep.credP.toNat ∧
        t.dev.link.credNP = rep.credNP.toNat ∧ t.dev.link.credCPL = rep.credCPL.toNat ∧ t.dev.link.txSeq = 0 ∧ t.dev.link.rxSeq = 0
    (linkState d = 0 →
      Makes .trainingRetryTimer s (setLinkState { d with link := { d.link with
        train := some { saved := if fld d .linkEq 0 8 8 = 1 then some (fld d .linkEq 0 2 0, fld d .linkEq 0 6 4) else none } } } 1)) ∧
    (linkState d = 1 → Makes .trainingStepTimeout s (setLinkState { d with link := { d.link with train := none } } 0)) ∧
    (∀ t errs, linkState d = 1 → d.link.train = some t → t.step = 3 → t.errs.length < 8 →
      Makes (.presetTrialEnd errs) s { d with link := { d.link with train := some { t with trial := t.trial + 1, errs := t.errs ++ [errs] } } }) ∧
    (∀ (t : Training) (rep : LaneReport), linkState d = 1 → d.link.train = some t →
      (∀ tx rx, t.step ≠ 3 → t.saved = some (tx, rx) → tx < 8 → rx < 8 → fld d .linkCtrl 0 1 0 = 0 → goodLanes rep →
        ∃ u, exec (.linkTraining rep) s = .next u ∧ up u rep ∧ fld u.dev .linkStatus 0 25 23 = tx ∧ fld u.dev .linkStatus 0 28 26 = rx) ∧
      (t.step = 3 → t.errs.length = 8 → (∀ n, n < 4 → ∃ e ∈ t.errs, trialErr e n = 0) → fld d .linkCtrl 0 1 0 = 0 → rep.present = 15 → rep.txPass = 15 →
        ∃ u, exec (.linkTraining rep) s = .next u ∧ up u rep ∧ fld u.dev .linkStatus 0 25 23 = rep.txPreset.toNat ∧
          fld u.dev .linkStatus 0 28 26 = bestPreset t.errs) ∧
      (t.step ≠ 3 → t.saved = none → rep.present = 15 →
        MakesTx (.linkTraining rep) s { d with link := { d.link with train := some { t with step := 3 } } }) ∧
      (t.step ≠ 3 → t.saved = none → rep.present = 0 →
        MakesTx (.linkTraining rep) s (setLinkState { d with link := { d.link with train := none } } 0))) ∧
    (∀ lane : Fin 4, linkState d = 2 → bitOf (fld d .linkStatus 0 17 14) lane.val = 1 →
      ∃ t, exec (.laneLockLoss lane) s = .next t ∧ linkState t.dev = 5 ∧ t.dev.link.train = some { step := 1, retrain := true }) ∧
    (∀ (who : Requester) (v : Word), 2 ≤ linkState d → linkState d ≤ 4 → WriteOpen d who 0x100000 →
      (bitOf v.toNat 2 = 1 →
        ∃ t, exec (.linkRetrainWrite who v) s = .next t ∧ linkState t.dev = 5 ∧ t.dev.link.train = some { step := 1, retrain := true } ∧
          rd t.dev .linkCtrl 0 = accessWrite .linkCtrl (rd d .linkCtrl 0) v) ∧
      (bitsOf v.toNat 1 0 ≠ fld d .linkCtrl 0 1 0 →
        ∃ t, exec (.linkWidthWrite who v) s = .next t ∧ linkState t.dev = 5 ∧ t.dev.link.train = some { step := 1, retrain := true } ∧
          rd t.dev .linkCtrl 0 = accessWrite .linkCtrl (rd d .linkCtrl 0) v)) ∧
    (linkState d = 5 → d.link.fails < 2 →
      ∃ t, exec .retrainTimeout s = .next t ∧ linkState t.dev = 5 ∧ t.dev.link.fails = d.link.fails + 1) ∧
    (linkState d = 5 → 2 ≤ d.link.fails → (∀ c ∈ d.ring.cmds, c.opcode ≠ 0xE5) →
      ∃ t, exec .retrainTimeout s = .next t ∧ linkState t.dev = 0 ∧ fld t.dev .linkStatus 0 29 29 = 1) ∧
    (∀ rep : LaneReport, linkState d = 5 →
      (goodLanes rep → fld d .linkCtrl 0 1 0 = 0 →
        ∃ t, exec (.retrain rep) s = .next t ∧ linkState t.dev = 2 ∧ fld t.dev .linkStatus 0 13 12 = 0 ∧ t.dev.link.train = none ∧ t.dev.link.fails = 0) ∧
      (rep.present = 0 → d.link.fails < 2 →
        ∃ t, exec (.retrain rep) s = .next t ∧ linkState t.dev = 5 ∧ t.dev.link.fails = d.link.fails + 1))

/-- The power states of the link: an idle L0 enters L-Coast and says so; a packet or a read that waits ends L-Coast; a quiet L-Coast of a Running
device asks for L-Park, and that of a Standing one does not; an unanswered request is repeated; and L_PARK_EXIT brings a parked link back to L0. After
the acknowledgement that it carries, with the link still up: COAST puts the link into L-Coast; PARK_REQ parks it where the device runs and is quiet,
and is refused otherwise; PARK_ACK parks a Running device's link that has asked; PARK_REFUSE ends the request, and with it a sleep sequence that
drains the LINK domain (R42, R54 to R57, R437).
It rests on the model's choices of log entry 10. -/
def Obligations.LinkPowerStates : Prop :=
  ∀ s : State, linkOn s.dev = true →
    let d := s.dev
    (linkState d = 2 → fld d .linkCtrl 0 15 8 ≠ 0 → d.link.txq = [] →
      Makes .coastIdleExpiry s (setLinkState { d with link := sendCtl d.link 0 0x10 } 3)) ∧
    (linkState d = 3 → (d.link.txq ≠ [] ∨ ∃ r ∈ d.link.reads, r.st = .queued) → MakesTx .coastExit s (setLinkState d 2)) ∧
    (linkState d = 3 → fld d .linkCtrl 0 23 16 ≠ 0 → linkQuiet d.link = true →
      (running d = true → Makes .parkIdleExpiry s { d with link := { sendCtl d.link 0 0x20 with parkAsked := true } }) ∧
      (running d = false → Makes .parkIdleExpiry s d)) ∧
    (linkState d = 4 → MakesTx .lParkExit s (setLinkState d 2)) ∧
    ((linkState d = 2 ∨ linkState d = 3) → d.link.parkAsked = true → Makes .parkReqRetry s { d with link := sendCtl d.link 0 0x20 }) ∧
    (∀ h : FlitAck, linkLive d = true →
      let e := takeAck d h
      linkLive e = true →
      MakesTx (.coast h) s (setLinkState e 3) ∧
      (running e = true → e.link.parkAsked = true → MakesTx (.parkAck h) s (setLinkState { e with link := { e.link with parkAsked := false } } 4)) ∧
      (e.link.parkAsked = true → e.pwr.sleep.active = false → MakesTx (.parkRefuse h) s { e with link := { e.link with parkAsked := false } }) ∧
      (e.link.parkAsked = true → running e = true → e.pwr.sleep.active = true → e.pwr.sleep.toAsk.head? = some 2 →
        MakesTx (.parkRefuse h) s (sleepRefuse { e with link := { e.link with parkAsked := false } } 2)) ∧
      (running e = true → linkQuiet e.link = true →
        MakesTx (.parkReq h) s (setLinkState { e with link := { sendCtl e.link 0 0x21 with parkAsked := false } } 4)) ∧
      (running e = false ∨ linkQuiet e.link = false → MakesTx (.parkReq h) s { e with link := sendCtl e.link 0 0x22 }))

/-- Flits, on a link in L0 or L-Coast. ACK without NAK empties the replay buffer up to its sequence number; ACK_TIMEOUT_REPLAY sends every
unacknowledged flit again on the lanes and counts it, and starts a retrain where one has been replayed three times. FLIT_RECEIVE of what the lanes
bring: a flit with a bad CRC is counted and answered with NAK; one that is due takes the link to L0, brings its credits and, with what the flit before
left of one, its packets, which join their queues where they are well formed and are counted and answered where they are not, and is acknowledged; a
duplicate is acknowledged and brings nothing; one that is ahead of its turn is answered with NAK, once. Memory stays (R30, R38 to R43, R45 to R47,
R49).
It rests on the model's choices of log entries 11, 12, 13, 14. -/
def Obligations.FlitRows : Prop :=
  ∀ s : State, linkLive s.dev = true →
    let d := s.dev
    (∀ (h : FlitAck) (k : Nat), h.ackValid = true → h.nak = false → 1 ≤ k → k ≤ d.link.replay.length → d.link.replay.length ≤ 64 →
      h.ackSeq = d.link.txSeq - BitVec.ofNat 8 d.link.replay.length + BitVec.ofNat 8 (k - 1) →
        MakesTx (.ack h) s { d with link := { d.link with replay := d.link.replay.drop k } }) ∧
    (d.link.replay ≠ [] → (∀ f ∈ d.link.replay, f.replays < 3) →
      MakesTx .ackTimeoutReplay s (bumpLink { d with link := { d.link with
        replay := d.link.replay.map (fun f => { f with replays := f.replays + 1 })
        tx := d.link.replay.foldl (fun t f => sendOnLanes d.link.lanes f.bytes t) d.link.tx } } 1)) ∧
    (∀ f ∈ d.link.replay, 3 ≤ f.replays →
      ∃ t, exec .ackTimeoutReplay s = .next t ∧ linkState t.dev = 5 ∧ t.dev.link.train = some { step := 1, retrain := true }) ∧
    (∀ line : List LaneRx, line.length = d.link.lanes.length →
      let flit := flitOf line
      (leAt flit 252 4 ≠ (crc32 (flit.take 252)).toNat →
        MakesTx (.flitReceive line) s { bumpLink d 0 with link := { sendCtl d.link 1 1 with discarding := true } }) ∧
      (leAt flit 252 4 = (crc32 (flit.take 252)).toNat → leAt flit 0 4 = d.link.rxSeq.toNat * 2 ^ 24 → sliceB flit 4 248 = zeros 248 →
        d.link.partialPkt = [] →
          ∃ t, exec (.flitReceive line) s = .next t ∧ t.dev.link.rxSeq = d.link.rxSeq + 1 ∧ t.dev.link.discarding = false ∧
            t.dev.link.rxReg = d.link.rxReg ∧ t.dev.link.rxCpl = d.link.rxCpl ∧ t.dev.mem = d.mem) ∧
      (leAt flit 252 4 = (crc32 (flit.take 252)).toNat → bitsOf (leAt flit 0 4) 15 12 = 0 →
        let h := leAt flit 0 4
        let e := if linkState d = 3 then setLinkState d 2 else d
        let ahead := (BitVec.ofNat 8 (bitsOf h 31 24) - d.link.rxSeq).toNat
        (∀ (pkts : List (List Byte)) (pads : Nat), ahead = 0 → d.link.partialPkt ++ sliceB flit 4 248 = pkts.flatten ++ zeros (8 * pads) →
          (∀ p ∈ pkts, WholePkt p) → pkts.length + pads ≤ 64 →
          exec (.flitReceive line) s = .next { s with dev := Acked (pkts.foldl takePkt { e with link := { e.link with
            rxSeq := e.link.rxSeq + 1, rxAny := true, discarding := false, partialPkt := [], credP := e.link.credP + bitsOf h 11 8
            credNP := e.link.credNP + bitsOf h 7 4, credCPL := e.link.credCPL + bitsOf h 3 0 } }) }) ∧
        (192 ≤ ahead → exec (.flitReceive line) s = .next { s with dev := Acked e }) ∧
        (0 < ahead → ahead < 192 →
          (d.link.discarding = false → MakesTx (.flitReceive line) s { e with link := { sendCtl e.link 1 1 with discarding := true } }) ∧
          (d.link.discarding = true → MakesTx (.flitReceive line) s e)))) ∧
    (∀ p : List Byte,
      let q := { parsePkt p with num := d.link.rxNum }
      let l := { useFar d.link (pktClass q.ty) (pktCost q.data.length) with rxNum := d.link.rxNum + 1 }
      (malformed p = false → q.ty = 0x10 ∨ q.ty = 0x11 → takePkt d p = { d with link := { l with rxReg := l.rxReg ++ [q] } }) ∧
      (malformed p = false → q.ty = 3 ∨ q.ty = 4 → takePkt d p = { d with link := { l with rxCpl := l.rxCpl ++ [q] } }) ∧
      (malformed p = true → (takePkt d p).link.rxReg = d.link.rxReg ∧ (takePkt d p).link.rxCpl = d.link.rxCpl ∧
        (fld d .linkErrCnt 3 31 0 < 0xFFFFFFFF → fld (takePkt d p) .linkErrCnt 3 31 0 = fld d .linkErrCnt 3 31 0 + 1) ∧
        (q.ty = 1 ∨ q.ty = 0x10 → (takePkt d p).link.txq = d.link.txq ++ [{ ty := 3, status := 1, tag := q.tag }])))

/-- LINK_DOWN of a link that is up, with no FW_ACTIVATE in flight: DOWN_SEEN is set, the state is down, and buffers, received register transactions,
ring contexts and open polls are gone; of one that is down it changes nothing (R59, R60). COMPLETION_RECEIVE of the oldest completion, behind no
register write that came before it: its credits are owed back, a CPL_D brings data of the first read with its tag and ends it with the last of them,
and a CPL of STATUS 1 or 2 ends a command's read, which the command notes with status 4 and issues no more. MEM_RD_TIMEOUT ends a command's read,
which the command notes with status 13, and the tag stays held; that of a summary line ends its poll (R43, R47, R48, R52).
It rests on the model's choices of log entries 9, 16, 17. -/
def Obligations.LinkDownAndReadCompletions : Prop :=
  ((∀ s : State, 2 ≤ linkState s.dev → (∀ c ∈ s.dev.ring.cmds, c.opcode ≠ 0xE5) →
    ∃ t, exec .linkDown s = .next t ∧ linkState t.dev = 0 ∧ fld t.dev .linkStatus 0 29 29 = 1 ∧ t.dev.link.replay = [] ∧ t.dev.link.rxReg = [] ∧
      t.dev.ring.ctx = [] ∧ t.dev.ring.cached = [] ∧ (∀ p, (port t.dev p).polling = false)) ∧
  (∀ s : State, linkState s.dev < 2 → Makes .linkDown s s.dev)) ∧
  (∀ (s : State) (r : HostRead) (before after : List HostRead), s.dev.link.reads = before ++ r :: after → r.st = .sent → r.owner ≠ .abandoned →
    (∀ x ∈ before, ¬((x.st = .sent ∨ x.owner = .abandoned) ∧ x.tag = r.tag)) →
    (∀ (q : Packet) (qs : List Packet), s.dev.link.rxCpl = q :: qs → q.tag = r.tag → writeAhead s.dev q = false →
      let l := { s.dev.link with rxCpl := qs, oweCPL := s.dev.link.oweCPL + pktCost q.data.length }
      (q.ty = 4 → r.len ≤ (r.got ++ q.data).length → (∀ ch piece off, r.owner ≠ .shunt ch piece off) →
        MakesTx .completionReceive s { s.dev with link := { l with
          reads := before ++ { r with got := r.got ++ q.data.take (r.len - r.got.length), st := .done } :: after } }) ∧
      (q.ty = 4 → (r.got ++ q.data).length < r.len →
        MakesTx .completionReceive s { s.dev with link := { l with reads := before ++ { r with got := r.got ++ q.data } :: after } }) ∧
      (∀ id off, q.ty = 3 → q.status = 1 ∨ q.status = 2 → r.owner = .command id off →
        MakesTx .completionReceive s (modCmd (unaskReads { s.dev with link := { l with reads := before ++ { r with st := .refused } :: after } } id) id
          (fun c => { c with bad := c.bad ++ [(r.addr, 4)] })))) ∧
    (∀ tag : BitVec 10, r.tag = tag.toNat →
      (∀ id off, r.owner = .command id off →
        MakesTx (.memRdTimeout tag) s (modCmd (unaskReads { s.dev with link := { s.dev.link with
          reads := before ++ { r with st := .timedOut } :: after ++ [{ r with st := .timedOut, owner := .abandoned }] } } id) id
          (fun c => { c with bad := c.bad ++ [(r.addr, 0x0D)] }))) ∧
      (∀ p, r.owner = .summary p →
        ∃ t, exec (.memRdTimeout tag) s = .next t ∧ (port t.dev p).polling = false ∧ ∃ x ∈ t.dev.link.reads, x.tag = tag.toNat ∧ x.owner = .abandoned)))

/-! ## Commands of the units and of Signal Box firmware -/

/-- Commands that units carry out, past their check: INGEST, READ_BACK and WRITE_DOWN wait for a channel, DMA_RUN takes its channel or is refused,
JUNCTION_UPDATE, JUNCTION_SEARCH_BATCH and SORT wait for their unit, a command with nothing to do is DONE at once, SNAPSHOT and RETIRE_EPOCH wait for
the INGESTs of their table, and are answered or refused. INGEST_WALK of no table ends at once; of a table it stamps the frame of its output, clears
the frame's old marks, and links it behind the table's last frame. RETIRE_WALK marks and unlinks a frame at or before EPOCH, keeps a later one, and
ends in order on an empty chain (R76, R77, R87, R95, R135, R138 to R142, R287, R311, R340, R341, R488).
It rests on the model's choices of log entries 29, 30, 64. -/
def Obligations.UnitCommands : Prop :=
  ∀ (s : State) (c : Cmd) (f : Nat),
    let d := begun s.dev c
    let tab := pf c 5 15 0
    let a := pf c 2 39 0
    let b := dirWord s.dev tab 1 % 2 ^ 40
    let z2 := headWord s.dev a 16
    let f2 := headWord s.dev f 16
    let t := pf c 1 15 0
    let e := lookLines looker d (dirAt d t) 32
    let e0 := lookLines looker s.dev (dirAt s.dev t) 32
    (Begins s.dev c 0x20 → (pf c 5 15 0 = 0xFFFF ∨ pf c 5 15 0 ∉ s.dev.ring.retiring) → pf c 7 12 0 = 0 → pf c 3 39 0 ≠ 0 →
      MakesTx (.ingest c.id) s (modCmd { d with shunt := { d.shunt with cmds := d.shunt.cmds ++ [c.id] } } c.id (fun k => { k with aux := [0, 0] }))) ∧
    (Begins s.dev c 0x20 → pf c 5 15 0 ≠ 0xFFFF → pf c 5 15 0 ∈ s.dev.ring.retiring → MakesTx (.ingest c.id) s (finish d c.id 2 5)) ∧
    (Begins s.dev c 0x21 → MakesTx (.snapshot c.id) s (modCmd d c.id (fun k => { k with aux := openIngests d (fun u => decide (t = 0xFFFF ∨ u = t)) }))) ∧
    (Begins s.dev c 0x22 → t ≠ 0xFFFF → t ∉ s.dev.ring.retiring → snapshotsFrom d (pf c 2 39 0) = false → gddrOut e 0 (dirAt e t) 32 = none →
      QueuesFree s.dev →
        MakesTx (.retireEpoch c.id) s (modCmd (setRetiring e t true) c.id (fun k => { k with
          aux := 1 :: t :: openIngests e (fun u => [t].contains u), walk := .start }))) ∧
    (Begins s.dev c 0x22 → t ≠ 0xFFFF → t ∈ s.dev.ring.retiring → MakesTx (.retireEpoch c.id) s (finish d c.id 2 5)) ∧
    (Begins s.dev c 0x22 → t ≠ 0xFFFF → t ∉ s.dev.ring.retiring → snapshotsFrom d (pf c 2 39 0) = true →
      MakesTx (.retireEpoch c.id) s (finish d c.id 2 6)) ∧
    (Begins s.dev c 0x30 → arbHeld s.dev = false → (chan s.dev (pf c 2 3 0)).ph = .idle →
      ∃ u, exec (.dmaRun c.id) s = .next u ∧ (chan u.dev (pf c 2 3 0)).src = .dma c.id ∧ (chan u.dev (pf c 2 3 0)).ph ≠ .idle ∧
        (chan u.dev (pf c 2 3 0)).port = c.port ∧ (chan u.dev (pf c 2 3 0)).prog = some (pw c 1 / 64 * 64) ∧ (chan u.dev (pf c 2 3 0)).pc = 0) ∧
    (Begins s.dev c 0x30 → (chan s.dev (pf c 2 3 0)).ph ≠ .idle → MakesTx (.dmaRun c.id) s (finish d c.id 2 8)) ∧
    (∀ e ∈ [((Instr.readBack : Nat → Instr), 0x60), (.writeDown, 0x61)],
      (Begins s.dev c e.2 → pf c 3 39 0 = 0 → MakesTx (e.1 c.id) s (finish d c.id 0 0)) ∧
      (Begins s.dev c e.2 → pf c 3 39 0 ≠ 0 → MakesTx (e.1 c.id) s { d with shunt := { d.shunt with cmds := d.shunt.cmds ++ [c.id] } })) ∧
    (∀ e ∈ [((Instr.junctionUpdate : Nat → Instr), 0x40, pf c 3 16 0), (.junctionSearchBatch, 0x41, pf c 4 39 0)],
      (Begins s.dev c e.2.1 → e.2.2 = 0 → MakesTx (e.1 c.id) s (finish d c.id 0 0)) ∧
      (Begins s.dev c e.2.1 → e.2.2 ≠ 0 → MakesTx (e.1 c.id) s { d with junc := { d.junc with cmds := d.junc.cmds ++ [c.id] } })) ∧
    (Begins s.dev c 0x50 → pf c 3 39 0 = 0 → MakesTx (.sort c.id) s (finish d c.id 0 0)) ∧
    (Begins s.dev c 0x50 → pf c 3 39 0 ≠ 0 → d.hump.cmds = [] → d.hump.rings = [] → d.hump.queue.length < 16 →
      MakesTx (.sort c.id) s { d with hump := { d.hump with queue := d.hump.queue ++ [.cmd c.id] } }) ∧
    (cmdOf s.dev c.id = some c → running s.dev = true → c.opcode = 0x21 → c.st = .running → t ≠ 0xFFFF → ingestsDone s.dev c.aux = true →
      allOn s.dev (needDoms s.dev 0) = true → memUp s.dev 0 = true → QueuesFree s.dev → dirFault e0 (dirAt e0 t) 32 = none →
        MakesTx (.snapshotResult c.id) s (finish e0 c.id 0 (dirWord e0 t 2 % 2 ^ 40))) ∧
    (cmdOf s.dev c.id = some c → running s.dev = true → c.opcode = 0x20 → c.st = .running → pf c 5 15 0 = 0xFFFF → c.aux[0]? = some 1 → c.aux[1]? = some 0 →
      (∀ e ∈ s.dev.ring.cmds, e.opcode = 0x20 → e.id = c.id) → MakesTx (.ingestWalk c.id) s (finish s.dev c.id 0 (c.pos % 2 ^ 40))) ∧
    (cmdOf s.dev c.id = some c → running s.dev = true → c.opcode = 0x20 → c.st = .running → tab ≠ 0xFFFF → c.aux[0]? = some 1 → c.aux[1]? = some 0 →
      c.walk = .start → (∀ e ∈ s.dev.ring.cmds, e.opcode = 0x20 → e.id = c.id) → WalksFree s → DirReadable s.dev tab → HeadAt s.dev a →
      c.pos ≠ 0 → bitsOf (headWord s.dev a 48) 39 16 = c.pos → c.pos % 64 = 0 → Apart a 64 (dirAt s.dev tab) 32 →
      (bitOf (dirWord s.dev tab 0) 40 = 1 → HeadAt s.dev b ∧ Apart b 64 a 64 ∧ Apart b 64 (dirAt s.dev tab) 32) →
        ∃ u, exec (.ingestWalk c.id) s = .next u ∧ cmdOf u.dev c.id = some { c with st := .done 0 (c.pos % 2 ^ 40) } ∧
          headWord u.dev a 16 = (z2 - bitOf z2 53 * 2 ^ 53) / 2 ^ 40 * 2 ^ 40 + pf c 4 39 0 ∧
          headWord u.dev a 24 = headWord s.dev a 24 / 2 ^ 40 * 2 ^ 40 ∧ headWord u.dev a 32 = 0 ∧ headWord u.dev a 56 = tab ∧
          dirWord u.dev tab 1 = a ∧ dirWord u.dev tab 2 = max (dirWord s.dev tab 2 % 2 ^ 40) (pf c 4 39 0) ∧
          (bitOf (dirWord s.dev tab 0) 40 = 0 → dirWord u.dev tab 0 = dirD0 (dirWord s.dev tab 0) a true) ∧
          (bitOf (dirWord s.dev tab 0) 40 = 1 → dirWord u.dev tab 0 = dirWord s.dev tab 0 ∧ headWord u.dev b 32 = a)) ∧
    (∀ ids, Retires s c t ids → dirFault e0 (dirAt e0 t) 32 = none → bitOf (dirWord e0 t 0) 40 = 0 → QueuesFree s.dev →
        MakesTx (.retireWalk c.id) s
          (finish (setRetiring (setDir e0 t 3 (max (dirWord e0 t 3 % 2 ^ 40) (pf c 2 39 0))) t false) c.id 0 0)) ∧
    (∀ ids, Retires s c t ids → WalksFree s → DirReadable s.dev t → bitOf (dirWord s.dev t 0) 40 = 1 → dirWord s.dev t 0 % 2 ^ 40 = f → HeadAt s.dev f →
      headWord s.dev f 32 % 2 ^ 40 = 0 → Apart f 64 (dirAt s.dev t) 32 →
        ∃ u, exec (.retireWalk c.id) s = .next u ∧ cmdOf u.dev c.id = some { c with st := .done 0 0 } ∧ t ∉ u.dev.ring.retiring ∧
          dirWord u.dev t 3 = max (dirWord s.dev t 3 % 2 ^ 40) (pf c 2 39 0) ∧
          (f2 % 2 ^ 40 ≤ pf c 2 39 0 → bitOf f2 53 = 0 → headWord u.dev f 16 = f2 + 2 ^ 53 ∧
            headWord u.dev f 24 = headWord s.dev f 24 / 2 ^ 40 * 2 ^ 40 + pf c 2 39 0 ∧ dirWord u.dev t 0 = 0 ∧ dirWord u.dev t 1 = 0) ∧
          (pf c 2 39 0 < f2 % 2 ^ 40 → headWord u.dev f 16 = f2 ∧ headWord u.dev f 24 = headWord s.dev f 24 ∧
            dirWord u.dev t 0 = dirWord s.dev t 0 - bitOf (dirWord s.dev t 0) 41 * 2 ^ 41 ∧ dirWord u.dev t 1 = f))

/-- Commands of the Sealed Journal, as firmware takes them up: JOURNAL_APPEND is refused where signing is not available, and else appends a chained
record; JOURNAL_EXPORT sends a sealed block with its anchor and passes over one that is not; JOURNAL_EXPORT_ACK acknowledges exported blocks and
refuses others (R404 to R409, R414).
It rests on the model's choices of log entries 87, 88, 102. -/
def Obligations.JournalCommands : Prop :=
  ∀ (s : State) (c : Cmd), c.aux = [] → c.bad = [] → c.pos = 0 →
    let d := fwTaken s.dev c
    let n := nextSeq s.dev
    (FwBegins s.dev c 0x70 → pf c 2 15 0 ≠ 0 → signOk s.dev = false → MakesTx (.journalAppend c.id) s (fwFinish d c.id 0x0B 0)) ∧
    (FwBegins s.dev c 0x70 → signOk s.dev = true → sealDue s.dev = false → journalFull s.dev n = false → pf c 2 15 0 ≠ 0 → isHost c 1 = false →
      spanFault d c.port (pw c 1) 64 = none → s.dev.sbox.signQ = [] → QueuesFree s.dev → CacheSound s.dev →
        ∃ t, exec (.journalAppend c.id) s = .next t ∧ rd t.dev .sboxJournal 0 = rd s.dev .sboxJournal 0 + 1 ∧
          t.dev.sbox.chain = sha384 (s.dev.sbox.chain ++
            (toLE 8 (n + 2 ^ 40 + c.port * 2 ^ 48) ++ (toLE 8 (timeWord s.dev) ++ memRead s.dev (pw c 1) 64))) ∧
          (∀ k b, (memRead s.dev (pw c 1) 64)[k]? = some b → memByte t.dev (recAddr n + 16 + k) = b)) ∧
    (FwBegins s.dev c 0x71 → pf c 3 9 0 = 0 → MakesTx (.journalExport c.id) s (fwFinish d c.id 0 0)) ∧
    (∀ b, b = pf c 2 39 0 → FwBegins s.dev c 0x71 → pf c 3 9 0 ≠ 0 → (blockStarted s.dev b = false ∨ (jblock s.dev b).sealed = false) →
      MakesTx (.journalExport c.id) s (modCmd d c.id (fun k => { k with aux := [1] }))) ∧
    (∀ b, b = pf c 2 39 0 → FwBegins s.dev c 0x71 → pf c 3 9 0 ≠ 0 → blockStarted s.dev b = true → blockGone s.dev b = false → (jblock s.dev b).sealed = true →
      firstBadLine d (recAddr (64 * b)) 8192 = none → isHost c 1 = true → hostOut d c.port (pw c 1) 8256 = none →
        MakesTx (.journalExport c.id) s (modCmd (setJblock (hostWrite d c.port (pw c 1) (exportHead s.dev b ++ memRead s.dev (recAddr (64 * b)) 8192)) b
          { jblock s.dev b with exported := true }) c.id (fun k => { k with pos := k.pos + 8256, aux := [1] }))) ∧
    (∀ b, b = pf c 1 39 0 → FwBegins s.dev c 0x72 → pf c 2 9 0 = 1 → blockStarted s.dev b = true → blockGone s.dev b = false → (jblock s.dev b).sealed = true →
      (jblock s.dev b).exported = true → s.dev.sbox.events = [] → s.dev.sbox.signQ = [] →
        MakesTx (.journalExportAck c.id) s
          (fwFinish (modSbox (setJblock d b { jblock s.dev b with acked := true }) (fun x => { x with fullLogged := false })) c.id 0 0)) ∧
    (∀ b, b = pf c 1 39 0 → FwBegins s.dev c 0x72 → pf c 2 9 0 = 1 → blockStarted s.dev b = true → blockGone s.dev b = false → (jblock s.dev b).acked = false →
      (jblock s.dev b).exported = false → MakesTx (.journalExportAck c.id) s (fwFinish d c.id 2 0x0A))

/-- The other commands of firmware: TIME_SET refuses a short token and hands one that names the right time and nonce to the signing engine; a chunk of
an update is written to the slot that does not run; FW_ACTIVATE needs a verified image and selects its slot on trial; POWER_REQUEST with nothing to
change is DONE, and with a sleep state starts the sequence; LOG_READ sends an entry, and SENSOR_READ the records of the selected sensors (R395, R401,
R402, R412, R413, R430, R435).
It rests on the model's choices of log entries 84, 89, 90, 102. -/
def Obligations.FirmwareCommands : Prop :=
  ∀ (s : State) (c : Cmd), c.aux = [] → c.bad = [] → c.pos = 0 →
    let d := fwTaken s.dev c
    let u := modCmd (chunkClears d) c.id (fun k => { k with aux := [1] })
    let v := lookLines looker u (pw c 1) (pf c 3 16 0)
    let base := slotBase (otherSlot s.dev)
    let recs := ((idxWhere 41 (fun i => decide (bitOf (pw c 2) i = 1))).map (sensorRecord d)).flatten
    (FwBegins s.dev c 0x78 → pf c 3 9 0 < 208 →
      ∃ t, exec (.timeSet c.id) s = .next t ∧ cmdOf t.dev c.id = some { c with st := .done 0x0B 0 } ∧ rd t.dev .aoTime 0 = rd s.dev .aoTime 0) ∧
    (FwBegins s.dev c 0x78 → 208 ≤ pf c 3 9 0 → isHost c 2 = false → spanFault d c.port (pw c 2) 208 = none →
      leAt (memRead d (pw c 2) 208) 0 5 = pf c 1 39 0 → leAt (memRead d (pw c 2) 208) 8 5 = (rd s.dev .sboxNonce 0).toNat →
      s.dev.sbox.run = none → s.dev.sbox.signQ = [] → QueuesFree s.dev → CacheSound s.dev →
        ∃ t, exec (.timeSet c.id) s = .next t ∧ t.dev.sbox.run = some { req := .timeSet c.id, bytes := memRead s.dev (pw c 2) 208 }) ∧
    (FwBegins s.dev c 0xE4 → c.port = 0 → pf c 3 16 0 = 0 → MakesTx (.fwUpdateChunk c.id) s (fwFinish d c.id 0 0)) ∧
    (FwBegins s.dev c 0xE4 → c.port = 0 → 0 < pf c 3 16 0 → pf c 3 16 0 ≤ 4096 → pf c 2 21 0 + pf c 3 16 0 ≤ 0x300000 → isHost c 1 = false →
      spanFault u 0 (pw c 1) (pf c 3 16 0) = none → QueuesFree s.dev →
        MakesTx (.fwUpdateChunk c.id) s (modCmd (memWrite v (base + pf c 2 21 0) (memRead v (pw c 1) (pf c 3 16 0))) c.id
          (fun k => { k with pos := k.pos + pf c 3 16 0 }))) ∧
    (FwBegins s.dev c 0xE5 → c.port = 0 → fld s.dev .sboxFw 0 3 3 = 0 → MakesTx (.fwActivate c.id) s (fwFinish d c.id 2 9)) ∧
    (FwBegins s.dev c 0xE5 → c.port = 0 → fld s.dev .sboxFw 0 3 3 = 1 →
      ∃ t, exec (.fwActivate c.id) s = .next t ∧ t.dev.nv.selected = otherSlot s.dev ∧ t.dev.nv.trial = true ∧ t.dev.nv.tries = 0) ∧
    (FwBegins s.dev c 0xE6 → c.port = 0 → s.dev.pwr.sleep.active = false → s.dev.pwr.profile = none → pf c 1 1 0 = 0 → pf c 1 5 4 = 3 →
      MakesTx (.powerRequest c.id) s (fwFinish (modCmd d c.id (fun k => { k with aux := [1] })) c.id 0 0)) ∧
    (FwBegins s.dev c 0xE6 → c.port = 0 → s.dev.pwr.sleep.active = false → s.dev.pwr.profile = none → pf c 1 1 0 ≠ 0 → pf c 1 5 4 = 3 →
      ∃ t, exec (.powerRequest c.id) s = .next t ∧
        t.dev.pwr.sleep = { active := true, target := pf c 1 1 0, toAsk := stopOrder (pf c 1 1 0), cmd := some c.id } ∧
        fld t.dev .retainMask 0 36 0 = pf c 2 36 0) ∧
    (FwBegins s.dev c 0xE7 → c.port = 0 → pf c 3 15 0 = 0 → MakesTx (.logRead c.id) s (fwFinish d c.id 0 (fld s.dev .sboxLog 0 14 0))) ∧
    (∀ a, a = 0xC000600000 + 64 * pf c 2 14 0 → FwBegins s.dev c 0xE7 → c.port = 0 → pf c 3 15 0 ≠ 0 → firstBadLine d a 64 = none → isHost c 1 = true →
      hostOut d 0 (pw c 1) 64 = none → MakesTx (.logRead c.id) s (modCmd (hostWrite d 0 (pw c 1) (memRead d a 64)) c.id (fun k => { k with pos := k.pos + 1 }))) ∧
    (FwBegins s.dev c 0xE8 → c.port = 0 → isHost c 1 = true → hostOut d 0 (pw c 1) recs.length = none →
      MakesTx (.sensorRead c.id) s (fwFinish (hostWrite d 0 (pw c 1) recs) c.id 0 (idxWhere 41 (fun i => decide (bitOf (pw c 2) i = 1))).length))

/-! ## The Signal Box, its keys, the TAP, and registers -/

/-- The signing engine and what its results bring: a write of CIPHER_SIGN by the Signal Box starts an operation of the idle engine, SIGN_DONE shows
the outcome and raises the device event, a signed seal stands in MRAM and closes its block, a signed attestation is delivered and ends its Consist,
and a debug token goes to the engine (R172, R404 to R406, R410, R416, R420, R421, R491).
It rests on the model's choices of log entries 83, 85. -/
def Obligations.SigningRows : Prop :=
  ∀ s : State,
    let d := s.dev
    (∀ (who : Requester) (v : Word) (e : (Requester → Word → Instr) × Nat), e ∈ [((Instr.sign : Requester → Word → Instr), 1), (.verifySignature, 2), (.timeTokenCheck, 3)] →
      isSbox who = true → WriteOpen d who 0xD00010 → d.sbox.run = none → bitsOf v.toNat 39 38 = e.2 →
        ∃ t, exec (e.1 who v) s = .next t ∧ t.dev.sbox.run = some { req := .direct e.2 (bitsOf v.toNat 18 0), bytes := [] } ∧
          fld t.dev .cipherSignStatus 0 39 39 = 1 ∧ t.dev.mem = d.mem) ∧
    (∀ op arg bytes, running d = true → d.sbox.run = some { req := .direct op arg, bytes := bytes } → d.sbox.signQ = [] →
      let x := signResult s.otp d { req := .direct op arg, bytes := bytes }
      MakesTx .signDone s (sboxEvent (setFld { x.1 with sbox := { x.1.sbox with run := none } } .cipherSignStatus 0 39 37 (2 + b2n x.2.1)) 10)) ∧
    (∀ b bytes, fwUp d = true → d.sbox.outs = [{ req := .seal_ b, ok := true, bytes := bytes }] → d.sbox.signQ = [] → d.sbox.events = [] →
      ∃ t, exec .journalSeal s = .next t ∧ nextSeq t.dev = (64 * b + 64) % 2 ^ 40 ∧ (jblock t.dev b).sealed = true ∧
        (∀ k, k < 128 → memByte t.dev (recAddr (64 * b + 63) + k) = (bytes[k]?).getD 0) ∧ fld t.dev .cipherSignStatus 0 38 38 = 0) ∧
    (∀ (c : ConsistIx) (bytes : List Byte) (k : Consist), fwUp d = true → d.sbox.outs = [{ req := .attest c.val, ok := true, bytes := bytes }] → d.sbox.signQ = [] →
      k = consist d c.val → k.ph = .signing → k.event = 0 → k.attestHost = true → hostOut d k.port k.attestAt 256 = none → QueuesFree d →
        MakesTx (.attestationSign c) s (endConsist (hostWrite (setFld (setFld { d with sbox := { d.sbox with outs := [] } } .cipherSignStatus 0 38 38 0)
          .sboxEvent 0 10 10 0) k.port k.attestAt bytes) c.val (b2n k.truncated) (consistResult c.val k true))) ∧
    (∀ token : List Byte, fwUp d = true → d.tap.token = none → d.sbox.run = none → d.sbox.signQ = [] →
      ∃ t, exec (.dbgToken token) s = .next t ∧ t.dev.tap.token = some (sliceB token 0 112) ∧ t.dev.tap.ir = .dbgToken ∧
        t.dev.sbox.run = some { req := .debug, bytes := sliceB token 0 112 })

/-- Keys, lifecycle and tamper: ZEROISE and GEN_MEM by the Signal Box, FW_CONFIRM and LIFECYCLE_ADVANCE burn their fuses, a tamper response burns
TAMPERED and takes the keys, a verified debug token sets DEBUG and resets, and BOOT starts the image that ROM chose, brings GDDR6, the cache, the
rings and the link's training up, or ends in Laid-up without a valid image, with its pads held (R398, R399, R412, R414 to R417, R421, R445, R452).
It rests on the model's choices of log entries 86, 91, 92, 93. -/
def Obligations.KeysAndLifecycle : Prop :=
  ∀ s : State,
    let d := s.dev
    (∀ (who : Requester) (v : Word), isSbox who = true → WriteOpen d who 0xD00000 → bitOf v.toNat 1 = 1 → bitOf v.toNat 0 = 0 →
      ∃ t, exec (.zeroise who v) s = .next t ∧ fld t.dev .cipherStatus 0 39 39 = 0 ∧ fld t.dev .cipherStatus 0 38 38 = 0 ∧ signOk t.dev = false) ∧
    (∀ (who : Requester) (v : Word), isSbox who = true → WriteOpen d who 0xD00000 → bitOf v.toNat 1 = 0 → bitOf v.toNat 0 = 1 →
      ∃ t, exec (.genMem who v) s = .next t ∧ fld t.dev .cipherStatus 0 39 39 = 1) ∧
    (∀ (who : Requester) (v : Word), isSbox who = true → WriteOpen d who 0xE00010 → bitOf v.toNat 24 = 1 →
      ∃ t, exec (.fwConfirm who v) s = .next t ∧ t.dev.nv.trial = false ∧ fld t.dev .sboxFw 0 4 4 = 0 ∧
        t.otp = { s.otp with rollback := if s.otp.rollback < fld d .sboxFw 0 15 8 then min 64 (fld d .sboxFw 0 15 8) else s.otp.rollback }) ∧
    (∀ v : Word, WriteOpen d .port0 0x18 → 1 ≤ s.otp.lifecycle → bitsOf v.toNat 9 8 = s.otp.lifecycle + 1 → bitsOf v.toNat 39 32 = 0xA5 →
      ∃ t, exec (.lifecycleAdvance .port0 v) s = .next t ∧ t.otp = { s.otp with lifecycle := s.otp.lifecycle + 1 } ∧
        fld t.dev .chipLifecycle 0 1 0 = s.otp.lifecycle + 1) ∧
    (∀ mesh : BitVec 16, fld d .chipLifecycle 0 2 2 = 1 → (mesh = 1 ∨ mesh = 2) →
      ∃ t, exec (.tamperResponse mesh) s = .next t ∧ t.otp = { s.otp with tampered := true } ∧ fld t.dev .chipLifecycle 0 3 3 = 1 ∧
        signOk t.dev = false ∧ t.dev.pwr.aoKeys = none) ∧
    (∀ bytes, fwUp d = true → d.sbox.outs = [{ req := .debug, ok := true, bytes := bytes }] →
      ∃ t, exec .debugUnlock s = .next t ∧ fld t.dev .chipLifecycle 0 4 4 = 1 ∧ fld t.dev .resetCause 0 7 0 = 5 ∧ signOk t.dev = false) ∧
    (d.pwr.bootDue = true → running d = true → (chooseSlot s.otp d).2.2 = none → fld d .wakeCtrl 0 4 4 = 0 →
      MemoryCanonical s → ∃ t, exec .boot s = .next t ∧ t.dev.pwr.mode = .laidUp ∧ t.dev.pwr.pwrEn = 0 ∧ fld t.dev .padHold 0 9 0 = 0x3FF) ∧
    (∀ k, MemoryCanonical s → d.pwr.bootDue = true → running d = true → (chooseSlot s.otp d).2.2 = some k →
      ∃ t, exec .boot s = .next t ∧ t.dev.pwr.bootDue = false ∧ t.dev.pwr.mode = .running ∧ (core t.dev 32).st = .running ∧
        (core t.dev 32).pc = 0xE001000000 + bitsOf (memNat d (slotBase k + 24) 8) 18 0 ∧ fld t.dev .sboxFw 0 3 0 = k % 16 ∧ t.dev.nv.trial = false ∧
        linkState t.dev = 1 ∧ fld t.dev .ringCtrl 0 16 16 = 1 ∧ fld t.dev .cacheCtrl 0 0 0 = 1 ∧ fld t.dev .mcGlobal 0 24 24 = 1 ∧
        fld t.dev .cipherStatus 0 39 39 = 1)

/-- The TAP: its instructions come into force, by their own rows and by the codes that a scan loads, where a code that the table does not list is
BYPASS; boundary scan works in Running and Standing alone, and does nothing in the other modes; SAMPLE/PRELOAD takes what is shifted in; IDCODE,
DBG_NONCE and DBG_STATUS capture what they show; and DBG_ACCESS reads a register where debug access is open and is BYPASS where it is closed (R460,
R461).
It rests on the model's choices of log entry 72. -/
def Obligations.TapRows : Prop :=
  ∀ s : State,
    let d := s.dev
    let ir := fun x => { d with tap := { d.tap with ir := x, irOut := 0b00001 } }
    ((d.pwr.mode = .running ∨ d.pwr.mode = .standing) →
      Makes .extest s (ir .extest) ∧ Makes .clamp s (ir .clamp) ∧
      Makes .samplePreload s { ir .samplePreload with
        fresh := d.fresh + 1, tap := { (ir .samplePreload).tap with bound := Config.freeWord d.fresh } }) ∧
    (d.pwr.mode ≠ .running → d.pwr.mode ≠ .standing → Makes .extest s d ∧ Makes .clamp s d ∧ Makes .samplePreload s d) ∧
    Makes .highz s (ir .highz) ∧ Makes .bypass s (ir .bypass) ∧
    Makes .idcode s { d with tap := { d.tap with
      ir := .idcode, irOut := 0b00001, idcode := BitVec.ofNat 32 (fld d .chipId 0 23 16 % 16 * 2 ^ 28 + 0x0740 * 2 ^ 12 + 0x7A5 * 2 + 1) } } ∧
    (∀ (x : TapScan) (e : BitVec 5 × Instr), e ∈ [(0x00, .extest), (0x01, .samplePreload), (0x02, .idcode), (0x03, .clamp), (0x04, .highz)] →
      x.ir = e.1 → exec (.dbgAccess x) s = exec e.2 s) ∧
    (∀ x : TapScan, x.ir = 0x10 → Makes (.dbgAccess x) s { d with tap := { d.tap with ir := .dbgNonce, irOut := 0b00001, shown := d.tap.nonce } }) ∧
    (∀ x : TapScan, x.ir = 0x12 → Makes (.dbgAccess x) s { d with tap := { d.tap with
      ir := .dbgStatus, irOut := 0b00001
      shown := BitVec.ofNat 64 (b2n d.tap.token.isSome + 2 * b2n d.tap.valid + 4 * fld d .chipLifecycle 0 4 4 + 8 * fld d .chipLifecycle 0 1 0) } }) ∧
    (∀ x : TapScan, x.ir.toNat ∉ [0x00, 0x01, 0x02, 0x03, 0x04, 0x10, 0x11, 0x12, 0x18] → Makes (.dbgAccess x) s (ir .bypass)) ∧
    (∀ x : TapScan, x.ir = 0x18 → dbgOpen d = false → FirstOnPath d .dbg → MakesTx (.dbgAccess x) s (ir .bypass)) ∧
    (∀ (x : TapScan) (off : Nat) (r : Reg) (k : Nat), x.ir = 0x18 → dbgOpen d = true → x.dr.getLsbD 80 = false →
      regOff (bitsOf x.dr.toNat 79 40) = some off → pathUp d off = true → regWay d off = .open_ → FirstOnPath d .dbg →
      regAt (off / 8 * 8) = some (r, k) → r.rcMask = 0 → readsFree r = false →
        MakesTx (.dbgAccess x) s { ir .dbgAccess with tap := { (ir .dbgAccess).tap with data := regLive (ir .dbgAccess) r k, done := true } })

/-- Register accesses: a write of a register with no effect of its own stores by its access codes, bit by bit; RC fields clear at a read by any
requester but an operator core; a REG_RD of port 0 answers with the register's value, and a REG_WR writes; operator cores write nothing, and an offset
without a register ignores a write (R11 to R13, R21, R50, R483, R484). Register writes with an effect of their own: RING_CTRL.EN samples the lines of
port 0, CORE_CTRL resets, starts and holds a core, CORE_MSG makes its cause pending, SHUNT_CTRL holds the new mode until the channels are idle (R23,
R101, R103, R230, R231, R234, R362, R490).
It rests on the model's choices of log entries 69, 70, 103. -/
def Obligations.RegisterAccesses : Prop :=
  ((∀ (r : Reg) (old v : Word) (i : Nat), i < 40 → (accessWrite r old v).getLsbD i =
    (if v.getLsbD i && r.w1sMask.getLsbD i then true else if v.getLsbD i && r.w1cMask.getLsbD i then false
      else if r.rwMask.getLsbD i then v.getLsbD i else old.getLsbD i)) ∧
  (∀ (s : State) (who : Requester) (a v : Word) (off : Nat) (r : Reg) (i : Nat), regOff a.toNat = some off → regAt (off / 8 * 8) = some (r, i) →
    WriteOpen s.dev who off → r ∉ writesAct →
      MakesTx (.registerWrite who a v) s (wr s.dev r i (accessWrite r (rd s.dev r i) v))) ∧
  (∀ (s : State) (n : Fin 32) (a v : Word) (off : Nat), regOff a.toNat = some off → FirstOnPath s.dev (.core n) →
    MakesTx (.registerWrite (.core n) a v) s s.dev) ∧
  (∀ (s : State) (who : Requester) (a v : Word) (off : Nat), regOff a.toNat = some off → regAt (off / 8 * 8) = none → WriteOpen s.dev who off →
    MakesTx (.registerWrite who a v) s s.dev) ∧
  (∀ (s : State) (who : Requester) (a : Word) (off : Nat) (r : Reg) (i : Nat), regOff a.toNat = some off → regAt (off / 8 * 8) = some (r, i) →
    WriteOpen s.dev who off → r.rcMask ≠ 0 → readsFree r = false →
      Makes (.rcFieldRead who a) s (wr s.dev r i (rd s.dev r i &&& ~~~ r.rcMask))) ∧
  (∀ (s : State) (n : Fin 32) (a : Word) (off : Nat) (r : Reg) (i : Nat), regOff a.toNat = some off → regAt (off / 8 * 8) = some (r, i) →
    lnGrant s.dev n.val off = true → pathUp s.dev off = true → regWay s.dev off = .open_ → FirstOnPath s.dev (.core n) → readsFree r = false →
      Makes (.rcFieldRead (.core n) a) s s.dev) ∧
  (∀ (s : State) (q : Packet) (qs : List Packet) (r : Reg) (i : Nat), s.dev.link.rxReg = q :: qs → q.ty = 0x10 →
    pathUp s.dev (q.addr - 0xF000000000) = true → regWayOf s.dev q.woke (q.addr - 0xF000000000) = .open_ →
    regAt ((q.addr - 0xF000000000) / 8 * 8) = some (r, i) → r.rcMask = 0 → readsFree r = false →
      MakesTx .regRd s { s.dev with link := { s.dev.link with
        rxReg := qs, oweNP := s.dev.link.oweNP + pktCost q.data.length
        txq := s.dev.link.txq ++ [{ ty := 4, len := 8, tag := q.tag, addr := 8, data := toLE 8 (regLive s.dev r i).toNat }] } }) ∧
  (∀ (s : State) (q : Packet) (qs : List Packet) (i : Nat) (r : Reg), s.dev.link.rxReg = q :: qs → q.ty = 0x11 →
    pathUp s.dev (q.addr - 0xF000000000) = true → regWayOf s.dev q.woke (q.addr - 0xF000000000) = .open_ →
    regAt ((q.addr - 0xF000000000) / 8 * 8) = some (r, i) → r ∉ writesAct →
      MakesTx .regWr s (wr { s.dev with link := { s.dev.link with rxReg := qs, oweP := s.dev.link.oweP + pktCost q.data.length } } r i
        (accessWrite r (rd s.dev r i) (BitVec.ofNat 40 (leAt q.data 0 5)))))) ∧
  (∀ (s : State) (who : Requester) (v : Word),
    let d := s.dev
    (WriteOpen d who 0x200000 → fld d .ringCtrl 0 16 16 = 0 → bitOf v.toNat 16 = 1 →
      ∃ t, exec (.ringEnableWrite who v) s = .next t ∧ fld t.dev .ringCtrl 0 16 16 = 1 ∧
        (port t.dev 0).summary = ((rd d .port0SummaryLo 0).toNat + fld d .port0SummaryHi 0 23 0 * 2 ^ 40) / 64 * 64 ∧
        (port t.dev 0).roster = ((rd d .port0RosterLo 0).toNat + fld d .port0RosterHi 0 23 0 * 2 ^ 40) / 64 * 64) ∧
    (WriteOpen d who 0xB00000 → Makes (.shuntArbWrite who v) s (wr d .shuntCtrl 0 (accessWrite .shuntCtrl (rd d .shuntCtrl 0) v))) ∧
    (∀ n : Fin 32, WriteOpen d who (coreOff n.val 0) → bitOf v.toNat 3 = 1 →
      ∃ t, exec (.coreResetWrite who n v) s = .next t ∧ (core t.dev n.val).st = (if bitOf v.toNat 2 = 1 then .running else .held) ∧
        (core t.dev n.val).pc = (rd d .coreResetPc n.val).toNat ∧ levelOf (core t.dev n.val) = 0 ∧ (∀ i, xget (core t.dev n.val) i = 0) ∧
        qual (core t.dev n.val) 0 = BitVec.allOnes 64 ∧ (core t.dev n.val).loads = [] ∧ (core t.dev n.val).stores = []) ∧
    (∀ n : Fin 32, WriteOpen d who (coreOff n.val 0) → bitOf v.toNat 3 = 0 → bitOf v.toNat 2 = 1 → (core d n.val).st = .held →
      ∃ t, exec (.coreRunWrite who n v) s = .next t ∧ (core t.dev n.val).st = .running ∧ (core t.dev n.val).pc = (rd d .coreResetPc n.val).toNat) ∧
    (∀ n : Fin 32, WriteOpen d who (coreOff n.val 0) → bitOf v.toNat 3 = 0 → bitOf v.toNat 2 = 0 → (core d n.val).st ≠ .held →
      ∃ t, exec (.coreRunWrite who n v) s = .next t ∧ (core t.dev n.val).st = .held ∧ (∀ i, xget (core t.dev n.val) i = 0)) ∧
    (∀ n : Fin 32, WriteOpen d who (coreOff n.val 0x10) →
      ∃ t, exec (.coreMsgWrite who n v) s = .next t ∧ 0x14 ∈ (core t.dev n.val).pend ∧
        rd t.dev .coreMsg n.val = accessWrite .coreMsg (rd d .coreMsg n.val) v))

/-! ## Consists and the Dispatcher -/

/-- The life of a Consist: a Rake that is ready takes its kernels, the domains' readiness carries out the claims of a Timetable without any, the start
digest is taken, the seeds are offered or the Consist runs at once, one with nothing left signs or completes, one past its watchdog records TIMEOUT,
and a terminating event discards its Wagons and completes its RUN_CONSIST with the event's status; a kernel's image bytes stand in the instruction
memory of each of its cores after the copy (R98, R99, R154, R161, R163, R169 to R172).
It rests on the model's choices of log entry 27. -/
def Obligations.ConsistRows : Prop :=
  (∀ (s : State) (c : ConsistIx) (k : Consist), k = consist s.dev c.val → k.valid = true →
    let d := s.dev
    (∀ r : Fin 8, k.ph = .starting → k.params.isSome = true → readsOf d (fun o => decide (o = .params c.val)) = [] → r.val ∉ k.rakes →
      r.val ∈ copyRakes d c.val k → domOn d (4 + r.val) = true → QueuesFree d →
        ∃ t, exec (.consistRakeReady c r) s = .next t ∧ (consist t.dev c.val).rakes = sins k.rakes r.val ∧ (consist t.dev c.val).ph = .starting) ∧
    (running d = true → k.ph = .starting → k.carved = false → k.claimCount = 0 → k.carving = none → allOn d (consistDoms d k.domains) = true →
      Makes (.consistDomainsReady c) s (setConsist d c.val { k with carved := true })) ∧
    (k.ph = .starting → k.attest = true → k.startDigest = none → imageFault d (imageOf k) 0 k.bytes = none → QueuesFree d →
      let u := imageLook d (imageOf k) 0 k.bytes
      Makes (.startDigestDone c) s (setConsist u c.val { k with startDigest := some (imageDigest (imageRead u (imageOf k) 0 k.bytes)) })) ∧
    (k.ph = .starting → k.event = 0 → startDone d c.val k = true → k.seedsOut = false → readsOf d (fun o => decide (o = .params c.val)) = [] →
      (k.seedCount = 0 → k.held = [] → Makes (.consistSeedPlacement c) s (setConsist d c.val { k with seedsOut := true, ph := .running })) ∧
      (k.seedCount ≠ 0 → imageFault d (imageOf k) k.seedOff (64 * ceilDiv k.seedCount 3) = none → QueuesFree d →
        let u := imageLook d (imageOf k) k.seedOff (64 * ceilDiv k.seedCount 3)
        ∃ t, exec (.consistSeedPlacement c) s = .next t ∧ (consist t.dev c.val).seedsOut = true ∧ (consist t.dev c.val).ph = .starting ∧
          t.dev.disp.offers = d.disp.offers ++ ((List.range k.seedCount).map (fun i => { prod := .seed c.val, w := seedAt u c.val k i, time := d.cc }) ++
            k.held.map (fun h => { prod := .ingest h.1, w := h.2, time := d.cc })))) ∧
    (k.ph = .running → k.event = 0 → consistIdle d c.val k = true →
      (k.attest = false → Makes (.consistFinish c) s
        (finish (setConsist d c.val { k with ph := .completing }) k.cmd (b2n k.truncated) (consistResult c.val k false))) ∧
      (k.attest = true → Makes (.consistFinish c) s
        { setConsist d c.val { k with ph := .signing } with sbox := { d.sbox with signQ := d.sbox.signQ ++ [.attest c.val] } })) ∧
    (k.watchdog ≠ 0 → k.watchdog < k.ms → (k.ph = .starting ∨ k.ph = .running) → k.event = 0 →
      ∃ t, exec (.consistWatchdog c) s = .next t ∧ consist t.dev c.val = { k with event := 0x0D, evResult := 0, eventAt := d.cc }) ∧
    (∀ x : Cmd, k.event ≠ 0 → k.ph ≠ .completing → k.work = 0 → cmdOf d k.cmd = some x →
      ∃ t y, exec (.terminatingEvent c) s = .next t ∧ (consist t.dev c.val).ph = .completing ∧ cmdOf t.dev k.cmd = some y ∧
        y.st = .done k.event (if k.event = 8 ∨ k.event = 0x0D then consistResult c.val k false else k.evResult) ∧
        (∀ o ∈ t.dev.disp.offers, wConsist o.w ≠ c.val) ∧ (∀ st, st < 64 → (rlist t.dev (listKey c.val st)).chip = []) ∧
        (∀ h ∈ t.dev.disp.resultQ, wConsist h.w ≠ c.val))) ∧
  (∀ (d : Dev) (c r : Nat) (k : Consist) (st j i : Nat), d.badUnits = [] → CacheSound d → Memory.wf d.mem = true →
    let m := imageOf k
    let at_ := bitsOf (descWord d m st 2) 15 0
    let s1 := descWord d m st 1
    let n := min (min 65536 (bitsOf s1 56 40)) (65536 - at_)
    descFault d m st = none → imageFault d m (bitsOf s1 39 0) n = none → bitsOf (descWord d m st 3) 44 44 = 0 →
      j ∈ rakeCores (bitsOf (descWord d m st 0) 63 32) r → j < 32 → i < n →
        memByte (copyStage d c r k st) (imemBase j + at_ + i) = ((imageRead d m (bitsOf s1 39 0) n)[i]?).getD 0)

/-- The Dispatcher takes Wagons in while nothing waits in the queues of GDDR6: one of no running Consist is discarded and counted, one for a kernel
stage joins its list at the tail, or goes to the list's Siding where it must, a keyed one under the flow that the Points Table gives its key, one for
the result stage joins the result path, one that a younger Wagon of an ORDERED stage emits is held, or stalls without a pool entry, and one that finds
neither room nor Siding stalls until there is room; an operator core that waits for its EMITW goes on (R160, R180 to R185, R190, R196). Lists and
flows move while nothing waits in the queues of GDDR6: of two Wagons the earlier is taken, or the one whose producer goes first; a spilled one comes
back on chip; a flow's spill entry restores its core; the turn of an only list hands its oldest Wagon to the longest waiting candidate, one of an
ORDERED stage with an entry of its window, or wakes the candidate's Rake; one of an ATOMIC stage whose hold has ended migrates; a delivered Wagon
stands in X10 to X13 with the stage's WC registers and the key's cause 0x11; a release takes effect and offers what the next of the window held;
result rows are read, copied and counted (R97, R167, R179, R184, R187 to R189, R191, R194 to R196, R198, R219, R221, R425).
It rests on the model's choices of log entry 4. -/
def Obligations.DispatcherRows : Prop :=
  (∀ (s : State) (o : Offer) (k : Consist), k = consist s.dev (wConsist o.w) → dispUp s.dev = true → QueuesFree s.dev → s.dev.disp.offers = [o] →
    let d := s.dev
    let dz := dropOffer d o
    let key := listKey (wConsist o.w) (wStage o.w)
    let l := rlist d key
    let live := k.valid = true ∧ (k.ph = .starting ∨ k.ph = .running) ∧ k.event = 0
    let fits := live ∧ (∀ n x y, o.prod = .core n → n < 32 ∧ windowPlace d n ≠ some (x, y, false))
    let goesOn := fun (t : State) => ∀ n, o.prod = .core n → (core d n).st = .emitw →
      (core t.dev n).st = .running ∧ (core t.dev n).pc = ((core d n).pc + 4) % 2 ^ 40
    let joins := fun (t : State) (w : Wagon) => t.dev.disp.offers = [] ∧ rd t.dev .dispCnt 0 = satAdd (rd d .dispCnt 0) 1 ∧
      (rlist t.dev key).chip.map (fun x => x.w) = l.chip.map (fun x => x.w) ++ [w] ∧ goesOn t
    (o.stalled = false → k.valid = false → (∀ n, o.prod = .core n → n < 32) → ∃ t, exec .wagonAcceptance s = .next t ∧ t.dev.disp.offers = [] ∧
      t.dev.disp.lists = d.disp.lists ∧ rd t.dev .dispCnt 6 = satAdd (rd d .dispCnt 6) 1 ∧ goesOn t) ∧
    (o.stalled = false → fits → wStage o.w ≠ k.resultStage → (o.key = none ∨ l.ptBits = 0) → mustSpill dz l = false →
      ∃ t, exec .wagonAcceptance s = .next t ∧ joins t o.w) ∧
    (∀ v off, o.stalled = false → fits → wStage o.w ≠ k.resultStage → o.key = some v → l.ptBits ≠ 0 → off = l.ptOff + 2 * (h40 v % 2 ^ l.ptBits) →
      imageFault d (imageOf k) off 2 = none → mustSpill dz l = false →
        ∃ t, exec .wagonAcceptance s = .next t ∧ joins t (wSetFlow o.w (imageNat d (imageOf k) off 2))) ∧
    (o.stalled = false → fits → wStage o.w ≠ k.resultStage → o.key = none → mustSpill dz l = true → mustStall dz l = false →
      gddrOut d k.port (l.sidingBase + 64 * (l.written % sidingCap l / 3)) 64 = none →
        ∃ t, exec .wagonAcceptance s = .next t ∧ t.dev.disp.offers = [] ∧ (rlist t.dev key).written = l.written + 1 ∧ (rlist t.dev key).spilled = true ∧
          (rlist t.dev key).chip = l.chip ∧ rd t.dev .dispCnt 4 = satAdd (rd d .dispCnt 4) 1 ∧ goesOn t) ∧
    (o.stalled = false → fits → wStage o.w = k.resultStage →
      ∃ t, exec .wagonAcceptance s = .next t ∧ t.dev.disp.offers = [] ∧
        t.dev.disp.resultQ = d.disp.resultQ ++ [{ w := o.w, core := match o.prod with | .core n => some n | _ => none }]) ∧
    (∀ n j x, o.stalled = false → live → o.prod = .core n → n < 32 → windowPlace d n = some (j, x, false) → o.key = none →
      (16384 ≤ poolUsed d → Makes .wagonAcceptance s { d with disp := { d.disp with offers := [{ o with stalled := true }] } }) ∧
      (poolUsed d < 16384 → ∃ t, exec .wagonAcceptance s = .next t ∧ t.dev.disp.offers = [] ∧ t.dev.disp.lists = d.disp.lists ∧
        window t.dev j = (window d j).map (fun e => if e.serial = x then
          { e with held := e.held ++ [{ w := o.w, core := if wStage o.w = k.resultStage then some n else none }] } else e) ∧
        (wStage o.w ≠ k.resultStage → goesOn t))) ∧
    (o.stalled = false → fits → wStage o.w ≠ k.resultStage → mustStall dz l = true →
      Makes .wagonAcceptance s { d with disp := { d.disp with offers := [{ o with stalled := true }] } }) ∧
    (o.stalled = true → fits → wStage o.w ≠ k.resultStage → o.key = none → mustSpill dz l = false →
      ∃ t, exec .producerStallRelease s = .next t ∧ joins t o.w)) ∧
  (∀ s : State, dispUp s.dev = true → QueuesFree s.dev →
    let d := s.dev
    (∀ a b : Offer, d.disp.offers = [a, b] → a.stalled = false → b.stalled = false → sameLine d b a = false →
      (∀ o ∈ [a, b], (consist d (wConsist o.w)).valid = false ∧ ∀ n, o.prod = .core n → n < 32) →
        ∃ t, exec .wagonAcceptance s = .next t ∧ t.dev.disp.offers =
          if b.time < a.time ∨ (b.time = a.time ∧ prodRank b.prod < prodRank a.prod) then [a] else [b]) ∧
    (∀ (c : ConsistIx) (st : Fin 64) (l : ReadyList), l = rlist d (listKey c.val st.val) → (consist d c.val).valid = true → (consist d c.val).event = 0 →
      l.spilled = true → l.written = l.moved + 1 → 0 < sidingCap l → l.chip.length < listCap d / 2 → poolUsed d < 16384 →
      gddrOut d (consist d c.val).port (l.sidingBase + 64 * (l.moved % sidingCap l / 3)) 64 = none →
      rawBadLine d (l.sidingBase + 64 * (l.moved % sidingCap l / 3)) 64 = none →
        let w := fun j => BitVec.ofNat 40 (rawNat d (l.sidingBase + 64 * (l.moved % sidingCap l / 3) + 20 * (l.moved % sidingCap l % 3) + 5 * j) 5)
        ∃ t, exec (.sidingMove c st) s = .next t ∧ (rlist t.dev (listKey c.val st.val)).moved = l.written ∧
          (rlist t.dev (listKey c.val st.val)).spilled = false ∧
          (rlist t.dev (listKey c.val st.val)).chip.map (fun x => x.w) = l.chip.map (fun x => x.w) ++ [{ w0 := w 0, w1 := w 1, w2 := w 2, w3 := w 3 }]) ∧
    (∀ c st f a rest, d.disp.flowReads = (c, st, f, a) :: rest → rawBadLine d a 8 = none → flowOf d c st f = none → d.disp.flows.length < 4096 →
      bitOf (rawNat d a 8) 37 = 1 → rawNat d a 8 % 2 ^ 32 = flowTag c st f →
        Makes .flowSpillReadReturn s { d with disp := { d.disp with
          flowReads := rest, flows := { c := c, s := st, f := f, last := some (bitsOf (rawNat d a 8) 36 32), inServ := false } :: d.disp.flows } }) ∧
    (∀ k l lw rest n ns, d.disp.lists = [(k, l)] → l.valid = true → (l.order = 0 ∨ l.order = 2 ∧ (window d k).length < 256 ∧ windowUsed d < 4096) →
      l.chip = lw :: rest → candidates d k l = n :: ns → lastCore d (k / 64) (k % 64) (wFlow lw.w) = none →
        (domOn d (coreDom n) = true →
          ∃ t, exec .handOver s = .next t ∧ (rlist t.dev k).chip.map (fun x => x.w) = rest.map (fun x => x.w) ∧
            (∀ e ∈ t.dev.disp.waiting, e.1 ≠ n) ∧ t.dev.disp.delivering = d.disp.delivering ++ [{ w := lw.w, core := n, serial := d.disp.serial }] ∧
            t.dev.disp.service = d.disp.service ++ [{ w := lw.w, core := n, serial := d.disp.serial }] ∧
            window t.dev k = window d k ++ (if l.order = 2 then [{ core := n, serial := d.disp.serial }] else [])) ∧
        (domOn d (coreDom n) = false →
          ∃ t, exec .handOver s = .next t ∧ (rlist t.dev k).chip.map (fun x => x.w) = l.chip.map (fun x => x.w) ∧
            t.dev.disp.delivering = d.disp.delivering ∧ t.dev.disp.waiting = d.disp.waiting)) ∧
    (∀ (c : ConsistIx) (st : Fin 64) l lw rest n ns q e, d.disp.lists = [(listKey c.val st.val, l)] → l.valid = true → l.order = 1 → l.chip = lw :: rest →
      candidates d (listKey c.val st.val) l = n :: ns → flowBusy d c.val st.val (wFlow lw.w) = false → lastCore d c.val st.val (wFlow lw.w) = some q →
      bitOf l.cores q = 1 → q ∉ n :: ns → lw.eligible = some e → e + l.affHold ≤ d.cc → domOn d (coreDom n) = true →
        ∃ t, exec (.affinityHoldExpiry c st) s = .next t ∧ (rlist t.dev (listKey c.val st.val)).chip.map (fun x => x.w) = rest.map (fun x => x.w) ∧
          t.dev.disp.delivering = d.disp.delivering ++ [{ w := lw.w, core := n, serial := d.disp.serial }] ∧
          lastCore t.dev c.val st.val (wFlow lw.w) = some n ∧ rd t.dev .dispCnt 3 = satAdd (rd d .dispCnt 3) 1) ∧
    (∀ (n : Fin 32) (v : Service), let k := consist d (wConsist v.w)
      let m := imageOf k
      let dw := fun j => descWord d m (wStage v.w) j
      let key := listKey (wConsist v.w) (wStage v.w)
      d.disp.delivering = [v] → v.core = n.val → domOn d (coreDom n.val) = true → (core d n.val).st = .waitw → (core d n.val).loads = [] → levelOf (core d n.val) = 0 →
      imageFault d m (256 + 128 * wStage v.w) 64 = none →
        ∃ t, exec (.wagonDelivery n) s = .next t ∧ (core t.dev n.val).st = .running ∧ t.dev.disp.delivering = [] ∧
          xget (core t.dev n.val) 10 = v.w.w0 ∧ xget (core t.dev n.val) 11 = v.w.w1 ∧ xget (core t.dev n.val) 12 = v.w.w2 ∧
          xget (core t.dev n.val) 13 = v.w.w3 ∧ csrGet (core t.dev n.val) 0x048 = BitVec.ofNat 40 (bitsOf (dw 2) 31 16) ∧
          csrGet (core t.dev n.val) 0x049 = wcPs (dw 3) ∧ csrGet (core t.dev n.val) 0x04A = wcYard (dw 4) ∧
          csrGet (core t.dev n.val) 0x04B = BitVec.ofNat 40 k.snapshot ∧ csrGet (core t.dev n.val) 0x04C = BitVec.ofNat 40 k.port ∧
          (core t.dev n.val).curkey = some key ∧
          ((core d n.val).curkey = some key → (core t.dev n.val).pc = ((core d n.val).pc + 4) % 2 ^ 40) ∧
          ((core d n.val).curkey ≠ some key → csrGet (core t.dev n.val) 0x013 = 0x11 ∧
            csrGet (core t.dev n.val) 0x010 = BitVec.ofNat 40 ((core d n.val).pc + 4) ∧ qual (core t.dev n.val) 0 = BitVec.allOnes 64 ∧
            levelOf (core t.dev n.val) = 1)) ∧
    (∀ v vs, d.disp.releasing = v :: vs →
      ∃ t, exec .wagonReleaseEffect s = .next t ∧ (∀ x ∈ t.dev.disp.service, x.serial ≠ v.serial ∧ x ∈ d.disp.service) ∧
        (∀ x ∈ t.dev.disp.releasing, x.serial ≠ v.serial) ∧
        (∀ (e f : WinEntry), let k := listKey (wConsist v.w) (wStage v.w)
          window d k = [e, f] → e.serial = v.serial → e.held = [] → f.serial ≠ v.serial → f.released = false → (∀ h ∈ f.held, h.core = none) →
          d.disp.offers = [] → window t.dev k = [{ f with held := [] }] ∧
            t.dev.disp.offers = f.held.map (fun h => { prod := .window k f.core, w := h.w, serial := f.serial, time := d.cc }))) ∧
    (∀ h rest, let c := wConsist h.w
      let k := consist d c
      let a := h.w.w2.toNat
      let n := wRows h.w * k.rowBytes
      let p := min n (1024 - a % 64)
      let d0 := { d with disp := { d.disp with resultQ := rest } }
      d.disp.resultQ = h :: rest → h.core = none → h.copied = 0 → k.valid = true → k.event = 0 → allOn d (resultDoms d h.w) = true → 0 < k.rowBytes →
      k.truncated = false → k.written.length + n ≤ k.resultBytes → resultReach d k a p = p →
        (lineReads d .result = [] → a < 0x1000000000 → 0 < n → MakesTx .resultPathCopy s (askLines d .result 50 k.port none [(a, p)])) ∧
        (∀ e bs, fetchLines d0 .result 50 k.port none [(a, p)] = .got e bs → bs.length = p →
          spaceOut d k.port k.resultHost (k.result + k.written.length) p = none →
            (p = n → ∃ t, exec .resultPathCopy s = .next t ∧ t.dev.disp.resultQ = rest ∧ (consist t.dev c).rows = k.rows + wRows h.w ∧
              (consist t.dev c).written = k.written ++ bs ∧ (consist t.dev c).truncated = false) ∧
            (p < n → ∃ t, exec .resultPathCopy s = .next t ∧ t.dev.disp.resultQ = { h with copied := p } :: rest ∧
              (consist t.dev c).rows = k.rows ∧ (consist t.dev c).written = k.written ++ bs))))

/-! ## The Plane Scanners and the Hump -/

/-- A scanner decides a row only where every value that its planes still leave open gives the predicate one result: EQ, NE, LT, LE, GT, GE against C0,
BETWEEN C0 and C1, and IN the listed constants (R267, R271).
It rests on the model's choices of log entry 60. -/
def Obligations.PlanesDecideRows : Prop :=
  ∀ (st : ScanStep) (lo hi v : Nat) (b : Bool), scanDecide st lo hi = some b → lo ≤ v → v ≤ hi →
    let c := fun i => (st.consts[i]?).getD 0
    (st.pred = 0 → (b = true ↔ v = c 0)) ∧ (st.pred = 1 → (b = true ↔ v ≠ c 0)) ∧ (st.pred = 2 → (b = true ↔ v < c 0)) ∧
    (st.pred = 3 → (b = true ↔ v ≤ c 0)) ∧ (st.pred = 4 → (b = true ↔ c 0 < v)) ∧ (st.pred = 5 → (b = true ↔ c 0 ≤ v)) ∧
    (st.pred = 6 → (b = true ↔ c 0 ≤ v ∧ v ≤ c 1)) ∧ (st.pred = 7 → (b = true ↔ ∃ i, i < st.nvals ∧ c i = v))

/-- A Plane Scanner captures the next ring, or drops it, counts it and records why where it names no Wagon or no Consist that takes work; a program
starts once the one before has opened its last segment; a segment opens with a read of the first line that its steps need, and a line that its slice
has served is counted and carries its segment on; a program whose last bitmap line is written writes SELECTED, LINES and DONE and ends (R262 to R265,
R271 to R275, R277, R278). The Hump captures the next ring into its job queue; the oldest job starts on an idle Hump with no stalled Wagon; the next
line is read, and once its slice has served it taken, in pass 0 behind the elements that wait for their run, and the write engine writes what it
gives; the next merge pass starts after the one before, its two trees at the two ends of the first group, or under TOP_N at groups 0 and 1; and a job
that has written its last line completes its SORT with the pairs written, or writes WRITTEN and DONE at its header line (R84, R307 to R311, R313,
R314, R316).
It rests on the model's choices of log entries 61, 63, 66, 132. -/
def Obligations.PlaneAndHumpRows : Prop :=
  (∀ (s : State) (m : Fin 16),
    let d := s.dev
    let p := plane d m.val
    (∀ r, running d = true → domOn d (4 + m.val / 2) = true → nextRing p.arriving = some r → dropReason d r = 0 →
      Makes (.planeRingCapture m) s (setPlane d m.val { p with arriving := p.arriving.erase r, queue := p.queue ++ [r] })) ∧
    (∀ r c, running d = true → domOn d (4 + m.val / 2) = true → nextRing p.arriving = some r →
      (r.consist = none ∧ c = 0 ∨
        (∃ k, r.consist = some k ∧ c = 1 + k % 1024 ∧
          ((consist d k).valid = false ∨ (consist d k).event ≠ 0 ∨ ((consist d k).ph ≠ .starting ∧ (consist d k).ph ≠ .running)))) →
      ∃ t, exec (.planeRingCapture m) s = .next t ∧ plane t.dev m.val = { p with arriving := p.arriving.erase r } ∧
        rd t.dev .planeCnt (m.val * 4 + 3) = satAdd (rd d .planeCnt (m.val * 4 + 3)) 1 ∧
        (fld d .planeErr m.val 39 39 = 0 → rd t.dev .planeErr m.val = BitVec.ofNat 40 (2 ^ 39 + r.core % 2 * 2 ^ 31 +
          (if c = 0 then 2 ^ 32 else 2 * 2 ^ 32 + (c - 1) * 2 ^ 21)))) ∧
    (∀ r rs, running d = true → p.queue = r :: rs → (∀ g ∈ p.progs, g.segs ≤ g.next) → allOn d (needDoms d (storeBase r.core + 64 * r.line)) = true →
      memUp d (storeBase r.core + 64 * r.line) = true →
      (∀ n, n ≤ 576 → firstBadLine d (storeBase r.core + 64 * r.line) n = none) →
      (∀ n, n ≤ 576 → reachOut d { stores := [r.core] } (storeBase r.core + 64 * r.line) n = none) →
        Makes (.planeProgramStart m) s (setPlane d m.val { p with
          queue := rs, progs := p.progs ++ [{ parseScan d r with num := p.started }], started := p.started + 1 })) ∧
    (∀ (g : ScanProg) (x : ScanSeg) (l : ScanLine) (u : Nat) (st : ScanStep), running d = true → domOn d (4 + m.val / 2) = true →
      p.progs = [g] → g.next < g.segs → g.opened = [] → wagonStalled d (.scanner m.val) = false →
      scanRun g.rows g.steps 9 { s := g.next } 0 = (x, some l, u) → g.steps[x.step]? = some st → scanNeeds g.rows st x = some l →
      reachOut d (ringReach g.ring (scanPair m.val)) (scanLineAddr st x l) 64 = none →
        ∃ t, exec (.planeSegmentOpen m) s = .next t ∧ (plane t.dev m.val).queue = p.queue ∧
          (plane t.dev m.val).progs = [{ g with next := g.next + 1, opened := [{ x with flight := some l }] }] ∧
          (scanLineAddr st x l < 0x1000000000 → ∃ q ∈ lineReads t.dev (.scan m.val g.num g.next), q.addr = scanLineAddr st x l)) ∧
    (∀ (g : ScanProg) (x : ScanSeg) (l : ScanLine) (st : ScanStep) (e : Dev) (bs : List Byte), running d = true → p.progs = [g] → g.opened = [x] →
      x.flight = some l → g.steps[x.step]? = some st → allOn d (needDoms d (scanLineAddr st x l)) = true → memUp d (scanLineAddr st x l) = true →
      QueuesFree d → fetchLines d (.scan m.val g.num x.s) (32 + m.val) g.ring.port g.ring.consist [(scanLineAddr st x l, 64)] = .got e bs →
        Makes (.planeLineArrival m 0) s
          (scanOn (bump (setProg e m.val 0 { g with lines := g.lines + 1 }) .planeCnt (m.val * 4 + 1)) m.val 0 { g with lines := g.lines + 1 }
            (scanTake x l (ofLE bs)))) ∧
    (∀ (g : ScanProg) (gs : List ScanProg), running d = true → p.progs = g :: gs → g.segs ≤ g.next → g.opened = [] →
      allOn d (needDoms d (storeBase g.ring.core + 64 * g.ring.line)) = true → d.badUnits = [] → d.cache.stale = [] → d.cache.sets = [] →
        ∃ t, exec (.planeProgramComplete m) s = .next t ∧ (plane t.dev m.val).progs = gs ∧
          memNat t.dev (storeBase g.ring.core + 64 * g.ring.line + 40) 5 = g.selected % 2 ^ 40 ∧
          memNat t.dev (storeBase g.ring.core + 64 * g.ring.line + 45) 5 = g.lines % 2 ^ 40 ∧
          memNat t.dev (storeBase g.ring.core + 64 * g.ring.line + 50) 5 = 1)) ∧
  (∀ s : State,
    let d := s.dev
    let h := d.hump
    (∀ r, humpUp d = true → nextRing h.arriving = some r → dropReason d r = 0 → h.rings = [] → h.cmds = [] → h.queue.length < 16 →
      Makes .humpRingCapture s { d with hump := { h with arriving := h.arriving.erase r, queue := h.queue ++ [.ring r] } }) ∧
    (∀ id c js, humpUp d = true → h.cur = none → wagonStalled d .hump = false → h.queue = .cmd id :: js → h.rings = [] → h.cmds = [] → cmdOf d id = some c →
      MakesTx .humpJobStart s { d with hump := { h with queue := js, cur := some (cmdJob c) } }) ∧
    (∀ r js line, line = storeBase r.core + 64 * r.line → humpUp d = true → h.cur = none → wagonStalled d .hump = false → h.queue = .ring r :: js →
      h.rings = [] → h.cmds = [] → allOn d (needDoms d line) = true → memUp d line = true → firstBadLine d line 64 = none →
        MakesTx .humpJobStart s { d with hump := { h with queue := js, cur := some (ringJob d r) } }) ∧
    (∀ j m a put, humpUp d = true → h.cur = some j → h.pend = [] → j.passDone = false → humpNext j = some (m, a, put) → humpOut d j a 64 = none →
      allOn d (needDoms d (humpAddr j a)) = true → memUp d (humpAddr j a) = true →
        (lineReads d (.hump m) = [] → humpAddr j a < 0x1000000000 →
          MakesTx .humpLineArrival s (askLines d (.hump m) 49 j.port (humpConsist j) [(humpAddr j a, 64)])) ∧
        (∀ e bs, QueuesFree d → fetchLines d (.hump m) 49 j.port (humpConsist j) [(humpAddr j a, 64)] = .got e bs →
          MakesTx .humpLineArrival s (humpEngine (put e bs)) ∧
          (∀ n, n = min 12 (inElems j - 12 * j.lines) → j.pass = 0 → j.buf.length + n < pairWords j * min 4096 (j.pairs - 4096 * j.part) →
            ∃ t, exec .humpLineArrival s = .next t ∧
              t.dev.hump.cur = some { j with lines := j.lines + 1, buf := j.buf ++ lineElems bs n }))) ∧
    (∀ j, humpUp d = true → h.cur = some j → h.pend = [] → j.passDone = true → j.pass < mergePasses j → j.pairs ≠ 0 →
      ∃ t t0 t1, exec .humpPassStart s = .next t ∧ t.dev.hump.cur = some { j with pass := j.pass + 1, passDone := false, trees := [t0, t1] } ∧
        t0.group = 0 ∧ t0.back = false ∧ (topOn j = true → t1.group = 1 ∧ t1.back = false) ∧ (topOn j = false → t1.group = 0 ∧ t1.back = true)) ∧
    (∀ j id, humpUp d = true → h.cur = some j → h.pend = [] → j.passDone = true → (j.pairs = 0 ∨ j.pass = mergePasses j) → j.src = .cmd id →
      MakesTx .humpJobComplete s (finish (bump { d with hump := { h with cur := none } } .humpCnt 0) id 0
        ((if j.top = 0 ∨ j.pairs ≤ j.top then j.pairs else j.top) % 2 ^ 40))) ∧
    (∀ j r line, line = storeBase r.core + 64 * r.line → humpUp d = true → h.cur = some j → h.pend = [] → j.passDone = true → (j.pairs = 0 ∨ j.pass = mergePasses j) →
      j.src = .ring r → allOn d (needDoms d line) = true → d.badUnits = [] → d.cache.stale = [] → d.cache.sets = [] →
        ∃ t, exec .humpJobComplete s = .next t ∧ t.dev.hump.cur = none ∧ rd t.dev .humpCnt 0 = satAdd (rd d .humpCnt 0) 1 ∧
          memNat t.dev (line + 55) 5 = topCut j j.pairs % 2 ^ 40 ∧ memNat t.dev (line + 50) 5 = 1))

/-- The Hump's order: the sort of a run of pass 0 keeps every pair, no pair stands before one that leaves before it, and without FAST pairs of equal
keys keep their order; and of the runs of a group whose next pairs have arrived a merge tree takes, from the front, one that no other leaves before,
and from the back one that leaves before no other, without FAST the first, or the last, of equal keys in the input (R304, R305, R309).
It rests on the model's choices of log entry 66. -/
def Obligations.HumpSorts : Prop :=
  (∀ (j : HJob) (ps : List HPair), (sortPairs j ps).Perm ps ∧
    ((∀ p ∈ ps, p.1.length = j.words + 1) → (sortPairs j ps).Pairwise (fun a b => pairFirst j b a = false) ∧
      (j.fast = false → ∀ k : List Nat, (sortPairs j ps).filter (fun p => decide (pairKey j p = k)) = ps.filter (fun p => decide (pairKey j p = k))))) ∧
  (∀ (j : HJob) (t : HTree) (r : HRun), headRun j t = some r → (∀ b ∈ t.runs, b.taken < b.size → pairWords j ≤ b.buf.length) →
    let key := fun (b : HRun) => ((b.head j t.back).2.take j.words).map Prod.fst
    let before := fun x y => if j.desc then keyLess y x else keyLess x y
    r ∈ t.runs ∧ r.taken < r.size ∧ ∀ b ∈ t.runs, b.taken < b.size →
      (t.back = false → before (key b) (key r) = false ∧ (j.fast = false → key b = key r → (r.head j t.back).1 ≤ (b.head j t.back).1)) ∧
      (t.back = true → before (key r) (key b) = false ∧ (j.fast = false → key b = key r → (b.head j t.back).1 ≤ (r.head j t.back).1)))

/-! ## The Junction -/

/-- The winner of a search: of the matching entries the one of the largest PRIORITY, and of those the lowest entry number (R281). -/
def Obligations.JunctionWinner : Prop :=
  ∀ (ms : List (Nat × JEntry)), ms.Pairwise (fun a b => a.1 < b.1) →
    (winnerOf ms = none ↔ ms = []) ∧
    ∀ w, winnerOf ms = some w → w ∈ ms ∧ ∀ e ∈ ms, e.2.prio ≤ w.2.prio ∧ (e.2.prio = w.2.prio → w.1 ≤ e.1)

/-- The Junction captures the next ring; the first checked command enters the program queue before a captured ring, whose header is read then; the
oldest program that is free to start becomes active with its table's descriptor and asks for its first line; a line that has come is taken up as a
record or as keys; a slot writes a waiting record to its entry and the entry's copy, or gives the array's winner to a waiting search; a search result
is answered, an ADDRESS winner once its copy agrees with what its slot saw, and one that does not agree is counted and goes to its repair; and a
finished program completes its command or writes TALLY and DONE (R84, R280 to R282, R284 to R286, R288, R289, R292 to R296, R302).
It rests on the model's choices of log entries 61, 63, 64, 65. -/
def Obligations.JunctionRows : Prop :=
  ∀ s : State,
    let d := s.dev
    let j := d.junc
    (∀ r, juncUp d = true → nextRing j.arriving = some r → dropReason d r = 0 →
      Makes .junctionRingCapture s { d with junc := { j with arriving := j.arriving.erase r, rings := j.rings ++ [r] } }) ∧
    (∀ id ids c, juncUp d = true → j.queue.length < 64 → j.cmds = id :: ids → cmdOf d id = some c →
      Makes .junctionQueueEntry s { d with junc := { j with cmds := ids, queue := j.queue ++ [cmdProg c j.nextNum], nextNum := j.nextNum + 1 } }) ∧
    (∀ r line, line = storeBase r.core + 64 * r.line → juncUp d = true → j.queue.length < 64 → j.cmds = [] → j.rings = [r] →
      allOn d (needDoms d line) = true → memUp d line = true → firstBadLine d line 64 = none →
      Makes .junctionQueueEntry s { d with junc := { j with rings := [], queue := j.queue ++ [ringProg d r j.nextNum], nextNum := j.nextNum + 1 } }) ∧
    (∀ p, juncUp d = true → j.active.length < 8 → wagonStalled d .junction = false → j.queue.find? (freeToStart d) = some p →
      MakesTx .junctionProgramStart s
        (jAsk { d with junc := { j with queue := j.queue.filter (fun q => decide (q.num ≠ p.num)), active := j.active ++ [withTable d p] } } (withTable d p))) ∧
    (∀ i p, juncUp d = true → j.active[i]? = some p → jReadyForLine d p = true → QueuesFree d →
      let take := fun (e : Dev) (bs : List Byte) => if p.upd then jTakeRecord e p bs else jTakeKeys e p bs
      let a := jLine p p.src_ (jNextLine p)
      (∀ e bs, p.srcHost = false → jOut d p false a 64 = none → allOn d (needDoms d a) = true → memUp d a = true →
        fetchLines d (.junc p.num) 48 p.port (jConsist p) [(a, 64)] = .got e bs → MakesTx (.junctionLineArrival i) s (take e bs)) ∧
      (∀ r rs, p.srcHost = true → readsOf d (jReads p) = r :: rs → r.st = .done →
        MakesTx (.junctionLineArrival i) s (take (dropReads d (jReads p)) r.got))) ∧
    (∀ p e v, juncUp d = true → scrubDue d = false → j.fixes = [] → j.retries = [] → j.active = [p] → p.keys = [] → p.srcHost = false →
      p.record = some (0, e, v) → e < 65536 →
        ∃ t, exec .junctionSlot s = .next t ∧ mget {} t.dev.junc.array e = v ∧ mget {} t.dev.junc.copy e = v ∧ t.dev.junc.slotNo = j.slotNo + 1 ∧
          t.dev.junc.active = [{ p with record := none, tally := p.tally + 1 }] ∧ rd t.dev .juncCnt 2 = satAdd (rd d .juncCnt 2) 1) ∧
    (∀ p k ks key, juncUp d = true → scrubDue d = false → j.fixes = [] → j.retries = [] → j.active = [p] → p.keys = k :: ks → k.key = some key →
      p.record = none → p.counts = false →
        ∃ t, exec .junctionSlot s = .next t ∧ t.dev.junc.slotNo = j.slotNo + 1 ∧ t.dev.junc.active = [{ p with keys := ks }] ∧
          t.dev.junc.flights = j.flights ++ [{ prog := p.num, idx := k.idx, key := key, winner := winnerOf (matchesOf d p key), matches_ := 0
                                               copy := match winnerOf (matchesOf d p key) with | some w => mget {} j.copy w.1 | none => {} }] ∧
          rd t.dev .juncCnt 0 = satAdd (rd d .juncCnt 0) 1) ∧
    (∀ i f p, juncUp d = true → j.flights[i]? = some f → j.active.find? (fun p => decide (p.num = f.prog)) = some p → QueuesFree d → p.counts = true →
      MakesTx (.junctionSearchResult i) s (jAnswer { d with junc := { j with flights := j.flights.eraseIdx i } } p f.idx
        (if f.matches_ = 0 then .miss else .count f.matches_))) ∧
    (∀ i f p, juncUp d = true → j.flights[i]? = some f → j.active.find? (fun p => decide (p.num = f.prog)) = some p → QueuesFree d → p.counts = false →
      (f.winner = none → MakesTx (.junctionSearchResult i) s (jAnswer { d with junc := { j with flights := j.flights.eraseIdx i } } p f.idx .miss)) ∧
      (∀ e seen, f.winner = some (e, seen) → e ∉ j.badCopy →
        (entryHit p.global p.gmask f.key f.copy = true → sameFields f.copy seen = true →
          MakesTx (.junctionSearchResult i) s (jAnswer { d with junc := { j with flights := j.flights.eraseIdx i } } p f.idx
            (.hit (e - p.base) f.copy.prio f.copy.payload))) ∧
        ((entryHit p.global p.gmask f.key f.copy = false ∨ sameFields f.copy seen = false) → f.again = false →
          MakesTx (.junctionSearchResult i) s (bump { d with junc := { j with
            flights := j.flights.eraseIdx i, fixes := j.fixes ++ [(e, { f with again := true })] } } .juncCnt 3)))) ∧
    (∀ i p id, juncUp d = true → j.active[i]? = some p → p.count ≤ p.next → jReadyForLine d { p with count := p.next + 1 } = true → p.src = .cmd id →
      MakesTx (.junctionProgramComplete i) s (finish (dropJProg d p) id 0 (if p.upd then p.tally % 2 ^ 17 else p.done % 2 ^ 40))) ∧
    (∀ i p r line, line = storeBase r.core + 64 * r.line → juncUp d = true → j.active[i]? = some p → p.count ≤ p.next →
      jReadyForLine d { p with count := p.next + 1 } = true → p.src = .ring r → allOn d (needDoms d line) = true → d.badUnits = [] →
      d.cache.stale = [] → d.cache.sets = [] →
        ∃ t, exec (.junctionProgramComplete i) s = .next t ∧ memNat t.dev (line + 55) 5 = p.tally % 2 ^ 40 ∧ memNat t.dev (line + 50) 5 = 1 ∧
          t.dev.junc.active = j.active.filter (fun q => decide (q.num ≠ p.num)))

/-! ## The Shunting Engine -/

/-- How programs of the Shunting Engine start and end: a ring is captured with its channel, a command move takes the lowest idle channel that CMD_MASK
allows, an idle channel takes the oldest captured ring that names it, a SERIAL channel runs when its turn has come, a program line is read once and
kept, END, an undefined opcode and line 64 end the program, an ended DMA_RUN completes with the bytes written, a kernel program writes WRITTEN and
DONE, and a change of ARB takes effect while every channel is idle (R23, R84, R341 to R344, R362, R364, R365).
It rests on the model's choices of log entries 61, 63. -/
def Obligations.ShuntPrograms : Prop :=
  ∀ (s : State),
    let d := s.dev
    let h := d.shunt
    (∀ r line, line = storeBase r.core + 64 * r.line → shuntUp d = true → nextRing h.arriving = some r → dropReason d r = 0 →
      allOn d (needDoms d line) = true → memUp d line = true → firstBadLine d line 5 = none →
        let k : ShRing := { ring := r, channel := bitsOf (slotAt d line 0) 3 0, noWagon := decide (bitOf (slotAt d line 0) 4 = 1) }
        Makes .shuntRingCapture s { d with shunt := { h with arriving := h.arriving.erase r, rings := h.rings ++ [k] } }) ∧
    (∀ id ids c ch, shuntUp d = true → arbHeld d = false → h.cmds = id :: ids → cmdOf d id = some c → ch < 16 →
      bitOf (fld d .shuntCtrl 0 15 0) ch = 1 → (chan d ch).ph = .idle →
      (∀ k, k < ch → bitOf (fld d .shuntCtrl 0 15 0) k = 0 ∨ (chan d k).ph ≠ .idle) →
        ∃ t, exec .commandMoveChannel s = .next t ∧ t.dev.shunt.cmds = ids ∧ (chan t.dev ch).src = .move id ∧ (chan t.dev ch).port = c.port ∧
          (chan t.dev ch).ph ≠ .idle ∧ (∀ k, k ≠ ch → chan t.dev k = chan d k)) ∧
    (∀ ch : Fin 16, shuntUp d = true → (chan d ch.val).ph = .turn → h.turns.head? = some ch.val → (chan d ch.val).prog ≠ none →
      Makes (.shuntProgramStart ch) s (setChan d ch.val { chan d ch.val with ph := .run })) ∧
    (∀ (ch : Fin 16) (r : ShRing) (line : Nat), line = storeBase r.ring.core + 64 * r.ring.line → shuntUp d = true → arbHeld d = false →
      (chan d ch.val).ph = .idle → h.rings = [r] → r.channel = ch.val → allOn d (needDoms d line) = true → memUp d line = true →
      firstBadLine d line 40 = none →
        ∃ t, exec (.shuntProgramStart ch) s = .next t ∧ t.dev.shunt.rings = [] ∧ (chan t.dev ch.val).prog = some (slotAt d line 1 / 64 * 64) ∧
          (chan t.dev ch.val).sbase = slotAt d line 2 ∧ (chan t.dev ch.val).dbase = slotAt d line 3 ∧ (chan t.dev ch.val).pc = 0 ∧
          ((chan t.dev ch.val).ph = .run ∨ (chan t.dev ch.val).ph = .turn)) ∧
    (∀ (ch : Fin 16) (c : ShChan) (p a : Nat) (e : Dev) (bs : List Byte), c = chan d ch.val → shuntUp d = true → c.ph = .run → chanFailing d c = false →
      c.prog = some p → c.pc < 64 → hasLine c = false → c.skip = none → a = p + 64 * c.pc → chanOut d c false a 64 = none →
      allOn d (needDoms d a) = true → memUp d a = true → fetchLines d (.prog ch.val) 50 c.port (chanConsist c) [(a, 64)] = .got e bs →
        Makes (.programLineArrival ch) s (setChan e ch.val { c with
          kept := mset [] c.kept c.pc ((List.range 8).map (fun j => leAt bs (8 * j) 8)) })) ∧
    (∀ (ch : Fin 16) (c : ShChan), c = chan d ch.val → shuntUp d = true → c.ph = .run → chanFailing d c = false → c.skip = none →
      (64 ≤ c.pc ∨ (hasLine c = true ∧ (iw c 0 % 256 = 0 ∨ 5 < iw c 0 % 256))) → Makes (.shEnd ch) s (setChan d ch.val { c with ph := .ended })) ∧
    (∀ (ch : Fin 16) (c : ShChan) (id : Nat), c = chan d ch.val → shuntUp d = true → c.ph = .ended → writesDone d ch.val = true →
      chanFailing d c = false → c.src = .dma id → c.failed = none → Makes (.shuntProgramComplete ch) s
        (finish (freeChan (bump (setFld d .shuntIrq 0 ch.val ch.val 1) .shuntCnt 2) ch.val) id 0 (c.bytes % 2 ^ 40))) ∧
    (∀ (ch : Fin 16) (c : ShChan) (r : Ring) (w : Wagon) (line : Nat), line = storeBase r.core + 64 * r.line → c = chan d ch.val → shuntUp d = true →
      c.ph = .ended → writesDone d ch.val = true → c.src = .kernel r true w → c.failed = none → allOn d (needDoms d line) = true → d.badUnits = [] →
      d.cache.stale = [] → d.cache.sets = [] →
        ∃ t, exec (.shuntProgramComplete ch) s = .next t ∧ memNat t.dev (line + 55) 5 = c.bytes % 2 ^ 40 ∧ memNat t.dev (line + 50) 5 = 1 ∧
          fld t.dev .shuntIrq 0 ch.val ch.val = 1) ∧
    (shuntUp d = true → allIdle d = true → Makes .shuntArbSwitch s (setFld d .shuntStatus 0 39 39 (fld d .shuntCtrl 0 16 16)))

/-- The instructions of a channel program: LOOP pushes its count with the line after it, and a count of 0 skips its body; ENDLOOP counts down, goes
back or pops; WAIT holds the channel for its earlier writes, its gate and its cycles; SIGNAL, once the earlier writes have completed, offers its
Wagon, or sets its gate at once for a program of no Consist; MOVE starts its pieces, and a count of 0 accesses nothing (R345 to R350). The engines of
the Shunting Engine: the read engine reads the next piece of a channel's MOVE into the lowest free staging buffers, from the device once its lines
have been served or from the host, and counts its bytes when it stands there; the write engine makes the writes of the staged piece that is next, line
by line, counts them and frees its buffers, or waits with it while a slice has no room; and the MOVE whose last write has completed ends, with its
interrupt where IRQ is 1 (R328, R360, R361, R363, R365).
It rests on the model's choices of log entries 62, 67, 68. -/
def Obligations.ShuntInstructions : Prop :=
  (∀ (s : State) (ch : Fin 16),
    let d := s.dev
    let c := chan d ch.val
    let on := fun pc => ({ c with ph := .run, pc := pc, execs := mmod 0 c.execs c.pc (· + 1) } : ShChan)
    let atSignal := atOp d ch.val 5 = true ∨ (shuntUp d = true ∧ c.ph = .signal false ∧ chanFailing d c = false)
    (atOp d ch.val 2 = true → c.loops.length < 4 → iw c 1 % 2 ^ 40 ≠ 0 →
      Makes (.shLoop ch) s (setChan d ch.val { on (c.pc + 1) with loops := (iw c 1 % 2 ^ 40, c.pc + 1) :: c.loops })) ∧
    (atOp d ch.val 2 = true → c.loops.length < 4 → iw c 1 % 2 ^ 40 = 0 →
      Makes (.shLoop ch) s (setChan d ch.val (skipOn 65 { on (c.pc + 1) with skip := some 0 }))) ∧
    (∀ n l ls, atOp d ch.val 3 = true → c.loops = (n, l) :: ls → 1 < n →
      Makes (.shEndloop ch) s (setChan d ch.val { on l with loops := (n - 1, l) :: ls })) ∧
    (∀ l ls, atOp d ch.val 3 = true → c.loops = (1, l) :: ls → Makes (.shEndloop ch) s (setChan d ch.val { on (c.pc + 1) with loops := ls })) ∧
    (atOp d ch.val 4 = true → writesDone d ch.val = false → Makes (.shWait ch) s (setChan d ch.val { c with ph := .wait 1 0 })) ∧
    (∀ x, shuntUp d = true → chanFailing d c = false → c.ph = .wait 1 x →
      (writesDone d ch.val = false → Makes (.waitResume ch) s d) ∧
      (writesDone d ch.val = true → bitOf (iw c 0) 8 = 0 → iw c 1 % 2 ^ 40 = 0 → Makes (.waitResume ch) s (setChan d ch.val (on (c.pc + 1))))) ∧
    (atOp d ch.val 4 = true → writesDone d ch.val = true → bitOf (iw c 0) 8 = 0 → iw c 1 % 2 ^ 40 = 0 →
      ∃ t, exec (.shWait ch) s = .next t ∧ (chan t.dev ch.val).pc = c.pc + 1 ∧ (chan t.dev ch.val).ph = .run) ∧
    (atOp d ch.val 4 = true → writesDone d ch.val = true → bitOf (iw c 0) 8 = 0 → iw c 1 % 2 ^ 40 ≠ 0 →
      ∃ t, exec (.shWait ch) s = .next t ∧ (chan t.dev ch.val).ph = .wait 3 (d.cc + iw c 1 % 2 ^ 40) ∧ (chan t.dev ch.val).pc = c.pc) ∧
    (atOp d ch.val 4 = true → writesDone d ch.val = true → bitOf (iw c 0) 8 = 1 → gateSet d (bitsOf (iw c 0) 15 12) = false →
      ∃ t, exec (.shWait ch) s = .next t ∧ (chan t.dev ch.val).ph = .wait 2 0 ∧ (chan t.dev ch.val).pc = c.pc) ∧
    (shuntUp d = true → chanFailing d c = false → c.ph = .wait 2 0 → bitOf (iw c 0) 8 = 1 → gateSet d (bitsOf (iw c 0) 15 12) = true →
      gateTaken d ch.val (bitsOf (iw c 0) 15 12) = false → iw c 1 % 2 ^ 40 = 0 →
        ∃ t, exec (.waitResume ch) s = .next t ∧ (chan t.dev ch.val).pc = c.pc + 1 ∧ gateSet t.dev (bitsOf (iw c 0) 15 12) = false) ∧
    (∀ due, shuntUp d = true → chanFailing d c = false → c.ph = .wait 3 due → due ≤ d.cc → Makes (.waitResume ch) s (setChan d ch.val (on (c.pc + 1)))) ∧
    (atSignal → writesDone d ch.val = false → Makes (.shSignal ch) s (setChan d ch.val { c with ph := .signal false })) ∧
    (∀ k, atSignal → writesDone d ch.val = true → c.consist = some k →
      ∃ t, exec (.shSignal ch) s = .next t ∧ (chan t.dev ch.val).ph = .signal true ∧
        t.dev.disp.offers = d.disp.offers ++ [{ prod := .shunt ch.val, w := wSetConsist (signalWagon c) k, time := d.cc }]) ∧
    (atSignal → writesDone d ch.val = true → c.consist = none → bitOf (iw c 0) 8 = 1 →
      ∃ t, exec (.shSignal ch) s = .next t ∧ (chan t.dev ch.val).pc = c.pc + 1 ∧ gateSet t.dev (bitsOf (iw c 0) 15 12) = true ∧
        t.dev.disp.offers = d.disp.offers) ∧
    (atOp d ch.val 1 = true → iw c 3 % 2 ^ 40 ≠ 0 →
      Makes (.shMove ch) s (setChan d ch.val { c with ph := .move, moves := c.moves ++ [parseMove c], nextMove := c.nextMove + 1 })) ∧
    (atOp d ch.val 1 = true → iw c 3 % 2 ^ 40 = 0 → bitOf (iw c 0) 18 = 0 → Makes (.shMove ch) s (setChan d ch.val (on (c.pc + 1))))) ∧
  (∀ (s : State),
    let d := s.dev
    (∀ ch m, shuntUp d = true → nextReader d = some ch → readingMove (chan d ch) = some m → m.srcHost = false →
      rangesOut d (chan d ch) false (pieceRanges m m.next) = none →
      (∀ r ∈ pieceRanges m m.next, allOn d (needDoms d r.1) = true ∧ memUp d r.1 = true) →
        let d1 := setChan { d with shunt := { d.shunt with last := ch } } ch (pieceTaken (chan d ch) m)
        let own := GOwner.piece ch (pieceId m.num m.next)
        let p : ShPiece := { ch := ch, mv := m.num, idx := m.next, size := pieceSize m m.next, bufs := (stageFree d).take (pieceBuffers m m.next) }
        (lineReads d own = [] → (∃ r ∈ pieceRanges m m.next, r.1 < 0x1000000000 ∧ 0 < r.2) →
          ∃ t, exec .shuntPieceRead s = .next t ∧ t.dev.shunt.last = ch ∧ chan t.dev ch = pieceTaken (chan d ch) m ∧
            t.dev.shunt.reading = d.shunt.reading ++ [p] ∧ t.dev.shunt.staged = d.shunt.staged) ∧
        (∀ e bs, fetchLines d1 own 50 (chan d ch).port (chanConsist (chan d ch)) (pieceRanges m m.next) = .got e bs → d.badUnits = [] →
          ∃ t, exec .shuntPieceRead s = .next t ∧ rd t.dev .shuntCnt 0 = satAdd (rd d .shuntCnt 0) (pieceSize m m.next) ∧ t.dev.shunt.last = ch ∧
            chan t.dev ch = pieceTaken (chan d ch) m ∧ t.dev.shunt.staged = d.shunt.staged ++ [p])) ∧
    (∀ ch m, shuntUp d = true → nextReader d = some ch → readingMove (chan d ch) = some m → m.srcHost = true → pieceRanges m m.next ≠ [] →
      rangesOut d (chan d ch) true (pieceRanges m m.next) = none →
        ∃ t, exec .shuntPieceRead s = .next t ∧ chan t.dev ch = pieceTaken (chan d ch) m ∧ t.dev.shunt.reading = d.shunt.reading ++
            [{ ch := ch, mv := m.num, idx := m.next, size := pieceSize m m.next, bufs := (stageFree d).take (pieceBuffers m m.next) }]) ∧
    (∀ p c m a bs m1, shuntUp d = true → QueuesFree d → CacheSound d → d.shunt.reading = [] → nextWrite d = some p → p.out = none → p.ch < 16 →
      c = chan d p.ch → c.moves = [m] → m.num = p.mv → m.dstHost = false → pieceWrites m (freeVal d) p.idx (stagedBytes d p) = ([(a, bs)], m1) → bs ≠ [] →
      (a < 0x1000000000 → bs.length ≤ 1920) → d.badUnits = [] →
      (∀ w ∈ cutWrites [(a, bs)], allOn d (needDoms d w.1) = true ∧ memUp d w.1 = true ∧ chanOut d c false w.1 w.2.length = none) →
        ∃ t, exec .shuntPieceStaged s = .next t ∧ t.dev.shunt.staged = d.shunt.staged.erase p ∧ (chan t.dev p.ch).moves = [{ m1 with written := m.written + 1 }] ∧
          (chan t.dev p.ch).bytes = c.bytes + bs.length ∧ rd t.dev .shuntCnt 1 = satAdd (rd d .shuntCnt 1) bs.length ∧
          (∀ k b, bs[k]? = some b → memByte t.dev (a + k) = b) ∧ (∀ x, x < a ∨ a + bs.length ≤ x → memByte t.dev x = memByte d x)) ∧
    (∀ p c m a bs ws, shuntUp d = true → d.shunt.reading = [] → nextWrite d = some p → p.out = some ((a, bs) :: ws) → c = chan d p.ch → c.moves = [m] →
      m.num = p.mv → m.dstHost = false → (∀ w ∈ (a, bs) :: ws, allOn d (needDoms d w.1) = true ∧ memUp d w.1 = true) → roomFor d a bs.length = false →
        ∃ t, exec .shuntPieceStaged s = .next t ∧ t.dev.shunt.staged = p :: d.shunt.staged.erase p ∧ (chan t.dev p.ch).moves = [m] ∧
          (chan t.dev p.ch).bytes = c.bytes ∧ ∀ x, memByte t.dev x = memByte d x) ∧
    (∀ (ch : Fin 16) (c : ShChan) (m : ShMove) (ms : List ShMove), c = chan d ch.val → shuntUp d = true → c.moves = m :: ms →
      moveDone d ch.val m = true → c.prog ≠ none →
        Makes (.moveCountEnd ch) s (if m.irq then setFld (setChan d ch.val { c with moves := ms }) .shuntIrq 0 ch.val ch.val 1
          else setChan d ch.val { c with moves := ms })))

/-! ## The stores, the Column Cache and the GDDR6 controllers -/

/-- The Column Cache and the stores: a hit serves its read and becomes most recently used, a miss opens a fill with the critical half first, and EN 0,
or a requester of the bypassing class, reads past the cache; the halves of a fill arrive, serve the reads that wait, and the line is installed in the
victim way; a write reaches memory and its queue; an access invalidates the ways of its set whose tag fails, and that of its line where it needs data
that is uncorrectable; the maintenance operations take their scope in order and leave no line of it; a corrected unit is written back; and the clear
engine zeroes its buffers (R324 to R331, R333 to R337).
It rests on the model's choices of log entries 48, 49, 50, 52, 53, 136. -/
def Obligations.CacheRows : Prop :=
  ∀ s : State,
    let d := s.dev
    (∀ (q : CacheReq) (line : Nat), line = q.addr.toNat / 64 * 64 → running d = true → domOn d 3 = true → regionOf d q.addr.toNat = .gddr →
      lineUp d q.addr.toNat = true →
      (∀ w, cacheEn d = true → q.req.val ≤ 55 → SetSound d line → q.arrayError = none → q.corrected = false → wayOf d line = some w → w.pf = none →
        (waitingReq d q.req.val line = none →
          Makes (.cacheLookup q) s (bump (putSet d line (w :: (setOf d line).filter (fun x => decide (x.way ≠ w.way)))) .cacheCnt 0)) ∧
        (∀ i g, waitingReq d q.req.val line = some i → d.cache.reqs[i]? = some g → g.own ≠ .nobody →
          ∃ t, exec (.cacheLookup q) s = .next t ∧ rd t.dev .cacheCnt 0 = satAdd (rd d .cacheCnt 0) 1 ∧
            t.dev.cache.reqs = d.cache.reqs.eraseIdx i ++ [{ g with st := .served, data := memRead d g.addr g.len }])) ∧
      (cacheEn d = true → q.req.val ≤ 55 → q.arrayError = none → (∀ w ∈ setOf d line, w.line = line → w.flaw = .tag ∨ w.flaw = .bad) → fillOf d line = none →
        fillsIn d (sliceOf line) < 32 → readRoom d line = true → fld d .cacheCtrl 0 1 1 = 0 → waitingReq d q.req.val line = none →
          ∃ t, exec (.cacheLookup q) s = .next t ∧ rd t.dev .cacheCnt 1 = satAdd (rd d .cacheCnt 1) 1 ∧
            (∀ w ∈ setOf t.dev line, w.line ≠ line ∧ w.flaw ≠ .tag) ∧
            (¬SetSound d line → rd t.dev .cacheCnt 7 = satAdd (rd d .cacheCnt 7)
              ((setOf d line).filter (fun w => decide (w.flaw = .tag ∨ (w.flaw = .bad ∧ w.line = line)))).length) ∧
            t.dev.cache.fills = d.cache.fills ++ [{ line := line, opener := q.req.val, crit := q.addr.toNat % 64 / 32 }] ∧
            (mcChan t.dev (chanOf d line)).q =
              (mcChan d (chanOf d line)).q ++ [{ line := line, fill := true, consist := q.consist.map Fin.val }]) ∧
      ((cacheEn d = false ∨ 55 < q.req.val) → readRoom d line = true → waitingReq d q.req.val line = none →
        ∃ t, exec (.cacheLookup q) s = .next t ∧ t.dev.cache.sets = d.cache.sets ∧ t.dev.cache.fills = d.cache.fills ∧
          (mcChan t.dev (chanOf d line)).q = (mcChan d (chanOf d line)).q ++ [{ line := line, consist := q.consist.map Fin.val }])) ∧
    (∀ (a : Word) (f : CFill), fillOf d a.toNat = some f → f.back = true → f.half = false →
      ∃ t, exec (.fillHalfArrival a) s = .next t ∧ t.dev.cache.sets = d.cache.sets ∧
        t.dev.cache.fills = (modFill d a.toNat (fun x => { x with half := true })).cache.fills ∧
        (∀ g ∈ d.cache.reqs, g.st = .filling → g.line = f.line → g.lo = f.crit → g.hi = f.crit → g.own ≠ .nobody → f.bad = false →
          { g with st := .served, data := fillBytes d f g.addr g.len } ∈ t.dev.cache.reqs) ∧
        (∀ g ∈ d.cache.reqs, (g.st ≠ .filling ∨ g.line ≠ f.line) → g ∈ t.dev.cache.reqs)) ∧
    (∀ (a : Word) (f : CFill) (w : Nat), fillOf d a.toNat = some f → f.back = true → f.half = true →
      ((f.bad = true ∨ f.discard = true ∨ cacheEn d = false) →
        ∃ t, exec (.fillHalfArrival a) s = .next t ∧ fillOf t.dev a.toNat = none ∧ t.dev.cache.sets = d.cache.sets ∧
          rd t.dev .cacheCnt 3 = satAdd (rd d .cacheCnt 3) 1 ∧ ∀ g ∈ t.dev.cache.reqs, g.st = .filling → g.line ≠ a.toNat) ∧
      (f.bad = false → f.discard = false → cacheEn d = true → victim (setOf d a.toNat) (wayMask d f.opener) = some w →
        ∃ t, exec (.fillHalfArrival a) s = .next t ∧ fillOf t.dev a.toNat = none ∧ rd t.dev .cacheCnt 2 = satAdd (rd d .cacheCnt 2) 1 ∧
          (setOf t.dev a.toNat).map (fun x => (x.way, x.line)) =
            (w, a.toNat) :: ((setOf d a.toNat).filter (fun x => decide (x.way ≠ w))).map (fun x => (x.way, x.line)) ∧
          (∀ g ∈ t.dev.cache.reqs, g.st = .filling → g.line ≠ a.toNat) ∧
          ∀ g ∈ d.cache.reqs, g.st = .filling → g.line = a.toNat → g.own ≠ .nobody →
            { g with st := .served, data := fillBytes d f g.addr g.len } ∈ t.dev.cache.reqs)) ∧
    (∀ (a : Word) (bs : List Byte) (c : Option ConsistIx), running d = true → domOn d 3 = true → regionOf d a.toNat = .gddr →
      lineUp d a.toNat = true → bs ≠ [] → a.toNat % 64 + bs.length ≤ 64 → writeRoom d (a.toNat / 64 * 64) = true →
        (∃ t, exec (.cacheWriteAccept a bs { consist := c }) s = .next t ∧ (∀ k b, bs[k]? = some b → memByte t.dev (a.toNat + k) = b) ∧
          (SetSound d (a.toNat / 64 * 64) → ∀ x, x < a.toNat ∨ a.toNat + bs.length ≤ x → memByte t.dev x = memByte d x) ∧
          (cacheEn d = true → (∀ y ∈ setOf t.dev (a.toNat / 64 * 64), y.flaw ≠ .tag) ∧
            ∀ y, wayOf t.dev (a.toNat / 64 * 64) = some y → y.flaw = .sound) ∧
          writesHeld (mcChan t.dev (chanOf d (a.toNat / 64 * 64))) = writesHeld (mcChan d (chanOf d (a.toNat / 64 * 64))) + 1) ∧
        (∀ w x, cacheEn d = true → SetSound d (a.toNat / 64 * 64) → (setOf d (a.toNat / 64 * 64)).find? (fun y => decide (y.way = (w : Fin 16).val)) = some x →
          ∃ t, exec (.cacheWriteAccept a bs { consist := c, err := some w }) s = .next t ∧ (∀ k b, bs[k]? = some b → memByte t.dev (a.toNat + k) = b) ∧
            (∀ y ∈ setOf t.dev (a.toNat / 64 * 64), y.way ≠ w.val) ∧ rd t.dev .cacheCnt 7 = satAdd (rd d .cacheCnt 7) 1)) ∧
    (∀ (who : Requester) (v : Word) (e : (Requester → Word → Instr) × Nat), e ∈ [((Instr.invalidateAddr : Requester → Word → Instr), 1), (.invalidateRange, 2), (.invalidateAll, 3)] →
      bitsOf v.toNat 1 0 = e.2 → WriteOpen d who 0x900010 → d.cache.maint = none → (maintScope d e.2).1 < (maintScope d e.2).2 →
        ∃ t, exec (e.1 who v) s = .next t ∧ t.dev.cache.maint = some { op := e.2, lo := (maintScope d e.2).1, hi := (maintScope d e.2).2 } ∧
          t.dev.cache.sets = d.cache.sets) ∧
    (∀ (who : Requester) (v : Word) (m : Maint), WriteOpen d who 0x900010 → bitsOf v.toNat 1 0 = 3 → d.cache.maint = some m →
      ∃ t, exec (.invalidateAll who v) s = .next t ∧ t.dev.cache = d.cache ∧ fld t.dev .cacheStatus 0 38 38 = 1) ∧
    (∀ m, d.cache.maint = some m → (∀ f ∈ d.cache.fills, f.maint = false) → (m.hi - m.lo) % 64 = 0 →
      ∃ t, exec .cacheMaintDone s = .next t ∧ t.dev.cache.maint = none ∧
        (m.pos = 0 → ∀ e ∈ t.dev.cache.sets, ∀ w ∈ e.2, ¬(m.lo ≤ w.line ∧ w.line < m.hi)) ∧
        ∀ e ∈ t.dev.cache.sets, ∀ w ∈ e.2, m.lo ≤ w.line → w.line < m.hi → (if m.walks then e.1 % 1024 else (w.line - m.lo) / 64) < m.pos) ∧
    (∀ (who : Requester) (v : Word), WriteOpen d who 0x900000 → bitOf v.toNat 0 = 0 →
      ∃ t, exec (.cacheEnableWrite who v) s = .next t ∧ cacheEn t.dev = false ∧ (∀ f ∈ t.dev.cache.fills, f.discard = true) ∧
        t.dev.cache.sets = d.cache.sets) ∧
    (∀ a : Word, regionOf d a.toNat = .yard → a.toNat / 16 ∉ d.badUnits → a.toNat / 16 ∈ d.softUnits →
      Makes (.onchipEccWriteback a) s (bump { d with softUnits := sdel d.softUnits (a.toNat / 16) } .yardCnt 2)) ∧
    (∀ a : Word, regionOf d a.toNat = .yard → a.toNat / 16 ∈ d.badUnits →
      ∃ t, exec (.onchipEccWriteback a) s = .next t ∧ fld t.dev .memErr 0 39 39 = 1) ∧
    (∀ (who : Requester) (v : Word) (n : Nat), n = min (sat4096 (bitsOf v.toNat 24 12)) (4096 - bitsOf v.toNat 11 0) → WriteOpen d who 0xA00000 →
      d.cache.clear = none → n ≠ 0 → ∃ t, exec (.yardClear who v) s = .next t ∧ t.dev.cache.clear = some (bitsOf v.toNat 11 0, n) ∧
        t.dev.cache.cleared = 0 ∧ t.dev.mem = d.mem) ∧
    (∀ first n, d.cache.clear = some (first, n) → running d = true → domOn d 3 = true →
      ∃ t, exec .yardClearDone s = .next t ∧ t.dev.cache.clear = none ∧
        (∀ a, yardBase + 4096 * first + d.cache.cleared ≤ a → a < yardBase + 4096 * (first + n) → rawByte t.dev a = 0) ∧
        (MemoryCanonical s → ∀ a, a < yardBase + 4096 * first ∨ yardBase + 4096 * (first + n) ≤ a → rawByte t.dev a = rawByte d a))

/-- A GDDR6 channel serving requests: a slot issues the one read that waits, a reserved slot without a request of its holder, or taken by a refresh,
stays idle, the frame begins again after 256 slots, a read returns clean to its fill or is tried again on a failed CRC, a write's CRC returns, a
refresh closes its bank or is postponed, and row counters and the device temperature go on (R375, R378 to R385, R391).
It rests on the model's choices of log entries 54, 55. -/
def Obligations.ChannelRows : Prop :=
  ∀ (s : State) (ch : Fin 16),
    let d := s.dev
    let v := mcChan d ch.val
    (∀ r, mcServes d ch.val = true → v.slot < 256 → slotOpen d v.slot = true → v.turn = 0 → v.sched = false → v.q = [r] → r.write = false → v.out = [] →
      v.drain = false → v.srWait = false →
        ∃ t, exec (.mcSlotIssue ch) s = .next t ∧ (mcChan t.dev ch.val).q = [] ∧ (mcChan t.dev ch.val).out = [r] ∧ (mcChan t.dev ch.val).slot = v.slot + 1 ∧
          openRow (mcChan t.dev ch.val) (mcBank d r.line) = some (mcRow d r.line) ∧ rd t.dev .mcCnt (ch.val * 10) = satAdd (rd d .mcCnt (ch.val * 10)) 1) ∧
    (∀ c, mcServes d ch.val = true → v.slot < 256 → slotOpen d v.slot = true → v.turn = 0 → v.sched = true → slotHolder v v.slot = some c →
      (v.refSlot = false → (∀ r ∈ v.q, r.consist ≠ some c) → v.srWait = false →
        Makes (.mcSlotIssue ch) s (bump (setMc d ch.val { v with slot := v.slot + 1, turn := 0 }) .mcCnt (ch.val * 10 + 7))) ∧
      (v.refSlot = true → Makes (.mcSlotIssue ch) s (setMc d ch.val { v with slot := v.slot + 1, turn := 0, refSlot := false }))) ∧
    (mcServes d ch.val = true → 256 ≤ v.slot →
      Makes (.frameBoundary ch) s
        (setMc d ch.val { v with slot := 0, sched := decide (fld d .mcGlobal 0 23 23 = 1), frames := heldSlots d ch.val })) ∧
    (∀ r rest e, mcServes d ch.val = true → v.out = r :: rest → r.write = false → r.fill = true → v.srWait = false →
      e.edcOk = true → e.flips = [] → e.word = 0 → e.mirror = 0 →
      (fld d .mcGlobal 0 22 22 = 0 ∨ ∃ h w, v.halves.find? (fun x => decide (x.num = halfOf d r.line)) = some h ∧
        h.words[mcCol d r.line % 8]? = some w ∧ bitsOf w.toNat 31 20 = achk r.line ∧
        ∀ bs, heldLine d v r.line = some bs → bitsOf w.toNat 19 0 = bitsOf (wordOf d r.line bs).toNat 19 0) →
        ∃ t, exec (.mcReadReturn ch e) s = .next t ∧ (mcChan t.dev ch.val).out = rest ∧ (mcChan t.dev ch.val).edcRun = 0 ∧
          ∀ f ∈ t.dev.cache.fills, f.line = r.line → f.back = true ∧ f.bad = false) ∧
    (∀ r rest e, mcServes d ch.val = true → v.out = r :: rest → fld d .mcCtrl (ch.val / 2) 7 7 = 1 → e.edcOk = false →
      r.tries < fld d .mcCtrl (ch.val / 2) 11 8 →
        ∃ t, exec (.mcReadReturn ch e) s = .next t ∧ (mcChan t.dev ch.val).out = { r with tries := r.tries + 1 } :: rest ∧
          (mcChan t.dev ch.val).edcRun = v.edcRun + 1 ∧ rd t.dev .mcCnt (ch.val * 10 + 3) = satAdd (rd d .mcCnt (ch.val * 10 + 3)) 1) ∧
    (∀ r rest, mcServes d ch.val = true → v.wout = r :: rest → v.srWait = false →
      Makes (.returnedWriteCrc ch true) s (setMc d ch.val { v with wout := rest, edcRun := 0 })) ∧
    (∀ r rest, mcServes d ch.val = true → v.wout = r :: rest → r.tries < fld d .mcCtrl (ch.val / 2) 11 8 →
      ∃ t, exec (.returnedWriteCrc ch false) s = .next t ∧ (mcChan t.dev ch.val).wout = { r with tries := r.tries + 1 } :: rest) ∧
    (mcAwake d ch.val = true → fld d .mcCtrl (ch.val / 2) 3 3 = 0 → v.owed = [] → v.refBank < 16 →
      ((∀ r ∈ v.q, mcBank d r.line ≠ v.refBank) →
        Makes (.refresh ch) s (setMc d ch.val { v with
          rows := mset none v.rows v.refBank none, refBank := (v.refBank + 1) % 16, refSlot := true })) ∧
      ((∃ r ∈ v.q, mcBank d r.line = v.refBank) →
        Makes (.refresh ch) s (setMc d ch.val { v with refBank := (v.refBank + 1) % 16, owed := [(v.refBank, 0)] }))) ∧
    (mcAwake d ch.val = true → fld d .mcCtrl (ch.val / 2) 3 3 = 1 → v.owed = [] → v.q = [] →
      Makes (.refresh ch) s (setMc d ch.val { v with rows := [], refSlot := true })) ∧
    (∀ (bank : Fin 16) (e : Nat × Nat), mcAwake d ch.val = true → (mget [] v.counts bank.val).find? (fun e => decide (rdThresh d ≤ e.2)) = some e →
      ∃ t, exec (.rowDisturbRefresh ch bank) s = .next t ∧ mget 0 (mget [] (mcChan t.dev ch.val).counts bank.val) e.1 = 0 ∧
        openRow (mcChan t.dev ch.val) bank.val = none ∧ rd t.dev .mcCnt (ch.val * 10 + 6) = satAdd (rd d .mcCnt (ch.val * 10 + 6)) 1) ∧
    (running d = true → ∃ t, exec .rowCounterClear s = .next t ∧ (mcChan t.dev ch.val).counts = [] ∧ (mcChan t.dev ch.val).acts = [] ∧
      (mcChan t.dev ch.val).q = v.q ∧ t.dev.mem = d.mem) ∧
    (∀ temp : Byte, mcAwake d ch.val = true → ∃ t, exec (.deviceTempRead ch temp) s = .next t ∧ fld t.dev .mcStatus ch.val 36 29 = temp.toNat ∧
      (135 < temp.toNat → fld t.dev .mcErr (ch.val / 2) 39 39 = 1))

/-- Bringing GDDR6 up: a released controller has its channels in STATE 1, the training rows start their operation there and its end shows the result,
TRAFFIC_EN takes every trained channel to STATE 2 at slot 0 and locks the mapping, self-refresh and a rate change go through STATE 3 and 4, and
MC_GLOBAL's mapping changes while every channel is in STATE 0 and not otherwise (R374, R379, R387, R389, R391).
It rests on the model's choices of log entries 57, 58, 59, 82. -/
def Obligations.ChannelConfiguration : Prop :=
  ∀ (s : State) (who : Requester) (v : Word),
    let d := s.dev
    (∀ (ch : Fin 16), ∀ e ∈ [((Instr.modeRegisterWrite : Requester → Fin 16 → Word → Instr), 1), (.caTraining, 2), (.wckAlignment, 3), (.readTraining, 4),
        (.writeTraining, 5), (.verify, 6), (.temperatureRead, 7)],
      WriteOpen d who (mcChOff ch.val 0x1008) → bitsOf v.toNat 3 0 = e.2 → mcState d ch.val = 1 → (mcChan d ch.val).train = none →
        ∃ t, exec (e.1 who ch v) s = .next t ∧ (mcChan t.dev ch.val).train =
          some { op := e.2, arg := bitsOf v.toNat 15 8, iter := max 1 (bitsOf v.toNat 31 16), pat := max 1 (rd d .mcTrainPat ch.val).toNat }) ∧
    (∀ (ch : Fin 16) (fail : BitVec 20) (found : Byte) (x : McTrain), (mcChan d ch.val).train = some x → (x.op = 4 ∨ x.op = 5) →
      d.pwr.rateStep = 0 → d.pwr.rateNow = mcRate d →
      ∃ t, exec (.mcTrainDone ch fail found) s = .next t ∧ (mcChan t.dev ch.val).train = none ∧ fld t.dev .mcTrainRes ch.val 19 0 = fail.toNat) ∧
    (∀ (k : Fin 8), WriteOpen d who (mcOff k.val 0x10) → bitsOf v.toNat 1 0 = 3 → (∀ ch ∈ [2 * k.val, 2 * k.val + 1], mcState d ch = 0 ∧ excluded d ch = false) →
      ∃ t, exec (.mcResetRelease who k v) s = .next t ∧ ∀ ch ∈ [2 * k.val, 2 * k.val + 1], mcState t.dev ch = 1) ∧
    (∀ (k : Fin 8), WriteOpen d who (mcOff k.val 0x10) → bitsOf v.toNat 2 0 = 7 → fld d .mcCtrl k.val 2 2 = 0 →
      d.pwr.rateStep = 0 → d.pwr.rateNow = mcRate d → (∀ ch ∈ [2 * k.val, 2 * k.val + 1], mcState d ch = 2 ∧ (mcChan d ch).q = [] ∧ (mcChan d ch).out = [] ∧ (mcChan d ch).wout = []) →
        ∃ t, exec (.selfRef who k v) s = .next t ∧ ∀ ch ∈ [2 * k.val, 2 * k.val + 1], mcState t.dev ch = 3 ∧ (mcChan t.dev ch).rows = []) ∧
    (∀ (k : Fin 8), WriteOpen d who (mcOff k.val 0x10) → bitsOf v.toNat 4 0 = 0x13 → (∀ ch ∈ [2 * k.val, 2 * k.val + 1], mcState d ch = 4 ∧ ch ∈ channels d) →
      ∃ t, exec (.rateDone who k v) s = .next t ∧ (∀ ch ∈ [2 * k.val, 2 * k.val + 1], mcState t.dev ch = 2) ∧
        ∀ ch ∈ channels d, mcState t.dev ch = 2 → (mcChan t.dev ch).slot = 0) ∧
    (WriteOpen d who (mcOff 0 0) → bitOf v.toNat 24 = 1 → fld d .mcGlobal 0 24 24 = 0 → (∀ ch ∈ channels d, mcState d ch = 1) →
      ∃ t, exec (.trafficEn who v) s = .next t ∧ fld t.dev .mcGlobal 0 25 24 = 3 ∧
        ∀ ch ∈ channels d, mcState t.dev ch = 2 ∧ (mcChan t.dev ch).slot = 0) ∧
    (WriteOpen d who (mcOff 0 0) → bitOf v.toNat 24 = 0 → (∀ ch, ch < 16 → mcState d ch = 0) →
      ∃ t, exec (.mcConfigWrite who v) s = .next t ∧ fld t.dev .mcGlobal 0 18 6 = bitsOf v.toNat 18 6) ∧
    (WriteOpen d who (mcOff 0 0) → bitOf v.toNat 24 = 0 → (∃ ch, ch < 16 ∧ mcState d ch ≠ 0) →
      ∃ t, exec (.mcConfigWrite who v) s = .next t ∧ fld t.dev .mcGlobal 0 18 6 = fld d .mcGlobal 0 18 6 ∧ t.dev.mem = d.mem)

/-! ## Power, clocks, time and reset -/

/-- Domains, profiles and the clock: an idle domain is gated, and begins its power-down, which ends in its state of R422; an access or a write of WAKE
wakes a domain, which is ON when its wake time has passed; a profile is asked for, and comes into force or is refused; the core PLL moves by at most
100 MHz; the governor takes a step at a hot sensor; a sample stands in SBOX_SENSOR (R400, R422 to R425, R427, R429 to R431, R486).
It rests on the model's choices of log entries 73, 77, 81, 122. -/
def Obligations.DomainsAndProfiles : Prop :=
  ∀ (s : State),
    let d := s.dev
    (∀ k : Fin 24, running d = true → idles k.val = true → (dom d k.val).falling = false → domBusy d k.val = false →
      ((dom d k.val).st = .on → fld d .pwrDomain k.val 15 4 ≠ 0 → Makes (.idleGateExpiry k) s (setDom d k.val { dom d k.val with st := .gated })) ∧
      (((dom d k.val).st = .on ∨ (dom d k.val).st = .gated) → fld d .pwrDomain k.val 31 16 ≠ 0 →
        Makes (.idleOffExpiry k) s (setDom d k.val { dom d k.val with falling := true, fallAt := d.cc }))) ∧
    (∀ k : Fin 24, running d = true → (dom d k.val).falling = true → (dom d k.val).wanted = false → d.pwr.rakeWait = [] →
      ∃ t, exec (.powerDownComplete k) s = .next t ∧ dom t.dev k.val = { st := if k.val = 12 then .off else .offRetain } ∧
        (4 ≤ k.val → k.val ≤ 11 → ∀ i, i < 4 → core t.dev (4 * (k.val - 4) + i) = {})) ∧
    (∀ k : Fin 24, running d = true → k.val ≠ 0 → (dom d k.val).st = .gated → (dom d k.val).falling = false → autowake d k.val = true →
      Makes (.domainWake k) s (setDom d k.val { dom d k.val with st := .waking, prev := .gated })) ∧
    (∀ k : Fin 24, running d = true → (dom d k.val).st = .waking → ∃ t, exec (.domainReady k) s = .next t ∧ domOn t.dev k.val = true) ∧
    (∀ (who : Requester) (v : Word) (k : Fin 24), k.val ≠ 0 → bitOf v.toNat 35 = 1 → WriteOpen d who (0xF00100 + 8 * k.val) → running d = true →
      (dom d k.val).st = .gated → (dom d k.val).falling = false →
        ∃ t, exec (.pwrDomainWake who k v) s = .next t ∧ (dom t.dev k.val).st = .waking) ∧
    (∀ (who : Requester) (v : Word), isSbox who = true → WriteOpen d who 0xF00000 → bitsOf v.toNat 5 4 = 0 → bitsOf v.toNat 1 0 ≤ 2 →
      bitsOf v.toNat 1 0 ≠ min 2 (fld d .pwrCtrl 0 1 0) → bitsOf v.toNat 1 0 ≠ fld d .pwrStatus 0 39 38 →
        ∃ t, exec (.profile who v) s = .next t ∧ fld t.dev .pwrCtrl 0 1 0 = bitsOf v.toNat 1 0 ∧
          t.dev.pwr.profile = some { want := bitsOf v.toNat 1 0, lower := decide (fld d .pwrStatus 0 39 38 < bitsOf v.toNat 1 0) }) ∧
    (∀ q, running d = true → d.pwr.profile = some q → q.want ≤ 2 → q.cmd = none → q.sleep = 0 →
      (q.lower = true → heldFit d q.want = true → fld d .pwrStatus 0 34 24 ≤ (profileCeil d q.want).1 → rakesToShed d (profileCeil d q.want).2.1 = [] →
        d.pwr.rateNow = mcRate d → d.pwr.rateStep = 0 → ∃ t, exec .profileLowerInForce s = .next t ∧ fld t.dev .pwrStatus 0 39 38 = q.want ∧ t.dev.pwr.profile = none) ∧
      (q.lower = true → heldFit d q.want = false → MakesTx .profileLowerInForce s d) ∧
      (q.lower = true → heldFit d q.want = true → ∀ r ∈ rakesToShed d (profileCeil d q.want).2.1, rakeDrained d r = true → (dom d (4 + r)).falling = false → (dom d (4 + r)).st ≠ .waking →
        ∃ t, exec .profileLowerInForce s = .next t ∧ t.dev.pwr.profile = some q ∧ (dom t.dev (4 + r)).falling = true) ∧
      (q.lower = false → d.pwr.rakeWait = [] →
        ∃ t, exec .profileRaiseReady s = .next t ∧ fld t.dev .pwrStatus 0 39 38 = q.want ∧ t.dev.pwr.profile = none) ∧
      (q.lower = false → ∃ t, exec .profileRaiseTimeout s = .next t ∧ fld t.dev .pwrStatus 0 39 38 = fld d .pwrStatus 0 39 38 ∧
        fld t.dev .pwrCtrl 0 1 0 = fld d .pwrStatus 0 39 38 ∧ t.dev.pwr.profile = none)) ∧
    (∀ m, m = fld d .pwrStatus 0 34 24 → running d = true → m ≠ 0 → Makes .corePllSlew s
      (setMhz d (if m < mhzTarget d then min (mhzTarget d) (m + 100) else max (mhzTarget d) (m - 100)))) ∧
    (∀ i, i < 24 → fwUp d = true → ((throttleC d * 16 : Nat) : Int) < thermal d i →
      ∃ t, exec .governorTick s = .next t ∧ t.dev.pwr.coolMs = 0 ∧ t.dev.pwr.throttleSteps =
        d.pwr.throttleSteps + if (profileCeil d (fld d .pwrStatus 0 39 38)).1 ≤ 600 + 100 * d.pwr.throttleSteps then 0 else 1) ∧
    (∀ samples : List SensorIn, fwUp d = true → ∃ t, exec (.sensorSample samples) s = .next t ∧ t.dev.pwr.sampleTime = aoTime d ∧
      ∀ i v, i < 41 → samples[i]? = some v → fld t.dev .sboxSensor i 15 0 = v.value.toNat ∧
        (v.failed = true → fld t.dev .sboxSensor i 39 38 = 3))

/-- AO time: a millisecond passes and samples GPIO_IN, which reads a driven pin as it is driven, a PPS edge and its loss after 3 s show in PWR_STATUS,
the Signal Box sets the time and clears its trust, and the crystal's state is shown (R171, R413, R429, R468). Rails and resets: the enables are raised
in order and boot follows the last; a rail fault and a low PGOOD lower them all, with the pads held and every domain but AO OFF, and record cause 9;
RESET_N holds the device and its release raises the rails with cause 1; power-on keeps the fuses and MRAM alone, where a line that was being written
holds its old or its new content or is uncorrectable; a warm reset of cause 2 keeps AO, the memories on chip and the cells; and the pads are released
by the Signal Box (R239, R321, R397, R433, R444, R445, R457).
It rests on the model's choices of log entries 71, 78, 79, 80. -/
def Obligations.TimeRailsAndResets : Prop :=
  (∀ (s : State),
    let d := s.dev
    (∃ t, exec .aoMsTick s = .next t ∧ rd t.dev .aoTime 0 = (if d.pwr.ppsSkip then rd d .aoTime 0 else rd d .aoTime 0 + 1) ∧
      (∀ c, (consist d c).valid = true → (consist t.dev c).ms = (consist d c).ms + 1) ∧
      (d.tap.ir ≠ .highz → scanDrives d = false → fld d .padHold 0 8 8 = 0 → ∀ i, i < 8 → fld d .gpioOe 0 i i = 1 →
        fld t.dev .gpioIn 0 i i = fld d .gpioOut 0 i i)) ∧
    (∃ t, exec .ppsEdge s = .next t ∧ fld t.dev .pwrStatus 0 36 36 = 1 ∧ (aoTime d % 1000 = 0 → rd t.dev .aoTime 0 = rd d .aoTime 0) ∧
      t.dev.pwr.aoDiv = (if fld d .pwrStatus 0 36 36 = 1 ∧ 0 < d.pwr.ppsMs then d.pwr.ppsTicks / 1000 else d.pwr.aoDiv)) ∧
    (d.pwr.ppsMs < 3000 → Makes .ppsLoss s d) ∧
    (fld d .pwrStatus 0 36 36 = 1 → 3000 ≤ d.pwr.ppsMs → ∃ t, exec .ppsLoss s = .next t ∧ fld t.dev .pwrStatus 0 36 36 = 0 ∧
      (fwUp d = true → fld t.dev .sboxEvent 0 0 0 = 1)) ∧
    (∀ (who : Requester) (v : Word), isSbox who = true → WriteOpen d who 0xF00050 →
      ∃ t, exec (.aoTimeWrite who v) s = .next t ∧ rd t.dev .aoTime 0 = v ∧ fld t.dev .pwrStatus 0 14 14 = 0) ∧
    Makes .xtalStop s (setFld d .pwrStatus 0 35 35 0) ∧ Makes .xtalStart s (setFld d .pwrStatus 0 35 35 1)) ∧
  (∀ (s : State),
    let d := s.dev
    (∀ k, d.pwr.mode = .raising → firstIdx 4 (fun k => decide (bitOf d.pwr.pwrEn k = 0)) = some k →
      Makes .pwrEnRaise s { d with pwr := { d.pwr with pwrEn := d.pwr.pwrEn + 2 ^ k, pwrStep := k } }) ∧
    (d.pwr.mode = .raising → d.pwr.pwrEn = 15 →
      Makes .pwrEnRaise s { d with pwr := { d.pwr with mode := .running, doms := [], bootDue := true, railFault := false } }) ∧
    (d.pwr.mode = .raising → fld d .wakeCtrl 0 4 4 = 0 → d.pwr.pwrStep < 4 →
      ∃ t, exec .railFault s = .next t ∧ t.dev.pwr.mode = .laidUp ∧ t.dev.pwr.pwrEn = 0 ∧ fld t.dev .resetCause 0 7 0 = 9 ∧
        fld t.dev .resetCause 0 19 16 = d.pwr.pwrStep ∧ t.dev.pwr.railFault = true ∧ fld t.dev .padHold 0 9 0 = 0x3FF ∧
        ∀ k, 1 ≤ k → k < 24 → (dom t.dev k).st = .off) ∧
    (d.pwr.pwrEn = 15 → fld d .wakeCtrl 0 4 4 = 0 →
      ∃ t, exec .pgoodLow s = .next t ∧ t.dev.pwr.mode = .laidUp ∧ t.dev.pwr.pwrEn = 0 ∧ fld t.dev .resetCause 0 7 0 = 9 ∧
        fld t.dev .resetCause 0 19 16 = 3) ∧
    (d.pwr.mode ≠ .pinReset → ∃ t, exec .resetNLow s = .next t ∧ t.dev.pwr.mode = .pinReset ∧ t.dev.pwr.pwrEn = 0 ∧ fld t.dev .padHold 0 9 0 = 0x3FF) ∧
    (d.pwr.mode = .pinReset → ∃ t, exec .resetNRelease s = .next t ∧ t.dev.pwr.mode = .raising ∧ t.dev.pwr.pwrEn = 1 ∧ fld t.dev .resetCause 0 7 0 = 1) ∧
    (∃ t, exec .powerOnReset s = .next t ∧ t.otp = s.otp ∧ rd t.dev .aoTime 0 = 0 ∧ fld t.dev .chipLifecycle 0 4 4 = 0 ∧ t.dev.pwr.mode = .raising ∧
      (∀ a old, MemoryCanonical s → d.nv.writing = some (a, old) → old.length = 64 → 0xC000000000 ≤ a → a + 64 ≤ 0xC001000000 →
        (∀ k b, old[k]? = some b → rawByte t.dev (a + k) = b) ∨ (∀ k, k < 64 → rawByte t.dev (a + k) = rawByte d (a + k)) ∨
          a / 16 ∈ t.dev.badUnits) ∧
      (MemoryCanonical s → d.nv.writing = none → ∀ a, rawByte t.dev a = if 0xC000000000 ≤ a ∧ a < 0xC001000000 then rawByte d a else 0)) ∧
    (∀ (who : Requester) (v : Word), WriteOpen d who 0xF00038 → bitOf v.toNat 0 = 1 → bitsOf v.toNat 39 32 = 0x5A →
      ∃ t, exec (.warm who v) s = .next t ∧ fld t.dev .resetCause 0 7 0 = 2 ∧ t.dev.ring = {} ∧ t.dev.consists = [] ∧
        (d.cores.Pairwise (fun a b => a.1 < b.1) →
          ∀ n : CoreIx, core t.dev n.val = { coreDefault n.val with cells := (core d n.val).cells }) ∧
        (mwf (0 : Word) d.regs = true → rd t.dev .aoTime 0 = rd d .aoTime 0) ∧
        (MemoryCanonical s → ∀ a, rawByte t.dev a = if 0x1000000000 ≤ a then rawByte d a else 0)) ∧
    (∀ (who : Requester) (v : Word), WriteOpen d who 0xF00038 → ¬(bitOf v.toNat 0 = 1 ∧ bitsOf v.toNat 39 32 = 0x5A) → Makes (.warm who v) s d) ∧
    (∀ (who : Requester) (v : Word), isSbox who = true → WriteOpen d who 0xF00030 →
      Makes (.padHoldRelease who v) s (setFld d .padHold 0 9 0 (fld d .padHold 0 9 0 &&& (1023 - bitsOf v.toNat 19 10)))))

/-- Sleep and wake: SLEEP asks the domains in stop order; a drained domain agrees and the next is asked, the last one begins Standing or phase 2, and
one that does not drain in time ends the sequence with REFUSED and restarts those that stopped; phase 2 enters Stabled and Laid-up with a window in
which the wake logic is not armed and a beacon or a level starts nothing, and its end takes what was latched before; the wake sources set their cause
and start a wake, and Standing and Stabled end (R435 to R441, R443, R444).
It rests on the model's choices of log entries 74, 75, 76, 78, 117. -/
def Obligations.SleepAndWake : Prop :=
  ∀ (s : State),
    let d := s.dev
    (∀ (who : Requester) (v : Word), isSbox who = true → WriteOpen d who 0xF00000 → running d = true → d.pwr.sleep.active = false →
      bitsOf v.toNat 5 4 ≠ 0 → bitsOf v.toNat 1 0 = fld d .pwrCtrl 0 1 0 →
        ∃ t, exec (.sleep who v) s = .next t ∧
          t.dev.pwr.sleep = { active := true, target := bitsOf v.toNat 5 4, toAsk := stopOrder (bitsOf v.toNat 5 4) } ∧ fld t.dev .sleepStatus 0 38 36 = 1) ∧
    (∀ k j ks, running d = true → d.pwr.sleep.active = true → d.pwr.sleep.toAsk = k :: j :: ks → (dom d k).falling = false →
      ((dom d k).st = .on → domDrained d k = true → ∃ t, exec .domainDrainAgree s = .next t ∧ t.dev.pwr.sleep.toAsk = j :: ks ∧
        t.dev.pwr.sleep.stopped = k :: d.pwr.sleep.stopped ∧ (dom t.dev k).st = .gated) ∧
      ((dom d k).st = .offRetain → ∃ t, exec .domainDrainAgree s = .next t ∧ t.dev.pwr.sleep.toAsk = j :: ks ∧
        t.dev.pwr.sleep.stopped = d.pwr.sleep.stopped)) ∧
    (∀ k ks, k < 24 → running d = true → d.pwr.sleep.active = true → d.pwr.sleep.toAsk = k :: ks → (dom d k).st = .on → domDrained d k = false →
      d.pwr.sleep.cmd = none →
        ∃ t, exec .drainLimitRefuse s = .next t ∧ t.dev.pwr.sleep = {} ∧ fld t.dev .sleepStatus 0 39 39 = 1 ∧
          fld t.dev .sleepStatus 0 12 8 = (if fld d .sleepStatus 0 39 39 = 0 then k else fld d .sleepStatus 0 12 8) ∧
          fld t.dev .sleepStatus 0 38 36 = (if d.pwr.sleep.stopped = [] then 0 else 3) ∧ (∀ i ∈ d.pwr.sleep.stopped, (dom t.dev i).st = .waking) ∧
          fld t.dev .sboxEvent 0 4 4 = 1) ∧
    (∀ k, running d = true → d.pwr.sleep.active = true → d.pwr.sleep.toAsk = [k] → (dom d k).falling = false → (dom d k).st = .on → domDrained d k = true →
      ∃ t, exec .domainDrainAgree s = .next t ∧ (d.pwr.sleep.target = 1 → t.dev.pwr.mode = .standing) ∧
        (d.pwr.sleep.target ≠ 1 → t.dev.pwr.sleep.agreed = true ∧ fld t.dev .sleepStatus 0 38 36 = 2)) ∧
    (running d = true → d.pwr.sleep.active = true → d.pwr.sleep.agreed = true → d.pwr.window = false →
      (d.pwr.sleep.target = 2 → ∃ t, exec .sleepPhase2 s = .next t ∧ t.dev.pwr.mode = .stabled ∧ t.dev.pwr.pwrEn = 9 ∧ t.dev.pwr.window = true ∧
        (MemoryCanonical s → ∀ a, regionOf d a = .gddr → rawByte t.dev a = rawByte d a)) ∧
      (d.pwr.sleep.target = 3 → ∃ t, exec .sleepPhase2 s = .next t ∧ t.dev.pwr.mode = .laidUp ∧ t.dev.pwr.pwrEn = 0 ∧
        t.dev.pwr.window = true ∧ ∀ a, a < 0x1000000000 → rawByte t.dev a = 0)) ∧
    (d.pwr.window = true → fld d .wakeCtrl 0 4 4 = 0 →
      (d.pwr.wakeDue = [] → Makes .sleepPhase2 s { d with pwr := { d.pwr with window := false } }) ∧
      (∀ b, b < 6 → d.pwr.mode = .stabled → d.pwr.wakeDue = [b] → ∃ t, exec .sleepPhase2 s = .next t ∧ t.dev.pwr.window = false ∧
        t.dev.pwr.wakeDue = [b] ∧ fld t.dev .wakeCause 0 b b = 1)) ∧
    (d.pwr.window = true → (d.pwr.mode = .stabled ∨ d.pwr.mode = .laidUp) →
      ∀ i ∈ [Instr.wakeIgn, .wakeAux, .pmicWake, .beaconDetect], Makes i s d) ∧
    (∀ e ∈ [(Instr.wakeIgn, 0, 0), (.wakeAux, 1, 1), (.pmicWake, 6, 4)], fld d .wakeCtrl 0 e.2.1 e.2.1 = 1 →
      (d.pwr.mode = .standing → Makes e.1 s { setFld d .wakeCause 0 e.2.2 e.2.2 1 with pwr := { d.pwr with wakeDue := sins d.pwr.wakeDue e.2.2 } }) ∧
      (d.pwr.mode = .laidUp → d.pwr.window = false → ∃ t, exec e.1 s = .next t ∧ t.dev.pwr.mode = .raising ∧ t.dev.pwr.pwrEn = 1 ∧ fld t.dev .wakeCause 0 e.2.2 e.2.2 = 1 ∧
        (d.pwr.railFault = false → fld t.dev .resetCause 0 7 0 = 7))) ∧
    (fld d .wakeCtrl 0 5 5 = 1 → d.pwr.mode = .stabled → d.pwr.window = false →
      Makes .beaconDetect s { setFld d .wakeCause 0 3 3 1 with pwr := { d.pwr with wakeDue := sins d.pwr.wakeDue 3 } }) ∧
    (∀ q qs, d.link.rxReg = q :: qs → d.pwr.mode = .standing → pathUp d (q.addr - 0xF000000000) = false →
      Makes .standingAccessWake s { setFld d .wakeCause 0 5 5 1 with
        link := { d.link with rxReg := { q with woke := true } :: qs }, pwr := { d.pwr with wakeDue := sins d.pwr.wakeDue 5 } }) ∧
    (d.pwr.mode = .standing → d.pwr.wakeDue ≠ [] → ∃ t, exec .standingExit s = .next t ∧ t.dev.pwr.mode = .running ∧ t.dev.pwr.wakeDue = [] ∧
      (∀ k ∈ d.pwr.sleep.stopped, (dom d k).st = .gated ∨ domOn d k = true → domOn t.dev k = true)) ∧
    (d.pwr.mode = .stabled → d.pwr.window = false → d.pwr.wakeDue ≠ [] → ∃ t, exec .stabledWake s = .next t ∧ t.dev.pwr.mode = .raising ∧ t.dev.pwr.pwrEn = 11 ∧
      fld t.dev .resetCause 0 7 0 = 8 ∧ t.dev.mem = d.mem)
end

