-- ==== Sys2Proof/Laws/Maps.lean ====
section
/-!
SUPPORT. Laws of the sparse arrays: a read after a write, and the canonical form kept by every write.
-/

namespace Sys2Proof.Machine

variable {α : Type}

@[simp] theorem mget_nil (d : α) (k : Nat) : mget d [] k = d := rfl

theorem mget_mskip_self (d : α) (m : SMap α) (k : Nat) : mget d (mskip k m) k = d := by
  induction m with
  | nil => rfl
  | cons e m ih =>
    obtain ⟨k', v⟩ := e
    simp only [mskip]
    split
    · exact ih
    · simp only [mget]; rw [if_neg (by omega), if_pos (by omega)]

/-- Skipping the keys up to k does not change the value at a key that k does not reach. -/
theorem mget_mskip_gt (d : α) (m : SMap α) {k j : Nat} (h : k < j) : mget d (mskip k m) j = mget d m j := by
  induction m with
  | nil => rfl
  | cons e m ih =>
    obtain ⟨k', v⟩ := e
    simp only [mskip]
    split
    · rw [ih]; simp only [mget]; rw [if_neg (by omega), if_neg (by omega)]
    · rfl

theorem mget_mskip_lt (d : α) (m : SMap α) {k j : Nat} (h : j < k) : mget d (mskip k m) j = d := by
  induction m with
  | nil => rfl
  | cons e m ih =>
    obtain ⟨k', v⟩ := e
    simp only [mskip]
    split
    · exact ih
    · simp only [mget]; rw [if_neg (by omega), if_pos (by omega)]

variable [DecidableEq α]

@[simp] theorem mget_mset_self (d : α) (m : SMap α) (k : Nat) (v : α) : mget d (mset d m k v) k = v := by
  induction m with
  | nil => by_cases h : v = d <;> simp [mset, mget, h]
  | cons e m ih =>
    obtain ⟨k', w⟩ := e
    simp only [mset]
    split
    · split <;> rename_i h1 h2
      · simp [mget, h2, Nat.ne_of_lt h1, h1]
      · simp [mget]
    · split
      · split <;> rename_i h1 h2
        · rw [mget_mskip_self, h2]
        · simp [mget]
      · simp only [mget]; rw [if_neg (by omega), if_neg (by omega), ih]

/-- A write leaves every other key alone, whatever default the reader takes. -/
theorem mget_mset_ne (d' d : α) (m : SMap α) {k j : Nat} (v : α) (h : j ≠ k) : mget d' (mset d m k v) j = mget d' m j := by
  induction m with
  | nil =>
    by_cases hv : v = d
    · simp [mset, hv]
    · simp [mset, hv, mget, h]
  | cons e m ih =>
    obtain ⟨k', w⟩ := e
    simp only [mset]
    split
    · split
      · rfl
      · rename_i h1 h2
        simp only [mget]
        rw [if_neg h]
        split
        · rw [if_neg (by omega), if_pos (by omega)]
        · rfl
    · split
      · rename_i h1 h2
        subst h2
        split
        · rcases Nat.lt_or_gt_of_ne h with hl | hl
          · rw [mget_mskip_lt _ _ hl]; simp only [mget]; rw [if_neg h, if_pos hl]
          · rw [mget_mskip_gt _ _ hl]; simp only [mget]; rw [if_neg h, if_neg (by omega)]
        · simp only [mget]; rw [if_neg h, if_neg h]
      · simp only [mget]; rw [ih]

theorem mget_mset (d : α) (m : SMap α) (k j : Nat) (v : α) : mget d (mset d m k v) j = if j = k then v else mget d m j := by
  split
  · next h => rw [h, mget_mset_self]
  · next h => exact mget_mset_ne d d m v h

@[simp] theorem mget_mmod_self (d : α) (m : SMap α) (k : Nat) (f : α → α) : mget d (mmod d m k f) k = f (mget d m k) := by
  simp [mmod]

theorem mget_mmod_ne (d : α) (m : SMap α) {k j : Nat} (f : α → α) (h : j ≠ k) : mget d (mmod d m k f) j = mget d m j :=
  mget_mset_ne d d m _ h

/-! ## The canonical form -/

/-- Keys of a canonical array lie above its bound, and a lower bound serves as well. -/
theorem mwfFrom_mono (d : α) (m : SMap α) {a b : Nat} (h : mwfFrom d (some b) m = true) (hab : a ≤ b) : mwfFrom d (some a) m = true := by
  cases m with
  | nil => rfl
  | cons e m =>
    obtain ⟨k, v⟩ := e
    simp only [mwfFrom, Bool.and_eq_true, decide_eq_true_eq] at h ⊢
    exact ⟨⟨by omega, h.1.2⟩, h.2⟩

theorem mskip_wf (d : α) (m : SMap α) (k : Nat) (h : mwfFrom d (some k) m = true) : mskip k m = m := by
  cases m with
  | nil => rfl
  | cons e m =>
    obtain ⟨k', v⟩ := e
    simp only [mwfFrom, Bool.and_eq_true, decide_eq_true_eq] at h
    simp only [mskip]; rw [if_neg (by omega)]

/-- A write above the bound keeps the form. -/
theorem mset_wfFrom (d : α) (m : SMap α) (lo : Option Nat) (k : Nat) (v : α) (hlo : ∀ l, lo = some l → l < k) (h : mwfFrom d lo m = true) :
    mwfFrom d lo (mset d m k v) = true := by
  induction m generalizing lo with
  | nil =>
    by_cases hv : v = d
    · simp [mset, hv, mwfFrom]
    · cases lo with
      | none => simp [mset, hv, mwfFrom]
      | some l => simp [mset, hv, mwfFrom, hlo l rfl]
  | cons e m ih =>
    obtain ⟨k', w⟩ := e
    simp only [mwfFrom, Bool.and_eq_true, decide_eq_true_eq] at h
    obtain ⟨⟨h1, h2⟩, h3⟩ := h
    simp only [mset]
    split
    · next hk =>
      split
      · simp only [mwfFrom, Bool.and_eq_true, decide_eq_true_eq]; exact ⟨⟨h1, h2⟩, h3⟩
      · next hv =>
        simp only [mwfFrom, Bool.and_eq_true, decide_eq_true_eq]
        refine ⟨⟨?_, hv⟩, ⟨hk, h2⟩, h3⟩
        cases lo with
        | none => rfl
        | some l => simp [hlo l rfl]
    · next hk =>
      split
      · next hk' =>
        subst hk'
        split
        · rw [mskip_wf d m k h3]
          cases lo with
          | none =>
            cases m with
            | nil => rfl
            | cons e m =>
              obtain ⟨j, u⟩ := e
              simp only [mwfFrom, Bool.and_eq_true, decide_eq_true_eq] at h3 ⊢
              exact ⟨⟨trivial, h3.1.2⟩, h3.2⟩
          | some l => exact mwfFrom_mono d m h3 (Nat.le_of_lt (hlo l rfl))
        · next hv => simp only [mwfFrom, Bool.and_eq_true, decide_eq_true_eq]; exact ⟨⟨h1, hv⟩, h3⟩
      · next hk' =>
        simp only [mwfFrom, Bool.and_eq_true, decide_eq_true_eq]
        refine ⟨⟨h1, h2⟩, ih (some k') ?_ h3⟩
        intro l hl
        cases hl
        omega

@[simp] theorem mset_wf (d : α) (m : SMap α) (k : Nat) (v : α) (h : mwf d m = true) : mwf d (mset d m k v) = true :=
  mset_wfFrom d m none k v (by simp) h

@[simp] theorem mmod_wf (d : α) (m : SMap α) (k : Nat) (f : α → α) (h : mwf d m = true) : mwf d (mmod d m k f) = true :=
  mset_wf d m k _ h

/-- A canonical array stays canonical when entries are dropped. -/
theorem mwfFrom_filter (d : α) (p : Nat × α → Bool) (m : SMap α) (lo : Option Nat) (h : mwfFrom d lo m = true) :
    mwfFrom d lo (m.filter p) = true := by
  induction m generalizing lo with
  | nil => exact h
  | cons e m ih =>
    obtain ⟨k, v⟩ := e
    simp only [mwfFrom, Bool.and_eq_true, decide_eq_true_eq] at h
    obtain ⟨⟨h1, h2⟩, h3⟩ := h
    rw [List.filter_cons]
    split
    · simp only [mwfFrom, Bool.and_eq_true, decide_eq_true_eq]; exact ⟨⟨h1, h2⟩, ih _ h3⟩
    · have h4 := ih _ h3
      cases lo with
      | none =>
        cases hm : m.filter p with
        | nil => rfl
        | cons e' m' =>
          obtain ⟨j, u⟩ := e'
          rw [hm] at h4
          simp only [mwfFrom, Bool.and_eq_true, decide_eq_true_eq] at h4 ⊢
          exact ⟨⟨trivial, h4.1.2⟩, h4.2⟩
      | some l =>
        simp only [decide_eq_true_eq] at h1
        exact mwfFrom_mono d _ h4 (Nat.le_of_lt h1)

theorem mwf_filter (d : α) (p : Nat × α → Bool) (m : SMap α) (h : mwf d m = true) : mwf d (m.filter p) = true :=
  mwfFrom_filter d p m none h

end Sys2Proof.Machine
end

