-- ==== Sys2Proof/Laws/State.lean ====
section
/-!
SUPPORT. One lemma per field of the device and per named update: what the update leaves alone, and what the one field it writes becomes.
-/

namespace Sys2Proof.Machine

variable (d : Dev)

/-! ## setCore -/

@[simp] theorem setCore_cc (n : Nat) (c : Core) : (setCore d n c).cc = d.cc := rfl
@[simp] theorem setCore_fresh (n : Nat) (c : Core) : (setCore d n c).fresh = d.fresh := rfl
@[simp] theorem setCore_regs (n : Nat) (c : Core) : (setCore d n c).regs = d.regs := rfl
@[simp] theorem setCore_mem (n : Nat) (c : Core) : (setCore d n c).mem = d.mem := rfl
@[simp] theorem setCore_badUnits (n : Nat) (c : Core) : (setCore d n c).badUnits = d.badUnits := rfl
@[simp] theorem setCore_softUnits (n : Nat) (c : Core) : (setCore d n c).softUnits = d.softUnits := rfl
@[simp] theorem setCore_pwr (n : Nat) (c : Core) : (setCore d n c).pwr = d.pwr := rfl
@[simp] theorem setCore_keys (n : Nat) (c : Core) : (setCore d n c).keys = d.keys := rfl
@[simp] theorem setCore_link (n : Nat) (c : Core) : (setCore d n c).link = d.link := rfl
@[simp] theorem setCore_ports (n : Nat) (c : Core) : (setCore d n c).ports = d.ports := rfl
@[simp] theorem setCore_ring (n : Nat) (c : Core) : (setCore d n c).ring = d.ring := rfl
@[simp] theorem setCore_handles (n : Nat) (c : Core) : (setCore d n c).handles = d.handles := rfl
@[simp] theorem setCore_consists (n : Nat) (c : Core) : (setCore d n c).consists = d.consists := rfl
@[simp] theorem setCore_disp (n : Nat) (c : Core) : (setCore d n c).disp = d.disp := rfl
@[simp] theorem setCore_cache (n : Nat) (c : Core) : (setCore d n c).cache = d.cache := rfl
@[simp] theorem setCore_mc (n : Nat) (c : Core) : (setCore d n c).mc = d.mc := rfl
@[simp] theorem setCore_planes (n : Nat) (c : Core) : (setCore d n c).planes = d.planes := rfl
@[simp] theorem setCore_junc (n : Nat) (c : Core) : (setCore d n c).junc = d.junc := rfl
@[simp] theorem setCore_hump (n : Nat) (c : Core) : (setCore d n c).hump = d.hump := rfl
@[simp] theorem setCore_shunt (n : Nat) (c : Core) : (setCore d n c).shunt = d.shunt := rfl
@[simp] theorem setCore_sbox (n : Nat) (c : Core) : (setCore d n c).sbox = d.sbox := rfl
@[simp] theorem setCore_nv (n : Nat) (c : Core) : (setCore d n c).nv = d.nv := rfl
@[simp] theorem setCore_tap (n : Nat) (c : Core) : (setCore d n c).tap = d.tap := rfl

/-! ## modCore -/

@[simp] theorem modCore_cc (n : Nat) (f : Core → Core) : (modCore d n f).cc = d.cc := rfl
@[simp] theorem modCore_fresh (n : Nat) (f : Core → Core) : (modCore d n f).fresh = d.fresh := rfl
@[simp] theorem modCore_regs (n : Nat) (f : Core → Core) : (modCore d n f).regs = d.regs := rfl
@[simp] theorem modCore_mem (n : Nat) (f : Core → Core) : (modCore d n f).mem = d.mem := rfl
@[simp] theorem modCore_badUnits (n : Nat) (f : Core → Core) : (modCore d n f).badUnits = d.badUnits := rfl
@[simp] theorem modCore_softUnits (n : Nat) (f : Core → Core) : (modCore d n f).softUnits = d.softUnits := rfl
@[simp] theorem modCore_pwr (n : Nat) (f : Core → Core) : (modCore d n f).pwr = d.pwr := rfl
@[simp] theorem modCore_keys (n : Nat) (f : Core → Core) : (modCore d n f).keys = d.keys := rfl
@[simp] theorem modCore_link (n : Nat) (f : Core → Core) : (modCore d n f).link = d.link := rfl
@[simp] theorem modCore_ports (n : Nat) (f : Core → Core) : (modCore d n f).ports = d.ports := rfl
@[simp] theorem modCore_ring (n : Nat) (f : Core → Core) : (modCore d n f).ring = d.ring := rfl
@[simp] theorem modCore_handles (n : Nat) (f : Core → Core) : (modCore d n f).handles = d.handles := rfl
@[simp] theorem modCore_consists (n : Nat) (f : Core → Core) : (modCore d n f).consists = d.consists := rfl
@[simp] theorem modCore_disp (n : Nat) (f : Core → Core) : (modCore d n f).disp = d.disp := rfl
@[simp] theorem modCore_cache (n : Nat) (f : Core → Core) : (modCore d n f).cache = d.cache := rfl
@[simp] theorem modCore_mc (n : Nat) (f : Core → Core) : (modCore d n f).mc = d.mc := rfl
@[simp] theorem modCore_planes (n : Nat) (f : Core → Core) : (modCore d n f).planes = d.planes := rfl
@[simp] theorem modCore_junc (n : Nat) (f : Core → Core) : (modCore d n f).junc = d.junc := rfl
@[simp] theorem modCore_hump (n : Nat) (f : Core → Core) : (modCore d n f).hump = d.hump := rfl
@[simp] theorem modCore_shunt (n : Nat) (f : Core → Core) : (modCore d n f).shunt = d.shunt := rfl
@[simp] theorem modCore_sbox (n : Nat) (f : Core → Core) : (modCore d n f).sbox = d.sbox := rfl
@[simp] theorem modCore_nv (n : Nat) (f : Core → Core) : (modCore d n f).nv = d.nv := rfl
@[simp] theorem modCore_tap (n : Nat) (f : Core → Core) : (modCore d n f).tap = d.tap := rfl

/-! ## setConsist -/

@[simp] theorem setConsist_cc (k : Nat) (v : Consist) : (setConsist d k v).cc = d.cc := rfl
@[simp] theorem setConsist_fresh (k : Nat) (v : Consist) : (setConsist d k v).fresh = d.fresh := rfl
@[simp] theorem setConsist_regs (k : Nat) (v : Consist) : (setConsist d k v).regs = d.regs := rfl
@[simp] theorem setConsist_mem (k : Nat) (v : Consist) : (setConsist d k v).mem = d.mem := rfl
@[simp] theorem setConsist_badUnits (k : Nat) (v : Consist) : (setConsist d k v).badUnits = d.badUnits := rfl
@[simp] theorem setConsist_softUnits (k : Nat) (v : Consist) : (setConsist d k v).softUnits = d.softUnits := rfl
@[simp] theorem setConsist_pwr (k : Nat) (v : Consist) : (setConsist d k v).pwr = d.pwr := rfl
@[simp] theorem setConsist_keys (k : Nat) (v : Consist) : (setConsist d k v).keys = d.keys := rfl
@[simp] theorem setConsist_link (k : Nat) (v : Consist) : (setConsist d k v).link = d.link := rfl
@[simp] theorem setConsist_ports (k : Nat) (v : Consist) : (setConsist d k v).ports = d.ports := rfl
@[simp] theorem setConsist_ring (k : Nat) (v : Consist) : (setConsist d k v).ring = d.ring := rfl
@[simp] theorem setConsist_handles (k : Nat) (v : Consist) : (setConsist d k v).handles = d.handles := rfl
@[simp] theorem setConsist_disp (k : Nat) (v : Consist) : (setConsist d k v).disp = d.disp := rfl
@[simp] theorem setConsist_cache (k : Nat) (v : Consist) : (setConsist d k v).cache = d.cache := rfl
@[simp] theorem setConsist_cores (k : Nat) (v : Consist) : (setConsist d k v).cores = d.cores := rfl
@[simp] theorem setConsist_mc (k : Nat) (v : Consist) : (setConsist d k v).mc = d.mc := rfl
@[simp] theorem setConsist_planes (k : Nat) (v : Consist) : (setConsist d k v).planes = d.planes := rfl
@[simp] theorem setConsist_junc (k : Nat) (v : Consist) : (setConsist d k v).junc = d.junc := rfl
@[simp] theorem setConsist_hump (k : Nat) (v : Consist) : (setConsist d k v).hump = d.hump := rfl
@[simp] theorem setConsist_shunt (k : Nat) (v : Consist) : (setConsist d k v).shunt = d.shunt := rfl
@[simp] theorem setConsist_sbox (k : Nat) (v : Consist) : (setConsist d k v).sbox = d.sbox := rfl
@[simp] theorem setConsist_nv (k : Nat) (v : Consist) : (setConsist d k v).nv = d.nv := rfl
@[simp] theorem setConsist_tap (k : Nat) (v : Consist) : (setConsist d k v).tap = d.tap := rfl

/-! ## modConsist -/

@[simp] theorem modConsist_cc (k : Nat) (f : Consist → Consist) : (modConsist d k f).cc = d.cc := rfl
@[simp] theorem modConsist_fresh (k : Nat) (f : Consist → Consist) : (modConsist d k f).fresh = d.fresh := rfl
@[simp] theorem modConsist_regs (k : Nat) (f : Consist → Consist) : (modConsist d k f).regs = d.regs := rfl
@[simp] theorem modConsist_mem (k : Nat) (f : Consist → Consist) : (modConsist d k f).mem = d.mem := rfl
@[simp] theorem modConsist_badUnits (k : Nat) (f : Consist → Consist) : (modConsist d k f).badUnits = d.badUnits := rfl
@[simp] theorem modConsist_softUnits (k : Nat) (f : Consist → Consist) : (modConsist d k f).softUnits = d.softUnits := rfl
@[simp] theorem modConsist_pwr (k : Nat) (f : Consist → Consist) : (modConsist d k f).pwr = d.pwr := rfl
@[simp] theorem modConsist_keys (k : Nat) (f : Consist → Consist) : (modConsist d k f).keys = d.keys := rfl
@[simp] theorem modConsist_link (k : Nat) (f : Consist → Consist) : (modConsist d k f).link = d.link := rfl
@[simp] theorem modConsist_ports (k : Nat) (f : Consist → Consist) : (modConsist d k f).ports = d.ports := rfl
@[simp] theorem modConsist_ring (k : Nat) (f : Consist → Consist) : (modConsist d k f).ring = d.ring := rfl
@[simp] theorem modConsist_handles (k : Nat) (f : Consist → Consist) : (modConsist d k f).handles = d.handles := rfl
@[simp] theorem modConsist_disp (k : Nat) (f : Consist → Consist) : (modConsist d k f).disp = d.disp := rfl
@[simp] theorem modConsist_cache (k : Nat) (f : Consist → Consist) : (modConsist d k f).cache = d.cache := rfl
@[simp] theorem modConsist_cores (k : Nat) (f : Consist → Consist) : (modConsist d k f).cores = d.cores := rfl
@[simp] theorem modConsist_mc (k : Nat) (f : Consist → Consist) : (modConsist d k f).mc = d.mc := rfl
@[simp] theorem modConsist_planes (k : Nat) (f : Consist → Consist) : (modConsist d k f).planes = d.planes := rfl
@[simp] theorem modConsist_junc (k : Nat) (f : Consist → Consist) : (modConsist d k f).junc = d.junc := rfl
@[simp] theorem modConsist_hump (k : Nat) (f : Consist → Consist) : (modConsist d k f).hump = d.hump := rfl
@[simp] theorem modConsist_shunt (k : Nat) (f : Consist → Consist) : (modConsist d k f).shunt = d.shunt := rfl
@[simp] theorem modConsist_sbox (k : Nat) (f : Consist → Consist) : (modConsist d k f).sbox = d.sbox := rfl
@[simp] theorem modConsist_nv (k : Nat) (f : Consist → Consist) : (modConsist d k f).nv = d.nv := rfl
@[simp] theorem modConsist_tap (k : Nat) (f : Consist → Consist) : (modConsist d k f).tap = d.tap := rfl

/-! ## wr -/

@[simp] theorem wr_cc (r : Reg) (i : Nat) (v : Word) : (wr d r i v).cc = d.cc := rfl
@[simp] theorem wr_fresh (r : Reg) (i : Nat) (v : Word) : (wr d r i v).fresh = d.fresh := rfl
@[simp] theorem wr_mem (r : Reg) (i : Nat) (v : Word) : (wr d r i v).mem = d.mem := rfl
@[simp] theorem wr_badUnits (r : Reg) (i : Nat) (v : Word) : (wr d r i v).badUnits = d.badUnits := rfl
@[simp] theorem wr_softUnits (r : Reg) (i : Nat) (v : Word) : (wr d r i v).softUnits = d.softUnits := rfl
@[simp] theorem wr_pwr (r : Reg) (i : Nat) (v : Word) : (wr d r i v).pwr = d.pwr := rfl
@[simp] theorem wr_keys (r : Reg) (i : Nat) (v : Word) : (wr d r i v).keys = d.keys := rfl
@[simp] theorem wr_link (r : Reg) (i : Nat) (v : Word) : (wr d r i v).link = d.link := rfl
@[simp] theorem wr_ports (r : Reg) (i : Nat) (v : Word) : (wr d r i v).ports = d.ports := rfl
@[simp] theorem wr_ring (r : Reg) (i : Nat) (v : Word) : (wr d r i v).ring = d.ring := rfl
@[simp] theorem wr_handles (r : Reg) (i : Nat) (v : Word) : (wr d r i v).handles = d.handles := rfl
@[simp] theorem wr_consists (r : Reg) (i : Nat) (v : Word) : (wr d r i v).consists = d.consists := rfl
@[simp] theorem wr_disp (r : Reg) (i : Nat) (v : Word) : (wr d r i v).disp = d.disp := rfl
@[simp] theorem wr_cache (r : Reg) (i : Nat) (v : Word) : (wr d r i v).cache = d.cache := rfl
@[simp] theorem wr_cores (r : Reg) (i : Nat) (v : Word) : (wr d r i v).cores = d.cores := rfl
@[simp] theorem wr_mc (r : Reg) (i : Nat) (v : Word) : (wr d r i v).mc = d.mc := rfl
@[simp] theorem wr_planes (r : Reg) (i : Nat) (v : Word) : (wr d r i v).planes = d.planes := rfl
@[simp] theorem wr_junc (r : Reg) (i : Nat) (v : Word) : (wr d r i v).junc = d.junc := rfl
@[simp] theorem wr_hump (r : Reg) (i : Nat) (v : Word) : (wr d r i v).hump = d.hump := rfl
@[simp] theorem wr_shunt (r : Reg) (i : Nat) (v : Word) : (wr d r i v).shunt = d.shunt := rfl
@[simp] theorem wr_sbox (r : Reg) (i : Nat) (v : Word) : (wr d r i v).sbox = d.sbox := rfl
@[simp] theorem wr_nv (r : Reg) (i : Nat) (v : Word) : (wr d r i v).nv = d.nv := rfl
@[simp] theorem wr_tap (r : Reg) (i : Nat) (v : Word) : (wr d r i v).tap = d.tap := rfl

/-! ## setFld -/

@[simp] theorem setFld_cc (r : Reg) (i hi lo v : Nat) : (setFld d r i hi lo v).cc = d.cc := rfl
@[simp] theorem setFld_fresh (r : Reg) (i hi lo v : Nat) : (setFld d r i hi lo v).fresh = d.fresh := rfl
@[simp] theorem setFld_mem (r : Reg) (i hi lo v : Nat) : (setFld d r i hi lo v).mem = d.mem := rfl
@[simp] theorem setFld_badUnits (r : Reg) (i hi lo v : Nat) : (setFld d r i hi lo v).badUnits = d.badUnits := rfl
@[simp] theorem setFld_softUnits (r : Reg) (i hi lo v : Nat) : (setFld d r i hi lo v).softUnits = d.softUnits := rfl
@[simp] theorem setFld_pwr (r : Reg) (i hi lo v : Nat) : (setFld d r i hi lo v).pwr = d.pwr := rfl
@[simp] theorem setFld_keys (r : Reg) (i hi lo v : Nat) : (setFld d r i hi lo v).keys = d.keys := rfl
@[simp] theorem setFld_link (r : Reg) (i hi lo v : Nat) : (setFld d r i hi lo v).link = d.link := rfl
@[simp] theorem setFld_ports (r : Reg) (i hi lo v : Nat) : (setFld d r i hi lo v).ports = d.ports := rfl
@[simp] theorem setFld_ring (r : Reg) (i hi lo v : Nat) : (setFld d r i hi lo v).ring = d.ring := rfl
@[simp] theorem setFld_handles (r : Reg) (i hi lo v : Nat) : (setFld d r i hi lo v).handles = d.handles := rfl
@[simp] theorem setFld_consists (r : Reg) (i hi lo v : Nat) : (setFld d r i hi lo v).consists = d.consists := rfl
@[simp] theorem setFld_disp (r : Reg) (i hi lo v : Nat) : (setFld d r i hi lo v).disp = d.disp := rfl
@[simp] theorem setFld_cache (r : Reg) (i hi lo v : Nat) : (setFld d r i hi lo v).cache = d.cache := rfl
@[simp] theorem setFld_cores (r : Reg) (i hi lo v : Nat) : (setFld d r i hi lo v).cores = d.cores := rfl
@[simp] theorem setFld_mc (r : Reg) (i hi lo v : Nat) : (setFld d r i hi lo v).mc = d.mc := rfl
@[simp] theorem setFld_planes (r : Reg) (i hi lo v : Nat) : (setFld d r i hi lo v).planes = d.planes := rfl
@[simp] theorem setFld_junc (r : Reg) (i hi lo v : Nat) : (setFld d r i hi lo v).junc = d.junc := rfl
@[simp] theorem setFld_hump (r : Reg) (i hi lo v : Nat) : (setFld d r i hi lo v).hump = d.hump := rfl
@[simp] theorem setFld_shunt (r : Reg) (i hi lo v : Nat) : (setFld d r i hi lo v).shunt = d.shunt := rfl
@[simp] theorem setFld_sbox (r : Reg) (i hi lo v : Nat) : (setFld d r i hi lo v).sbox = d.sbox := rfl
@[simp] theorem setFld_nv (r : Reg) (i hi lo v : Nat) : (setFld d r i hi lo v).nv = d.nv := rfl
@[simp] theorem setFld_tap (r : Reg) (i hi lo v : Nat) : (setFld d r i hi lo v).tap = d.tap := rfl

/-! ## bumpN -/

@[simp] theorem bumpN_cc (r : Reg) (i n : Nat) : (bumpN d r i n).cc = d.cc := rfl
@[simp] theorem bumpN_fresh (r : Reg) (i n : Nat) : (bumpN d r i n).fresh = d.fresh := rfl
@[simp] theorem bumpN_mem (r : Reg) (i n : Nat) : (bumpN d r i n).mem = d.mem := rfl
@[simp] theorem bumpN_badUnits (r : Reg) (i n : Nat) : (bumpN d r i n).badUnits = d.badUnits := rfl
@[simp] theorem bumpN_softUnits (r : Reg) (i n : Nat) : (bumpN d r i n).softUnits = d.softUnits := rfl
@[simp] theorem bumpN_pwr (r : Reg) (i n : Nat) : (bumpN d r i n).pwr = d.pwr := rfl
@[simp] theorem bumpN_keys (r : Reg) (i n : Nat) : (bumpN d r i n).keys = d.keys := rfl
@[simp] theorem bumpN_link (r : Reg) (i n : Nat) : (bumpN d r i n).link = d.link := rfl
@[simp] theorem bumpN_ports (r : Reg) (i n : Nat) : (bumpN d r i n).ports = d.ports := rfl
@[simp] theorem bumpN_ring (r : Reg) (i n : Nat) : (bumpN d r i n).ring = d.ring := rfl
@[simp] theorem bumpN_handles (r : Reg) (i n : Nat) : (bumpN d r i n).handles = d.handles := rfl
@[simp] theorem bumpN_consists (r : Reg) (i n : Nat) : (bumpN d r i n).consists = d.consists := rfl
@[simp] theorem bumpN_disp (r : Reg) (i n : Nat) : (bumpN d r i n).disp = d.disp := rfl
@[simp] theorem bumpN_cache (r : Reg) (i n : Nat) : (bumpN d r i n).cache = d.cache := rfl
@[simp] theorem bumpN_cores (r : Reg) (i n : Nat) : (bumpN d r i n).cores = d.cores := rfl
@[simp] theorem bumpN_mc (r : Reg) (i n : Nat) : (bumpN d r i n).mc = d.mc := rfl
@[simp] theorem bumpN_planes (r : Reg) (i n : Nat) : (bumpN d r i n).planes = d.planes := rfl
@[simp] theorem bumpN_junc (r : Reg) (i n : Nat) : (bumpN d r i n).junc = d.junc := rfl
@[simp] theorem bumpN_hump (r : Reg) (i n : Nat) : (bumpN d r i n).hump = d.hump := rfl
@[simp] theorem bumpN_shunt (r : Reg) (i n : Nat) : (bumpN d r i n).shunt = d.shunt := rfl
@[simp] theorem bumpN_sbox (r : Reg) (i n : Nat) : (bumpN d r i n).sbox = d.sbox := rfl
@[simp] theorem bumpN_nv (r : Reg) (i n : Nat) : (bumpN d r i n).nv = d.nv := rfl
@[simp] theorem bumpN_tap (r : Reg) (i n : Nat) : (bumpN d r i n).tap = d.tap := rfl

/-! ## bump -/

@[simp] theorem bump_cc (r : Reg) (i : Nat) : (bump d r i).cc = d.cc := rfl
@[simp] theorem bump_fresh (r : Reg) (i : Nat) : (bump d r i).fresh = d.fresh := rfl
@[simp] theorem bump_mem (r : Reg) (i : Nat) : (bump d r i).mem = d.mem := rfl
@[simp] theorem bump_badUnits (r : Reg) (i : Nat) : (bump d r i).badUnits = d.badUnits := rfl
@[simp] theorem bump_softUnits (r : Reg) (i : Nat) : (bump d r i).softUnits = d.softUnits := rfl
@[simp] theorem bump_pwr (r : Reg) (i : Nat) : (bump d r i).pwr = d.pwr := rfl
@[simp] theorem bump_keys (r : Reg) (i : Nat) : (bump d r i).keys = d.keys := rfl
@[simp] theorem bump_link (r : Reg) (i : Nat) : (bump d r i).link = d.link := rfl
@[simp] theorem bump_ports (r : Reg) (i : Nat) : (bump d r i).ports = d.ports := rfl
@[simp] theorem bump_ring (r : Reg) (i : Nat) : (bump d r i).ring = d.ring := rfl
@[simp] theorem bump_handles (r : Reg) (i : Nat) : (bump d r i).handles = d.handles := rfl
@[simp] theorem bump_consists (r : Reg) (i : Nat) : (bump d r i).consists = d.consists := rfl
@[simp] theorem bump_disp (r : Reg) (i : Nat) : (bump d r i).disp = d.disp := rfl
@[simp] theorem bump_cache (r : Reg) (i : Nat) : (bump d r i).cache = d.cache := rfl
@[simp] theorem bump_cores (r : Reg) (i : Nat) : (bump d r i).cores = d.cores := rfl
@[simp] theorem bump_mc (r : Reg) (i : Nat) : (bump d r i).mc = d.mc := rfl
@[simp] theorem bump_planes (r : Reg) (i : Nat) : (bump d r i).planes = d.planes := rfl
@[simp] theorem bump_junc (r : Reg) (i : Nat) : (bump d r i).junc = d.junc := rfl
@[simp] theorem bump_hump (r : Reg) (i : Nat) : (bump d r i).hump = d.hump := rfl
@[simp] theorem bump_shunt (r : Reg) (i : Nat) : (bump d r i).shunt = d.shunt := rfl
@[simp] theorem bump_sbox (r : Reg) (i : Nat) : (bump d r i).sbox = d.sbox := rfl
@[simp] theorem bump_nv (r : Reg) (i : Nat) : (bump d r i).nv = d.nv := rfl
@[simp] theorem bump_tap (r : Reg) (i : Nat) : (bump d r i).tap = d.tap := rfl

/-! ## setPort -/

@[simp] theorem setPort_cc (p : Nat) (v : Port) : (setPort d p v).cc = d.cc := rfl
@[simp] theorem setPort_fresh (p : Nat) (v : Port) : (setPort d p v).fresh = d.fresh := rfl
@[simp] theorem setPort_regs (p : Nat) (v : Port) : (setPort d p v).regs = d.regs := rfl
@[simp] theorem setPort_mem (p : Nat) (v : Port) : (setPort d p v).mem = d.mem := rfl
@[simp] theorem setPort_badUnits (p : Nat) (v : Port) : (setPort d p v).badUnits = d.badUnits := rfl
@[simp] theorem setPort_softUnits (p : Nat) (v : Port) : (setPort d p v).softUnits = d.softUnits := rfl
@[simp] theorem setPort_pwr (p : Nat) (v : Port) : (setPort d p v).pwr = d.pwr := rfl
@[simp] theorem setPort_keys (p : Nat) (v : Port) : (setPort d p v).keys = d.keys := rfl
@[simp] theorem setPort_link (p : Nat) (v : Port) : (setPort d p v).link = d.link := rfl
@[simp] theorem setPort_ring (p : Nat) (v : Port) : (setPort d p v).ring = d.ring := rfl
@[simp] theorem setPort_handles (p : Nat) (v : Port) : (setPort d p v).handles = d.handles := rfl
@[simp] theorem setPort_consists (p : Nat) (v : Port) : (setPort d p v).consists = d.consists := rfl
@[simp] theorem setPort_disp (p : Nat) (v : Port) : (setPort d p v).disp = d.disp := rfl
@[simp] theorem setPort_cache (p : Nat) (v : Port) : (setPort d p v).cache = d.cache := rfl
@[simp] theorem setPort_cores (p : Nat) (v : Port) : (setPort d p v).cores = d.cores := rfl
@[simp] theorem setPort_mc (p : Nat) (v : Port) : (setPort d p v).mc = d.mc := rfl
@[simp] theorem setPort_planes (p : Nat) (v : Port) : (setPort d p v).planes = d.planes := rfl
@[simp] theorem setPort_junc (p : Nat) (v : Port) : (setPort d p v).junc = d.junc := rfl
@[simp] theorem setPort_hump (p : Nat) (v : Port) : (setPort d p v).hump = d.hump := rfl
@[simp] theorem setPort_shunt (p : Nat) (v : Port) : (setPort d p v).shunt = d.shunt := rfl
@[simp] theorem setPort_sbox (p : Nat) (v : Port) : (setPort d p v).sbox = d.sbox := rfl
@[simp] theorem setPort_nv (p : Nat) (v : Port) : (setPort d p v).nv = d.nv := rfl
@[simp] theorem setPort_tap (p : Nat) (v : Port) : (setPort d p v).tap = d.tap := rfl

/-! ## setDom -/

@[simp] theorem setDom_cc (k : Nat) (v : Dom) : (setDom d k v).cc = d.cc := rfl
@[simp] theorem setDom_fresh (k : Nat) (v : Dom) : (setDom d k v).fresh = d.fresh := rfl
@[simp] theorem setDom_mem (k : Nat) (v : Dom) : (setDom d k v).mem = d.mem := rfl
@[simp] theorem setDom_badUnits (k : Nat) (v : Dom) : (setDom d k v).badUnits = d.badUnits := rfl
@[simp] theorem setDom_softUnits (k : Nat) (v : Dom) : (setDom d k v).softUnits = d.softUnits := rfl
@[simp] theorem setDom_keys (k : Nat) (v : Dom) : (setDom d k v).keys = d.keys := rfl
@[simp] theorem setDom_link (k : Nat) (v : Dom) : (setDom d k v).link = d.link := rfl
@[simp] theorem setDom_ports (k : Nat) (v : Dom) : (setDom d k v).ports = d.ports := rfl
@[simp] theorem setDom_ring (k : Nat) (v : Dom) : (setDom d k v).ring = d.ring := rfl
@[simp] theorem setDom_handles (k : Nat) (v : Dom) : (setDom d k v).handles = d.handles := rfl
@[simp] theorem setDom_consists (k : Nat) (v : Dom) : (setDom d k v).consists = d.consists := rfl
@[simp] theorem setDom_disp (k : Nat) (v : Dom) : (setDom d k v).disp = d.disp := rfl
@[simp] theorem setDom_cache (k : Nat) (v : Dom) : (setDom d k v).cache = d.cache := rfl
@[simp] theorem setDom_cores (k : Nat) (v : Dom) : (setDom d k v).cores = d.cores := rfl
@[simp] theorem setDom_mc (k : Nat) (v : Dom) : (setDom d k v).mc = d.mc := rfl
@[simp] theorem setDom_planes (k : Nat) (v : Dom) : (setDom d k v).planes = d.planes := rfl
@[simp] theorem setDom_junc (k : Nat) (v : Dom) : (setDom d k v).junc = d.junc := rfl
@[simp] theorem setDom_hump (k : Nat) (v : Dom) : (setDom d k v).hump = d.hump := rfl
@[simp] theorem setDom_shunt (k : Nat) (v : Dom) : (setDom d k v).shunt = d.shunt := rfl
@[simp] theorem setDom_sbox (k : Nat) (v : Dom) : (setDom d k v).sbox = d.sbox := rfl
@[simp] theorem setDom_nv (k : Nat) (v : Dom) : (setDom d k v).nv = d.nv := rfl
@[simp] theorem setDom_tap (k : Nat) (v : Dom) : (setDom d k v).tap = d.tap := rfl

/-! ## setCtx -/

@[simp] theorem setCtx_cc (p r : Nat) (v : RingCtx) : (setCtx d p r v).cc = d.cc := rfl
@[simp] theorem setCtx_fresh (p r : Nat) (v : RingCtx) : (setCtx d p r v).fresh = d.fresh := rfl
@[simp] theorem setCtx_regs (p r : Nat) (v : RingCtx) : (setCtx d p r v).regs = d.regs := rfl
@[simp] theorem setCtx_mem (p r : Nat) (v : RingCtx) : (setCtx d p r v).mem = d.mem := rfl
@[simp] theorem setCtx_badUnits (p r : Nat) (v : RingCtx) : (setCtx d p r v).badUnits = d.badUnits := rfl
@[simp] theorem setCtx_softUnits (p r : Nat) (v : RingCtx) : (setCtx d p r v).softUnits = d.softUnits := rfl
@[simp] theorem setCtx_pwr (p r : Nat) (v : RingCtx) : (setCtx d p r v).pwr = d.pwr := rfl
@[simp] theorem setCtx_keys (p r : Nat) (v : RingCtx) : (setCtx d p r v).keys = d.keys := rfl
@[simp] theorem setCtx_link (p r : Nat) (v : RingCtx) : (setCtx d p r v).link = d.link := rfl
@[simp] theorem setCtx_ports (p r : Nat) (v : RingCtx) : (setCtx d p r v).ports = d.ports := rfl
@[simp] theorem setCtx_handles (p r : Nat) (v : RingCtx) : (setCtx d p r v).handles = d.handles := rfl
@[simp] theorem setCtx_consists (p r : Nat) (v : RingCtx) : (setCtx d p r v).consists = d.consists := rfl
@[simp] theorem setCtx_disp (p r : Nat) (v : RingCtx) : (setCtx d p r v).disp = d.disp := rfl
@[simp] theorem setCtx_cache (p r : Nat) (v : RingCtx) : (setCtx d p r v).cache = d.cache := rfl
@[simp] theorem setCtx_cores (p r : Nat) (v : RingCtx) : (setCtx d p r v).cores = d.cores := rfl
@[simp] theorem setCtx_mc (p r : Nat) (v : RingCtx) : (setCtx d p r v).mc = d.mc := rfl
@[simp] theorem setCtx_planes (p r : Nat) (v : RingCtx) : (setCtx d p r v).planes = d.planes := rfl
@[simp] theorem setCtx_junc (p r : Nat) (v : RingCtx) : (setCtx d p r v).junc = d.junc := rfl
@[simp] theorem setCtx_hump (p r : Nat) (v : RingCtx) : (setCtx d p r v).hump = d.hump := rfl
@[simp] theorem setCtx_shunt (p r : Nat) (v : RingCtx) : (setCtx d p r v).shunt = d.shunt := rfl
@[simp] theorem setCtx_sbox (p r : Nat) (v : RingCtx) : (setCtx d p r v).sbox = d.sbox := rfl
@[simp] theorem setCtx_nv (p r : Nat) (v : RingCtx) : (setCtx d p r v).nv = d.nv := rfl
@[simp] theorem setCtx_tap (p r : Nat) (v : RingCtx) : (setCtx d p r v).tap = d.tap := rfl

/-! ## setSlot -/

@[simp] theorem setSlot_cc (p r : Nat) (v : RingSlot) : (setSlot d p r v).cc = d.cc := rfl
@[simp] theorem setSlot_fresh (p r : Nat) (v : RingSlot) : (setSlot d p r v).fresh = d.fresh := rfl
@[simp] theorem setSlot_regs (p r : Nat) (v : RingSlot) : (setSlot d p r v).regs = d.regs := rfl
@[simp] theorem setSlot_mem (p r : Nat) (v : RingSlot) : (setSlot d p r v).mem = d.mem := rfl
@[simp] theorem setSlot_badUnits (p r : Nat) (v : RingSlot) : (setSlot d p r v).badUnits = d.badUnits := rfl
@[simp] theorem setSlot_softUnits (p r : Nat) (v : RingSlot) : (setSlot d p r v).softUnits = d.softUnits := rfl
@[simp] theorem setSlot_pwr (p r : Nat) (v : RingSlot) : (setSlot d p r v).pwr = d.pwr := rfl
@[simp] theorem setSlot_keys (p r : Nat) (v : RingSlot) : (setSlot d p r v).keys = d.keys := rfl
@[simp] theorem setSlot_link (p r : Nat) (v : RingSlot) : (setSlot d p r v).link = d.link := rfl
@[simp] theorem setSlot_ports (p r : Nat) (v : RingSlot) : (setSlot d p r v).ports = d.ports := rfl
@[simp] theorem setSlot_handles (p r : Nat) (v : RingSlot) : (setSlot d p r v).handles = d.handles := rfl
@[simp] theorem setSlot_consists (p r : Nat) (v : RingSlot) : (setSlot d p r v).consists = d.consists := rfl
@[simp] theorem setSlot_disp (p r : Nat) (v : RingSlot) : (setSlot d p r v).disp = d.disp := rfl
@[simp] theorem setSlot_cache (p r : Nat) (v : RingSlot) : (setSlot d p r v).cache = d.cache := rfl
@[simp] theorem setSlot_cores (p r : Nat) (v : RingSlot) : (setSlot d p r v).cores = d.cores := rfl
@[simp] theorem setSlot_mc (p r : Nat) (v : RingSlot) : (setSlot d p r v).mc = d.mc := rfl
@[simp] theorem setSlot_planes (p r : Nat) (v : RingSlot) : (setSlot d p r v).planes = d.planes := rfl
@[simp] theorem setSlot_junc (p r : Nat) (v : RingSlot) : (setSlot d p r v).junc = d.junc := rfl
@[simp] theorem setSlot_hump (p r : Nat) (v : RingSlot) : (setSlot d p r v).hump = d.hump := rfl
@[simp] theorem setSlot_shunt (p r : Nat) (v : RingSlot) : (setSlot d p r v).shunt = d.shunt := rfl
@[simp] theorem setSlot_sbox (p r : Nat) (v : RingSlot) : (setSlot d p r v).sbox = d.sbox := rfl
@[simp] theorem setSlot_nv (p r : Nat) (v : RingSlot) : (setSlot d p r v).nv = d.nv := rfl
@[simp] theorem setSlot_tap (p r : Nat) (v : RingSlot) : (setSlot d p r v).tap = d.tap := rfl

/-! ## setMc -/

@[simp] theorem setMc_cc (ch : Nat) (v : McChan) : (setMc d ch v).cc = d.cc := rfl
@[simp] theorem setMc_fresh (ch : Nat) (v : McChan) : (setMc d ch v).fresh = d.fresh := rfl
@[simp] theorem setMc_regs (ch : Nat) (v : McChan) : (setMc d ch v).regs = d.regs := rfl
@[simp] theorem setMc_mem (ch : Nat) (v : McChan) : (setMc d ch v).mem = d.mem := rfl
@[simp] theorem setMc_badUnits (ch : Nat) (v : McChan) : (setMc d ch v).badUnits = d.badUnits := rfl
@[simp] theorem setMc_softUnits (ch : Nat) (v : McChan) : (setMc d ch v).softUnits = d.softUnits := rfl
@[simp] theorem setMc_pwr (ch : Nat) (v : McChan) : (setMc d ch v).pwr = d.pwr := rfl
@[simp] theorem setMc_keys (ch : Nat) (v : McChan) : (setMc d ch v).keys = d.keys := rfl
@[simp] theorem setMc_link (ch : Nat) (v : McChan) : (setMc d ch v).link = d.link := rfl
@[simp] theorem setMc_ports (ch : Nat) (v : McChan) : (setMc d ch v).ports = d.ports := rfl
@[simp] theorem setMc_ring (ch : Nat) (v : McChan) : (setMc d ch v).ring = d.ring := rfl
@[simp] theorem setMc_handles (ch : Nat) (v : McChan) : (setMc d ch v).handles = d.handles := rfl
@[simp] theorem setMc_consists (ch : Nat) (v : McChan) : (setMc d ch v).consists = d.consists := rfl
@[simp] theorem setMc_disp (ch : Nat) (v : McChan) : (setMc d ch v).disp = d.disp := rfl
@[simp] theorem setMc_cache (ch : Nat) (v : McChan) : (setMc d ch v).cache = d.cache := rfl
@[simp] theorem setMc_cores (ch : Nat) (v : McChan) : (setMc d ch v).cores = d.cores := rfl
@[simp] theorem setMc_planes (ch : Nat) (v : McChan) : (setMc d ch v).planes = d.planes := rfl
@[simp] theorem setMc_junc (ch : Nat) (v : McChan) : (setMc d ch v).junc = d.junc := rfl
@[simp] theorem setMc_hump (ch : Nat) (v : McChan) : (setMc d ch v).hump = d.hump := rfl
@[simp] theorem setMc_shunt (ch : Nat) (v : McChan) : (setMc d ch v).shunt = d.shunt := rfl
@[simp] theorem setMc_sbox (ch : Nat) (v : McChan) : (setMc d ch v).sbox = d.sbox := rfl
@[simp] theorem setMc_nv (ch : Nat) (v : McChan) : (setMc d ch v).nv = d.nv := rfl
@[simp] theorem setMc_tap (ch : Nat) (v : McChan) : (setMc d ch v).tap = d.tap := rfl

/-! ## setMcState -/

@[simp] theorem setMcState_cc (ch v : Nat) : (setMcState d ch v).cc = d.cc := rfl
@[simp] theorem setMcState_fresh (ch v : Nat) : (setMcState d ch v).fresh = d.fresh := rfl
@[simp] theorem setMcState_mem (ch v : Nat) : (setMcState d ch v).mem = d.mem := rfl
@[simp] theorem setMcState_badUnits (ch v : Nat) : (setMcState d ch v).badUnits = d.badUnits := rfl
@[simp] theorem setMcState_softUnits (ch v : Nat) : (setMcState d ch v).softUnits = d.softUnits := rfl
@[simp] theorem setMcState_pwr (ch v : Nat) : (setMcState d ch v).pwr = d.pwr := rfl
@[simp] theorem setMcState_keys (ch v : Nat) : (setMcState d ch v).keys = d.keys := rfl
@[simp] theorem setMcState_link (ch v : Nat) : (setMcState d ch v).link = d.link := rfl
@[simp] theorem setMcState_ports (ch v : Nat) : (setMcState d ch v).ports = d.ports := rfl
@[simp] theorem setMcState_ring (ch v : Nat) : (setMcState d ch v).ring = d.ring := rfl
@[simp] theorem setMcState_handles (ch v : Nat) : (setMcState d ch v).handles = d.handles := rfl
@[simp] theorem setMcState_consists (ch v : Nat) : (setMcState d ch v).consists = d.consists := rfl
@[simp] theorem setMcState_disp (ch v : Nat) : (setMcState d ch v).disp = d.disp := rfl
@[simp] theorem setMcState_cache (ch v : Nat) : (setMcState d ch v).cache = d.cache := rfl
@[simp] theorem setMcState_cores (ch v : Nat) : (setMcState d ch v).cores = d.cores := rfl
@[simp] theorem setMcState_mc (ch v : Nat) : (setMcState d ch v).mc = d.mc := rfl
@[simp] theorem setMcState_planes (ch v : Nat) : (setMcState d ch v).planes = d.planes := rfl
@[simp] theorem setMcState_junc (ch v : Nat) : (setMcState d ch v).junc = d.junc := rfl
@[simp] theorem setMcState_hump (ch v : Nat) : (setMcState d ch v).hump = d.hump := rfl
@[simp] theorem setMcState_shunt (ch v : Nat) : (setMcState d ch v).shunt = d.shunt := rfl
@[simp] theorem setMcState_sbox (ch v : Nat) : (setMcState d ch v).sbox = d.sbox := rfl
@[simp] theorem setMcState_nv (ch v : Nat) : (setMcState d ch v).nv = d.nv := rfl
@[simp] theorem setMcState_tap (ch v : Nat) : (setMcState d ch v).tap = d.tap := rfl

/-! ## setChan -/

@[simp] theorem setChan_cc (ch : Nat) (v : ShChan) : (setChan d ch v).cc = d.cc := rfl
@[simp] theorem setChan_fresh (ch : Nat) (v : ShChan) : (setChan d ch v).fresh = d.fresh := rfl
@[simp] theorem setChan_regs (ch : Nat) (v : ShChan) : (setChan d ch v).regs = d.regs := rfl
@[simp] theorem setChan_mem (ch : Nat) (v : ShChan) : (setChan d ch v).mem = d.mem := rfl
@[simp] theorem setChan_badUnits (ch : Nat) (v : ShChan) : (setChan d ch v).badUnits = d.badUnits := rfl
@[simp] theorem setChan_softUnits (ch : Nat) (v : ShChan) : (setChan d ch v).softUnits = d.softUnits := rfl
@[simp] theorem setChan_pwr (ch : Nat) (v : ShChan) : (setChan d ch v).pwr = d.pwr := rfl
@[simp] theorem setChan_keys (ch : Nat) (v : ShChan) : (setChan d ch v).keys = d.keys := rfl
@[simp] theorem setChan_link (ch : Nat) (v : ShChan) : (setChan d ch v).link = d.link := rfl
@[simp] theorem setChan_ports (ch : Nat) (v : ShChan) : (setChan d ch v).ports = d.ports := rfl
@[simp] theorem setChan_ring (ch : Nat) (v : ShChan) : (setChan d ch v).ring = d.ring := rfl
@[simp] theorem setChan_handles (ch : Nat) (v : ShChan) : (setChan d ch v).handles = d.handles := rfl
@[simp] theorem setChan_consists (ch : Nat) (v : ShChan) : (setChan d ch v).consists = d.consists := rfl
@[simp] theorem setChan_disp (ch : Nat) (v : ShChan) : (setChan d ch v).disp = d.disp := rfl
@[simp] theorem setChan_cache (ch : Nat) (v : ShChan) : (setChan d ch v).cache = d.cache := rfl
@[simp] theorem setChan_cores (ch : Nat) (v : ShChan) : (setChan d ch v).cores = d.cores := rfl
@[simp] theorem setChan_mc (ch : Nat) (v : ShChan) : (setChan d ch v).mc = d.mc := rfl
@[simp] theorem setChan_planes (ch : Nat) (v : ShChan) : (setChan d ch v).planes = d.planes := rfl
@[simp] theorem setChan_junc (ch : Nat) (v : ShChan) : (setChan d ch v).junc = d.junc := rfl
@[simp] theorem setChan_hump (ch : Nat) (v : ShChan) : (setChan d ch v).hump = d.hump := rfl
@[simp] theorem setChan_sbox (ch : Nat) (v : ShChan) : (setChan d ch v).sbox = d.sbox := rfl
@[simp] theorem setChan_nv (ch : Nat) (v : ShChan) : (setChan d ch v).nv = d.nv := rfl
@[simp] theorem setChan_tap (ch : Nat) (v : ShChan) : (setChan d ch v).tap = d.tap := rfl

/-! ## setPlane -/

@[simp] theorem setPlane_cc (m : Nat) (v : PlaneSt) : (setPlane d m v).cc = d.cc := rfl
@[simp] theorem setPlane_fresh (m : Nat) (v : PlaneSt) : (setPlane d m v).fresh = d.fresh := rfl
@[simp] theorem setPlane_regs (m : Nat) (v : PlaneSt) : (setPlane d m v).regs = d.regs := rfl
@[simp] theorem setPlane_mem (m : Nat) (v : PlaneSt) : (setPlane d m v).mem = d.mem := rfl
@[simp] theorem setPlane_badUnits (m : Nat) (v : PlaneSt) : (setPlane d m v).badUnits = d.badUnits := rfl
@[simp] theorem setPlane_softUnits (m : Nat) (v : PlaneSt) : (setPlane d m v).softUnits = d.softUnits := rfl
@[simp] theorem setPlane_pwr (m : Nat) (v : PlaneSt) : (setPlane d m v).pwr = d.pwr := rfl
@[simp] theorem setPlane_keys (m : Nat) (v : PlaneSt) : (setPlane d m v).keys = d.keys := rfl
@[simp] theorem setPlane_link (m : Nat) (v : PlaneSt) : (setPlane d m v).link = d.link := rfl
@[simp] theorem setPlane_ports (m : Nat) (v : PlaneSt) : (setPlane d m v).ports = d.ports := rfl
@[simp] theorem setPlane_ring (m : Nat) (v : PlaneSt) : (setPlane d m v).ring = d.ring := rfl
@[simp] theorem setPlane_handles (m : Nat) (v : PlaneSt) : (setPlane d m v).handles = d.handles := rfl
@[simp] theorem setPlane_consists (m : Nat) (v : PlaneSt) : (setPlane d m v).consists = d.consists := rfl
@[simp] theorem setPlane_disp (m : Nat) (v : PlaneSt) : (setPlane d m v).disp = d.disp := rfl
@[simp] theorem setPlane_cache (m : Nat) (v : PlaneSt) : (setPlane d m v).cache = d.cache := rfl
@[simp] theorem setPlane_cores (m : Nat) (v : PlaneSt) : (setPlane d m v).cores = d.cores := rfl
@[simp] theorem setPlane_mc (m : Nat) (v : PlaneSt) : (setPlane d m v).mc = d.mc := rfl
@[simp] theorem setPlane_junc (m : Nat) (v : PlaneSt) : (setPlane d m v).junc = d.junc := rfl
@[simp] theorem setPlane_hump (m : Nat) (v : PlaneSt) : (setPlane d m v).hump = d.hump := rfl
@[simp] theorem setPlane_shunt (m : Nat) (v : PlaneSt) : (setPlane d m v).shunt = d.shunt := rfl
@[simp] theorem setPlane_sbox (m : Nat) (v : PlaneSt) : (setPlane d m v).sbox = d.sbox := rfl
@[simp] theorem setPlane_nv (m : Nat) (v : PlaneSt) : (setPlane d m v).nv = d.nv := rfl
@[simp] theorem setPlane_tap (m : Nat) (v : PlaneSt) : (setPlane d m v).tap = d.tap := rfl

/-! ## modLink -/

@[simp] theorem modLink_cc (f : LinkSt → LinkSt) : (modLink d f).cc = d.cc := rfl
@[simp] theorem modLink_fresh (f : LinkSt → LinkSt) : (modLink d f).fresh = d.fresh := rfl
@[simp] theorem modLink_regs (f : LinkSt → LinkSt) : (modLink d f).regs = d.regs := rfl
@[simp] theorem modLink_mem (f : LinkSt → LinkSt) : (modLink d f).mem = d.mem := rfl
@[simp] theorem modLink_badUnits (f : LinkSt → LinkSt) : (modLink d f).badUnits = d.badUnits := rfl
@[simp] theorem modLink_softUnits (f : LinkSt → LinkSt) : (modLink d f).softUnits = d.softUnits := rfl
@[simp] theorem modLink_pwr (f : LinkSt → LinkSt) : (modLink d f).pwr = d.pwr := rfl
@[simp] theorem modLink_keys (f : LinkSt → LinkSt) : (modLink d f).keys = d.keys := rfl
@[simp] theorem modLink_ports (f : LinkSt → LinkSt) : (modLink d f).ports = d.ports := rfl
@[simp] theorem modLink_ring (f : LinkSt → LinkSt) : (modLink d f).ring = d.ring := rfl
@[simp] theorem modLink_handles (f : LinkSt → LinkSt) : (modLink d f).handles = d.handles := rfl
@[simp] theorem modLink_consists (f : LinkSt → LinkSt) : (modLink d f).consists = d.consists := rfl
@[simp] theorem modLink_disp (f : LinkSt → LinkSt) : (modLink d f).disp = d.disp := rfl
@[simp] theorem modLink_cache (f : LinkSt → LinkSt) : (modLink d f).cache = d.cache := rfl
@[simp] theorem modLink_cores (f : LinkSt → LinkSt) : (modLink d f).cores = d.cores := rfl
@[simp] theorem modLink_mc (f : LinkSt → LinkSt) : (modLink d f).mc = d.mc := rfl
@[simp] theorem modLink_planes (f : LinkSt → LinkSt) : (modLink d f).planes = d.planes := rfl
@[simp] theorem modLink_junc (f : LinkSt → LinkSt) : (modLink d f).junc = d.junc := rfl
@[simp] theorem modLink_hump (f : LinkSt → LinkSt) : (modLink d f).hump = d.hump := rfl
@[simp] theorem modLink_shunt (f : LinkSt → LinkSt) : (modLink d f).shunt = d.shunt := rfl
@[simp] theorem modLink_sbox (f : LinkSt → LinkSt) : (modLink d f).sbox = d.sbox := rfl
@[simp] theorem modLink_nv (f : LinkSt → LinkSt) : (modLink d f).nv = d.nv := rfl
@[simp] theorem modLink_tap (f : LinkSt → LinkSt) : (modLink d f).tap = d.tap := rfl

/-! ## modPwr -/

@[simp] theorem modPwr_cc (f : PwrSt → PwrSt) : (modPwr d f).cc = d.cc := rfl
@[simp] theorem modPwr_fresh (f : PwrSt → PwrSt) : (modPwr d f).fresh = d.fresh := rfl
@[simp] theorem modPwr_regs (f : PwrSt → PwrSt) : (modPwr d f).regs = d.regs := rfl
@[simp] theorem modPwr_mem (f : PwrSt → PwrSt) : (modPwr d f).mem = d.mem := rfl
@[simp] theorem modPwr_badUnits (f : PwrSt → PwrSt) : (modPwr d f).badUnits = d.badUnits := rfl
@[simp] theorem modPwr_softUnits (f : PwrSt → PwrSt) : (modPwr d f).softUnits = d.softUnits := rfl
@[simp] theorem modPwr_keys (f : PwrSt → PwrSt) : (modPwr d f).keys = d.keys := rfl
@[simp] theorem modPwr_link (f : PwrSt → PwrSt) : (modPwr d f).link = d.link := rfl
@[simp] theorem modPwr_ports (f : PwrSt → PwrSt) : (modPwr d f).ports = d.ports := rfl
@[simp] theorem modPwr_ring (f : PwrSt → PwrSt) : (modPwr d f).ring = d.ring := rfl
@[simp] theorem modPwr_handles (f : PwrSt → PwrSt) : (modPwr d f).handles = d.handles := rfl
@[simp] theorem modPwr_consists (f : PwrSt → PwrSt) : (modPwr d f).consists = d.consists := rfl
@[simp] theorem modPwr_disp (f : PwrSt → PwrSt) : (modPwr d f).disp = d.disp := rfl
@[simp] theorem modPwr_cache (f : PwrSt → PwrSt) : (modPwr d f).cache = d.cache := rfl
@[simp] theorem modPwr_cores (f : PwrSt → PwrSt) : (modPwr d f).cores = d.cores := rfl
@[simp] theorem modPwr_mc (f : PwrSt → PwrSt) : (modPwr d f).mc = d.mc := rfl
@[simp] theorem modPwr_planes (f : PwrSt → PwrSt) : (modPwr d f).planes = d.planes := rfl
@[simp] theorem modPwr_junc (f : PwrSt → PwrSt) : (modPwr d f).junc = d.junc := rfl
@[simp] theorem modPwr_hump (f : PwrSt → PwrSt) : (modPwr d f).hump = d.hump := rfl
@[simp] theorem modPwr_shunt (f : PwrSt → PwrSt) : (modPwr d f).shunt = d.shunt := rfl
@[simp] theorem modPwr_sbox (f : PwrSt → PwrSt) : (modPwr d f).sbox = d.sbox := rfl
@[simp] theorem modPwr_nv (f : PwrSt → PwrSt) : (modPwr d f).nv = d.nv := rfl
@[simp] theorem modPwr_tap (f : PwrSt → PwrSt) : (modPwr d f).tap = d.tap := rfl

/-! ## modSbox -/

@[simp] theorem modSbox_cc (f : SboxSt → SboxSt) : (modSbox d f).cc = d.cc := rfl
@[simp] theorem modSbox_fresh (f : SboxSt → SboxSt) : (modSbox d f).fresh = d.fresh := rfl
@[simp] theorem modSbox_regs (f : SboxSt → SboxSt) : (modSbox d f).regs = d.regs := rfl
@[simp] theorem modSbox_mem (f : SboxSt → SboxSt) : (modSbox d f).mem = d.mem := rfl
@[simp] theorem modSbox_badUnits (f : SboxSt → SboxSt) : (modSbox d f).badUnits = d.badUnits := rfl
@[simp] theorem modSbox_softUnits (f : SboxSt → SboxSt) : (modSbox d f).softUnits = d.softUnits := rfl
@[simp] theorem modSbox_pwr (f : SboxSt → SboxSt) : (modSbox d f).pwr = d.pwr := rfl
@[simp] theorem modSbox_keys (f : SboxSt → SboxSt) : (modSbox d f).keys = d.keys := rfl
@[simp] theorem modSbox_link (f : SboxSt → SboxSt) : (modSbox d f).link = d.link := rfl
@[simp] theorem modSbox_ports (f : SboxSt → SboxSt) : (modSbox d f).ports = d.ports := rfl
@[simp] theorem modSbox_ring (f : SboxSt → SboxSt) : (modSbox d f).ring = d.ring := rfl
@[simp] theorem modSbox_handles (f : SboxSt → SboxSt) : (modSbox d f).handles = d.handles := rfl
@[simp] theorem modSbox_consists (f : SboxSt → SboxSt) : (modSbox d f).consists = d.consists := rfl
@[simp] theorem modSbox_disp (f : SboxSt → SboxSt) : (modSbox d f).disp = d.disp := rfl
@[simp] theorem modSbox_cache (f : SboxSt → SboxSt) : (modSbox d f).cache = d.cache := rfl
@[simp] theorem modSbox_cores (f : SboxSt → SboxSt) : (modSbox d f).cores = d.cores := rfl
@[simp] theorem modSbox_mc (f : SboxSt → SboxSt) : (modSbox d f).mc = d.mc := rfl
@[simp] theorem modSbox_planes (f : SboxSt → SboxSt) : (modSbox d f).planes = d.planes := rfl
@[simp] theorem modSbox_junc (f : SboxSt → SboxSt) : (modSbox d f).junc = d.junc := rfl
@[simp] theorem modSbox_hump (f : SboxSt → SboxSt) : (modSbox d f).hump = d.hump := rfl
@[simp] theorem modSbox_shunt (f : SboxSt → SboxSt) : (modSbox d f).shunt = d.shunt := rfl
@[simp] theorem modSbox_nv (f : SboxSt → SboxSt) : (modSbox d f).nv = d.nv := rfl
@[simp] theorem modSbox_tap (f : SboxSt → SboxSt) : (modSbox d f).tap = d.tap := rfl

/-! ## memWrite -/

@[simp] theorem memWrite_cc (a : Nat) (bs : List Byte) : (memWrite d a bs).cc = d.cc := rfl
@[simp] theorem memWrite_fresh (a : Nat) (bs : List Byte) : (memWrite d a bs).fresh = d.fresh := rfl
@[simp] theorem memWrite_regs (a : Nat) (bs : List Byte) : (memWrite d a bs).regs = d.regs := rfl
@[simp] theorem memWrite_pwr (a : Nat) (bs : List Byte) : (memWrite d a bs).pwr = d.pwr := rfl
@[simp] theorem memWrite_keys (a : Nat) (bs : List Byte) : (memWrite d a bs).keys = d.keys := rfl
@[simp] theorem memWrite_link (a : Nat) (bs : List Byte) : (memWrite d a bs).link = d.link := rfl
@[simp] theorem memWrite_ports (a : Nat) (bs : List Byte) : (memWrite d a bs).ports = d.ports := rfl
@[simp] theorem memWrite_ring (a : Nat) (bs : List Byte) : (memWrite d a bs).ring = d.ring := rfl
@[simp] theorem memWrite_handles (a : Nat) (bs : List Byte) : (memWrite d a bs).handles = d.handles := rfl
@[simp] theorem memWrite_consists (a : Nat) (bs : List Byte) : (memWrite d a bs).consists = d.consists := rfl
@[simp] theorem memWrite_disp (a : Nat) (bs : List Byte) : (memWrite d a bs).disp = d.disp := rfl
@[simp] theorem memWrite_cores (a : Nat) (bs : List Byte) : (memWrite d a bs).cores = d.cores := rfl
@[simp] theorem memWrite_mc (a : Nat) (bs : List Byte) : (memWrite d a bs).mc = d.mc := rfl
@[simp] theorem memWrite_planes (a : Nat) (bs : List Byte) : (memWrite d a bs).planes = d.planes := rfl
@[simp] theorem memWrite_junc (a : Nat) (bs : List Byte) : (memWrite d a bs).junc = d.junc := rfl
@[simp] theorem memWrite_hump (a : Nat) (bs : List Byte) : (memWrite d a bs).hump = d.hump := rfl
@[simp] theorem memWrite_shunt (a : Nat) (bs : List Byte) : (memWrite d a bs).shunt = d.shunt := rfl
@[simp] theorem memWrite_sbox (a : Nat) (bs : List Byte) : (memWrite d a bs).sbox = d.sbox := rfl
@[simp] theorem memWrite_tap (a : Nat) (bs : List Byte) : (memWrite d a bs).tap = d.tap := rfl

/-! ## Values of the fields that the updates write -/

@[simp] theorem setCore_cores (n : Nat) (c : Core) : (setCore d n c).cores = mset (coreDefault n) d.cores n c := rfl
@[simp] theorem setConsist_consists (k : Nat) (v : Consist) : (setConsist d k v).consists = mset {} d.consists k v := rfl
@[simp] theorem wr_regs (r : Reg) (i : Nat) (v : Word) : (wr d r i v).regs = mset (r.resetVal i) d.regs (r.key i) v := rfl
@[simp] theorem setPort_ports (p : Nat) (v : Port) : (setPort d p v).ports = mset {} d.ports p v := rfl
@[simp] theorem setMc_mc (ch : Nat) (v : McChan) : (setMc d ch v).mc = mset {} d.mc ch v := rfl
@[simp] theorem setPlane_planes (m : Nat) (v : PlaneSt) : (setPlane d m v).planes = mset {} d.planes m v := rfl
@[simp] theorem modLink_link (f : LinkSt → LinkSt) : (modLink d f).link = f d.link := rfl
@[simp] theorem modPwr_pwr (f : PwrSt → PwrSt) : (modPwr d f).pwr = f d.pwr := rfl
@[simp] theorem modSbox_sbox (f : SboxSt → SboxSt) : (modSbox d f).sbox = f d.sbox := rfl
@[simp] theorem memWrite_mem (a : Nat) (bs : List Byte) : (memWrite d a bs).mem = putBytes d.mem a bs := rfl

end Sys2Proof.Machine
end

