-- ==== Sys2Proof/Laws/Access.lean ====
section
/-!
SUPPORT. Reads after writes through the accessors of the shared operations: registers, ports, domains, cores, Consists, ring contexts, channels.
-/

namespace Sys2Proof.Machine

variable (d : Dev)

/-! ## The register file (R11) -/

@[simp] theorem rd_wr_self (r : Reg) (i : Nat) (v : Word) : rd (wr d r i v) r i = v := mget_mset_self _ _ _ _

/-- Two registers whose keys differ do not touch each other. -/
theorem rd_wr_ne {r r' : Reg} {i i' : Nat} (v : Word) (h : r.key i ≠ r'.key i') : rd (wr d r' i' v) r i = rd d r i :=
  mget_mset_ne _ _ _ _ h

theorem rd_setFld_self (r : Reg) (i hi lo v : Nat) : rd (setFld d r i hi lo v) r i = setBitsW (rd d r i) hi lo v := rd_wr_self _ _ _ _

theorem rd_setFld_ne {r r' : Reg} {i i' : Nat} (hi lo v : Nat) (h : r.key i ≠ r'.key i') : rd (setFld d r' i' hi lo v) r i = rd d r i :=
  rd_wr_ne d _ h

theorem rd_bumpN_self (r : Reg) (i n : Nat) : rd (bumpN d r i n) r i = satAdd (rd d r i) n := rd_wr_self _ _ _ _

theorem rd_bumpN_ne {r r' : Reg} {i i' : Nat} (n : Nat) (h : r.key i ≠ r'.key i') : rd (bumpN d r' i' n) r i = rd d r i := rd_wr_ne d _ h

/-- What a register reads depends on the register file alone. -/
theorem rd_congr {d e : Dev} (h : e.regs = d.regs) (r : Reg) (i : Nat) : rd e r i = rd d r i := by rw [rd, rd, h]

theorem fld_congr {d e : Dev} (h : e.regs = d.regs) (r : Reg) (i hi lo : Nat) : fld e r i hi lo = fld d r i hi lo := by
  rw [fld, fld, rd_congr h]

/-! ## The tables -/

@[simp] theorem port_setPort_self (p : Nat) (v : Port) : port (setPort d p v) p = v := mget_mset_self _ _ _ _

theorem port_setPort_ne {p q : Nat} (v : Port) (h : q ≠ p) : port (setPort d p v) q = port d q := mget_mset_ne _ _ _ _ h

@[simp] theorem dom_setDom_self (k : Nat) (v : Dom) : dom (setDom d k v) k = v := mget_mset_self _ _ _ _

theorem dom_setDom_ne {k j : Nat} (v : Dom) (h : j ≠ k) : dom (setDom d k v) j = dom d j := mget_mset_ne _ _ _ _ h

@[simp] theorem consist_setConsist_self (k : Nat) (v : Consist) : consist (setConsist d k v) k = v := mget_mset_self _ _ _ _

theorem consist_setConsist_ne {k j : Nat} (v : Consist) (h : j ≠ k) : consist (setConsist d k v) j = consist d j := mget_mset_ne _ _ _ _ h

@[simp] theorem ctx_setCtx_self (p r : Nat) (v : RingCtx) : ctx (setCtx d p r v) p r = v := mget_mset_self _ _ _ _

theorem ctx_setCtx_ne {p r q s : Nat} (v : RingCtx) (h : ringKey q s ≠ ringKey p r) : ctx (setCtx d p r v) q s = ctx d q s :=
  mget_mset_ne _ _ _ _ h

@[simp] theorem mcChan_setMc_self (ch : Nat) (v : McChan) : mcChan (setMc d ch v) ch = v := mget_mset_self _ _ _ _

theorem mcChan_setMc_ne {ch j : Nat} (v : McChan) (h : j ≠ ch) : mcChan (setMc d ch v) j = mcChan d j := mget_mset_ne _ _ _ _ h

/-! ## The cores -/

@[simp] theorem core_setCore_self (n : Nat) (c : Core) : core (setCore d n c) n = c := mget_mset_self _ _ _ _

/-- Another core keeps its registers, whichever default it has. -/
theorem core_setCore_ne {n m : Nat} (c : Core) (h : m ≠ n) : core (setCore d n c) m = core d m := mget_mset_ne _ _ _ _ h

@[simp] theorem core_modCore_self (n : Nat) (f : Core → Core) : core (modCore d n f) n = f (core d n) := core_setCore_self _ _ _

theorem core_modCore_ne {n m : Nat} (f : Core → Core) (h : m ≠ n) : core (modCore d n f) m = core d m := core_setCore_ne d _ h

/-- What a core is depends on the cores alone. -/
theorem core_congr {d e : Dev} (h : e.cores = d.cores) (n : Nat) : core e n = core d n := by rw [core, core, h]

/-! ## Registers of one core -/

@[simp] theorem xget_zero (c : Core) : xget c 0 = 0 := rfl

@[simp] theorem xset_zero (c : Core) (v : Word) : xset c 0 v = c := rfl

theorem xget_xset_self (c : Core) {i : Nat} (v : Word) (h : i ≠ 0) : xget (xset c i v) i = v := by simp [xget, xset, h]

theorem xget_xset_ne (c : Core) {i j : Nat} (v : Word) (h : j ≠ i) : xget (xset c i v) j = xget c j := by
  by_cases hi : i = 0
  · simp [xset, hi]
  · by_cases hj : j = 0
    · simp [xget, hj]
    · simp [xget, xset, hi, hj, mget_mset_ne _ _ _ _ h]

/-- A write of Xi touches the X registers alone. -/
theorem xset_frame (c : Core) (i : Nat) (v : Word) : xset c i v = { c with x := (xset c i v).x } := by
  unfold xset; split <;> rfl

@[simp] theorem csrGet_csrSet_self (c : Core) (k : Nat) (v : Word) : csrGet (csrSet c k v) k = v := mget_mset_self _ _ _ _

@[simp] theorem csrGet_xset (c : Core) (i : Nat) (v : Word) (k : Nat) : csrGet (xset c i v) k = csrGet c k := by
  rw [xset_frame]; rfl

@[simp] theorem xget_csrSet (c : Core) (k : Nat) (v : Word) (i : Nat) : xget (csrSet c k v) i = xget c i := rfl

@[simp] theorem cell_setCell_self (c : Core) (i : Nat) (v : Cell80) : cell (setCell c i v) i = v := mget_mset_self _ _ _ _

theorem cell_setCell_ne (c : Core) {i j : Nat} (v : Cell80) (h : j ≠ i) : cell (setCell c i v) j = cell c j := mget_mset_ne _ _ _ _ h

@[simp] theorem qual_setQual_self (c : Core) (k : Nat) (v : BitVec 64) : qual (setQual c k v) k = v := mget_mset_self _ _ _ _

theorem qual_setQual_ne (c : Core) {k j : Nat} (v : BitVec 64) (h : j ≠ k) : qual (setQual c k v) j = qual c j := mget_mset_ne _ _ _ _ h

end Sys2Proof.Machine
end

