-- ==== Sys2Proof/Laws/Lanes.lean ====
section
/-!
SUPPORT. Laws of the lanes' coding: the receiver's descrambler undoes the transmitter's scrambler, and bits and block contents are one to one.
-/

namespace Sys2Proof.Machine

/-- The descrambler in the scrambler's state gives the bits back and stays in step with it (R30). -/
theorem descramble_scramble (s : BitVec 58) (bs : List Bool) : descramble s (scramble s bs).2 = ((scramble s bs).1, bs) := by
  induction bs generalizing s with
  | nil => rfl
  | cons b bs ih => simp [scramble, descramble, ih]

/-- A lane sends as many bits as it is given. -/
@[simp] theorem scramble_length (s : BitVec 58) (bs : List Bool) : (scramble s bs).2.length = bs.length := by
  induction bs generalizing s with
  | nil => rfl
  | cons b bs ih => simp [scramble, ih]

@[simp] theorem descramble_length (s : BitVec 58) (bs : List Bool) : (descramble s bs).2.length = bs.length := by
  induction bs generalizing s with
  | nil => rfl
  | cons b bs ih => simp [descramble, ih]

/-- Bit i of a number made of bits, least significant first. -/
theorem testBit_foldr (bs : List Bool) (i : Nat) : (bs.foldr (fun b n => b2n b + 2 * n) 0).testBit i = bs.getD i false := by
  induction bs generalizing i with
  | nil => simp
  | cons b bs ih =>
    cases i with
    | zero => cases b <;> simp [b2n, Nat.testBit_zero]
    | succ i =>
      rw [List.foldr_cons, Nat.testBit_succ, List.getD_cons_succ, ← ih]
      congr 1
      cases b
      · simp [b2n]
      · simp [b2n]; omega

/-- A block's content is what its 64 bits say. -/
theorem bitsContent_contentBits (c : BitVec 64) : bitsContent (contentBits c) = c := by
  ext i hi
  rw [← BitVec.getLsbD_eq_getElem hi, ← BitVec.getLsbD_eq_getElem hi, bitsContent, BitVec.getLsbD_ofNat, testBit_foldr]
  simp [contentBits, List.getD_eq_getElem?_getD, hi]

end Sys2Proof.Machine
end

