-- ==== Sys2Proof/Laws/Memory.lean ====
section
/-!
SUPPORT. Laws of device memory: what a write of bytes reads back as, and that every operation that changes memory keeps its canonical form.
-/

namespace Sys2Proof.Machine

/-! ## The canonical form as an order of the entries -/

theorem mwfFrom_iff {α : Type} [DecidableEq α] (d : α) (m : SMap α) (lo : Option Nat) :
    mwfFrom d lo m = true ↔ m.Pairwise (fun x y => x.1 < y.1) ∧ ∀ e ∈ m, e.2 ≠ d ∧ ∀ l, lo = some l → l < e.1 := by
  induction m generalizing lo with
  | nil => simp [mwfFrom]
  | cons e m ih =>
    obtain ⟨k, v⟩ := e
    simp only [mwfFrom, Bool.and_eq_true, decide_eq_true_eq, ih, List.pairwise_cons, List.mem_cons, forall_eq_or_imp]
    constructor
    · rintro ⟨⟨h1, h2⟩, h3, h4⟩
      have h5 : ∀ l, lo = some l → l < k := by rintro l rfl; simpa using h1
      exact ⟨⟨fun e he => (h4 e he).2 k rfl, h3⟩, ⟨h2, h5⟩, fun e he =>
        ⟨(h4 e he).1, fun l hl => Nat.lt_trans (h5 l hl) ((h4 e he).2 k rfl)⟩⟩
    · rintro ⟨⟨h1, h2⟩, ⟨h3, h4⟩, h5⟩
      refine ⟨⟨?_, h3⟩, h2, fun e he => ⟨(h5 e he).1, ?_⟩⟩
      · cases lo with
        | none => rfl
        | some l => simpa using h4 l rfl
      · rintro l hl
        cases hl
        exact h1 e he

/-- A canonical array: keys strictly rising, no default value listed. -/
theorem mwf_iff {α : Type} [DecidableEq α] (d : α) (m : SMap α) :
    mwf d m = true ↔ m.Pairwise (fun x y => x.1 < y.1) ∧ ∀ e ∈ m, e.2 ≠ d := by
  rw [mwf, mwfFrom_iff]; simp

/-! ## Runs of bytes -/

/-- The entries that a run of bytes lists. -/
theorem mem_run {a : Nat} {bs : List Byte} {e : Host.Cell} (h : e ∈ (List.range' a bs.length).zip bs) : a ≤ e.1 ∧ e.1 < a + bs.length := by
  have := List.of_mem_zip (a := e.1) (b := e.2) h
  have h2 := List.mem_range'_1.mp this.1
  exact h2

theorem run_pairwise (a : Nat) (bs : List Byte) : ((List.range' a bs.length).zip bs).Pairwise (fun x y => x.1 < y.1) := by
  have h : (((List.range' a bs.length).zip bs).map Prod.fst).Pairwise (· < ·) := by
    rw [List.map_fst_zip (by simp)]
    exact List.pairwise_lt_range'
  exact List.pairwise_map.mp h

/-- Writing bytes keeps the canonical form. -/
theorem putBytes_wf (m : List Host.Cell) (a : Nat) (bs : List Byte) (h : Memory.wf m = true) : Memory.wf (putBytes m a bs) = true := by
  rw [Memory.wf, mwf_iff] at h ⊢
  obtain ⟨hp, hv⟩ := h
  have hd : ∀ e ∈ m.dropWhile (fun e => decide (e.1 < a + bs.length)), a + bs.length ≤ e.1 := by
    have hs := List.Pairwise.sublist (List.dropWhile_sublist (fun e : Host.Cell => decide (e.1 < a + bs.length))) hp
    intro e he
    cases hl : m.dropWhile (fun e => decide (e.1 < a + bs.length)) with
    | nil => rw [hl] at he; cases he
    | cons x xs =>
      have hx : ¬ x.1 < a + bs.length := by
        have := List.head?_dropWhile_not (fun e : Host.Cell => decide (e.1 < a + bs.length)) m
        rw [hl] at this
        simpa using this
      rw [hl] at he hs
      rcases List.mem_cons.mp he with rfl | he
      · omega
      · have := (List.pairwise_cons.mp hs).1 e he; omega
  have ht : ∀ e ∈ m.takeWhile (fun e => decide (e.1 < a)), e.1 < a := fun e he => by simpa using List.mem_takeWhile_imp he
  have hr : ∀ e ∈ ((List.range' a bs.length).zip bs).filter (fun e => decide (e.2 ≠ 0)), a ≤ e.1 ∧ e.1 < a + bs.length :=
    fun e he => mem_run (List.mem_filter.mp he).1
  unfold putBytes
  constructor
  · refine List.pairwise_append.mpr ⟨hp.sublist (List.takeWhile_sublist _), List.pairwise_append.mpr
      ⟨(run_pairwise a bs).sublist List.filter_sublist, hp.sublist (List.dropWhile_sublist _), ?_⟩, ?_⟩
    · intro x hx y hy
      have := hr x hx; have := hd y hy; omega
    · intro x hx y hy
      have h1 := ht x hx
      rcases List.mem_append.mp hy with hy | hy
      · have := hr y hy; omega
      · have := hd y hy; omega
  · intro e he
    rcases List.mem_append.mp he with he | he
    · exact hv e ((List.takeWhile_sublist _).subset he)
    · rcases List.mem_append.mp he with he | he
      · simpa using (List.mem_filter.mp he).2
      · exact hv e ((List.dropWhile_sublist _).subset he)

/-! ## What is read back -/

/-- Leading entries below the key do not matter. -/
theorem mget_append_lt {α : Type} (d : α) (m n : SMap α) (x : Nat) (h : ∀ e ∈ m, e.1 < x) : mget d (m ++ n) x = mget d n x := by
  induction m with
  | nil => rfl
  | cons e m ih =>
    have he := h e (List.mem_cons_self ..)
    obtain ⟨k, v⟩ := e
    simp only [List.cons_append, mget]
    have he' : k < x := he
    rw [if_neg (by omega), if_neg (by omega)]
    exact ih (fun e h' => h e (List.mem_cons_of_mem _ h'))

/-- Entries below the key can be dropped. -/
theorem mget_dropWhile {α : Type} (d : α) (m : SMap α) {b x : Nat} (h : b ≤ x) : mget d (m.dropWhile (fun e => decide (e.1 < b))) x = mget d m x := by
  induction m with
  | nil => rfl
  | cons e m ih =>
    obtain ⟨k, v⟩ := e
    rw [List.dropWhile_cons]
    split
    · next hk =>
      have hk' : k < b := by simpa using hk
      rw [ih]; simp only [mget]; rw [if_neg (by omega), if_neg (by omega)]
    · rfl

/-- An array whose first key lies above the key reads as the default. -/
theorem mget_of_head_gt {α : Type} (d : α) (m : SMap α) (x : Nat) (h : ∀ e, m.head? = some e → x < e.1) : mget d m x = d := by
  cases m with
  | nil => rfl
  | cons e m =>
    obtain ⟨k, v⟩ := e
    have hk : x < k := h (k, v) rfl
    simp only [mget]; rw [if_neg (by omega), if_pos hk]

/-- Reading the run of bytes itself, followed by entries above it. -/
theorem mget_run (a : Nat) (bs : List Byte) (r : List Host.Cell) (x : Nat) (b : Byte) (hr : ∀ e, r.head? = some e → a + bs.length ≤ e.1)
    (ha : a ≤ x) (hb : bs[x - a]? = some b) : mget 0 (((List.range' a bs.length).zip bs).filter (fun e => decide (e.2 ≠ 0)) ++ r) x = b := by
  induction bs generalizing a with
  | nil => simp at hb
  | cons c cs ih =>
    simp only [List.length_cons, List.range'_succ, List.zip_cons_cons, List.filter_cons]
    have hr' : ∀ e, r.head? = some e → a + 1 + cs.length ≤ e.1 := fun e he => by have := hr e he; simp only [List.length_cons] at this; omega
    rcases Nat.eq_or_lt_of_le ha with rfl | hlt
    · simp only [Nat.sub_self, List.getElem?_cons_zero, Option.some.injEq] at hb
      subst hb
      split
      · simp [mget]
      · next hc =>
        have h0 : c = 0 := by simpa using hc
        rw [h0]
        refine mget_of_head_gt _ _ _ ?_
        intro e he
        rw [List.head?_append] at he
        cases hl : (((List.range' (a + 1) cs.length).zip cs).filter (fun e => decide (e.2 ≠ 0))).head? with
        | none => rw [hl] at he; have := hr' e (by simpa using he); omega
        | some y =>
          rw [hl] at he
          have hy := mem_run (List.mem_filter.mp (List.mem_of_mem_head? hl)).1
          have : y = e := by simpa using he
          subst this; omega
    · have hb' : cs[x - (a + 1)]? = some b := by
        have : x - a = (x - (a + 1)) + 1 := by omega
        rw [this, List.getElem?_cons_succ] at hb; exact hb
      have h2 := ih (a + 1) hr' hlt hb'
      split
      · simp only [List.cons_append, mget]; rw [if_neg (by omega), if_neg (by omega)]; exact h2
      · exact h2

/-- A byte that was written reads back. -/
theorem mget_putBytes_in (m : List Host.Cell) (a : Nat) (bs : List Byte) (x : Nat) (b : Byte) (ha : a ≤ x) (hb : bs[x - a]? = some b) :
    mget 0 (putBytes m a bs) x = b := by
  have hx : x < a + bs.length := by
    have := (List.getElem?_eq_some_iff.mp hb).1; omega
  unfold putBytes
  rw [mget_append_lt _ _ _ _ (fun e he => by
    have : e.1 < a := by simpa using List.mem_takeWhile_imp he
    omega)]
  refine mget_run a bs _ x b ?_ ha hb
  intro e he
  have := List.head?_dropWhile_not (fun e : Host.Cell => decide (e.1 < a + bs.length)) m
  rw [he] at this
  simpa using this

/-- Every other byte reads as before. -/
theorem mget_putBytes_out (m : List Host.Cell) (a : Nat) (bs : List Byte) (x : Nat) (h : x < a ∨ a + bs.length ≤ x) :
    mget 0 (putBytes m a bs) x = mget 0 m x := by
  unfold putBytes
  rcases h with h | h
  · -- what follows the entries below a lies at or above a
    have key : ∀ n : List Host.Cell, (∀ e, n.head? = some e → a ≤ e.1) →
        mget 0 (m.takeWhile (fun e => decide (e.1 < a)) ++ n) x = mget 0 m x := by
      intro n hn
      induction m with
      | nil => exact mget_of_head_gt _ _ _ (fun e he => by have := hn e (by simpa using he); omega)
      | cons e m ih =>
        obtain ⟨k, v⟩ := e
        rw [List.takeWhile_cons]
        split
        · simp only [List.cons_append, mget]; rw [ih]
        · next hk =>
          have hk' : ¬ k < a := by simpa using hk
          rw [List.nil_append, mget_of_head_gt _ _ _ (fun e he => by have := hn e he; omega)]
          simp only [mget]; rw [if_neg (by omega), if_pos (by omega)]
    refine key _ ?_
    intro e he
    rw [List.head?_append] at he
    cases hl : (((List.range' a bs.length).zip bs).filter (fun e => decide (e.2 ≠ 0))).head? with
    | none =>
      rw [hl] at he
      have h2 := List.head?_dropWhile_not (fun e : Host.Cell => decide (e.1 < a + bs.length)) m
      rw [show (m.dropWhile (fun e => decide (e.1 < a + bs.length))).head? = some e by simpa using he] at h2
      have : ¬ e.1 < a + bs.length := by simpa using h2
      omega
    | some y =>
      rw [hl] at he
      have hy := mem_run (List.mem_filter.mp (List.mem_of_mem_head? hl)).1
      have : y = e := by simpa using he
      subst this; omega
  · rw [mget_append_lt _ _ _ _ (fun e he => by
      have : e.1 < a := by simpa using List.mem_takeWhile_imp he
      omega)]
    rw [mget_append_lt _ _ _ _ (fun e he => by
      have := mem_run (List.mem_filter.mp he).1
      omega)]
    exact mget_dropWhile _ _ h

/-! ## Every operation on memory keeps the form -/

theorem reset_memory_wf : Memory.wf State.reset.dev.mem = true := by decide

theorem memWrite_wf (d : Dev) (a : Nat) (bs : List Byte) (h : Memory.wf d.mem = true) : Memory.wf (memWrite d a bs).mem = true :=
  putBytes_wf d.mem a bs h

theorem keepMram_wf (m : List Host.Cell) (h : Memory.wf m = true) : Memory.wf (keepMram m) = true := mwf_filter _ _ _ h

theorem keepChip_wf (m : List Host.Cell) (h : Memory.wf m = true) : Memory.wf (keepChip m) = true := mwf_filter _ _ _ h

theorem zeroYard_wf (d : Dev) (a n : Nat) (h : Memory.wf d.mem = true) : Memory.wf (zeroYard d a n).mem = true := mwf_filter _ _ _ h

theorem clearSteps_wf (d : Dev) (n : Nat) (h : Memory.wf d.mem = true) : Memory.wf (clearSteps d n).mem = true := by
  unfold clearSteps
  split
  · exact zeroYard_wf _ _ _ h
  · exact h

theorem mramLost_wf (d : Dev) (h : Memory.wf d.mem = true) : Memory.wf (mramLost d).mem = true := by
  unfold mramLost
  split
  · exact h
  · simp only [tookFree]
    split
    · exact memWrite_wf _ _ _ h
    · exact h
    · exact h

theorem rakesOff_wf (d : Dev) (h : Memory.wf d.mem = true) : Memory.wf (rakesOff d).mem = true := by
  unfold rakesOff
  simp only
  split
  · exact h
  · exact mwf_filter _ _ _ h

theorem loseGddr_wf (d : Dev) (p : Nat → Bool) (h : Memory.wf d.mem = true) : Memory.wf (loseGddr d p).mem = true := mwf_filter _ _ _ h

theorem enterStabled_wf (d : Dev) (h : Memory.wf d.mem = true) : Memory.wf (enterStabled d).mem = true := by
  simp only [enterStabled, setFld_mem, modPwr_mem]
  exact mwf_filter _ _ _ h

/-- A fold keeps what each of its steps keeps. -/
theorem foldl_keeps {α β : Type} {P : β → Prop} {f : β → α → β} (hf : ∀ b a, P b → P (f b a)) (l : List α) {b : β} (h : P b) : P (l.foldl f b) := by
  induction l generalizing b with
  | nil => exact h
  | cons x l ih => exact ih (hf _ _ h)

theorem zeroDirectory_wf (d : Dev) (h : Memory.wf d.mem = true) : Memory.wf (zeroDirectory d).mem = true := by
  unfold zeroDirectory
  refine foldl_keeps (P := fun d : Dev => Memory.wf d.mem = true) (fun d e h => by simpa using h) _ ?_
  dsimp only
  split
  · rw [bumpN_mem, bumpN_mem]; exact mwf_filter _ _ _ h
  · exact mwf_filter _ _ _ h

theorem holdBytes_wf (d : Dev) (ch line : Nat) (bs : List (Nat × Byte)) (h : Memory.wf d.mem = true) :
    Memory.wf (holdBytes d ch line bs).mem = true := by
  refine foldl_keeps (P := fun d : Dev => Memory.wf d.mem = true) (fun d e h => ?_) _ h
  dsimp only
  split
  · exact h
  · split
    · exact h
    · split <;> exact putBytes_wf _ _ _ h

theorem undoWrite_wf (d : Dev) (ch : Nat) (r : McReq) (h : Memory.wf d.mem = true) : Memory.wf (undoWrite d ch r).mem = true :=
  holdBytes_wf _ _ _ _ h

@[simp] theorem putReq_mem (d : Dev) (g : GReq) : (putReq d g).mem = d.mem := by unfold putReq; split <;> rfl

@[simp] theorem answerDirect_mem (d : Dev) (line : Nat) (bad : Bool) (wrong : List (Nat × Byte)) : (answerDirect d line bad wrong).mem = d.mem := by
  unfold answerDirect; dsimp only; split <;> simp

theorem deliverRead_wf (d : Dev) (ch : Nat) (r : McReq) (bad : Bool) (bits : List Nat) (h : Memory.wf d.mem = true) :
    Memory.wf (deliverRead d ch r bad bits).mem = true := by
  unfold deliverRead
  dsimp only
  split
  · split
    · exact undoWrite_wf _ _ _ h
    · exact foldl_keeps (P := fun d : Dev => Memory.wf d.mem = true) (fun d e h => putBytes_wf _ _ _ h) _ h
  · split
    · exact h
    · rw [answerDirect_mem]; exact h

theorem powerOnReset_mem (o : Otp) (d : Dev) : (powerOnReset o d).mem = keepMram (mramLost d).mem := by
  have h : ∀ (l : List Nat) (e : Dev) (f : Nat → Word), (l.foldl (fun d i => wr d .sboxPubkey i (f i)) e).mem = e.mem := by
    intro l
    induction l with
    | nil => intro e f; rfl
    | cons x l ih => intro e f; rw [List.foldl_cons, ih, wr_mem]
  simp only [powerOnReset, loadFuses, h, setFld_mem]

end Sys2Proof.Machine
end

