-- ==== Sys2Proof/Laws/Ops.lean ====
section
/-!
SUPPORT. For the shared operations, one lemma each that says what the operation can do: meanings that act on the device, the register path's order, what an access of the cache meets, the issue of an
instruction, retirement, taking an exception and returning from one, log entries, writes to host memory.
-/

namespace Sys2Proof.Machine

variable (d : Dev)

/-! ## Meanings -/

/-- A meaning that acts on the device alone answers a next state, and leaves the queue and the fuses alone. -/
theorem onDev_next (s : State) (f : Dev → Dev) : onDev s f = .next { s with dev := f s.dev } := rfl

theorem onDevTx_next (s : State) (f : Dev → Dev) : onDevTx s f = .next { s with dev := pump (f s.dev) } := rfl

/-- A unit's step waits while a slice has no room for what it asks, and has its effect otherwise; the queue and the fuses stay (R328, R329). -/
theorem onUnit_waits (s : State) (f : Dev → Dev) (h : overfills s.dev (f s.dev) = true) : onUnit s f = .next s := by simp [onUnit, h]

theorem onUnit_acts (s : State) (f : Dev → Dev) (h : overfills s.dev (f s.dev) = false) : onUnit s f = .next { s with dev := f s.dev } := by
  simp [onUnit, h]

/-- Port 0's own accesses wait for no other on the register path (R485). -/
@[simp] theorem pathFirst_port0 (s : State) : pathFirst s .port0 = s := rfl

/-- With nothing waiting that goes first, the register path serves an access at once (R485). -/
theorem pathFirst_free (s : State) (who : Requester) (h0 : s.dev.link.rxReg = []) (hl : ∀ n, regLoadDue s.dev n = false)
    (hs : regStoreDue s.dev 32 = false) : pathFirst s who = s := by
  have h1 : port0First s = s := by simp [port0First, h0]
  have h2 : coreFirst s 32 = s := by simp [coreFirst, hl, hs]
  cases who with
  | port0 => rfl
  | sbox => exact h1
  | dbg => simp [pathFirst, h1, h2]
  | core n =>
    have h3 : ∀ l : List Nat, l.foldl (fun s m => if regLoadDue s.dev m then coreFirst s m else s) s = s := by
      intro l
      induction l with
      | nil => rfl
      | cons m l ih => simpa [hl] using ih
    simp [pathFirst, h1, h2, h3]

/-! ## The arrays of the Column Cache (R333) -/

/-- An access that meets no error leaves everything as it is. -/
theorem meetErrors_sound (line : Nat) (reads : Bool) (h : SetSound d line) : meetErrors d line reads = d := by
  have h1 : (setOf d line).all (fun w => decide (w.flaw = .sound)) = true := by
    simpa [List.all_eq_true] using h
  simp [meetErrors, h1]

/-! ## Issue (R203, R204) -/

/-- A row whose word issues and whose registers are ready has its body's effect, unless an interrupt that is due goes first (R231). -/
theorem instr_acts (n : CoreIx) (w : BitVec 32) (mine : Nat → Bool) (uses : Nat → Uses) (body : Nat → Nat → Dev → Dev)
    (hm : mine w.toNat = true) (hi : issues d n.val w.toNat = true) (hu : usesReady (core d n.val) (uses w.toNat) = true) :
    instr n w mine uses body d = afterInterrupt n.val d (body n.val w.toNat d) := by
  simp [instr, hm, hi, hu]

/-- A row whose registers wait for a load stalls. -/
theorem instr_stalls (n : CoreIx) (w : BitVec 32) (mine : Nat → Bool) (uses : Nat → Uses) (body : Nat → Nat → Dev → Dev)
    (hm : mine w.toNat = true) (hi : issues d n.val w.toNat = true) (hu : usesReady (core d n.val) (uses w.toNat) = false) :
    instr n w mine uses body d = afterInterrupt n.val d (stallCount d n.val) := by
  simp [instr, hm, hi, hu]

/-- With no interrupt due an instruction has its effect. -/
theorem afterInterrupt_none {n : Nat} {d : Dev} (d1 : Dev) (h : (dueInterrupt d n).isNone = true) : afterInterrupt n d d1 = d1 := by
  simp [afterInterrupt, h]

/-- An instruction's own exception goes before an interrupt (R231). -/
theorem afterInterrupt_exception {n : Nat} (d : Dev) {d1 : Dev} (h : levelOf (core d1 n) ≠ 0) : afterInterrupt n d d1 = d1 := by
  simp [afterInterrupt, h]

/-- The order of an instruction and an interrupt keeps what both devices have. -/
theorem afterInterrupt_keeps {P : Dev → Prop} (n : Nat) {d d1 : Dev} (h : P d) (h1 : P d1) : P (afterInterrupt n d d1) := by
  unfold afterInterrupt; split <;> assumption

/-- A row of another word, or one that does not issue, changes nothing. -/
theorem instr_idle (n : CoreIx) (w : BitVec 32) (mine : Nat → Bool) (uses : Nat → Uses) (body : Nat → Nat → Dev → Dev)
    (h : (mine w.toNat && issues d n.val w.toNat) = false) : instr n w mine uses body d = d := by
  simp [instr, h]

/-- A property that the body and a stall keep is kept by the row. -/
theorem instr_keeps {P : Dev → Prop} (n : CoreIx) (w : BitVec 32) (mine : Nat → Bool) (uses : Nat → Uses) (body : Nat → Nat → Dev → Dev)
    (hd : P d) (hs : P (stallCount d n.val)) (hb : P (body n.val w.toNat d)) : P (instr n w mine uses body d) := by
  by_cases h : (mine w.toNat && issues d n.val w.toNat) = true
  · rw [Bool.and_eq_true] at h
    by_cases hu : usesReady (core d n.val) (uses w.toNat) = true
    · rw [instr_acts d n w mine uses body h.1 h.2 hu]; exact afterInterrupt_keeps _ hd hb
    · rw [instr_stalls d n w mine uses body h.1 h.2 (by simpa using hu)]; exact afterInterrupt_keeps _ hd hs
  · rw [instr_idle d n w mine uses body (by simpa using h)]; exact hd

/-! ## Retirement (R205, R226, R234) -/

/-- The count of an issue writes one counter of the device, or nothing. -/
theorem countIssue_dev (n : Nat) (c : Core) : (countIssue d n c).1 = { d with regs := (countIssue d n c).1.regs } := by
  unfold countIssue
  simp only
  split
  · split <;> rfl
  · rfl

/-- With no load in flight an instruction retires as it issues, and leaves its core's registers alone (R205). -/
theorem countIssue_core (n : Nat) {c : Core} (h : c.loads = []) : (countIssue d n c).2 = { c with stalled := false, inVec := false } := by
  simp [countIssue, h]

theorem countIssue_registers (n : Nat) (c : Core) : (countIssue d n c).2.toCoreRegs = c.toCoreRegs := by
  unfold countIssue
  simp only
  split <;> rfl

theorem retire_core_self (n : Nat) (c : Core) (pc : Nat) : core (retire d n c pc) n = retireTo (countIssue d n c).2 pc :=
  core_setCore_self _ _ _

theorem retire_core_ne {n m : Nat} (c : Core) (pc : Nat) (h : m ≠ n) : core (retire d n c pc) m = core d m := by
  rw [retire, core_setCore_ne _ _ h]
  exact core_congr (by rw [countIssue_dev]) m

@[simp] theorem retire_mem (n : Nat) (c : Core) (pc : Nat) : (retire d n c pc).mem = d.mem := by
  rw [retire, setCore_mem, countIssue_dev]

/-- Retirement writes the cores and one counter. -/
theorem retire_frame (n : Nat) (c : Core) (pc : Nat) :
    retire d n c pc = { d with cores := (retire d n c pc).cores, regs := (retire d n c pc).regs } := by
  unfold retire countIssue
  simp only
  split
  · split <;> rfl
  · rfl

/-! ## Exceptions (R205, R227, R229) -/

/-- While an earlier load is in flight nothing is taken (R205). -/
theorem takeException_waits (n cause epc eaddr vfidx : Nat) (h : (core d n).loads ≠ []) : takeException d n cause epc eaddr vfidx = d := by
  simp [takeException, h]

/-- Below level 2 an exception enters the next level: the core's new registers, in full. -/
theorem takeException_core (n cause epc eaddr vfidx : Nat) (hl : (core d n).loads = []) (h : levelOf (core d n) < 2) :
    core (takeException d n cause epc eaddr vfidx) n =
      (let c := core d n
       let m := levelOf c + 1
       let base := if m = 1 then 0x010 else 0x018
       let c1 := csrSet (csrSet (csrSet (csrSet c base (BitVec.ofNat 40 epc)) (base + 1) c.status) (base + 2) (BitVec.ofNat 40 eaddr))
         (base + 3) (BitVec.ofNat 40 (cause + vfidx % 256 * 256))
       { c1 with
         status := mkStatus (ceilingOf d n) m false false
         pc := (csrGet c (if m = 1 then 0x008 else 0x009)).toNat / 4 * 4, st := .running, oldCode := [], stalled := false, inVec := false }) := by
  unfold takeException
  simp only [hl, ne_eq, not_true_eq_false, if_false]
  rw [if_neg (by omega)]
  exact core_setCore_self _ _ _

/-- Below level 2 an exception writes the core that takes it and its counter of exceptions, and nothing else. -/
theorem takeException_frame (n cause epc eaddr vfidx : Nat) (h : levelOf (core d n) < 2) :
    takeException d n cause epc eaddr vfidx =
      { d with cores := (takeException d n cause epc eaddr vfidx).cores, regs := (takeException d n cause epc eaddr vfidx).regs } := by
  by_cases hl : (core d n).loads = []
  · unfold takeException
    simp only [hl, ne_eq, not_true_eq_false, if_false]
    rw [if_neg (by omega)]
    by_cases h32 : n = 32 <;> simp only [h32, if_true, if_false] <;> rfl
  · rw [takeException_waits d n _ _ _ _ hl]

theorem takeException_core_ne {n k : Nat} (cause epc eaddr vfidx : Nat) (h : levelOf (core d n) < 2) (hk : k ≠ n) :
    core (takeException d n cause epc eaddr vfidx) k = core d k := by
  by_cases hl : (core d n).loads = []
  · unfold takeException
    simp only [hl, ne_eq, not_true_eq_false, if_false]
    rw [if_neg (by omega), core_setCore_ne _ _ hk]
    split
    · rfl
    · exact core_congr (bump_cores d _ _) k
  · rw [takeException_waits d n _ _ _ _ hl]

/-- At level 2 an exception is a triple fault (R230). -/
theorem takeException_triple (n cause epc eaddr vfidx : Nat) (hl : (core d n).loads = []) (h : 2 ≤ levelOf (core d n)) :
    takeException d n cause epc eaddr vfidx = tripleFault (if n = 32 then d else bump d .coreCnt (n * 4 + 3)) n cause epc := by
  unfold takeException
  simp only [hl, ne_eq, not_true_eq_false, if_false]
  rw [if_pos (by omega)]

/-- A return at U takes cause 0x03, and one at level 0 cause 0x02. -/
theorem returnException_refused (n w : Nat) (h : privOf (core d n) = 0 ∨ levelOf (core d n) = 0) :
    returnException d n w = takeException d n (if privOf (core d n) = 0 then 0x03 else 0x02) (core d n).pc w 0 := by
  unfold returnException
  by_cases hp : privOf (core d n) = 0
  · simp [hp]
  · simp [hp, h.resolve_left hp]

/-! ## Records -/

/-- The Log Book writes its entry to MRAM and numbers it, where it may write at all (R402, R403). -/
theorem logBook_frame (cls code : Nat) (data : List Nat) :
    logBook d cls code data = { d with
      mem := (logBook d cls code data).mem, cache := (logBook d cls code data).cache, badUnits := (logBook d cls code data).badUnits
      softUnits := (logBook d cls code data).softUnits, nv := (logBook d cls code data).nv, sbox := (logBook d cls code data).sbox, regs := (logBook d cls code data).regs } := by
  unfold logBook; split <;> rfl

theorem logBook_off (cls code : Nat) (data : List Nat) (h : d.sbox.logOn = false) : logBook d cls code data = d := by
  simp [logBook, h]

/-- A posted write joins the transmit queue, or is dropped while the link is down (R60). -/
theorem hostWrite_frame (p a : Nat) (bs : List Byte) : hostWrite d p a bs = { d with link := (hostWrite d p a bs).link } := by
  unfold hostWrite; split <;> rfl

@[simp] theorem hostWrite_mem (p a : Nat) (bs : List Byte) : (hostWrite d p a bs).mem = d.mem := by
  rw [hostWrite_frame]

@[simp] theorem sboxEvent_mem (bit : Nat) : (sboxEvent d bit).mem = d.mem := rfl

end Sys2Proof.Machine
end

