-- ==== Sys2Proof/WellFormed.lean ====
section
/-!
DEFINITION. Well-formed commands: an instruction row carries a word that stands for it; an event carries as many bytes or samples as the spec
gives it.
-/

namespace Sys2Proof

/-- A command that the block can be given. -/
def Instr.wellFormed (i : Instr) : Bool :=
  match i with
  | .nop _ => true
  | .fence _ => true
  | .loadTimetable _ => true
  | .dropTimetable _ => true
  | .runConsist _ => true
  | .abortConsist _ => true
  | .ingest _ => true
  | .snapshot _ => true
  | .retireEpoch _ => true
  | .dmaRun _ => true
  | .readBack _ => true
  | .writeDown _ => true
  | .junctionUpdate _ => true
  | .junctionSearchBatch _ => true
  | .sort _ => true
  | .journalAppend _ => true
  | .journalExport _ => true
  | .journalExportAck _ => true
  | .timeSet _ => true
  | .portCreate _ => true
  | .portDestroy _ => true
  | .portWindow _ => true
  | .portQuota _ => true
  | .fwUpdateChunk _ => true
  | .fwActivate _ => true
  | .powerRequest _ => true
  | .logRead _ => true
  | .sensorRead _ => true
  | .unknownOpcode _ => true
  | .summaryLinePoll _ => true
  | .ringDescriptorReread _ _ => true
  | .sqFetch _ _ => true
  | .submissionEntriesArrive _ _ => true
  | .completionWrite _ => true
  | .cqModerationTimer _ _ => true
  | .memRdTimeout _ => true
  | .commandReadFailure _ => true
  | .flitReceive line => [1, 2, 4].contains line.length && line.all (fun l => decide ((l.blocks.filter (fun b => decide (b.sync = 1))).length * line.length = 32))
  | .ack _ => true
  | .coast _ => true
  | .parkReq _ => true
  | .parkAck _ => true
  | .parkRefuse _ => true
  | .parkReqRetry => true
  | .ackTimeoutReplay => true
  | .retrain _ => true
  | .retrainTimeout => true
  | .laneLockLoss _ => true
  | .linkTraining _ => true
  | .presetTrialEnd errs => decide (errs.length = 4)
  | .trainingStepTimeout => true
  | .trainingRetryTimer => true
  | .linkDown => true
  | .coastIdleExpiry => true
  | .coastExit => true
  | .parkIdleExpiry => true
  | .regRd => true
  | .regWr => true
  | .completionReceive => true
  | .beaconDetect => true
  | .linkRetrainWrite _ _ => true
  | .linkWidthWrite _ _ => true
  | .ringEnableWrite _ _ => true
  | .consistRakeReady _ _ => true
  | .consistDomainsReady _ => true
  | .consistSeedPlacement _ => true
  | .startDigestDone _ => true
  | .consistFinish _ => true
  | .attestationSign _ => true
  | .consistWatchdog _ => true
  | .terminatingEvent _ => true
  | .ingestWalk _ => true
  | .retireWalk _ => true
  | .snapshotResult _ => true
  | .wagonAcceptance => true
  | .sidingMove _ _ => true
  | .producerStallRelease => true
  | .handOver => true
  | .flowSpillReadReturn => true
  | .affinityHoldExpiry _ _ => true
  | .wagonDelivery _ => true
  | .wagonReleaseEffect => true
  | .resultPathCopy => true
  | .add n w => decide (decodeInstrWord n w = .add n w)
  | .sub n w => decide (decodeInstrWord n w = .sub n w)
  | .andd n w => decide (decodeInstrWord n w = .andd n w)
  | .orr n w => decide (decodeInstrWord n w = .orr n w)
  | .xorr n w => decide (decodeInstrWord n w = .xorr n w)
  | .sll n w => decide (decodeInstrWord n w = .sll n w)
  | .srl n w => decide (decodeInstrWord n w = .srl n w)
  | .sra n w => decide (decodeInstrWord n w = .sra n w)
  | .slt n w => decide (decodeInstrWord n w = .slt n w)
  | .sltu n w => decide (decodeInstrWord n w = .sltu n w)
  | .min n w => decide (decodeInstrWord n w = .min n w)
  | .max n w => decide (decodeInstrWord n w = .max n w)
  | .minu n w => decide (decodeInstrWord n w = .minu n w)
  | .maxu n w => decide (decodeInstrWord n w = .maxu n w)
  | .mul n w => decide (decodeInstrWord n w = .mul n w)
  | .mulh n w => decide (decodeInstrWord n w = .mulh n w)
  | .mulhu n w => decide (decodeInstrWord n w = .mulhu n w)
  | .div n w => decide (decodeInstrWord n w = .div n w)
  | .divu n w => decide (decodeInstrWord n w = .divu n w)
  | .rem n w => decide (decodeInstrWord n w = .rem n w)
  | .remu n w => decide (decodeInstrWord n w = .remu n w)
  | .clz n w => decide (decodeInstrWord n w = .clz n w)
  | .ctz n w => decide (decodeInstrWord n w = .ctz n w)
  | .popc n w => decide (decodeInstrWord n w = .popc n w)
  | .h40 n w => decide (decodeInstrWord n w = .h40 n w)
  | .addi n w => decide (decodeInstrWord n w = .addi n w)
  | .andi n w => decide (decodeInstrWord n w = .andi n w)
  | .ori n w => decide (decodeInstrWord n w = .ori n w)
  | .xori n w => decide (decodeInstrWord n w = .xori n w)
  | .slti n w => decide (decodeInstrWord n w = .slti n w)
  | .sltiu n w => decide (decodeInstrWord n w = .sltiu n w)
  | .slli n w => decide (decodeInstrWord n w = .slli n w)
  | .srli n w => decide (decodeInstrWord n w = .srli n w)
  | .srai n w => decide (decodeInstrWord n w = .srai n w)
  | .lui n w => decide (decodeInstrWord n w = .lui n w)
  | .orl n w => decide (decodeInstrWord n w = .orl n w)
  | .lb n w => decide (decodeInstrWord n w = .lb n w)
  | .lbu n w => decide (decodeInstrWord n w = .lbu n w)
  | .lh n w => decide (decodeInstrWord n w = .lh n w)
  | .lhu n w => decide (decodeInstrWord n w = .lhu n w)
  | .lw n w => decide (decodeInstrWord n w = .lw n w)
  | .lwu n w => decide (decodeInstrWord n w = .lwu n w)
  | .ln n w => decide (decodeInstrWord n w = .ln n w)
  | .lnf n w => decide (decodeInstrWord n w = .lnf n w)
  | .sb n w => decide (decodeInstrWord n w = .sb n w)
  | .sh n w => decide (decodeInstrWord n w = .sh n w)
  | .sw n w => decide (decodeInstrWord n w = .sw n w)
  | .sn n w => decide (decodeInstrWord n w = .sn n w)
  | .loadReturn _ _ => true
  | .storeCompletion _ => true
  | .beq n w => decide (decodeInstrWord n w = .beq n w)
  | .bne n w => decide (decodeInstrWord n w = .bne n w)
  | .blt n w => decide (decodeInstrWord n w = .blt n w)
  | .bge n w => decide (decodeInstrWord n w = .bge n w)
  | .bltu n w => decide (decodeInstrWord n w = .bltu n w)
  | .bgeu n w => decide (decodeInstrWord n w = .bgeu n w)
  | .jal n w => decide (decodeInstrWord n w = .jal n w)
  | .jalr n w => decide (decodeInstrWord n w = .jalr n w)
  | .waitw n w => decide (decodeInstrWord n w = .waitw n w)
  | .donew n w => decide (decodeInstrWord n w = .donew n w)
  | .emitw n w => decide (decodeInstrWord n w = .emitw n w)
  | .emitwk n w => decide (decodeInstrWord n w = .emitwk n w)
  | .dropw n w => decide (decodeInstrWord n w = .dropw n w)
  | .faultw n w => decide (decodeInstrWord n w = .faultw n w)
  | .mfc n w => decide (decodeInstrWord n w = .mfc n w)
  | .mtc n w => decide (decodeInstrWord n w = .mtc n w)
  | .mset n w => decide (decodeInstrWord n w = .mset n w)
  | .mclr n w => decide (decodeInstrWord n w = .mclr n w)
  | .eret n w => decide (decodeInstrWord n w = .eret n w)
  | .brk n w => decide (decodeInstrWord n w = .brk n w)
  | .waiti n w => decide (decodeInstrWord n w = .waiti n w)
  | .trap n w => decide (decodeInstrWord n w = .trap n w)
  | .interruptEntry _ => true
  | .timerCompare _ => true
  | .vadd n w => decide (decodeInstrWord n w = .vadd n w)
  | .vsub n w => decide (decodeInstrWord n w = .vsub n w)
  | .vand n w => decide (decodeInstrWord n w = .vand n w)
  | .vor n w => decide (decodeInstrWord n w = .vor n w)
  | .vxor n w => decide (decodeInstrWord n w = .vxor n w)
  | .vsll n w => decide (decodeInstrWord n w = .vsll n w)
  | .vsrl n w => decide (decodeInstrWord n w = .vsrl n w)
  | .vsra n w => decide (decodeInstrWord n w = .vsra n w)
  | .vmin n w => decide (decodeInstrWord n w = .vmin n w)
  | .vmax n w => decide (decodeInstrWord n w = .vmax n w)
  | .vminu n w => decide (decodeInstrWord n w = .vminu n w)
  | .vmaxu n w => decide (decodeInstrWord n w = .vmaxu n w)
  | .vmul n w => decide (decodeInstrWord n w = .vmul n w)
  | .vmulhu n w => decide (decodeInstrWord n w = .vmulhu n w)
  | .vh40 n w => decide (decodeInstrWord n w = .vh40 n w)
  | .vsel n w => decide (decodeInstrWord n w = .vsel n w)
  | .fadd n w => decide (decodeInstrWord n w = .fadd n w)
  | .fsub n w => decide (decodeInstrWord n w = .fsub n w)
  | .fmul n w => decide (decodeInstrWord n w = .fmul n w)
  | .fdiv n w => decide (decodeInstrWord n w = .fdiv n w)
  | .fmin n w => decide (decodeInstrWord n w = .fmin n w)
  | .fmax n w => decide (decodeInstrWord n w = .fmax n w)
  | .fsqrt n w => decide (decodeInstrWord n w = .fsqrt n w)
  | .fma n w => decide (decodeInstrWord n w = .fma n w)
  | .fcvtfx n w => decide (decodeInstrWord n w = .fcvtfx n w)
  | .fcvtxf n w => decide (decodeInstrWord n w = .fcvtxf n w)
  | .fabs n w => decide (decodeInstrWord n w = .fabs n w)
  | .fneg n w => decide (decodeInstrWord n w = .fneg n w)
  | .fcvtp n w => decide (decodeInstrWord n w = .fcvtp n w)
  | .fmvxf n w => decide (decodeInstrWord n w = .fmvxf n w)
  | .fmvfx n w => decide (decodeInstrWord n w = .fmvfx n w)
  | .veq n w => decide (decodeInstrWord n w = .veq n w)
  | .vne n w => decide (decodeInstrWord n w = .vne n w)
  | .vlt n w => decide (decodeInstrWord n w = .vlt n w)
  | .vge n w => decide (decodeInstrWord n w = .vge n w)
  | .vltu n w => decide (decodeInstrWord n w = .vltu n w)
  | .vgeu n w => decide (decodeInstrWord n w = .vgeu n w)
  | .flt n w => decide (decodeInstrWord n w = .flt n w)
  | .fge n w => decide (decodeInstrWord n w = .fge n w)
  | .vrsum n w => decide (decodeInstrWord n w = .vrsum n w)
  | .vrmin n w => decide (decodeInstrWord n w = .vrmin n w)
  | .vrmax n w => decide (decodeInstrWord n w = .vrmax n w)
  | .vrminu n w => decide (decodeInstrWord n w = .vrminu n w)
  | .vrmaxu n w => decide (decodeInstrWord n w = .vrmaxu n w)
  | .vrand n w => decide (decodeInstrWord n w = .vrand n w)
  | .vror n w => decide (decodeInstrWord n w = .vror n w)
  | .vrxor n w => decide (decodeInstrWord n w = .vrxor n w)
  | .frsum n w => decide (decodeInstrWord n w = .frsum n w)
  | .frmin n w => decide (decodeInstrWord n w = .frmin n w)
  | .frmax n w => decide (decodeInstrWord n w = .frmax n w)
  | .vcompress n w => decide (decodeInstrWord n w = .vcompress n w)
  | .vexpand n w => decide (decodeInstrWord n w = .vexpand n w)
  | .vid n w => decide (decodeInstrWord n w = .vid n w)
  | .vsplat n w => decide (decodeInstrWord n w = .vsplat n w)
  | .vmov n w => decide (decodeInstrWord n w = .vmov n w)
  | .vext n w => decide (decodeInstrWord n w = .vext n w)
  | .vins n w => decide (decodeInstrWord n w = .vins n w)
  | .vln n w => decide (decodeInstrWord n w = .vln n w)
  | .vlnq n w => decide (decodeInstrWord n w = .vlnq n w)
  | .vlp n w => decide (decodeInstrWord n w = .vlp n w)
  | .vlw n w => decide (decodeInstrWord n w = .vlw n w)
  | .vsn n w => decide (decodeInstrWord n w = .vsn n w)
  | .vsp n w => decide (decodeInstrWord n w = .vsp n w)
  | .vsw n w => decide (decodeInstrWord n w = .vsw n w)
  | .vgn n w => decide (decodeInstrWord n w = .vgn n w)
  | .vgnq n w => decide (decodeInstrWord n w = .vgnq n w)
  | .vgw n w => decide (decodeInstrWord n w = .vgw n w)
  | .vscn n w => decide (decodeInstrWord n w = .vscn n w)
  | .vscw n w => decide (decodeInstrWord n w = .vscw n w)
  | .qboth n w => decide (decodeInstrWord n w = .qboth n w)
  | .qeither n w => decide (decodeInstrWord n w = .qeither n w)
  | .qdiff n w => decide (decodeInstrWord n w = .qdiff n w)
  | .qtrim n w => decide (decodeInstrWord n w = .qtrim n w)
  | .qflip n w => decide (decodeInstrWord n w = .qflip n w)
  | .qcount n w => decide (decodeInstrWord n w = .qcount n w)
  | .qfromx n w => decide (decodeInstrWord n w = .qfromx n w)
  | .qlow n w => decide (decodeInstrWord n w = .qlow n w)
  | .qhigh n w => decide (decodeInstrWord n w = .qhigh n w)
  | .qlead n w => decide (decodeInstrWord n w = .qlead n w)
  | .setvl n w => decide (decodeInstrWord n w = .setvl n w)
  | .qfill n w => decide (decodeInstrWord n w = .qfill n w)
  | .qld n w => decide (decodeInstrWord n w = .qld n w)
  | .qst n w => decide (decodeInstrWord n w = .qst n w)
  | .flw n w => decide (decodeInstrWord n w = .flw n w)
  | .fsw n w => decide (decodeInstrWord n w = .fsw n w)
  | .fld n w => decide (decodeInstrWord n w = .fld n w)
  | .fsd n w => decide (decodeInstrWord n w = .fsd n w)
  | .coreResetWrite _ _ _ => true
  | .coreRunWrite _ _ _ => true
  | .coreMsgWrite _ _ _ => true
  | .planeRingCapture _ => true
  | .planeProgramStart _ => true
  | .planeLineArrival _ _ => true
  | .planeSegmentOpen _ => true
  | .planeProgramComplete _ => true
  | .junctionRingCapture => true
  | .junctionQueueEntry => true
  | .junctionProgramStart => true
  | .junctionLineArrival _ => true
  | .junctionSlot => true
  | .junctionSearchResult _ => true
  | .junctionProgramComplete _ => true
  | .humpRingCapture => true
  | .humpJobStart => true
  | .humpLineArrival => true
  | .humpPassStart => true
  | .humpJobComplete => true
  | .shuntRingCapture => true
  | .shuntProgramStart _ => true
  | .commandMoveChannel => true
  | .programLineArrival _ => true
  | .shMove _ => true
  | .shLoop _ => true
  | .shEndloop _ => true
  | .shWait _ => true
  | .waitResume _ => true
  | .shSignal _ => true
  | .shEnd _ => true
  | .shuntPieceRead => true
  | .shuntPieceStaged => true
  | .moveCountEnd _ => true
  | .shuntProgramComplete _ => true
  | .shuntArbWrite _ _ => true
  | .shuntArbSwitch => true
  | .cacheLookup q => decide (0 < q.len.val ∧ q.addr.toNat % 64 + q.len.val ≤ 64)
  | .fillHalfArrival line => decide (line.toNat % 64 = 0)
  | .cacheWriteAccept a data _ => decide (0 < data.length ∧ data.length ≤ 64 ∧ a.toNat % 64 + data.length ≤ 64)
  | .invalidateAddr _ _ => true
  | .invalidateRange _ _ => true
  | .invalidateAll _ _ => true
  | .cacheMaintDone => true
  | .cacheEnableWrite _ _ => true
  | .onchipEccWriteback line => decide (line.toNat % 16 = 0)
  | .yardClear _ _ => true
  | .yardClearDone => true
  | .mcSlotIssue _ => true
  | .frameBoundary _ => true
  | .mcReadReturn _ _ => true
  | .refresh _ => true
  | .rowDisturbRefresh _ _ => true
  | .rowCounterClear => true
  | .deviceTempRead _ _ => true
  | .modeRegisterWrite _ _ _ => true
  | .caTraining _ _ _ => true
  | .wckAlignment _ _ _ => true
  | .readTraining _ _ _ => true
  | .writeTraining _ _ _ => true
  | .verify _ _ _ => true
  | .temperatureRead _ _ _ => true
  | .mcTrainDone _ _ _ => true
  | .mcResetRelease _ _ _ => true
  | .trafficEn _ _ => true
  | .mcConfigWrite _ _ => true
  | .selfRef _ _ _ => true
  | .rateDone _ _ _ => true
  | .sensorSample samples => decide (samples.length = 41)
  | .governorTick => true
  | .tamperResponse _ => true
  | .sign _ _ => true
  | .verifySignature _ _ => true
  | .timeTokenCheck _ _ => true
  | .signDone => true
  | .journalSeal => true
  | .zeroise _ _ => true
  | .genMem _ _ => true
  | .boot => true
  | .fwConfirm _ _ => true
  | .lifecycleAdvance _ _ => true
  | .dbgToken token => decide (token.length = 112)
  | .debugUnlock => true
  | .dbgAccess _ => true
  | .extest => true
  | .samplePreload => true
  | .idcode => true
  | .clamp => true
  | .highz => true
  | .bypass => true
  | .aoMsTick => true
  | .ppsEdge => true
  | .ppsLoss => true
  | .aoTimeWrite _ _ => true
  | .xtalStop => true
  | .wakeIgn => true
  | .wakeAux => true
  | .pmicWake => true
  | .standingAccessWake => true
  | .standingExit => true
  | .stabledWake => true
  | .sleep _ _ => true
  | .domainDrainAgree => true
  | .drainLimitRefuse => true
  | .sleepPhase2 => true
  | .pwrEnRaise => true
  | .railFault => true
  | .pgoodLow => true
  | .resetNLow => true
  | .resetNRelease => true
  | .powerOnReset => true
  | .warm _ _ => true
  | .idleGateExpiry _ => true
  | .idleOffExpiry _ => true
  | .powerDownComplete _ => true
  | .domainWake _ => true
  | .domainReady _ => true
  | .pwrDomainWake _ _ _ => true
  | .profile _ _ => true
  | .profileLowerInForce => true
  | .profileRaiseReady => true
  | .profileRaiseTimeout => true
  | .corePllSlew => true
  | .padHoldRelease _ _ => true
  | .rcFieldRead _ _ => true
  | .registerWrite _ _ _ => true
  | .lParkExit => true
  | .xtalStart => true
  | .undefinedOpcode n w => decide (decodeInstrWord n w = .undefinedOpcode n w)
  | .instructionFetchFault _ => true
  | .returnedWriteCrc _ _ => true

end Sys2Proof
end

