-- ==== Sys2Proof/Tests/Slice0.lean ====
section
/-!
SUPPORT. The model's own tests: instruction words written out from the spec's encodings, one-step examples, well-formedness, and for each statement
of Obligations.lean a state and operands that meet its hypotheses.
-/

section SmallProofs

set_option Elab.async false
set_option maxRecDepth 100000

namespace Sys2Proof.Machine.Tests



/-! ## Small states -/

/-- Core n about to issue word w at the start of its instruction memory, with registers c. -/
def code (n w : Nat) (c : Core) : State :=
  let a := if n = 32 then 0xE000000000 else imemBase n
  { dev := { mem := putBytes [] a (toLE 4 w), cores := mset (coreDefault n) [] n { c with st := .running, pc := a } } }

/-- A device with GDDR6 up: keys, TRAFFIC_EN and every channel in STATE 2. -/
def upDev : Dev := (List.range 16).foldl (fun d ch => setMcState d ch 2) (setFld (setFld {} .mcGlobal 0 24 24 1) .cipherStatus 0 39 39 1)

/-- The device with one command in flight. -/
def withCmd (d : Dev) (c : Cmd) : State := { dev := { d with ring := { d.ring with cmds := [c] } } }

/-- A command of port 0 just fetched. -/
def cmd (op : Nat) (p : List Nat) : Cmd := { id := 7, opcode := op, p := p }

/-- One whose addresses are host addresses. -/
def hostCmd (op : Nat) (p : List Nat) : Cmd := { cmd op p with space := 127 }

/-- The state that a step of a command answers. -/
def after (c : Instr) (s : State) : State := match exec c s with | .next t => t | _ => s

/-- No channel that the device names holds a request, and no fill is open; `queuesFree_of_list` makes it `QueuesFree`. -/
def queuesFreeB (d : Dev) : Bool := d.mc.all (fun e => decide (e.2.q = [] ∧ e.2.out = [])) && d.cache.fills.isEmpty

/-- No way that the cache names has an error in its arrays; `cacheSound_of_list` makes it `CacheSound`. -/
def cacheSoundB (d : Dev) : Bool := d.cache.sets.all (fun e => e.2.all (fun w => decide (w.flaw = .sound)))

/-- A device whose link is in L0 with credits to send. -/
def linkDev : Dev := setLinkState { link := { credP := 1000, credNP := 1000, credCPL := 1000, lanes := [0, 1, 2, 3] } } 2

/-- Whether a command only brings the device to a device state. -/
def makes (i : Instr) (s : State) (d : Dev) : Bool := decide (after i s = { s with dev := d })

/-- One word of each row of R211 that cannot fault, in the rows' order: rd 5, ra 6, rb 7. -/
def aluWords : List Nat := [0x000, 0x001, 0x002, 0x003, 0x004, 0x005, 0x006, 0x007, 0x008, 0x009, 0x00A, 0x00B, 0x00C, 0x00D, 0x010, 0x011, 0x012,
  0x020, 0x021, 0x022, 0x030].map (fun fn => 5 * 2 ^ 21 + 6 * 2 ^ 16 + 7 * 2 ^ 11 + fn)

/-- Registers for them: X6 the most negative number, X7 the number 41. -/
def xcore : Core := xset (xset {} 6 0x8000000000) 7 41

/-- One word of each row of R210 with an immediate: rd 5, ra 6, immediate 0xFFFE. -/
def immWords : List Nat := [1, 2, 3, 4, 5, 6, 7, 8, 9, 10, 11].map (fun op => op * 2 ^ 26 + 5 * 2 ^ 21 + 6 * 2 ^ 16 + 0xFFFE)

/-- One word of each row of opcode 0x30 in order: vd 1, va 2, vb 3, k 0, short. -/
def vecWords : List Nat := (List.range 16).map (fun fn => 0x30 * 2 ^ 26 + 1 * 2 ^ 20 + 2 * 2 ^ 14 + 3 * 2 ^ 8 + fn)

/-- A core with some cells. -/
def vcore : Core := setElems (setElems { xcore with q := [(0, 0xB5#64)] } 2 false ((List.range 8).map (fun j => (j, BitVec.ofNat 40 (j * 0x1234567891))))) 3 false ((List.range 8).map (fun j => (j, BitVec.ofNat 40 (0xFFFFFFFFFF - 0x23456789 * j))))

/-- A core whose X6 points at its own Platform Store, for core 3. -/
def mcore : Core := { xset {} 6 0x8103000000 with cells := [(5, 0x1122334455667788)], q := [(0, 0xFF), (5, 0x123456789ABCDEF)] }

/-- One word of each scalar load, in the order of `scalarLoads`. -/
def loadWords : List Nat := [0x10, 0x11, 0x12, 0x13, 0x14, 0x15, 0x16, 0x17, 0x3C, 0x3E].map (fun op => op * 2 ^ 26 + 5 * 2 ^ 21 + 6 * 2 ^ 16) ++
  [0x3B * 2 ^ 26 + 5 * 2 ^ 20 + 6 * 2 ^ 15]

/-- Core 3 about to issue a word, with bytes in its Platform Store. -/
def memState (w : Nat) (c : Core) : State := let s := code 3 w c; { s with dev := memWrite s.dev 0x8103000000 ((List.range 80).map (fun i => BitVec.ofNat 8 (255 - 3 * i))) }

/-- The Signal Box about to read HUMP_STATUS while the Hump's domain is gated. -/
def lnHump : State :=
  let s := code 32 (0x16 * 2 ^ 26 + 5 * 2 ^ 21 + 6 * 2 ^ 16) (xset {} 6 0xF000800000)
  { s with dev := setDom s.dev 13 { st := .gated } }

/-- Core 3 about to access address 0x40000 while CIPHER is gated and does not wake. -/
def shutState (w : Nat) : State := let s := code 3 w { mcore with x := (xset {} 6 0x40000).x }; { s with dev := setFld (setDom s.dev 23 { st := .gated }) .pwrDomain 23 36 36 0 }

/-- Core 3 about to read with LN the register of CORE_FAULT_PC of core 9, in a Rake that is gated and does not wake. -/
def lnShut (k : Nat) : State := let s := code 3 (0x16 * 2 ^ 26 + 5 * 2 ^ 21 + 6 * 2 ^ 16) (xset {} 6 (BitVec.ofNat 40 (0xF000000000 + coreOff 9 0x28 + k))); { s with dev := setFld (setDom s.dev 6 { st := .gated }) .pwrDomain 6 36 36 0 }

/-- One word of each scalar store, in the order of `scalarStores`. -/
def storeWords : List Nat := [0x18, 0x19, 0x1A, 0x1B, 0x3D, 0x3F].map (fun op => op * 2 ^ 26 + 5 * 2 ^ 21 + 6 * 2 ^ 16) ++
  [0x3B * 2 ^ 26 + 5 * 2 ^ 20 + 6 * 2 ^ 15 + 0x100]

/-- Core 3 about to ring the bell of the Junction, which is gated and does not wake. -/
def bellShut : State := let s := code 3 (0x1B * 2 ^ 26 + 5 * 2 ^ 21 + 6 * 2 ^ 16) (csrSet (xset {} 6 0x8103000005) 0x040 (1 <<< 12)); { s with dev := setFld (setDom s.dev 12 { st := .gated }) .pwrDomain 12 36 36 0 }

/-- The Signal Box about to write AO_ALARM with SN. -/
def snAlarm : State := code 32 (0x1B * 2 ^ 26 + 5 * 2 ^ 21 + 6 * 2 ^ 16) (xset (xset (coreDefault 32) 6 0xF000F00058) 5 0x123)

/-- One word of each vector load, in order: v 1, ra 6, k 0, and vi 2 for gathers. -/
def vloadWords : List Nat := [0, 1, 2, 3].map (fun fn => 0x38 * 2 ^ 26 + 1 * 2 ^ 20 + 6 * 2 ^ 15 + fn * 2 ^ 8) ++ [0, 1, 2].map (fun fn => 0x39 * 2 ^ 26 + 1 * 2 ^ 20 + 6 * 2 ^ 15 + 2 * 2 ^ 9 + fn)

/-- One word of each vector store, in order. -/
def vstoreWords : List Nat := [4, 5, 6].map (fun fn => 0x38 * 2 ^ 26 + 1 * 2 ^ 20 + 6 * 2 ^ 15 + fn * 2 ^ 8) ++ [4, 6].map (fun fn => 0x39 * 2 ^ 26 + 1 * 2 ^ 20 + 6 * 2 ^ 15 + 2 * 2 ^ 9 + fn)

/-- Core 3 with one load in flight. -/
def loadState (l : LoadFly) : State := { dev := { cores := [(3, { st := .running, loads := [l] })] } }

/-- A load whose bytes are known. -/
def loadOf (dest : LoadDest) (bs : List Byte) : LoadFly := { dest := dest, want := bs.map (fun b => (0x8103000000, some b)), addr := 0x8103000000 }

/-- Core 3 with one store buffered, and its bells in line 0 of PSWIN. -/
def storeState (a : Nat) (native : Bool) : State :=
  { dev := { cores := [(3, csrSet { st := .running, stores := [{ parts := [(a, [7, 0, 0, 0, 0])], isNat := native }] } 0x040 (1 <<< 12))] } }

/-- The Signal Box with a store to AO_ALARM buffered. -/
def sboxStore : State := { dev := setCore {} 32 { coreDefault 32 with stores := [{ parts := [(0xF000F00058, toLE 5 0x123)], isNat := true }] } }

/-- TRAP with imm16 0x1234. -/
def trapWord : Nat := 0x2D * 2 ^ 26 + 0x1234

/-- A core with vectors set and IE and AT on, at a level. -/
def vectored (level : Nat) : Core := csrSet (csrSet { status := BitVec.ofNat 40 (0xC1 + level * 16) } 0x008 0x8103800403) 0x009 0x8103800800

/-- TRAP, BRK and an undefined word, with the cause that each takes. -/
def tripleWords : List ((CoreIx → BitVec 32 → Instr) × Nat × Nat) := [(.trap, trapWord, 0x0B), (.brk, 0xB0000005, 0x0C), (.undefinedOpcode, 0x30000000, 0x02)]

/-- Core 3 about to take a cause at level 2, with CORE_CTRL and a Wagon of Consist 5 in service, after k earlier triple faults. -/
def tripleState (w run k : Nat) : State :=
  let s := code 3 w (vectored 2)
  { s with dev := { wr (wr (wr s.dev .coreCtrl 3 (BitVec.ofNat 40 run)) .coreResetPc 3 0x8103800010) .coreFault 3 (BitVec.ofNat 40 (if k = 0 then 0 else 2 ^ 39 + 9 * 2 ^ 30 + k)) with
      consists := [(5, { valid := true, ph := .running })], disp := { s.dev.disp with service := [{ w := wSetConsist {} 5, core := 3, serial := 4 }] } } }

/-- Core 3 running at an address outside the memory it may fetch. -/
def strayState (l : Nat) : State := { dev := { cores := [(3, { vectored l with st := .running, pc := 0x8103000000 })] } }

/-- Core 3 at level 0 with every cause pending that a core can have, and all of them enabled. -/
def pendState (ps : List Nat) : State := { dev := { regs := [(Reg.coreMsg.key 3, 0x55)], cores := [(3, { csrSet (csrSet (vectored 0) 0x002 0xFFFF) 0x02A 0xFFFF with st := .running, pc := imemBase 3, pend := ps, abortId := 9 })] } }

/-- Core 3 about to return with ESTAT es from a level. -/
def eretState (status es : Word) (l : Nat) : State := code 3 0xB0000004 (csrSet (csrSet { status := status + BitVec.ofNat 40 (16 * l) } (if l = 1 then 0x010 else 0x018) 0x8103800013) (if l = 1 then 0x011 else 0x019) es)

/-- The words of MFC, MTC, MSET and MCLR: rd 5, control register k, ra 6. -/
def csrWord (fn k : Nat) : Nat := 0x2C * 2 ^ 26 + 5 * 2 ^ 21 + 6 * 2 ^ 16 + k * 16 + fn

/-- Core 3 about to issue a Wagon instruction, with a Wagon of Consist 5 in service and its Consist running. -/
def wagonState (fn : Nat) (c : Core) : State :=
  let s := code 3 (0x28 * 2 ^ 26 + 6 * 2 ^ 16 + 7 * 2 ^ 11 + fn) (xset (xset c 6 8) 10 0x123)
  { s with dev := { s.dev with consists := [(5, { valid := true, ph := .running })], disp := { s.dev.disp with service := [{ w := wSetConsist {} 5, core := 3, serial := 4 }] } } }

/-- The word of `wagonState`. -/
def wagonWord (fn : Nat) : BitVec 32 := BitVec.ofNat 32 (0x28 * 2 ^ 26 + 6 * 2 ^ 16 + 7 * 2 ^ 11 + fn)

/-- A command and a NOP of the same SQ fetched before it. -/
def behind (c : Cmd) : State := { dev := { upDev with ring := { upDev.ring with cmds := [{ cmd 1 [] with id := 3, st := .running }, c] } } }

/-- A NOP with FENCE and HALT behind a failure. -/
def halted : State := let c := { cmd 1 [] with fence := true, halt := true }; withCmd (setCtx upDev 0 0 { valid := true, sq := true, failed := [4] }) c

/-- A device with port 3, which has one window. -/
def portDev : Dev := setPort upDev 3 { exists_ := true, live := true, gwin := [(0, { en := true, base := 0, size := 0x100000 })], hwin := [(0, { en := true, base := 0, size := 0x100000 })], rings := 4, cores := 2 }

/-- `portDev` with a PORT_DESTROY of port 3 and a NOP that port 3 has sent. -/
def busyPort : State := { dev := { portDev with ring := { portDev.ring with cmds := [cmd 0xE1 [3], { cmd 1 [] with id := 8, port := 3, st := .running }] } } }

/-- LOAD_TIMETABLE of 256 bytes at 0x1000. -/
def loadCmd : Cmd := cmd 0x10 [0x1000, 0x1000, 256]

/-- A RUN_CONSIST of handle 5 in flight, and the ABORT_CONSIST that names it. -/
def runCmd (st : CmdSt) : Cmd := { cmd 0x12 [5] with id := 3, cid := 9, st := st }

/-- The ABORT_CONSIST of CID n. -/
def abortCmd (n : Nat) : Cmd := cmd 0x13 [n * 65536]

/-- A device with both in flight, and the Consist of the first. -/
def abortState (n : Nat) : State := { dev := { upDev with consists := [(4, { valid := true, cmd := 3, ph := .running })], ring := { upDev.ring with cmds := [runCmd .running, abortCmd n] } } }

/-- A device whose rings are on, with SQ 1 of port 0 bound to CQ 0. -/
def ringDev : Dev :=
  setCtx (setCtx { setFld (setLinkState upDev 2) .ringCtrl 0 16 16 1 with link := { credP := 1000, credNP := 1000, credCPL := 1000, lanes := [0, 1, 2, 3] }, ring := { cached := [0, 1] } } 0 0 { valid := true, base := 0x2000 }) 0 1 { valid := true, sq := true, base := 0x3000, index := 5, weight := 3 }

/-- A read of the host that has ended with data. -/
def ended (o : Owner) (bs : List Byte) : HostRead := { len := bs.length, owner := o, got := bs, st := .done }

/-- A Submission entry: a NOP with CID 9. -/
def nopEntry : List Byte := toLE 8 (1 + 9 * 2 ^ 16) ++ zeros 56

/-- A poll of port 0 that has still to read the doorbell of ring 5, whose context is on chip or in GDDR6, which is not up. -/
def flaggedDev (there : Bool) : Dev :=
  let d := setCtx (setPort ringDev 0 { port ringDev 0 with polling := true, flagged := [5] }) 0 5 { valid := true, base := 0x5000 }
  if there then { d with ring := { d.ring with cached := d.ring.cached ++ [5] } }
  else setFld { d with ring := { d.ring with copies := [(5, { bytes := zeros 64, place := 0 })] } } .mcGlobal 0 24 24 0

/-- A roster descriptor of a KIND, and a device whose ring 2 has it back. -/
def descriptor (kind : Nat) : List Byte := toLE 16 0x4000 ++ toLE 1 kind ++ zeros 47

/-- The device. -/
def rereadDev (kind : Nat) : Dev := setSlot { ringDev with link := { ringDev.link with reads := [ended (.descriptor 0 2) (descriptor kind)] } } 0 2 { reset := .reading }

/-- NOP 7 of SQ 1 at its end. -/
def ended7 : Cmd := { cmd 1 [] with sq := 1, cid := 9, st := .done 0 0 }

/-- A RUN_CONSIST in flight with a failed read, and its Consist. -/
def badRun : Dev := { upDev with consists := [(4, { valid := true, cmd := 7, ph := .starting })], ring := { cmds := [{ cmd 0x12 [5] with st := .running, bad := [(0x40, 4)] }] } }

/-- A device whose link is in a state, with a training and saved presets. -/
def trainDev (st : Nat) (t : Option Training) : Dev := let d := setFld (setLinkState {} st) .linkEq 0 8 8 1; { d with link := { d.link with train := t } }

/-- Four good lanes of a bridge that gives credits. -/
def goodLanes : LaneReport := { present := 15, txPass := 15, rxPass := 15, credP := 10, credNP := 11, credCPL := 12, polarity := 0, reversed := false, txPreset := 3 }

/-- `linkDev` in a link state. -/
def linkAt (st : Nat) : Dev := setLinkState linkDev st

/-- A packet that waits without credits. -/
def waitDev (st : Nat) : Dev := { linkAt st with link := { txq := [{ ty := 0x20 }] } }

/-- `linkAt 3` with PARK_IDLE 5. -/
def parkable : Dev := setFld (linkAt 3) .linkCtrl 0 23 16 5

/-- A link that has asked to park. -/
def askedDev (st : Nat) : Dev := { linkAt st with link := { linkDev.link with parkAsked := true } }

/-- A link that has asked to park in a sleep sequence that drains the LINK domain. -/
def drainingLink : Dev := { askedDev 2 with pwr := { sleep := { active := true, target := 2, toAsk := [2, 1] } } }

/-- A link with flits to be acknowledged. -/
def replayDev (n k : Nat) : Dev := { linkAt 2 with link := { linkDev.link with txSeq := 3, replay := List.replicate n { bytes := zeros 256, replays := k } } }

/-- What the four lanes receive of a flit whose blocks a transmitter has coded from the start. -/
def lineOf (f : List Byte) : List LaneRx := (sendOnLanes [0, 1, 2, 3] f [{}, {}, {}, {}]).map (fun t => { before := 0, blocks := t.out })

/-- The flit of sequence number 0 with pad slots alone. -/
def padFlit : List Byte := zeros 252 ++ toLE 4 (crc32 (zeros 252)).toNat

/-- A flit of one byte repeated, whose CRC is wrong. -/
def badFlit : List Byte := List.replicate 256 0xAA

/-- A flit of sequence number seq that brings credits 5, 3 and 2 and 248 bytes. -/
def flitWith (seq : Nat) (bs : List Byte) : List Byte := let f := toLE 4 (seq * 2 ^ 24 + 5 * 256 + 3 * 16 + 2) ++ bs; f ++ toLE 4 (crc32 f).toNat

/-- A packet that asks for a register. -/
def regRdPkt : List Byte := [0x10, 0, 0x21, 0, 8, 0, 0, 0] ++ toLE 8 0xF000F00058

/-- A completion with 5 bytes of data. -/
def cplPkt : List Byte := [4, 0, 5, 0, 5, 0, 0, 0] ++ toLE 8 5 ++ [1, 2, 3, 4, 5, 0, 0, 0]

/-- A device with a summary-line read sent and a completion for it of n bytes. -/
def readDev (n : Nat) : Dev := setPort { linkAt 2 with link := { linkDev.link with reads := [{ tag := 5, len := 64, owner := .summary 0, st := .sent }], rxCpl := [{ ty := 4, tag := 5, len := n, data := List.replicate n 1 }] } } 0 { polling := true }

/-- A command whose first address alone is a host address. -/
def hostWord (op : Nat) (p : List Nat) : Cmd := { cmd op p with space := 2 }

/-- INGEST of n bytes into table 6. -/
def ingestCmd (n : Nat) : Cmd := hostWord 0x20 [0x4000, 0x8000, n, 0, 6, 0, 0]

/-- A device whose table 6 is retiring. -/
def retireDev : Dev := let d := memWrite upDev (dirAt upDev 6) (toLE 8 (2 ^ 41)); { d with ring := { d.ring with retiring := [6] } }

/-- A frame's head of 64 bytes: the words 16 to 24, 24 to 32, NEXT, and a length of 64 bytes. -/
def headBytes (w2 w3 next : Nat) : List Byte := zeros 16 ++ toLE 8 w2 ++ toLE 8 w3 ++ toLE 8 next ++ zeros 8 ++ toLE 8 (64 * 2 ^ 16) ++ toLE 8 1

/-- An INGEST into table 6 whose output, one frame at 0x8000 with old marks, is complete; the table is empty, or has its one frame at 0x9000. -/
def walkCmd : Cmd := { hostWord 0x20 [0x4000, 0x8000, 64, 5, 6, 0, 0] with st := .running, aux := [1, 0], pos := 64 }

/-- The device. -/
def walkState (k : Nat) : State :=
  let d := memWrite (withCmd upDev walkCmd).dev 0x8000 (headBytes (2 ^ 53 + 7 * 2 ^ 40 + 3) (2 ^ 41 + 8) 99)
  { dev := if k = 0 then d else memWrite (memWrite d (dirAt d 6) (toLE 8 (2 ^ 40 + 0x9000) ++ toLE 8 0x9000 ++ toLE 8 9)) 0x9000 (headBytes 0 0 0) }

/-- A RETIRE_EPOCH of table 6, up to epoch 9, about to walk its one frame, of epoch n. -/
def chainState (n : Nat) : State :=
  let d := memWrite (withCmd retireDev { cmd 0x22 [6, 9] with st := .running, aux := [1, 6, 3] }).dev 0x8000 (headBytes (2 ^ 50 + n) (2 ^ 41 + 3) 0)
  { dev := memWrite d (dirAt d 6) (toLE 8 (2 ^ 41 + 2 ^ 40 + 0x8000) ++ toLE 8 0x8000 ++ toLE 8 9 ++ toLE 8 4) }

/-- A device that may sign. -/
def signDev : Dev := setFld (setFld upDev .chipLifecycle 0 1 0 1) .cipherStatus 0 38 38 1

/-- One whose Journal has 3 sealed blocks, of which block 2 has been exported. -/
def sealedDev : Dev := setJblock (setJblock (wr signDev .sboxJournal 0 192) 1 { sealed := true }) 2 { sealed := true, exported := true }

/-- A device with one request at the signing engine. -/
def runDev (r : SignReq) : Dev := { signDev with sbox := { signDev.sbox with run := some { req := r, bytes := zeros 64 } } }

/-- A device whose signing engine has answered a request. -/
def outDev (d : Dev) (r : SignReq) (bs : List Byte) : Dev := { d with sbox := { d.sbox with outs := [{ req := r, ok := true, bytes := bs }] } }

/-- A device with an attestation to deliver for Consist 4. -/
def attestDev : Dev := outDev { signDev with consists := [(4, { valid := true, cmd := 7, ph := .signing, attestHost := true, attestAt := 0x5000 })], ring := { signDev.ring with cmds := [{ cmd 0x12 [] with st := .running }] } } (.attest 4) (List.replicate 256 7)

/-- A signed image of a header alone, and the fuses of its signer. -/
def signedImage : List Byte := List.flatten [
   toLE 64 0xdae1f663bfc70c4c4307be1411b7fd216ae3b1b17e32d94c3896ac51a760b0380000000000000004000000000000000000000000000002000000000002015346,
   toLE 64 0x0000000000000000000000000000000000000000000000000000000000000000000000000000000000000000000000005bb99848f1d21ad5fb656fe7bfde4e27,
   toLE 64 0x2c574e346af752307a9011a5dce18bce2019ec5f21c9938cf921e4f40267897caff12da76da48d7b4ce541e7ac1e17004dcc71eda55353d03d0dc58491833c9c,
   toLE 64 0x55201ad60bc7757bc3d613d45128be7f23f6f00da4d8cd2a8b207b861a596fde759dccd21b2cd4e9f372b138c79b1d484fd03cee956f4a181a4f234e7796e208,
   toLE 64 0xc1b221e0ea9d38be5be00254def76b1755201ad60bc7757bc3d613d45128be7f23f6f00da4d8cd2a8b207b861a596fdec1b221e0ea9d38be5be00254def76b17,
   zeros 192]

/-- The device at reset with that image in slot 1 and slot 0 blank. -/
def imageState : State :=
  { State.reset with otp := { fwHash := 0x9475ea21c0c5ed24c628c1836aac927fa26172e816f8d350113185693caf50e06f71589c79d6b3bc1486badf04c45563 }, dev := memWrite State.reset.dev (slotBase 1) signedImage }

/-- The device in a power mode. -/
def inMode (m : PowerMode) : Dev := { upDev with pwr := { upDev.pwr with mode := m } }

/-- A TAP read of CORE_FAULT_PC of core 3. -/
def dbgRead : TapScan := { ir := 0x18, dr := BitVec.ofNat 81 ((0xF000000000 + coreOff 3 0x28) * 2 ^ 40) }

/-- A device whose debug access is open. -/
def dbgDev : Dev := setFld upDev .chipLifecycle 0 4 4 1

/-- The device address of a register offset. -/
def regAddr (off : Nat) : Word := BitVec.ofNat 40 (0xF000000000 + off)

/-- LINK_ERR_CNT, whose field is RC, holding a count. -/
def rcDev : Dev := wr upDev .linkErrCnt 1 0x77

/-- A device with one register packet received. -/
def regPktDev (q : Packet) : Dev := { upDev with link := { linkDev.link with rxReg := [q] } }

/-- A device whose rings are off and whose port 0 line registers are set. -/
def lineDev : Dev := wr (wr (setFld upDev .ringCtrl 0 16 16 0) .port0SummaryLo 0 0x1077) .port0RosterLo 0 0x2099

/-- Consist 5 in a state, with its image at 0x1000. -/
def consistDev (k : Consist) : Dev := { upDev with consists := [(5, { k with valid := true, home := 0x1000, bytes := 4096 })] }

/-- Rake 2 alone, starting, with its parameters. -/
def startingK : Consist := { ph := .starting, params := some (zeros 384), domains := 0x4, resultStage := 1, stages := 2 }

/-- One whose start is done but for its seeds. -/
def readyK : Consist := { startingK with carved := true, rakes := [2] }

/-- A running Consist with nothing left. -/
def idleK (attest : Bool) : Consist := { readyK with ph := .running, attest := attest, cmd := 7 }

/-- A Consist whose stage 0 has 32 bytes of kernel for cores 4 to 7, at instruction memory offset 0x100. -/
def kernelDev : Dev := memWrite (memWrite (consistDev startingK) 0x1100 (toLE 8 (0xF0 * 2 ^ 32) ++ toLE 8 (0x300 + 32 * 2 ^ 40) ++ toLE 8 0x100)) 0x1300 ((List.range 32).map (fun i => BitVec.ofNat 8 (i + 1)))

/-- A Wagon of Consist 5 for a stage. -/
def wagonTo (st : Nat) : Wagon := wSetConsist { w0 := BitVec.ofNat 40 (st * 2 ^ 34 + 77 * 2 ^ 18 + 3) } 5

/-- A running Consist 5 with a list for stage 0, and offers. -/
def dispDev (l : ReadyList) (os : List Offer) : Dev := let d := consistDev { idleK false with rowBytes := 8, resultBytes := 256, result := 0x9000 }; { d with disp := { d.disp with lists := [(320, { l with valid := true, cores := 0xF0 })], offers := os } }

/-- A list of n Wagons. -/
def listOf (n : Nat) : ReadyList := { chip := List.replicate n { w := wagonTo 0 } }

/-- As `dispDev`, with LIST_CAP 1. -/
def capDev (n : Nat) (st : Bool) : Dev := setFld (dispDev (listOf n) [{ prod := .junction, w := wagonTo 0, stalled := st }]) .dispCtrl 0 14 0 1

/-- A full list of LIST_CAP 1 with a Siding at 0x20000. -/
def fullDev : Dev := setFld (dispDev { listOf 1 with sidingBase := 0x20000, sidingLog2 := 6, written := 4, moved := 4 } [{ prod := .junction, w := wagonTo 0 }]) .dispCtrl 0 14 0 1

/-- A list whose stage routes by a Points Table of four entries at image offset 0x800: two bytes each, 0x1111 to 0x4444. -/
def keyedDev (os : List Offer) : Dev := memWrite (dispDev { listOf 1 with ptBits := 2, ptOff := 0x800 } os) 0x1800
  (toLE 8 0x4444333322221111)

/-- Core 6 in an EMITW, serving a Wagon of stage 0 whose service is 4. -/
def emitDev (l : ReadyList) (os : List Offer) : Dev := let d := setCore (dispDev l os) 6 { st := .emitw, pc := 0x8100A00010 }; { d with disp := { d.disp with service := [{ w := wagonTo 0, core := 6, serial := 4 }, { w := wagonTo 0, core := 5, serial := 3 }] } }

/-- The same of an ORDERED stage: the window of its list holds service 3, then 4, and n Wagons stand on chip. -/
def orderedDev (n : Nat) (os : List Offer) : Dev := let d := emitDev { listOf n with order := 2 } os; { d with disp := { d.disp with windows := [(320, [{ core := 5, serial := 3 }, { core := 6, serial := 4 }])] } }

/-- Two offers of Consists that are not there. -/
def twoOffers (a b : Offer) : Dev := dispDev {} [{ a with w := wSetConsist { a.w with w1 := 1 } 9 }, { b with w := wSetConsist { b.w with w1 := 2 } 9 }]

/-- A list with one Wagon in its Siding at 0x20000. -/
def spillDev : Dev := memWrite (dispDev { listOf 2 with spilled := true, written := 192, moved := 191, sidingBase := 0x20000, sidingLog2 := 6 } []) 0x20FD4 (List.replicate 20 7)

/-- A flow whose spill entry names core 6. -/
def flowDev : Dev := let d := dispDev (listOf 1) []; memWrite { d with disp := { d.disp with flowReads := [(5, 0, 77, flowAddr d (flowTag 5 0 77))] } } (flowAddr d (flowTag 5 0 77)) (toLE 8 (2 ^ 37 + 6 * 2 ^ 32 + flowTag 5 0 77))

/-- Core 6 waits for a Wagon of a list. -/
def waitingDev (l : ReadyList) : Dev := let d := dispDev l []; { d with disp := { d.disp with waiting := [(6, 0)], serial := 9 } }

/-- An ATOMIC list whose oldest Wagon, of a flow of core 4, has waited for its hold. -/
def holdDev : Dev := let d := waitingDev { order := 1, affHold := 0, chip := [{ w := wagonTo 0, eligible := some 0 }] }; { d with cc := 1000, disp := { d.disp with flows := [{ c := 5, s := 0, f := 77, last := some 4, inServ := false }] } }

/-- A Wagon on its way to core 6. -/
def arrivingDev (cur : Option Nat) : Dev := let d := setCore (dispDev {} []) 6 { st := .waitw, pc := imemBase 6, curkey := cur }; { d with disp := { d.disp with delivering := [{ w := wagonTo 0, core := 6, serial := 9 }], service := [{ w := wagonTo 0, core := 6, serial := 9 }] } }

/-- Service 3 of an ORDERED stage is released; service 4 behind it holds an output. -/
def drainDev : Dev := let d := dispDev {} []; { d with cc := 50, disp := { d.disp with releasing := [{ w := wagonTo 0, core := 5, serial := 3 }], service := [{ w := wagonTo 0, core := 5, serial := 3 }, { w := wagonTo 0, core := 6, serial := 4 }], windows := [(320, [{ core := 5, serial := 3 }, { core := 6, serial := 4, held := [{ w := wagonTo 2 }, { w := wagonTo 3 }] }])] } }

/-- Three rows of 8 bytes at 0x7000 on the result path. -/
def resultDev : Dev := let d := dispDev {} []; memWrite { d with disp := { d.disp with resultQ := [{ w := { wagonTo 1 with w2 := 0x7000 } }] } } 0x7000 ((List.range 24).map (BitVec.ofNat 8))

/-- The same once its line has been served. -/
def resultRead : Dev := { resultDev with cache := { resultDev.cache with reqs := [{ own := .result, req := 50, addr := 0x7000, len := 24, st := .served, data := memRead resultDev 0x7000 24 }] } }

/-- A result of 128 rows of 8 bytes from 0x7010: its first piece ends at 0x7400, and its lines have been served. -/
def resultPiece1 : Dev := let d := setConsist resultDev 5 { consist resultDev 5 with resultBytes := 4096 }; let w : Wagon := { wSetConsist { w0 := BitVec.ofNat 40 (2 ^ 34 + 128) } 5 with w2 := 0x7010 }; { d with disp := { d.disp with resultQ := [{ w := w }] }, cache := { d.cache with reqs := (linePieces 17 0x7010 1008).map (fun p => { own := .result, req := 50, addr := p.1, len := p.2, st := .served, data := memRead d p.1 p.2 }) } }

/-- The device once a unit's read of a line has been served. -/
def servedBy (d : Dev) (own : GOwner) (req a : Nat) (consist : Option Nat) : Dev :=
  { d with cache := { d.cache with reqs := [{ own := own, req := req, consist := consist, addr := a, len := 64, st := .served, data := memRead d a 64 }] } }

/-- The bytes that a unit's read of a line brings, once it has come. -/
def gotBy (d : Dev) (own : GOwner) (req a : Nat) (consist : Option Nat) : Option (Dev × List Byte) :=
  match fetchLines d own req 0 consist [(a, 64)] with | .got e bs => some (e, bs) | _ => none

/-- Consist 5 running, and a ring of core 6 for it at program line 4. -/
def unitDev : Dev := consistDev (idleK false)

/-- The ring. -/
def ring6 : Ring := { line := 4, core := 6, consist := some 5, yCount := 1 }

/-- A device with scanner 3 in a state. -/
def scanDev (p : PlaneSt) : Dev := setPlane unitDev 3 p

/-- A program of one segment of 512 rows and one step: rows equal to 2 in 2 planes at 0x40000, into 0x8103000000 (core 6's Platform Store). -/
def scanProg : ScanProg := { ring := ring6, noWagon := true, segs := 1, rows := 512, dst := storeBase 6 + 0x1000, steps := [{ pred := 0, width := 2, planes := 0x40000, consts := [2] }] }

/-- A program whose segment waits for the line of the lowest plane, which has been served. -/
def flyingProg : ScanProg := { scanProg with next := 1, opened := [{ s := 0, flight := some .plane }] }

/-- Its device. -/
def flyingDev : Dev := servedBy (memWrite (scanDev { progs := [flyingProg] }) 0x40000 (zeros 10 ++ [3, 5])) (.scan 3 0 0) 35 0x40000 (some 5)

/-- A device with the Hump in a state. -/
def humpDev (h : HumpSt) : Dev := { unitDev with hump := h, ring := { cmds := [{ cmd 0x50 [0x40000, 0x50000, 30, 0x60000, 0, 0] with st := .running }] } }

/-- A job of 30 pairs in its first pass. -/
def humpJob (src : JobSrc) : HJob := { src := src, pairs := 30, inAt := 0x40000, outAt := 0x50000, scratch := 0x60000 }

/-- A job whose first line has been served. -/
def lineDev1 : Dev := servedBy (memWrite (humpDev { cur := some (humpJob (.cmd 7)) }) 0x40000 ((List.range 60).map (BitVec.ofNat 8))) (.hump 0) 49 0x40000 none

/-- Four pairs of one key word, two of them with one key. -/
def fourPairs : List HPair := [([(9, false), (1, false)], 0), ([(3, false), (2, false)], 0), ([(9, false), (3, false)], 0), ([(4, false), (4, true)], 0)]

/-- Two runs of a group with pairs of one key word and a payload, and one that is empty. -/
def twoRuns (back : Bool) : HTree := { back := back, runs := [{ size := 2, buf := [(5, false), (1, false), (9, false), (2, false)] }, { size := 2, first := 2, taken := 1, buf := if back then [(4, false), (3, false)] else [(5, false), (4, false)] }, { size := 1, first := 4, taken := 1 }] }

/-- Three matching entries, two of the largest PRIORITY. -/
def threeHits : List (Nat × JEntry) := [(4, { valid := true, prio := 2 }), (6, { valid := true, prio := 9 }), (8, { valid := true, prio := 9 })]

/-- A device with the Junction in a state. -/
def juncDev (j : JuncSt) : Dev := { unitDev with junc := j, ring := { cmds := [{ cmd 0x41 [0, 0x40000, 0x50000, 30] with st := .running }] } }

/-- An active program of a table of 16 entries from entry 32. -/
def juncProg (src : JobSrc) : JProg := { num := 4, src := src, count := 30, src_ := 0x40000, out := 0x50000, valid := true, base := 32, entries := 16 }

/-- A program whose next line has been served. -/
def keyDev (u : Bool) : Dev := servedBy (memWrite (juncDev { active := [{ juncProg (.cmd 7) with upd := u }] }) 0x40000 ((List.range 64).map (BitVec.ofNat 8))) (.junc 4) 48 0x40000 none

/-- A program whose next line has come over the link. -/
def hostKeyDev (u : Bool) : Dev := let d := juncDev { active := [{ juncProg (.cmd 7) with upd := u, srcHost := true }] }; { d with link := { d.link with reads := [{ owner := .junction 7 0, addr := 0x40000, len := 64, got := (List.range 64).map (BitVec.ofNat 8), st := .done }] } }

/-- A program with one key waiting, and an entry of its table that matches it, held in both copies or not. -/
def hitDev (counts : Bool) (copy : JEntry) (fl : List JFlight) : Dev := juncDev { array := [(33, { valid := true, key := 5, mask := 0xFF, prio := 3 })], copy := [(33, copy)], active := [{ juncProg (.cmd 7) with counts := counts, keys := if fl = [] then [{ idx := 2, key := some 5 }] else [] }], flights := fl }

/-- An answer on the way. -/
def flight (w : Option (Nat × JEntry)) (n : Nat) : JFlight := { prog := 4, idx := 2, key := 5, winner := w, copy := { valid := true, key := 5, mask := 0xFF, prio := 3 }, matches_ := n }

/-- A device with the Shunting Engine in a state, and a DMA_RUN of it in flight. -/
def shuntDev (h : ShuntSt) : Dev := { unitDev with shunt := h, ring := { cmds := [{ cmd 0x30 [0x40000, 2] with st := .running }] } }

/-- With channel 2 in a state. -/
def chanDev (c : ShChan) : Dev := setChan (shuntDev {}) 2 c

/-- A channel that runs a program at 0x40000 whose line 0 is kept. -/
def runChan (i : List Nat) : ShChan := { ph := .run, prog := some 0x40000, src := .dma 7, kept := if i = [] then [] else [(0, i)] }

/-- A READ_BACK that waits for a channel, with channel 0 busy. -/
def moveDev : Dev := let d := setFld (shuntDev { cmds := [7] }) .shuntCtrl 0 15 0 0xFFFF; setChan { d with ring := { cmds := [{ cmd 0x60 [0x40000, 0x50000, 640] with st := .running, space := 4 }] } } 0 { ph := .run }

/-- Channel 2 whose program line 0 has been served. -/
def servedChan : Dev := servedBy (memWrite (chanDev (runChan [])) 0x40000 [1, 2, 3]) (.prog 2) 50 0x40000 none

/-- Channel 2 at an instruction. -/
def atChan (i : List Nat) (loops : List (Nat × Nat)) : Dev := chanDev { runChan i with loops := loops }

/-- A WAIT or SIGNAL behind a MOVE whose write has not completed. -/
def heldChan (i : List Nat) (ph : ShPh) : Dev := chanDev { runChan i with ph := ph, moves := [{ src := 0x60000, dst := 0x70000, count := 8 }] }

/-- Gate 3 set, with channel 2 waiting. -/
def gateDev (ph : ShPh) : Dev := setFld (chanDev { runChan [0x3104, 0] with ph := ph }) .shuntGate 0 3 3 1

/-- Channel 2 in a MOVE of 640 bytes from 0x60000 to 0x70000. -/
def moveOf (srcHost : Bool) : ShMove := { srcHost := srcHost, src := 0x60000, dst := 0x70000, count := 640 }

/-- The device with it. -/
def movingDev (m : ShMove) : Dev := chanDev { runChan [1, 0x60000, 0x70000, 640] with ph := .move, moves := [m], nextMove := 1 }

/-- The same for 64 bytes that have been served. -/
def pieceDev : Dev := servedBy (memWrite (movingDev { moveOf false with count := 64 }) 0x60000 [1, 2, 3]) (.piece 2 (pieceId 0 0)) 50 0x60000 none

/-- Its piece in staging. -/
def stagedPiece : ShPiece := { ch := 2, mv := 0, idx := 0, size := 8, bufs := [0xFC0] }

/-- The device with it, 8 bytes being moved. -/
def stagedDev : Dev := let d := movingDev { moveOf false with count := 8, next := 1 }; memWrite { d with shunt := { d.shunt with staged := [stagedPiece] } } (yardBase + 4096 * 0xFC0) [1, 2, 3, 4, 5, 6, 7, 8]

/-- A piece whose write waits for its slice: the channel holds 32 writes. -/
def waitingPiece : Dev := let d := stagedDev; let q : ShPiece := { stagedPiece with out := some [(0x70000, [1, 2, 3, 4, 5, 6, 7, 8])] }; setMc { d with shunt := { d.shunt with staged := [q] } } (chanOf d 0x70000) { mcChan d (chanOf d 0x70000) with q := List.replicate 32 { line := 0x70040, write := true } }

/-- A device with the Column Cache enabled or not, in a state. -/
def cacheDev (en : Nat) (c : CacheSt) : Dev := setFld { upDev with cache := c } .cacheCtrl 0 0 0 en

/-- A read of address 0x40020 by requester 3. -/
def cacheReq : CacheReq := { addr := 0x40020, len := 8, req := 3, port := 0, consist := none, corrected := false, arrayError := none }

/-- The cache with one line in its set. -/
def setWith (line : Nat) : CacheSt := { sets := [(cacheSetKey 0x40000, [{ way := 5, line := line }])] }

/-- The same with a load of core 3 waiting for the line. -/
def cacheWait : Dev := { memWrite (cacheDev 1 (setWith 0x40000)) 0x40020 [7, 8] with cache := { (cacheDev 1 (setWith 0x40000)).cache with reqs := [{ own := .load 3 0, req := 3, addr := 0x40020, len := 8 }] } }

/-- A set with three other ways, one of whose tags fails, and the line itself, whose data is uncorrectable or whose tag fails. -/
def flawed (x : CFlaw) : Dev := setFld (memWrite (cacheDev 1 { sets := [(cacheSetKey 0x40000, [{ way := 5, line := 0x1040000, flaw := .tag }, { way := 6, line := 0x40000, flaw := x }, { way := 7, line := 0x2040000 }, { way := 8, line := 0x3040000, flaw := .bad }])] }) 0x40000 (List.replicate 64 9)) .cacheCtrl 0 1 1 0

/-- A fill that the controller has returned. -/
def fillDev (f : CFill) : Dev := cacheDev 1 { fills := [{ f with line := 0x40000, back := true, opener := 3 }], sets := [(cacheSetKey 0x40000, [{ way := 5, line := 0x1040000 }])] }

/-- Two loads that wait in that fill, for its critical half and for both halves. -/
def fillReqs (d : Dev) : Dev := { d with cache := { d.cache with reqs := [{ own := .load 3 0, req := 3, addr := 0x40008, len := 8, st := .filling }, { own := .load 4 0, req := 4, addr := 0x40018, len := 16, st := .filling }] } }

/-- The cache with a range for maintenance. -/
def maintDev : Dev := wr (wr (cacheDev 1 (setWith 0x40000)) .cacheMaintAddr 0 0x40000) .cacheMaintEnd 0 0x40080

/-- Channel 3 serving, in a state. -/
def chDev (v : McChan) : Dev := setMc upDev 3 v

/-- A line of channel 3. -/
def lineOf3 : Nat := 3 * 64

/-- Channel 3 with a read and a write returned to, EDC on and 2 repeats allowed. -/
def edcDev : Dev := setFld (setFld (chDev { out := [{ line := lineOf3, tries := 1 }], wout := [{ line := lineOf3, write := true, tries := 1 }], edcRun := 1 }) .mcCtrl 1 7 7 1) .mcCtrl 1 11 8 2

/-- Its fill. -/
def edcFillDev : Dev := { edcDev with
  cache := { fills := [{ line := lineOf3 }] }, mc := mset {} edcDev.mc 3 { mcChan edcDev 3 with out := [{ line := lineOf3, tries := 1, fill := true }] } }

/-- The same with ECC on, its check words held on chip, and a write of the whole line behind it. -/
def edcCheckDev : Dev := let d := setFld edcFillDev .mcGlobal 0 22 22 1
  setMc d 3 { mcChan d 3 with q := [{ line := lineOf3, write := true }], halves := [{ num := halfOf d lineOf3, words := List.replicate 8 (BitVec.ofNat 32 (achk lineOf3 * 2 ^ 20)) }] }

/-- The channels in one STATE. -/
def stateDev (st : Nat) : Dev := (List.range 16).foldl (fun d ch => setMcState d ch st) upDev

/-- A device with domain k in a state, and 5 in both idle fields. -/
def domDev (k : Nat) (v : Dom) : Dev := setDom (setFld (setFld upDev .pwrDomain k 15 4 5) .pwrDomain k 31 16 5) k v

/-- A device with a profile asked for, at a profile and a core clock. -/
def profDev (now mhz : Nat) (q : ProfileReq) : Dev := let d := setFld (setFld upDev .pwrStatus 0 39 38 now) .pwrStatus 0 34 24 mhz; let d1 := { d with pwr := { d.pwr with profile := some q } }; { d1 with pwr := { d1.pwr with rateNow := mcRate d1 } }

/-- A lowering to CAP15 with the Rakes of a running Consist held, or with none held and every Rake ON. -/
def lowerDev (held : Bool) : Dev := let d := profDev 0 1800 { want := 2, lower := true }; if held then setConsist d 5 { idleK false with valid := true, domains := 0xFF } else d

/-- A device with a hot sensor 23. -/
def hotDev : Dev := setFld upDev .sboxSensor 23 15 0 (121 * 16)

/-- A device in a power mode with rails up. -/
def modeDev (m : PowerMode) (en : Nat) : Dev := { upDev with pwr := { upDev.pwr with mode := m, pwrEn := en, pwrStep := 2 } }

/-- A line of MRAM that is being written. -/
def mramDev : Dev := let d := memWrite upDev 0xC000000040 (List.replicate 64 7); { d with nv := { d.nv with writing := some (0xC000000040, List.replicate 64 3) } }

/-- A device in the sleep sequence, with domains to be asked, the first of them in a state. -/
def sleepDev (ks : List Nat) (st : DomState) : Dev := let d := setDom upDev (ks.head?.getD 0) { st := st }; { d with pwr := { d.pwr with sleep := { active := true, target := 2, toAsk := ks, stopped := [4] } } }

/-- One whose Hump holds a job. -/
def busyDev : Dev := { sleepDev [13, 14] .on with hump := { cur := some (humpJob (.cmd 7)) } }

/-- One whose domains have all agreed. -/
def agreedDev (target : Nat) : Dev := let d := setFld (memWrite upDev 0x4000 [5, 6]) .wakeCtrl 0 4 4 0; { d with pwr := { d.pwr with sleep := { active := true, target := target, agreed := true } } }

/-- Stabled, in the window before the wake logic is armed. -/
def windowDev (due : List Nat) : Dev := let d := setFld upDev .wakeCtrl 0 4 4 0; { d with pwr := { d.pwr with mode := .stabled, pwrEn := 9, window := true, wakeDue := due } }

/-- A sleeping device with a wake source enabled. -/
def wakeDev (m : PowerMode) (bit : Nat) : Dev := setFld (modeDev m 0) .wakeCtrl 0 bit bit 1

/-- Standing, with a register packet to block 2 received. -/
def accessDev : Dev := let d := modeDev .standing 15; { d with link := { linkDev.link with rxReg := [{ ty := 0x10, addr := 0xF000200000 }] } }

/-- Asleep with a wake due and two domains stopped. -/
def dueDev (m : PowerMode) : Dev := let d := setDom (setDom (modeDev m 9) 4 { st := .gated }) 13 { st := .gated }; { d with pwr := { d.pwr with wakeDue := [0], sleep := { stopped := [13, 4] } } }

/-! ## Words of the spec's worked kernels (08_operator_cores.md, 09_vector_extensions.md) and words written out from R208 to R211, R244 to R253 -/

theorem test_word_ln : decodeInstrWord 9 0x58AC0003 = .ln 9 0x58AC0003 ∧ rdOf 0x58AC0003 = 5 ∧ raOf 0x58AC0003 = 12 ∧ immS 0x58AC0003 = 3 := by
  decide +kernel

theorem test_word_sw : decodeInstrWord 9 0x68A2FFF0 = .sw 9 0x68A2FFF0 ∧ rdOf 0x68A2FFF0 = 5 ∧ raOf 0x68A2FFF0 = 2 ∧ immS 0x68A2FFF0 = -16 := by
  decide +kernel

theorem test_word_mfc : decodeInstrWord 9 0xB0A00130 = .mfc 9 0xB0A00130 ∧ rdOf 0xB0A00130 = 5 ∧ csrOf 0xB0A00130 = 0x013 ∧
    decodeInstrWord 9 0xB0C00100 = .mfc 9 0xB0C00100 ∧ rdOf 0xB0C00100 = 6 ∧ csrOf 0xB0C00100 = 0x010 := by decide +kernel

theorem test_word_faultw : decodeInstrWord 9 0xA0053011 = .faultw 9 0xA0053011 ∧ raOf 0xA0053011 = 5 ∧ rbOf 0xA0053011 = 6 := by decide +kernel

theorem test_word_setvl : decodeInstrWord 2 0xE802400A = .setvl 2 0xE802400A ∧ vdOf 0xE802400A = 0 ∧ vaOf 0xE802400A = 9 := by decide +kernel

theorem test_word_qld : decodeInstrWord 2 0xEC128000 = .qld 2 0xEC128000 ∧ vdOf 0xEC128000 = 1 ∧ raV 0xEC128000 = 5 ∧ imm8 0xEC128000 = 0 := by
  decide +kernel

theorem test_word_vlnq : decodeInstrWord 2 0xE0230900 = .vlnq 2 0xE0230900 ∧ vdOf 0xE0230900 = 2 ∧ raV 0xE0230900 = 6 ∧ kVM 0xE0230900 = 0 ∧
    longVM 0xE0230900 = true := by decide +kernel

theorem test_word_qtrim : decodeInstrWord 2 0xE8104203 = .qtrim 2 0xE8104203 ∧ vdOf 0xE8104203 = 1 ∧ vaOf 0xE8104203 = 1 ∧ vbOf 0xE8104203 = 2 := by
  decide +kernel

theorem test_word_vln : decodeInstrWord 2 0xE0131800 = .vln 2 0xE0131800 ∧ vdOf 0xE0131800 = 1 ∧ raV 0xE0131800 = 6 ∧ kVM 0xE0131800 = 1 ∧
    longVM 0xE0131800 = true := by decide +kernel

theorem test_word_vrsum : decodeInstrWord 2 0xD8704730 = .vrsum 2 0xD8704730 ∧ vdOf 0xD8704730 = 7 ∧ vaOf 0xD8704730 = 1 ∧ vbOf 0xD8704730 = 7 ∧
    kV 0xD8704730 = 1 ∧ longV 0xD8704730 = true := by decide +kernel

theorem test_word_qcount : decodeInstrWord 2 0xE8804015 = .qcount 2 0xE8804015 ∧ vdOf 0xE8804015 = 8 ∧ vaOf 0xE8804015 = 1 ∧ longV 0xE8804015 = true := by
  decide +kernel

theorem test_word_vgn : decodeInstrWord 3 0xE42A0420 = .vgn 3 0xE42A0420 ∧ vdOf 0xE42A0420 = 2 ∧ raV 0xE42A0420 = 20 ∧ viOf 0xE42A0420 = 2 ∧
    kVG 0xE42A0420 = 0 ∧ longVG 0xE42A0420 = true := by decide +kernel

/-- A branch, a jump, an upper immediate, a trap and the floating rows: op in bits 31 to 26, fn where R208 and R244 put it. -/
theorem test_word_others : decodeInstrWord 0 0x80A6FFFF = .beq 0 0x80A6FFFF ∧ decodeInstrWord 0 0x983FFFFF = .jal 0 0x983FFFFF ∧
    decodeInstrWord 0 0x28A00001 = .lui 0 0x28A00001 ∧ decodeInstrWord 0 0x00A63800 = .add 0 0x00A63800 ∧
    decodeInstrWord 0 0xB4000000 = .trap 0 0xB4000000 ∧ decodeInstrWord 0 0xD0100007 = .fma 0 0xD0100007 ∧
    decodeInstrWord 0 0xD0100008 = .fcvtfx 0 0xD0100008 ∧ decodeInstrWord 0 0xF0A60000 = .flw 0 0xF0A60000 ∧
    decodeInstrWord 0 0xD4100008 = .veq 0 0xD4100008 := by decide +kernel

/-- Undefined opcodes and functions are UNDEFINED_OPCODE's, the scalar functions of opcodes 0x32 and 0x33 among them (R209, R246). -/
theorem test_word_undefined : decodeInstrWord 0 0x30000000 = .undefinedOpcode 0 0x30000000 ∧ decodeInstrWord 0 0x0000000E = .undefinedOpcode 0 0x0000000E ∧
    decodeInstrWord 0 0xC800000C = .undefinedOpcode 0 0xC800000C ∧ decodeInstrWord 0 0xB0000007 = .undefinedOpcode 0 0xB0000007 := by decide +kernel

/-! ## Well-formedness: an ill-formed term for each check -/

theorem test_wellFormed : (Instr.add 0 0x00A63800).wellFormed = true ∧ (Instr.nop 0).wellFormed = true ∧
    (Instr.flitReceive (List.replicate 4 { before := 0, blocks := List.replicate 8 { sync := 1, content := 0 } })).wellFormed = true ∧
    (Instr.flitReceive [{ before := 0, blocks := { sync := 2, content := 7 } :: List.replicate 32 { sync := 1, content := 0 } }]).wellFormed = true :=
  by decide +kernel

/-- Every instruction row refuses a word that is not its own. -/
theorem test_illformed_words : ([(Instr.add : CoreIx → BitVec 32 → Instr),
  .sub, .andd, .orr, .xorr, .sll, .srl, .sra, .slt, .sltu, .min, .max, .minu, .maxu, .mul, .mulh, .mulhu, .div, .divu, .rem, .remu, .clz, .ctz,
    .popc, .h40, .addi, .andi, .ori, .xori, .slti, .sltiu, .slli, .srli, .srai, .lui, .orl, .lb, .lbu, .lh, .lhu, .lw, .lwu, .ln, .lnf, .sb, .sh,
    .sw, .sn, .beq, .bne, .blt, .bge, .bltu, .bgeu, .jal, .jalr, .waitw, .donew, .emitw, .emitwk, .dropw, .faultw, .mfc, .mtc, .mset, .mclr, .eret,
    .brk, .waiti, .trap, .vadd, .vsub, .vand, .vor, .vxor, .vsll, .vsrl, .vsra, .vmin, .vmax, .vminu, .vmaxu, .vmul, .vmulhu, .vh40, .vsel, .fadd,
    .fsub, .fmul, .fdiv, .fmin, .fmax, .fsqrt, .fma, .fcvtfx, .fcvtxf, .fabs, .fneg, .fcvtp, .fmvxf, .fmvfx, .veq, .vne, .vlt, .vge, .vltu, .vgeu,
    .flt, .fge, .vrsum, .vrmin, .vrmax, .vrminu, .vrmaxu, .vrand, .vror, .vrxor, .frsum, .frmin, .frmax, .vcompress, .vexpand, .vid, .vsplat,
    .vmov, .vext, .vins, .vln, .vlnq, .vlp, .vlw, .vsn, .vsp, .vsw, .vgn, .vgnq, .vgw, .vscn, .vscw, .qboth, .qeither, .qdiff, .qtrim, .qflip,
    .qcount, .qfromx, .qlow, .qhigh, .qlead, .setvl, .qfill, .qld, .qst, .flw, .fsw, .fld, .fsd].all (fun f => !(f 0 0x30000000).wellFormed)) = true := by
  decide +kernel

theorem test_illformed_others : (Instr.undefinedOpcode 0 0).wellFormed = false ∧ (Instr.flitReceive [{ before := 0, blocks := [] }]).wellFormed = false ∧
    (Instr.presetTrialEnd [0]).wellFormed = false ∧ (Instr.sensorSample []).wellFormed = false ∧ (Instr.dbgToken []).wellFormed = false ∧
    (Instr.cacheWriteAccept 0x3F [0, 0] {}).wellFormed = false ∧ (Instr.fillHalfArrival 1).wellFormed = false ∧
    (Instr.onchipEccWriteback 8).wellFormed = false ∧ (Instr.cacheLookup { addr := 0x3F, len := 2, req := 0, port := 0, consist := none, corrected := false, arrayError := none }).wellFormed = false := by decide +kernel

/-! ## One step on small states, against the spec's worked results -/

/-- Core 9 of the double fault of 08_operator_cores.md about to issue word w at pc. -/
def core9At (pc w : Nat) (c : Core) : State :=
  { dev := { mem := putBytes [] pc (toLE 4 w), cores := [(9, { c with st := .running, pc := pc })] } }

/-- Its registers before the load. -/
def core9 : Core := { xset (xset {} 12 0x021C400000) 2 0x10 with status := 0x40, csr := [(0x008, 0x810980E000), (0x009, 0x810980E400), (0x04C, 3)] }

/-- What an exception leaves: STATUS, EPC, ESTAT, EADDR, ECAUSE of the level, and the pc. -/
def entryOf (s : State) (k : Nat) : List Nat :=
  let c := core s.dev 9
  [c.status.toNat, (csrGet c k).toNat, (csrGet c (k + 1)).toNat, (csrGet c (k + 2)).toNat, (csrGet c (k + 3)).toNat, c.pc]

theorem test_ln_misaligned : entryOf (after (.ln 9 0x58AC0003) (core9At 0x81098001A4 0x58AC0003 core9)) 0x010 =
    [0x11, 0x81098001A4, 0x40, 0x021C400003, 0x04, 0x810980E000] := by decide +kernel

theorem test_sw_double_fault : entryOf (after (.sw 9 0x68A2FFF0) (core9At 0x810980E000 0x68A2FFF0 { core9 with status := 0x11 })) 0x018 =
    [0x21, 0x810980E000, 0x11, 0, 0x06, 0x810980E400] := by decide +kernel

theorem test_setvl : csrGet (core (after (.setvl 2 0xE802400A) (code 2 0xE802400A (xset {} 9 64))).dev 2) 0x100 = 64 := by decide +kernel

theorem test_qtrim : qual (core (after (.qtrim 2 0xE8104203) (code 2 0xE8104203
    (setQual (setQual {} 1 0xF00F) 2 0x0000010000002000))).dev 2) 1 = 0xD00F := by decide +kernel

theorem test_qcount : xget (core (after (.qcount 2 0xE8804015) (code 2 0xE8804015 { setQual {} 1 0xD00F with csr := [(0x100, 64)] })).dev 2) 8 = 7 := by
  decide +kernel

theorem test_vrsum : xget (core (after (.vrsum 2 0xD8704730) (code 2 0xD8704730 { setElems (xset (setQual {} 1 0xD00F) 7 1000) 1 true
    [(0, 120), (1, 95), (2, 0), (3, 210), (12, 44), (13, 9), (14, 301), (15, 87)] with csr := [(0x100, 64)] })).dev 2) 7 = 0x741 := by decide +kernel

/-- The cipher of R377 on the example of FIPS 197, C.3, and back. -/
theorem test_aes : let ks := aesKeys (List.range 32)
    aesEnc ks (natBytes 16 0xFFEEDDCCBBAA99887766554433221100) = natBytes 16 0x8960494B9049FCEABF456751CAB7A28E ∧
      aesDec ks (natBytes 16 0x8960494B9049FCEABF456751CAB7A28E) = natBytes 16 0xFFEEDDCCBBAA99887766554433221100 := by decide +kernel

/-- The scrambler of R30: a one alone comes out again 39 and 58 bits later. -/
theorem test_scrambler : (scramble 0 (true :: List.replicate 60 false)).2 =
    (List.range 61).map (fun i => decide (i = 0 ∨ i = 39 ∨ i = 58)) := by decide +kernel

/-- A flit of 256 bytes goes out on two lanes, 8 bytes to a block in turn, and comes in again (R30). -/
theorem test_stripe : let f : List Byte := (List.range 256).map (BitVec.ofNat 8)
    let ts := sendOnLanes [0, 1] f [{ scram := 5 }, { scram := 9 }]
    (ts.map (fun t => t.out.length)) = [16, 16] ∧
      flitOf [{ before := 5, blocks := (laneTx ts 0).out }, { before := 9, blocks := (laneTx ts 1).out }] = f := by decide +kernel

/-! ## From the named channels and sets to all of them -/

theorem channel_free (m : SMap McChan) (ch : Nat) (h : m.all (fun e => decide (e.2.q = [] ∧ e.2.out = [])) = true) :
    (mget {} m ch).q = [] ∧ (mget {} m ch).out = [] := by
  induction m with
  | nil => exact ⟨rfl, rfl⟩
  | cons e m ih =>
    simp only [List.all_cons, Bool.and_eq_true, decide_eq_true_eq] at h
    simp only [mget]
    split
    · exact h.1
    · split
      · exact ⟨rfl, rfl⟩
      · exact ih h.2

/-- The witnesses below that show `queuesFreeB` meet the hypothesis `QueuesFree`. -/
theorem queuesFree_of_list (d : Dev) (h : queuesFreeB d = true) : QueuesFree d := by
  obtain ⟨hq, hf⟩ := Bool.and_eq_true_iff.mp h
  refine ⟨fun ch => ?_, fun k => ?_⟩
  · have hc := channel_free d.mc ch hq
    exact ⟨by simp [writesHeld, mcChan, hc.1, hc.2], fun b => by simp [bankReads, mcChan, hc.1]⟩
  · simp [fillsIn, List.isEmpty_iff.mp hf]

/-- The witnesses below that show `cacheSoundB` meet the hypothesis `CacheSound`. -/
theorem cacheSound_of_list (d : Dev) (h : cacheSoundB d = true) : CacheSound d := by
  intro line w hw
  unfold cacheSoundB at h
  unfold setOf at hw
  generalize d.cache.sets = m at h hw
  induction m with
  | nil => exact absurd hw (List.not_mem_nil)
  | cons e m ih =>
    simp only [List.all_cons, Bool.and_eq_true] at h
    simp only [mget] at hw
    split at hw
    · exact of_decide_eq_true (List.all_eq_true.mp h.1 w hw)
    · split at hw
      · exact absurd hw (List.not_mem_nil)
      · exact ih h.2 hw

/-! ## For each statement of Obligations.lean that has hypotheses, states and operands that meet them -/

theorem witness_StepRunsTheFrontCommand :
    (({ pending := [.nop 0, .fence 1] } : State).pending = .nop 0 :: [.fence 1]) := by
  decide +kernel

theorem witness_EmptyQueueIsOneCycle :
    (State.reset.pending = []) := by
  decide +kernel

theorem witness_FusesOnlyBurnOn :
    (FusesLegal State.reset.otp) ∧
    (∃ t, step State.reset = .next t) := by
  refine ⟨?_, ⟨_, rfl⟩⟩; decide +kernel

theorem witness_MemoryReadsWhatWasWritten :
    (5 ≤ 6 ∧ ([1, 2] : List Byte)[6 - 5]? = some 2) ∧
    (4 < 5 ∨ 5 + ([1, 2] : List Byte).length ≤ 4) ∧
    (7 < 5 ∨ 5 + ([1, 2] : List Byte).length ≤ 7) := by
  refine ⟨?_, ?_, ?_⟩ <;> decide +kernel

theorem witness_MemoryWritesKeepTheCanonicalForm :
    (Memory.wf (memWrite upDev 5 [1, 0, 2]).mem = true) := by
  decide +kernel

theorem witness_ScalarResults :
    (aluWords.length = aluRows.length ∧ ((aluRows.zip aluWords).all (fun e => decide (e.1.word e.2 = true ∧ Acts (code 3 e.2 xcore) 3 (BitVec.ofNat 32 e.2) (e.1.uses e.2)))) = true) ∧
    (immWords.length = immRows.length ∧ ((immRows.zip immWords).all (fun e => decide (e.1.word e.2 = true ∧ Acts (code 3 e.2 xcore) 3 (BitVec.ofNat 32 e.2) (e.1.uses e.2)))) = true) := by
  refine ⟨?_, ?_⟩ <;> decide +kernel

theorem witness_DivisionResults :
    ((([0x014, 0x015, 0x016, 0x017]).all (fun fn => decide (let w := 5 * 2 ^ 21 + 6 * 2 ^ 16 + 7 * 2 ^ 11 + fn; opOf w = 0 ∧ fnA w = fn ∧ Acts (code 3 w xcore) 3 (BitVec.ofNat 32 w) { xs := [5, 6, 7] } ∧ xget xcore 7 ≠ 0))) = true) ∧
    (let w := 5 * 2 ^ 21 + 6 * 2 ^ 16 + 8 * 2 ^ 11 + 0x014; let c := xset { status := 0x81 } 6 9; xget c 8 = 0 ∧ atOf c = true ∧ Acts (code 3 w c) 3 (BitVec.ofNat 32 w) { xs := [5, 6, 8] }) := by
  refine ⟨?_, ?_⟩ <;> decide +kernel

theorem witness_BranchesAndJumps :
    ((([0x20, 0x21, 0x22, 0x23, 0x24, 0x25]).all (fun op => decide (let w := op * 2 ^ 26 + 5 * 2 ^ 21 + 6 * 2 ^ 16 + 0xFFFF; opOf w = op ∧ Acts (code 3 w xcore) 3 (BitVec.ofNat 32 w) { xs := [5, 6] }))) = true) ∧
    (let w := 0x26 * 2 ^ 26 + 1 * 2 ^ 21 + 0x1FFFFF; opOf w = 0x26 ∧ Acts (code 3 w {}) 3 (BitVec.ofNat 32 w) { xs := [rdOf w] }) ∧
    (let w := 0x27 * 2 ^ 26 + 6 * 2 ^ 21 + 6 * 2 ^ 16 + 7; opOf w = 0x27 ∧ Acts (code 3 w xcore) 3 (BitVec.ofNat 32 w) { xs := [6, 6] }) := by
  refine ⟨?_, ?_, ?_⟩ <;> decide +kernel

theorem witness_RetirementChangesNothingElse :
    (({} : Core).loads = [] ∧ ({ loads := [{}] } : Core).loads ≠ []) := by
  decide +kernel

theorem witness_ScalarRowsFrame :
    (levelOf (core (code 3 0x00A63814 xcore).dev 3) < 2) ∧
    (∃ t, exec (.add 3 0x00A63800) (code 3 0x00A63800 {}) = .next t) := by
  refine ⟨?_, ⟨_, rfl⟩⟩; decide +kernel

theorem witness_VectorResults :
    (vecWords.length = vecRows.length ∧ ((vecRows.zip vecWords).all (fun e => decide (e.1.word e.2 = true ∧ Acts (code 3 e.2 {}) 3 (BitVec.ofNat 32 e.2) (e.1.uses e.2)))) = true) ∧
    (((vecRows.zip (vecWords.map (· + 0x04000010))).all (fun e => decide (e.1.word e.2 = true ∧ Acts (code 3 e.2 {}) 3 (BitVec.ofNat 32 e.2) (e.1.uses e.2)))) = true) := by
  refine ⟨?_, ?_⟩ <;> decide +kernel

theorem witness_ComparesReductionsAndMoves :
    ((((compareRows ++ reductionRows ++ moveRows ++ qualRows).zip ((List.range 8).map (fun fn => 0xD4108300 + fn) ++ (List.range 11).map (fun fn => 0xD8108300 + fn) ++ (List.range 7).map (fun fn => 0xDC108300 + fn) ++ (List.range 12).map (fun fn => 0xE8108300 + fn))).all (fun e => decide (e.1.word e.2 = true ∧ Acts (code 3 e.2 {}) 3 (BitVec.ofNat 32 e.2) (e.1.uses e.2)))) = true) := by
  decide +kernel

theorem witness_FloatResults :
    (floatRows.length = 15 ∧ ((floatRows.zip ((List.range 15).map (fun fn => 0xD0108300 + fn))).all (fun e => decide (e.1.word e.2 = true ∧ Acts (code 3 e.2 {}) 3 (BitVec.ofNat 32 e.2) (e.1.uses e.2)))) = true) ∧
    ((((floatRows.take 12).zip ((List.range 12).map (fun fn => 0xC8108300 + fn))).all (fun e => decide (e.1.word e.2 = true ∧ Acts (code 3 e.2 {}) 3 (BitVec.ofNat 32 e.2) (e.1.uses e.2)))) = true) := by
  refine ⟨?_, ?_⟩ <;> decide +kernel

theorem witness_ElementWritesArePointwise :
    ((63 < 64 ∧ 7 < 8 ∧ 31 < 32)) ∧
    (([(0, (1 : Word)), (7, 2)].map Prod.fst).Nodup ∧ 3 ∉ [(0, (1 : Word)), (7, 2)].map Prod.fst) ∧
    ((([(0, (1 : Word)), (7, 2)]).all (fun e => decide (elemCell 2 true e.1 ≠ 68))) = true) := by
  refine ⟨?_, ?_, ?_⟩ <;> decide +kernel

theorem witness_ScalarLoadsIssue :
    (loadWords.length = scalarLoads.length ∧ (scalarLoads.zip loadWords).all (fun e => let s := memState e.2 mcore; let c := core s.dev 3; let a := e.1.2.2.2.1 c e.2; let start := e.1.2.2.2.2.1 a
    e.1.2.1 e.2 && decide (Acts s 3 (BitVec.ofNat 32 e.2) (e.1.2.2.1 e.2)) && decide (regionOf s.dev a ≠ .regs) &&
      decide (accessCause s.dev 3 start e.1.2.2.2.2.2.1 (e.1.2.2.2.2.2.2.1 a) false = none) && decide (memGate s.dev [start] = .open_) && decide (c.loads.length < 8))) ∧
    (let w := 0x16 * 2 ^ 26 + 5 * 2 ^ 21 + 6 * 2 ^ 16; let a := 0xF000000000 + coreOff 3 0x28; let s := code 3 w (xset {} 6 (BitVec.ofNat 40 a))
  opOf w = 0x16 ∧ (xget (core s.dev 3) 6 + immS w).toNat = a ∧ Acts s 3 (BitVec.ofNat 32 w) { xs := [5, 6] } ∧ regionOf s.dev a = .regs ∧ a % 8 = 0 ∧
  lnGrant s.dev 3 (a - 0xF000000000) = true ∧ regWay s.dev (a - 0xF000000000) = .open_) ∧
    (let w := 0x16 * 2 ^ 26 + 5 * 2 ^ 21 + 6 * 2 ^ 16; Acts lnHump 32 (BitVec.ofNat 32 w) { xs := [5, 6] } ∧ lnGrant lnHump.dev 32 0x800000 = true ∧ regWay lnHump.dev 0x800000 = .waits 13) := by
  refine ⟨?_, ?_, ?_⟩ <;> decide +kernel

theorem witness_ScalarAccessFaults :
    ((scalarLoads.zip loadWords).all (fun e => let s := memState e.2 (xset {} 6 0x8203000000); let c := core s.dev 3; let a := e.1.2.2.2.1 c e.2
    e.1.2.1 e.2 && decide (Acts s 3 (BitVec.ofNat 32 e.2) (e.1.2.2.1 e.2)) && decide (regionOf s.dev a ≠ .regs) &&
      decide (accessCause s.dev 3 (e.1.2.2.2.2.1 a) e.1.2.2.2.2.2.1 (e.1.2.2.2.2.2.2.1 a) false = some 0x05))) ∧
    (((scalarLoads.zip loadWords).drop 2).all (fun e => let s := memState e.2 (xset {} 6 0x8103000001); let c := core s.dev 3; let a := e.1.2.2.2.1 c e.2
    e.1.2.1 e.2 && decide (accessCause s.dev 3 (e.1.2.2.2.2.1 a) e.1.2.2.2.2.2.1 (e.1.2.2.2.2.2.2.1 a) false = some 0x04))) ∧
    ((scalarLoads.zip loadWords).all (fun e => let s := shutState e.2; let start := e.1.2.2.2.2.1 0x40000
    decide (Acts s 3 (BitVec.ofNat 32 e.2) (e.1.2.2.1 e.2) ∧ e.1.2.2.2.1 (core s.dev 3) e.2 = 0x40000 ∧ e.1.2.2.2.2.2.2.1 0x40000 = true ∧ (∀ b ∈ accessBytes start e.1.2.2.2.2.2.1, byteReach s.dev 3 b false = true) ∧ memGate s.dev [start] = .shut))) ∧
    (let a := 0xF000000000 + coreOff 9 0x28; regionOf (lnShut 4).dev (a + 4) = .regs ∧ (a + 4) % 8 ≠ 0 ∧ a % 8 = 0 ∧ lnGrant (lnShut 0).dev 3 (coreOff 9 0x28) = true ∧ regWay (lnShut 0).dev (coreOff 9 0x28) = .shut) ∧
    (((scalarStores.zip storeWords).drop 1).all (fun e => let s := memState e.2 { mcore with x := (xset {} 6 0x8103000001).x }; decide (Acts s 3 (BitVec.ofNat 32 e.2) (e.1.2.2.1 e.2) ∧ e.1.2.2.2.1 (core s.dev 3) e.2 = 0x8103000001 ∧ e.1.2.2.2.2.2.1 0x8103000001 = false))) ∧
    ((scalarStores.zip storeWords).all (fun e => let s := memState e.2 { mcore with x := (xset {} 6 0x8203000000).x }; decide (Acts s 3 (BitVec.ofNat 32 e.2) (e.1.2.2.1 e.2) ∧ e.1.2.2.2.1 (core s.dev 3) e.2 = 0x8203000000 ∧ e.1.2.2.2.2.2.1 0x8203000000 = true ∧ ¬(∀ b ∈ accessBytes 0x8203000000 (e.1.2.2.2.2.1 (core s.dev 3) e.2).length, byteReach s.dev 3 b true = true)))) ∧
    ((scalarStores.zip storeWords).all (fun e => let s := shutState e.2; decide (Acts s 3 (BitVec.ofNat 32 e.2) (e.1.2.2.1 e.2) ∧ e.1.2.2.2.1 (core s.dev 3) e.2 = 0x40000 ∧ (∀ b ∈ accessBytes 0x40000 (e.1.2.2.2.2.1 (core s.dev 3) e.2).length, byteReach s.dev 3 b true = true) ∧ memGate s.dev [0x40000] = .shut))) ∧
    (let w := 0x1B * 2 ^ 26 + 5 * 2 ^ 21 + 6 * 2 ^ 16; Acts bellShut 3 (BitVec.ofNat 32 w) { xs := [5, 6] } ∧ bellRefused bellShut.dev 3 0x8103000005 = true ∧ (∀ b ∈ accessBytes 0x8103000005 5, byteReach bellShut.dev 3 b true = true)) := by
  refine ⟨?_, ?_, ?_, ?_, ?_, ?_, ?_, ?_⟩ <;> decide +kernel

theorem witness_ScalarStoresIssue :
    (storeWords.length = scalarStores.length ∧ (scalarStores.zip storeWords).all (fun e => let s := memState e.2 mcore; let c := core s.dev 3; let a := e.1.2.2.2.1 c e.2; let bs := e.1.2.2.2.2.1 c e.2
    e.1.2.1 e.2 && decide (Acts s 3 (BitVec.ofNat 32 e.2) (e.1.2.2.1 e.2)) && decide (regionOf s.dev a ≠ .regs) &&
      decide (accessCause s.dev 3 a bs.length (e.1.2.2.2.2.2.1 a) true = none) && decide (memGate s.dev [a] = .open_) &&
      decide (c.stores.length < 8))) ∧
    (let w := 0x1B * 2 ^ 26 + 5 * 2 ^ 21 + 6 * 2 ^ 16; Acts snAlarm 32 (BitVec.ofNat 32 w) { xs := [5, 6] } ∧ regionOf snAlarm.dev 0xF000F00058 = .regs) := by
  refine ⟨?_, ?_⟩ <;> decide +kernel

theorem witness_VectorLoadsIssue :
    ((vectorLoads.zip vloadWords).all (fun e => [(0x8203000000, 0x07), (0xF000000000, 0x05)].all (fun k => let s := memState e.2 { mcore with x := (xset {} 6 k.1).x }; decide (Acts s 3 (BitVec.ofNat 32 e.2) (e.1.2.2.1 e.2)) && (match e.1.2.2.2.1 s.dev 3 e.2 with
    | x :: _ => decide (accessCause s.dev 3 x.start x.len x.aligned false ≠ none ∧ x.addr = k.1.toNat ∧ (if regionOf s.dev x.addr = .regs then 0x05 else 0x07) = k.2) | [] => false)))) ∧
    (vloadWords.length = vectorLoads.length ∧ (vectorLoads.zip vloadWords).all (fun e => let s := memState e.2 mcore; let c := core s.dev 3; let es := e.1.2.2.2.1 s.dev 3 e.2
    e.1.2.1 e.2 && decide (Acts s 3 (BitVec.ofNat 32 e.2) (e.1.2.2.1 e.2)) && decide (probe s.dev 3 es false = none) && decide (es.length = 8) &&
      es.all (fun x => decide (memGate s.dev [x.start] = .open_)) && decide (c.loads.length < 8))) ∧
    ((vectorLoads.zip vloadWords).all (fun e => let s := memState e.2 { mcore with q := [] }; decide (Acts s 3 (BitVec.ofNat 32 e.2) (e.1.2.2.1 e.2)) && decide (e.1.2.2.2.1 s.dev 3 e.2 = []) && decide (probe s.dev 3 [] false = none))) := by
  refine ⟨?_, ?_, ?_⟩ <;> decide +kernel

theorem witness_VectorStoresIssue :
    ((vectorStores.zip vstoreWords).all (fun e => [(0x8203000000, 0x07), (0xF000000000, 0x06)].all (fun k => let s := memState e.2 { mcore with x := (xset {} 6 k.1).x }; decide (Acts s 3 (BitVec.ofNat 32 e.2) (e.1.2.2.1 e.2)) && (match e.1.2.2.2.1 s.dev 3 e.2 with
    | x :: _ => decide (accessCause s.dev 3 x.start x.len x.aligned true ≠ none ∧ x.addr = k.1.toNat ∧ (if regionOf s.dev x.addr = .regs then 0x06 else 0x07) = k.2) | [] => false)))) ∧
    (vstoreWords.length = vectorStores.length ∧ (vectorStores.zip vstoreWords).all (fun e => let s := memState e.2 mcore; let c := core s.dev 3; let es := e.1.2.2.2.1 s.dev 3 e.2
    e.1.2.1 e.2 && decide (Acts s 3 (BitVec.ofNat 32 e.2) (e.1.2.2.1 e.2)) && decide (probe s.dev 3 es true = none) && decide (es.length = 8) &&
      es.all (fun x => decide (memGate s.dev [x.start] = .open_)) && decide (c.stores.length < 8))) := by
  refine ⟨?_, ?_⟩ <;> decide +kernel

theorem witness_AccessesComplete :
    ([LoadDest.x 5 true, .lnf 5 3, .f 5, .vec 1 false [0, 7] 5, .nullQ 2 [(1, 3), (5, 0)], .q 3].all (fun dest => let l := loadOf dest [1, 0xFF, 3, 4, 5, 1, 7, 8, 9, 10]; let s := loadState l
   decide ((core s.dev 3).loads[(0 : Fin 8).val]? = some l ∧ running s.dev = true ∧ l.reg = none ∧ l.bad = none ∧ lineReads s.dev (.load 3 l.num) = []))) ∧
    (let g : GReq := { own := .load 3 0, req := 3, addr := 0x40000, len := 5, st := .served, data := [1, 2, 3, 4, 5] }; let d : Dev := { (loadState { dest := .x 5 false, want := (accessBytes 0x40000 5).map (fun a => (a, none)), addr := 0x40000 }).dev with cache := { reqs := [g] } }; lineReads d (.load 3 0) = [g] ∧ g.st = .served) ∧
    (let l : LoadFly := { dest := .x 5 false, elems := [(0, 5)], reg := some (coreOff 3 0x28), addr := 0xF000000000 + coreOff 3 0x28 }; let s := loadState l; FirstOnPath s.dev (coreWho 3) ∧ lineReads s.dev (.load 3 0) = [] ∧ regWay s.dev (coreOff 3 0x28) = .open_ ∧ regAt (coreOff 3 0x28 / 8 * 8) = some (.coreFaultPc, 3)) ∧
    (let l : LoadFly := { dest := .x 5 true, bad := some (0x8103000000, 3), saved := { pc := 8 }, addr := 0x8103000000 }; let s := loadState l; running s.dev = true ∧ lineReads s.dev (.load 3 0) = [] ∧ loadBad [] l = some (0x8103000000, 3) ∧ bitsOf l.saved.status.toNat 5 4 = 0) ∧
    (let s := storeState 0x8103000100 true; running s.dev = true ∧ regOff 0x8103000100 = none ∧ memUp s.dev 0x8103000100 = true ∧ roomFor s.dev 0x8103000100 5 = true ∧ spoiled s.dev 0x8103000100 5 = [] ∧ bellSlot s.dev 3 0x8103000100 = none) ∧
    ([0, 1, 2, 3].all (fun k => let a := 0x8103000000 + 5 * k; let s := storeState a true; decide (bellSlot s.dev 3 a = some k ∧ bellRoom s.dev 3 k = true ∧ regOff a = none ∧ memUp s.dev a = true))) ∧
    (let s : State := { dev := { (storeState 0x40000 true).dev with regs := upDev.regs } }; running s.dev = true ∧ regOff 0x40000 = none ∧ memUp s.dev 0x40000 = true ∧ roomFor s.dev 0x40000 5 = true ∧ (∀ k, k < 5 → SetSound s.dev ((0x40000 + k) / 64 * 64)) ∧ bellSlot s.dev 3 0x40000 = none) ∧
    (running sboxStore.dev = true ∧ regOff 0xF000F00058 = some 0xF00058 ∧ FirstOnPath sboxStore.dev .sbox ∧ regWay sboxStore.dev 0xF00058 = .open_ ∧ regAt (0xF00058 / 8 * 8) = some (.aoAlarm, 0) ∧ Reg.aoAlarm ∉ writesAct) := by
  refine ⟨?_, ?_, ?_, ?_, ?_, ?_, ?_, ?_⟩ <;> decide +kernel

theorem witness_TrapsAndTripleFaults :
    ([0, 1].all (fun l => let s := code 3 trapWord (vectored l); decide (levelOf (core s.dev 3) = l ∧ l < 2 ∧ (core s.dev 3).loads = [] ∧ Acts s 3 (BitVec.ofNat 32 trapWord) {} ∧ opOf trapWord = 0x2D))) ∧
    ([0, 1].all (fun l => let s := code 3 0xB0000005 (vectored l); decide (levelOf (core s.dev 3) = l ∧ Acts s 3 0xB0000005 {} ∧ opOf 0xB0000005 = 0x2C ∧ fn4 0xB0000005 = 5))) ∧
    ([0, 1].all (fun l => let s := code 3 0x30000000 (vectored l); decide (levelOf (core s.dev 3) = l ∧ Acts s 3 0x30000000 {} ∧ definedWord 0x30000000 = false))) ∧
    (tripleWords.all (fun e => [0, 4].all (fun run => [0, 7].all (fun k => let s := tripleState e.2.1 run k; decide (levelOf (core s.dev 3) = 2 ∧ (core s.dev 3).loads = [] ∧ Acts s 3 (BitVec.ofNat 32 e.2.1) {} ∧ fld s.dev .coreFault 3 39 39 = (if k = 0 then 0 else 1) ∧ serving s.dev 3 = some { w := wSetConsist {} 5, core := 3, serial := 4 } ∧ (consist s.dev 5).event = 0 ∧ (consist s.dev 5).ph ≠ .completing ∧ wConsist (wSetConsist {} 5) = 5)))) = true ∧ definedWord 0x30000000 = false) ∧
    (tripleWords.all (fun e => let s := code 32 e.2.1 (vectored 2); decide (levelOf (core s.dev 32) = 2 ∧ (core s.dev 32).loads = [] ∧ Acts s 32 (BitVec.ofNat 32 e.2.1) {})) = true) := by
  refine ⟨?_, ?_, ?_, ?_, ?_⟩ <;> decide +kernel

theorem witness_FetchFaultsAndInterruptsEnter :
    ([0, 1].all (fun l => let s := strayState l; decide (levelOf (core s.dev 3) < 2 ∧ running s.dev = true ∧ domOn s.dev (coreDom 3) = true ∧ (core s.dev 3).st = .running ∧
    (core s.dev 3).loads = [] ∧ fetchable s.dev 3 (core s.dev 3).pc = false))) ∧
    ([(0x12, [0x12, 0x14, 0x15]), (0x14, [0x14, 0x15]), (0x15, [0x15])].all (fun e => let s := pendState e.2; decide (running s.dev = true ∧ domOn s.dev (coreDom 3) = true ∧ (core s.dev 3).st = .running ∧
    (core s.dev 3).loads = [] ∧ (core s.dev 3).inVec = false ∧ ownException 3 s = false ∧ levelOf (core s.dev 3) = 0 ∧ causePending s.dev 3 e.1 = true ∧ ieOf (core s.dev 3) = true ∧ (csrGet (core s.dev 3) 0x002).getLsbD (e.1 - 0x10) = true) &&
    [0x10, 0x12, 0x13, 0x14, 0x15, 0x16].all (fun j => decide (j < e.1 → causePending s.dev 3 j = false)))) := by
  refine ⟨?_, ?_⟩ <;> decide +kernel

theorem witness_EretReturns :
    ([1, 2].all (fun l => let s := eretState 1 0xC0 l; decide (opOf 0xB0000004 = 0x2C ∧ fn4 0xB0000004 = 4 ∧ Acts s 3 0xB0000004 {} ∧ privOf (core s.dev 3) ≠ 0 ∧ levelOf (core s.dev 3) = l ∧ 0 ≤ ceilingOf s.dev 3))) ∧
    (let s := eretState 0 0xC0 1; Acts s 3 0xB0000004 {} ∧ privOf (core s.dev 3) = 0) ∧
    (let s := eretState 1 0xC0 0; Acts s 3 0xB0000004 {} ∧ privOf (core s.dev 3) ≠ 0 ∧ levelOf (core s.dev 3) = 0) ∧
    ([2, 3].all (fun p => let s := eretState 1 p 1; decide (Acts s 3 0xB0000004 {} ∧ privOf (core s.dev 3) ≠ 0 ∧ levelOf (core s.dev 3) ≠ 0 ∧ (p = 3 ∨ ceilingOf s.dev 3 < p.toNat)))) := by
  refine ⟨?_, ?_, ?_, ?_⟩ <;> decide +kernel

theorem witness_ControlRegisterRows :
    ([0, 1, 2, 3].all (fun fn => let w := csrWord fn 0x101; let s := code 3 w (xset { status := 0 } 6 0xFF); decide (opOf w = 0x2C ∧ fn4 w = fn ∧ Acts s 3 (BitVec.ofNat 32 w) (usesCsr w) ∧ csrAccess 3 (csrOf w) = some (0, some 0) ∧ 0 ≤ privOf (core s.dev 3)))) ∧
    (let w := csrWord 1 0x001; let s := code 3 w {}; Acts s 3 (BitVec.ofNat 32 w) (usesCsr w) ∧ csrAccess 3 (csrOf w) = some (1, none) ∧ 1 ≤ privOf (core s.dev 3) ∧ fn4 w = 1) ∧
    ([0, 1, 2, 3].all (fun fn => let w := csrWord fn 0x7FF; let s := code 3 w {}; decide (opOf w = 0x2C ∧ fn4 w = fn ∧ Acts s 3 (BitVec.ofNat 32 w) (usesCsr w) ∧ csrAccess 3 (csrOf w) = none))) ∧
    ([0, 1, 2, 3].all (fun fn => let w := csrWord fn 0x002; let s := code 3 w { status := 0 }; decide (opOf w = 0x2C ∧ fn4 w = fn ∧ Acts s 3 (BitVec.ofNat 32 w) (usesCsr w) ∧ csrAccess 3 (csrOf w) = some (1, some 1) ∧ privOf (core s.dev 3) < 1))) ∧
    (let w := csrWord 1 0x028; let s := code 3 w (xset {} 6 0xFF); Acts s 3 (BitVec.ofNat 32 w) (usesCsr w) ∧ csrAccess 3 (csrOf w) = some (0, some 1) ∧ 1 ≤ privOf (core s.dev 3) ∧ (core s.dev 3).loads = []) := by
  refine ⟨?_, ?_, ?_, ?_, ?_⟩ <;> decide +kernel

theorem witness_ControlRegisterWrites :
    (7 < 8) := by
  decide +kernel

theorem witness_WagonInstructions :
    ([(0x001, [10, 11, 12, 13]), (0x002, []), (0x003, [10, 11, 12, 13]), (0x004, [10, 11, 12, 13, 14]), (0x010, []), (0x011, [6, 7])].all (fun e => let s := wagonState e.1 {}; let c := core s.dev 3
    decide (opOf (wagonWord e.1).toNat = 0x28 ∧ fnA (wagonWord e.1).toNat = e.1 ∧ Acts s 3 (wagonWord e.1) { xs := e.2 } ∧ levelOf c = 0 ∧ c.loads = [] ∧ c.stores = [] ∧ privOf c ≠ 0 ∧
      serving s.dev 3 = some { w := wSetConsist {} 5, core := 3, serial := 4 } ∧ wConsist (wSetConsist {} 5) = 5 ∧ (consist s.dev 5).valid = true ∧ (consist s.dev 5).event = 0 ∧ (consist s.dev 5).ph ≠ .completing))) ∧
    (let s := code 32 (wagonWord 2).toNat {}; Acts s 32 (wagonWord 2) {}) ∧
    (let s := wagonState 1 { status := 0x11 }; Acts s 3 (wagonWord 1) { xs := [10, 11, 12, 13] } ∧ levelOf (core s.dev 3) ≠ 0) ∧
    (let s := code 3 (wagonWord 4).toNat {}; Acts s 3 (wagonWord 4) { xs := [10, 11, 12, 13, 14] } ∧ serving s.dev 3 = none) ∧
    (let s := wagonState 0x10 { status := 0 }; Acts s 3 (wagonWord 0x10) {} ∧ privOf (core s.dev 3) = 0) := by
  refine ⟨?_, ?_, ?_, ?_, ?_⟩ <;> decide +kernel

theorem witness_WaitiAndTimer :
    (let s := code 3 0xB0000006 { status := 0 }; opOf 0xB0000006 = 0x2C ∧ fn4 0xB0000006 = 6 ∧ Acts s 3 0xB0000006 {} ∧ privOf (core s.dev 3) = 0) ∧
    (let s := code 3 0xB0000006 (csrSet { pend := [0x14] } 0x002 0x10); Acts s 3 0xB0000006 {} ∧ privOf (core s.dev 3) ≠ 0 ∧ waitiEnds s.dev 3 = true) ∧
    (let s := code 3 0xB0000006 {}; Acts s 3 0xB0000006 {} ∧ privOf (core s.dev 3) ≠ 0 ∧ waitiEnds s.dev 3 = false) ∧
    (let s : State := { dev := setCore {} 3 (csrSet { st := .waiti, pc := imemBase 3, pend := [0x14] } 0x002 0x10) }; running s.dev = true ∧ (core s.dev 3).st = .waiti ∧ waitiEnds s.dev 3 = true ∧ dueInterrupt s.dev 3 = none) ∧
    (let s : State := { dev := setCore {} 3 (csrSet { st := .running } 0x02A 9) }; (core s.dev 3).st ≠ .held ∧ (csrGet (core s.dev 3) 0x028).toNat < (csrGet (core s.dev 3) 0x02A).toNat) ∧
    (let s : State := { dev := setFld (setCore {} 32 (csrSet { st := .running } 0x02A 9)) .pwrStatus 0 34 24 1200 }; (core s.dev 32).st ≠ .held ∧ (csrGet (core s.dev 32) 0x028).toNat < (csrGet (core s.dev 32) 0x02A).toNat ∧ 600 ≤ coreMhz s.dev ∧ s.dev.pwr.scPart < coreMhz s.dev) := by
  refine ⟨?_, ?_, ?_, ?_, ?_, ?_⟩ <;> decide +kernel

theorem witness_NopFenceAndUnknownOpcode :
    (let c := cmd 1 []; Begins (withCmd upDev c).dev c 0x01) ∧
    (let c := cmd 2 [1]; Begins (withCmd upDev c).dev c 0x02) ∧
    (let c := cmd 2 [0]; Begins (behind c).dev c 0x02 ∧ fenceOpen (begun (behind c).dev c) { c with st := .running } = true) ∧
    ([0x03, 0xFF, 0x00].all (fun op => let c := cmd op []; let s := withCmd upDev c; decide (cmdOf s.dev c.id = some c ∧ mayStart s.dev c = true ∧ haltHit s.dev c = false ∧ knownOpcode c.port c.opcode = false))) ∧
    (let c := { cmd 0xE0 [] with port := 2 }; let s := withCmd upDev c; cmdOf s.dev c.id = some c ∧ mayStart s.dev c = true ∧ haltHit s.dev c = false ∧ knownOpcode c.port c.opcode = false) ∧
    (let c := { cmd 1 [] with fence := true, halt := true }; cmdOf halted.dev c.id = some c ∧ c.opcode = 1 ∧ mayStart halted.dev c = true ∧ haltHit halted.dev c = true) := by
  refine ⟨?_, ?_, ?_, ?_, ?_, ?_⟩ <;> decide +kernel

theorem witness_PortCommands :
    (let c := hostCmd 0xE0 [3, 0x1040, 0x2040]; let s := withCmd upDev c; c.port = 0 ∧ Begins s.dev c 0xE0 ∧ pf c 1 7 0 ≠ 0 ∧ portExists (begun s.dev c) 3 = false) ∧
    (let c := cmd 0xE1 [3]; let s := withCmd portDev c; Begins s.dev c 0xE1 ∧ portExists (begun s.dev c) 3 = true ∧ activeRings (begun s.dev c) 3 = 0 ∧ portConsists (begun s.dev c) 3 = [] ∧ (port (begun s.dev c) 3).destroying = false ∧ s.dev.ring.cmds.all (fun e => decide (e.port ≠ 3)) ∧ s.dev.ring.ctx.all (fun e => decide (e.1 / 512 = 3 → e.2.fetching = 0))) ∧
    (let c := cmd 0xE1 [3]; let d := begun busyPort.dev c; Begins busyPort.dev c 0xE1 ∧ portExists d 3 = true ∧ activeRings d 3 = 0 ∧ portConsists d 3 = [] ∧ (port d 3).destroying = false ∧ busyPort.dev.ring.cmds.any (fun e => decide (e.port = 3)) = true) ∧
    (let c := cmd 0xE1 [3]; let s := withCmd (stopPolling portDev 3) c; Begins s.dev c 0xE1 ∧ portExists (begun s.dev c) 3 = true ∧ (port (begun s.dev c) 3).destroying = true) ∧
    ([0, 1].all (fun k => let c := cmd 0xE2 [3 + 2 * 256 + k * 65536 + 2 ^ 17, 0x12345678, 0x9ABC]; let s := withCmd portDev c; decide (Begins s.dev c 0xE2 ∧ portExists (begun s.dev c) (pf c 1 7 0) = true ∧ pf c 1 7 0 = 3 ∧ pf c 1 16 16 = k))) ∧
    (let c := cmd 0xE3 [3, 600, 40, 65536, 1]; let s := withCmd portDev c; let d := begun s.dev c; Begins s.dev c 0xE3 ∧ portExists d 3 = true ∧ activeRings d 3 ≤ min 512 (pf c 2 9 0) ∧ coresUse d 3 ≤ min 32 (pf c 3 5 0) ∧ junctionUse d 3 ≤ min 65536 (pf c 4 16 0) ∧ yardUse d 3 ≤ min 4096 (pf c 5 12 0)) ∧
    (let c := hostCmd 0xE0 [3, 0x1040, 0x2040]; let s := withCmd portDev c; Begins s.dev c 0xE0 ∧ portExists (begun s.dev c) 3 = true) ∧
    (let c := cmd 0xE1 [3]; let s := withCmd (setCtx portDev 3 1 { valid := true }) c; Begins s.dev c 0xE1 ∧ portExists (begun s.dev c) 3 = true ∧ 0 < activeRings (begun s.dev c) 3) := by
  refine ⟨?_, ?_, ?_, ?_, ?_, ?_, ?_, ?_⟩ <;> decide +kernel

theorem witness_TimetableAndConsistCommands :
    (let s := withCmd upDev loadCmd; let d := begun s.dev loadCmd; Begins s.dev loadCmd 0x10 ∧ isHost loadCmd 1 = false ∧ pw loadCmd 1 = pw loadCmd 2 ∧ pf loadCmd 3 39 0 ≠ 0 ∧ handlesHeld d ≤ 1024 ∧ loadCmd.bad = [] ∧ spanFault d loadCmd.port (pw loadCmd 2) (pf loadCmd 3 39 0) = none ∧ firstIdx 1024 (fun h => !(handle d h).valid) = some 0 ∧ queuesFreeB s.dev = true ∧ cacheSoundB s.dev = true) ∧
    (let c : Cmd := { cmd 0x10 [0x2000, 0x1000, 256] with st := .running, pos := 256 }; let s := withCmd upDev c; c.opcode = 0x10 ∧ c.bad = [] ∧ (isHost c 1 = true ∨ pw c 1 < 2 ^ 40) ∧ pf c 3 39 0 ≤ c.pos ∧ spanFault s.dev c.port (pw c 2) (pf c 3 39 0) = none ∧ firstIdx 1024 (fun h => !(handle s.dev h).valid) = some 0 ∧ queuesFreeB s.dev = true) ∧
    (let c := cmd 0x10 [0x1000, 0x1000, 0]; let s := withCmd upDev c; Begins s.dev c 0x10 ∧ pf c 3 39 0 = 0) ∧
    (let c := cmd 0x11 [5]; let s := withCmd upDev c; Begins s.dev c 0x11 ∧ (handle (begun s.dev c) 5).valid = false) ∧
    (let c := cmd 0x12 [5, 0, 0, 0, 0]; let s := withCmd upDev c; Begins s.dev c 0x12 ∧ (match consistCheck (begun s.dev c) c (handle (begun s.dev c) 5) with | .ok _ => false | .error e => decide (e.1 = 2)) = true ∧ queuesFreeB s.dev = true) ∧
    ([CmdSt.fetched, .done 6 4].all (fun st => let c := cmd 0x13 [9 * 65536 + 1]; let s : State := { dev := { upDev with ring := { upDev.ring with cmds := [{ runCmd st with sq := 1 }, c] } } }; decide (Begins s.dev c 0x13 ∧ matchRun (begun s.dev c) c.port (pf c 1 8 0) (pf c 1 31 16) = some { runCmd st with sq := 1 }))) ∧
    (let c := cmd 0x11 [5]; let s := withCmd { upDev with handles := [(5, { valid := true })] } c; let d := begun s.dev c; Begins s.dev c 0x11 ∧ (handle d 5).valid = true ∧ (handle d 5).port = c.port ∧ handleBusy d 5 = false) ∧
    (let c := abortCmd 9; let s := abortState 9; let d := begun s.dev c; Begins s.dev c 0x13 ∧ matchRun d c.port (pf c 1 8 0) (pf c 1 31 16) = some (runCmd .running) ∧ consistOf (modCmd d c.id (fun c => { c with aux := [3] })) 3 = some 4 ∧ (consist d 4).valid = true ∧ (consist d 4).event = 0 ∧ (consist d 4).ph ≠ .completing) ∧
    (let c := abortCmd 8; let s := abortState 8; let d := begun s.dev c; Begins s.dev c 0x13 ∧ matchRun d c.port (pf c 1 8 0) (pf c 1 31 16) = none) ∧
    (let c := cmd 0x12 [5, 0, 0, 0, 0]; let s := withCmd { upDev with handles := [(5, { valid := true, home := 0x1000, bytes := 4096 })] } c; let d := begun s.dev c; Begins s.dev c 0x12 ∧ (match consistCheck d c (handle d 5) with | .ok f => decide (f = []) | .error _ => false) = true ∧ firstIdx 1024 (fun i => !(consist d i).valid) = some 0 ∧ queuesFreeB s.dev = true) := by
  refine ⟨?_, ?_, ?_, ?_, ?_, ?_, ?_, ?_, ?_, ?_⟩ <;> decide +kernel

theorem witness_RingRows :
    (engineUp ringDev = true ∧ portExists ringDev 0 = true ∧ (port ringDev 0).polling = false ∧ portPolled ringDev 0 = true) ∧
    (let d := setPort ringDev 0 { port ringDev 0 with polling := true }; readsOf d (pollOwner 0) = [] ∧ (port d 0).flagged = []) ∧
    (engineUp (flaggedDev true) = true ∧ engineUp (flaggedDev false) = true ∧ readsOf (flaggedDev true) (pollOwner 0) = [] ∧ readsOf (flaggedDev false) (pollOwner 0) = [] ∧ ctxWaits (flaggedDev true) 0 5 = false ∧ (ctx (flaggedDev true) 0 5).valid = true ∧ ctxWaits (flaggedDev false) 0 5 = true) ∧
    (let d := setSlot ringDev 0 1 { reset := .waiting }; engineUp d = true ∧ (slot d 0 1).reset = .waiting ∧ ringDrained d 0 1 = true) ∧
    ([0, 2].all (fun k => decide ((slot (rereadDev k) 0 2).reset = .reading ∧ readsOf (rereadDev k) (fun o => decide (o = .descriptor 0 2)) = [ended (.descriptor 0 2) (descriptor k)] ∧ ctxRoom (rereadDev k) = true ∧ boundSqs (rereadDev k) 0 2 = [] ∧ portExists (rereadDev k) 0 = true ∧ (port (rereadDev k) 0).destroying = false)) && decide (leAt (descriptor 2) 16 1 = 2) && decide (refuseReason (rereadDev 2) 0 (descCtx (descriptor 2) false) = none)) ∧
    (engineUp ringDev = true ∧ turnPort ringDev = some 0 ∧ turnRing ringDev 0 = some 1 ∧ fetchCount ringDev 0 1 = 3 ∧ (ctx ringDev 0 1).target ≠ 1 ∧ ringKey 0 1 ∈ ringDev.ring.cached ∧ ringKey 0 (ctx ringDev 0 1).target ∈ ringDev.ring.cached ∧ ringDev.ring.cached.length ≤ 1024) ∧
    (let d := setCtx { ringDev with link := { ringDev.link with reads := [ended (.entries 0 1) (nopEntry ++ nopEntry)] } } 0 1 { ctx ringDev 0 1 with fetching := 2, fetchId := 40 }; readsOf d (fun o => decide (o = .entries 0 1)) = [ended (.entries 0 1) (nopEntry ++ nopEntry)]) ∧
    (let d := { ringDev with ring := { ringDev.ring with cmds := [ended7] } }; cmdOf d 7 = some ended7 ∧ ended7.dropped = false ∧ ended7.opcode = 1 ∧ engineUp d = true ∧ firstToWrite d 7 = true ∧ ctxWaits d 0 1 = false ∧ ctxWaits d 0 (ctx d 0 1).target = false) ∧
    (let c : Cmd := { cmd 0xE5 [1] with sq := 1, st := .done 0 0 }; let d := { ringDev with ring := { ringDev.ring with cmds := [c] } }; pf c 1 0 0 = 1 ∧ engineUp d = true ∧ firstToWrite d 7 = true ∧ ctxWaits d 0 1 = false ∧ ctxWaits d 0 (ctx d 0 1).target = false) ∧
    (let c : Cmd := { ended7 with dropped := true }; cmdOf { ringDev with ring := { ringDev.ring with cmds := [c] } } 7 = some c ∧ c.dropped = true) ∧
    (let d := setCtx ringDev 0 0 { ctx ringDev 0 0 with timer := true, pending := 4, ien := true, target := 6 }; engineUp d = true ∧ (ctx d 0 0).valid = true ∧ (ctx d 0 0).sq = false ∧ (ctx d 0 0).timer = true ∧ ctxWaits d 0 0 = false) ∧
    (let d := touchCtx (touchCtx ringDev 0 (ctx ringDev 0 1).target) 0 1; (ctx d 0 (ctx d 0 1).target).ien = false) ∧
    (let c := { cmd 0x20 [0, 0, 5] with st := .running, bad := [(0x80, 6), (0x40, 7)] }; let s := withCmd upDev c; cmdOf s.dev 7 = some c ∧ c.st = .running ∧ lowestBad c.bad = some (0x40, 7) ∧ readsOf s.dev (fun o => decide (readCmd s.dev o = some 7)) = [] ∧ (List.range 16).all (fun ch => decide ((chan s.dev ch).ph = .idle)) ∧ s.dev.junc.active = [] ∧ consistOf s.dev 7 = none) ∧
    (consistOf badRun 7 = some 4 ∧ (consist badRun 4).valid = true ∧ (consist badRun 4).event = 0 ∧ (consist badRun 4).ph ≠ .completing) ∧
    (let c := { cmd 0x20 [0, 0, 5] with st := .running, bad := [(0x80, 6)] }; let d := { upDev with ring := { cmds := [c] }, link := { reads := [{ owner := .command 7 0, st := .sent }, { owner := .command 7 64 }] } }; ({ owner := .command 7 0, st := .sent } : HostRead) ∈ readsOf d (fun o => decide (readCmd d o = some 7))) := by
  refine ⟨?_, ?_, ?_, ?_, ?_, ?_, ?_, ?_, ?_, ?_, ?_, ?_, ?_, ?_, ?_⟩ <;> decide +kernel

theorem witness_LinkTrainingRows :
    (linkOn (trainDev 0 none) = true ∧ linkState (trainDev 0 none) = 0) ∧
    (linkOn (trainDev 1 (some {})) = true ∧ linkState (trainDev 1 (some {})) = 1) ∧
    (let t : Training := { step := 3, trial := 7, errs := List.replicate 7 [] }; let d := trainDev 1 (some t); linkOn d = true ∧ linkState d = 1 ∧ d.link.train = some t ∧ t.step = 3 ∧ t.errs.length < 8) ∧
    (let t : Training := { step := 2, saved := some (3, 5) }; let d := trainDev 1 (some t); linkOn d = true ∧ linkState d = 1 ∧ d.link.train = some t ∧ t.step ≠ 3 ∧ fld d .linkCtrl 0 1 0 = 0 ∧ goodLanes.present = 15 ∧ goodLanes.txPass = 15 ∧ goodLanes.rxPass = 15) ∧
    (let t : Training := { step := 3, errs := List.replicate 8 [0, 0, 0, 0] }; let d := trainDev 1 (some t); linkState d = 1 ∧ d.link.train = some t ∧ t.errs.length = 8 ∧ (List.range 4).all (fun n => t.errs.any (fun e => decide (trialErr e n = 0))) ∧ fld d .linkCtrl 0 1 0 = 0) ∧
    ([0, 15].all (fun p => let t : Training := { step := 2 }; let d := trainDev 1 (some t); decide (linkState d = 1 ∧ d.link.train = some t ∧ t.step ≠ 3 ∧ t.saved = none ∧ (p = 0 ∨ p = 15)))) ∧
    (let d := setFld (trainDev 2 none) .linkStatus 0 17 14 15; linkOn d = true ∧ linkState d = 2 ∧ bitOf (fld d .linkStatus 0 17 14) 3 = 1) ∧
    ([2, 3, 4].all (fun st => let d := trainDev st none; decide (linkOn d = true ∧ 2 ≤ linkState d ∧ linkState d ≤ 4 ∧ WriteOpen d .port0 0x100000 ∧ bitOf (4 : Word).toNat 2 = 1 ∧ bitsOf (1 : Word).toNat 1 0 ≠ fld d .linkCtrl 0 1 0))) ∧
    (let d := trainDev 5 (some { step := 1, retrain := true }); linkOn d = true ∧ linkState d = 5 ∧ d.link.fails < 2) ∧
    (let d := trainDev 5 (some { step := 1, retrain := true }); let e := { d with link := { d.link with fails := 2 } }; linkOn e = true ∧ linkState e = 5 ∧ 2 ≤ e.link.fails ∧ e.ring.cmds = []) ∧
    (let d := trainDev 5 (some { step := 1, retrain := true }); linkOn d = true ∧ linkState d = 5 ∧ fld d .linkCtrl 0 1 0 = 0 ∧ d.link.replay = []) ∧
    ([0, 2].all (fun k => let d0 := trainDev 5 (some { step := 1, retrain := true }); let d := { d0 with link := { d0.link with fails := k } }; decide (linkOn d = true ∧ linkState d = 5 ∧ (k = 0 → d.link.fails < 2) ∧ (k = 2 → 2 ≤ d.link.fails) ∧ d.ring.cmds = []))) := by
  refine ⟨?_, ?_, ?_, ?_, ?_, ?_, ?_, ?_, ?_, ?_, ?_, ?_⟩ <;> decide +kernel

theorem witness_LinkPowerStates :
    (linkOn (linkAt 2) = true ∧ linkState (linkAt 2) = 2 ∧ fld (linkAt 2) .linkCtrl 0 15 8 ≠ 0 ∧ (linkAt 2).link.txq = []) ∧
    (linkOn (waitDev 3) = true ∧ linkState (waitDev 3) = 3 ∧ ((waitDev 3).link.txq ≠ [] ∨ ∃ r ∈ (waitDev 3).link.reads, r.st = .queued)) ∧
    (linkOn parkable = true ∧ linkState parkable = 3 ∧ fld parkable .linkCtrl 0 23 16 ≠ 0 ∧ linkQuiet parkable.link = true ∧ running parkable = true) ∧
    (let d := { parkable with pwr := { parkable.pwr with mode := .standing } }; linkOn d = true ∧ linkState d = 3 ∧ linkQuiet d.link = true ∧ running d = false) ∧
    (linkState (linkAt 4) = 4) ∧
    ([2, 3].all (fun st => decide (linkOn (askedDev st) = true ∧ linkState (askedDev st) = st ∧ (askedDev st).link.parkAsked = true ∧ (askedDev st).pwr.sleep.active = false ∧ running (askedDev st) = true ∧ linkLive (takeAck (askedDev st) { ackSeq := 0, ackValid := false, nak := false }) = true ∧ linkQuiet (askedDev st).link = true ∧ linkQuiet (waitDev st).link = false))) ∧
    (running drainingLink = true ∧ drainingLink.pwr.sleep.active = true ∧ drainingLink.pwr.sleep.toAsk.head? = some 2 ∧ linkLive drainingLink = true) := by
  refine ⟨?_, ?_, ?_, ?_, ?_, ?_, ?_⟩ <;> decide +kernel

theorem witness_FlitRows :
    (let d := replayDev 4 0; linkLive d = true ∧ (0xFF : BitVec 8) = d.link.txSeq - BitVec.ofNat 8 4 + BitVec.ofNat 8 (1 - 1) ∧ 1 ≤ d.link.replay.length ∧ d.link.replay.length ≤ 64) ∧
    ((replayDev 2 2).link.replay ≠ [] ∧ linkLive (replayDev 2 2) = true ∧ (replayDev 2 2).link.replay.all (fun f => decide (f.replays < 3)) = true) ∧
    (({ bytes := zeros 256, replays := 3 } : SentFlit) ∈ (replayDev 2 3).link.replay ∧ linkLive (replayDev 2 3) = true) ∧
    (flitOf (lineOf badFlit) = badFlit ∧ flitOf (lineOf padFlit) = padFlit ∧ (lineOf padFlit).length = (linkAt 2).link.lanes.length) ∧
    (linkLive (linkAt 2) = true ∧ leAt badFlit 252 4 ≠ (crc32 (badFlit.take 252)).toNat) ∧
    (linkLive (linkAt 2) = true ∧ linkState (linkAt 2) = 2 ∧ leAt padFlit 252 4 = (crc32 (padFlit.take 252)).toNat ∧ leAt padFlit 0 4 = (linkAt 2).link.rxSeq.toNat * 2 ^ 24 ∧ sliceB padFlit 4 248 = zeros 248 ∧ (linkAt 2).link.partialPkt = []) ∧
    (WholePkt regRdPkt ∧ malformed regRdPkt = false ∧ (parsePkt regRdPkt).ty = 0x10 ∧ malformed (regRdPkt.set 4 5) = true ∧ (parsePkt (regRdPkt.set 4 5)).ty = 0x10 ∧ fld (linkAt 2) .linkErrCnt 3 31 0 < 0xFFFFFFFF) ∧
    (WholePkt cplPkt ∧ (parsePkt cplPkt).ty = 4 ∧ malformed cplPkt = false) ∧
    ([2, 3].all (fun st => let d := linkAt st; let f := flitWith 0 (regRdPkt ++ zeros 232); let h := leAt f 0 4; decide (linkLive d = true ∧ flitOf (lineOf f) = f ∧ leAt f 252 4 = (crc32 (f.take 252)).toNat ∧ bitsOf h 15 12 = 0 ∧ (BitVec.ofNat 8 (bitsOf h 31 24) - d.link.rxSeq) = 0 ∧ d.link.partialPkt ++ sliceB f 4 248 = [regRdPkt].flatten ++ zeros (8 * 29) ∧ 1 + 29 ≤ 64))) ∧
    (let d := linkAt 2; [(0xFF, 255), (0xC0, 192), (1, 1), (0xBF, 191)].all (fun e => let f := flitWith e.1 (zeros 248); decide ((BitVec.ofNat 8 (bitsOf (leAt f 0 4) 31 24) - d.link.rxSeq).toNat = e.2 ∧ leAt f 252 4 = (crc32 (f.take 252)).toNat ∧ bitsOf (leAt f 0 4) 15 12 = 0))) := by
  refine ⟨?_, ?_, ?_, ?_, ?_, ?_, ?_, ?_, ?_, ?_⟩ <;> decide +kernel

theorem witness_LinkDownAndReadCompletions :
    ([2, 3, 4, 5].all (fun st => decide (2 ≤ linkState (linkAt st) ∧ (linkAt st).ring.cmds = []))) ∧
    ([64, 32].all (fun n => let d := readDev n; decide (d.link.reads = [{ tag := 5, len := 64, owner := .summary 0, st := .sent }] ∧ d.link.rxCpl = [{ ty := 4, tag := 5, len := n, data := List.replicate n 1 }]))) ∧
    (let d := { readDev 64 with ring := { cmds := [{ cmd 0x20 [] with st := .running }] }, link := { (readDev 64).link with reads := [{ tag := 5, len := 64, addr := 0x80, owner := .command 7 0, st := .sent }], rxCpl := [{ ty := 3, status := 1, tag := 5 }] } }; d.link.rxCpl.all (fun q => decide (q.ty = 3 ∧ q.status = 1 ∧ writeAhead d q = false))) ∧
    (linkState (linkAt 1) < 2) := by
  refine ⟨?_, ?_, ?_, ?_⟩ <;> decide +kernel

theorem witness_UnitCommands :
    (let c := ingestCmd 64; let s := withCmd upDev c; Begins s.dev c 0x20 ∧ pf c 5 15 0 ∉ s.dev.ring.retiring ∧ pf c 7 12 0 = 0 ∧ pf c 3 39 0 ≠ 0) ∧
    (let c := ingestCmd 64; let s := withCmd retireDev c; Begins s.dev c 0x20 ∧ pf c 5 15 0 ≠ 0xFFFF ∧ pf c 5 15 0 ∈ s.dev.ring.retiring) ∧
    (let c := cmd 0x21 [6]; Begins (withCmd upDev c).dev c 0x21) ∧
    (let c := cmd 0x22 [6, 9]; let s := withCmd upDev c; Begins s.dev c 0x22 ∧ pf c 1 15 0 ≠ 0xFFFF ∧ pf c 1 15 0 ∉ s.dev.ring.retiring ∧ snapshotsFrom (begun s.dev c) 9 = false ∧ gddrOut (lookLines looker (begun s.dev c) (dirAt (begun s.dev c) 6) 32) 0 (dirAt (begun s.dev c) 6) 32 = none ∧ queuesFreeB s.dev = true) ∧
    (let c := cmd 0x22 [6, 9]; let s := withCmd retireDev c; Begins s.dev c 0x22 ∧ pf c 1 15 0 ∈ s.dev.ring.retiring) ∧
    (let c := cmd 0x22 [6, 9]; let s := withCmd { upDev with consists := [(0, { valid := true, snapshot := 9 })] } c; Begins s.dev c 0x22 ∧ pf c 1 15 0 ∉ s.dev.ring.retiring ∧ snapshotsFrom (begun s.dev c) 9 = true) ∧
    (let c := cmd 0x30 [0x1040, 2]; let s := withCmd upDev c; Begins s.dev c 0x30 ∧ arbHeld s.dev = false ∧ (chan s.dev 2).ph = .idle) ∧
    (let c := cmd 0x30 [0x1040, 2]; let s := withCmd (setChan upDev 2 { ph := .run }) c; Begins s.dev c 0x30 ∧ (chan s.dev 2).ph ≠ .idle) ∧
    ([(0x60, 4), (0x61, 2)].all (fun e => [0, 64].all (fun n => let c := { cmd e.1 [0x4000, 0x8000, n] with space := e.2 }; decide (Begins (withCmd upDev c).dev c e.1)))) ∧
    ([0x40, 0x41].all (fun op => [0, 5].all (fun n => let c := cmd op [0, 0, n, n]; decide (Begins (withCmd upDev c).dev c op)))) ∧
    ([0, 5].all (fun n => let c := cmd 0x50 [0, 0, n, 0]; decide (Begins (withCmd upDev c).dev c 0x50)) && decide (upDev.hump.cmds = [] ∧ upDev.hump.rings = [] ∧ upDev.hump.queue.length < 16)) ∧
    (let c := { cmd 0x21 [6] with st := .running, aux := [3] }; let s := withCmd upDev c; queuesFreeB s.dev = true ∧ cmdOf s.dev 7 = some c ∧ running s.dev = true ∧ c.st = .running ∧ ingestsDone s.dev c.aux = true ∧ allOn s.dev (needDoms s.dev 0) = true ∧ memUp s.dev 0 = true ∧ (let e := lookLines looker s.dev (dirAt s.dev 6) 32; dirFault e (dirAt e 6) 32 = none)) ∧
    (let c := { hostWord 0x20 [0x4000, 0x8000, 64, 0, 0xFFFF, 0, 0] with st := .running, aux := [1, 0], pos := 64 }; let s := withCmd upDev c; cmdOf s.dev 7 = some c ∧ running s.dev = true ∧ c.st = .running ∧ pf c 5 15 0 = 0xFFFF ∧ c.aux[0]? = some 1 ∧ c.aux[1]? = some 0 ∧ (s.dev.ring.cmds.map (fun e => e.id)) = [7]) ∧
    (let c := { cmd 0x22 [6, 9] with st := .running, aux := [1, 6, 3] }; let s := withCmd retireDev c; queuesFreeB s.dev = true ∧ c.walk = .start ∧ cmdOf s.dev 7 = some c ∧ running s.dev = true ∧ c.st = .running ∧ c.aux = 1 :: 6 :: [3] ∧ ingestsDone s.dev [3] = true ∧ allOn s.dev (needDoms s.dev 0) = true ∧ memUp s.dev 0 = true ∧ (let e := lookLines looker s.dev (dirAt s.dev 6) 32; dirFault e (dirAt e 6) 32 = none) ∧ bitOf (dirWord (lookLines looker s.dev (dirAt s.dev 6) 32) 6 0) 40 = 0) ∧
    ([0, 1].all (fun k => let s := walkState k; let c := walkCmd; let b := dirWord s.dev 6 1 % 2 ^ 40; queuesFreeB s.dev && cacheSoundB s.dev && decide (cmdOf s.dev 7 = some c ∧ running s.dev = true ∧ c.opcode = 0x20 ∧ c.st = .running ∧ pf c 5 15 0 = 6 ∧ c.aux[0]? = some 1 ∧ c.aux[1]? = some 0 ∧ c.walk = .start ∧ (s.dev.ring.cmds.map (fun e => e.id)) = [7] ∧
    allOn s.dev (needDoms s.dev 0) = true ∧ memUp s.dev 0 = true ∧ s.dev.badUnits = [] ∧ MemoryCanonical s ∧ DirReadable s.dev 6 ∧ HeadAt s.dev 0x8000 ∧ bitsOf (headWord s.dev 0x8000 48) 39 16 = c.pos ∧ Apart 0x8000 64 (dirAt s.dev 6) 32 ∧ bitOf (dirWord s.dev 6 0) 40 = k ∧
    (k = 1 → HeadAt s.dev b ∧ Apart b 64 0x8000 64 ∧ Apart b 64 (dirAt s.dev 6) 32)))) ∧
    ([5, 9, 10].all (fun n => let s := chainState n; let c := { cmd 0x22 [6, 9] with st := .running, aux := [1, 6, 3] }; queuesFreeB s.dev && cacheSoundB s.dev && decide (Retires s c 6 [3] ∧ s.dev.badUnits = [] ∧ MemoryCanonical s ∧ DirReadable s.dev 6 ∧ bitOf (dirWord s.dev 6 0) 40 = 1 ∧ dirWord s.dev 6 0 % 2 ^ 40 = 0x8000 ∧ HeadAt s.dev 0x8000 ∧ headWord s.dev 0x8000 32 % 2 ^ 40 = 0 ∧ Apart 0x8000 64 (dirAt s.dev 6) 32 ∧ headWord s.dev 0x8000 16 % 2 ^ 40 = n ∧ bitOf (headWord s.dev 0x8000 16) 53 = 0))) := by
  refine ⟨?_, ?_, ?_, ?_, ?_, ?_, ?_, ?_, ?_, ?_, ?_, ?_, ?_, ?_, ?_, ?_⟩ <;> decide +kernel

theorem witness_JournalCommands :
    (let c := cmd 0x70 [0x5000, 3]; let s := withCmd upDev c; FwBegins s.dev c 0x70 ∧ signOk s.dev = false ∧ c.aux = [] ∧ c.bad = [] ∧ c.pos = 0) ∧
    (let c := cmd 0x70 [0x5000, 3]; let s := withCmd signDev c; FwBegins s.dev c 0x70 ∧ signOk s.dev = true ∧ sealDue s.dev = false ∧ journalFull s.dev (nextSeq s.dev) = false ∧ pf c 2 15 0 ≠ 0 ∧ isHost c 1 = false ∧ spanFault (fwTaken s.dev c) 0 0x5000 64 = none ∧ s.dev.sbox.signQ = [] ∧ queuesFreeB s.dev = true ∧ cacheSoundB s.dev = true) ∧
    (let c := hostCmd 0x71 [0x5000, 0, 0]; let s := withCmd signDev c; FwBegins s.dev c 0x71 ∧ pf c 3 9 0 = 0) ∧
    (let c := hostCmd 0x71 [0x5000, 2, 1]; let s := withCmd signDev c; FwBegins s.dev c 0x71 ∧ pf c 3 9 0 ≠ 0 ∧ blockStarted s.dev 2 = false) ∧
    (let c := hostCmd 0x71 [0x5000, 1, 1]; let s := withCmd sealedDev c; FwBegins s.dev c 0x71 ∧ pf c 3 9 0 ≠ 0 ∧ blockStarted s.dev 1 = true ∧ blockGone s.dev 1 = false ∧ (jblock s.dev 1).sealed = true ∧ firstBadLine (fwTaken s.dev c) (recAddr 64) 8192 = none ∧ isHost c 1 = true ∧ hostOut (fwTaken s.dev c) 0 0x5000 8256 = none) ∧
    (let c := cmd 0x72 [2, 1]; let s := withCmd sealedDev c; FwBegins s.dev c 0x72 ∧ pf c 2 9 0 = 1 ∧ blockStarted s.dev 2 = true ∧ blockGone s.dev 2 = false ∧ (jblock s.dev 2).sealed = true ∧ (jblock s.dev 2).exported = true ∧ s.dev.sbox.events = [] ∧ s.dev.sbox.signQ = []) ∧
    (let c := cmd 0x72 [1, 1]; let s := withCmd sealedDev c; FwBegins s.dev c 0x72 ∧ pf c 2 9 0 = 1 ∧ blockStarted s.dev 1 = true ∧ blockGone s.dev 1 = false ∧ (jblock s.dev 1).acked = false ∧ (jblock s.dev 1).exported = false) := by
  refine ⟨?_, ?_, ?_, ?_, ?_, ?_, ?_⟩ <;> decide +kernel

theorem witness_FirmwareCommands :
    (let c := cmd 0x78 [0, 0x5000, 207]; let s := withCmd upDev c; FwBegins s.dev c 0x78 ∧ pf c 3 9 0 < 208) ∧
    (let c := cmd 0x78 [0, 0x5000, 208]; let s := withCmd { upDev with regs := mset 1 upDev.regs (Reg.sboxNonce.key 0) 0 } c; let d := fwTaken s.dev c; FwBegins s.dev c 0x78 ∧ 208 ≤ pf c 3 9 0 ∧ isHost c 2 = false ∧ spanFault d 0 0x5000 208 = none ∧ leAt (memRead d 0x5000 208) 0 5 = pf c 1 39 0 ∧ leAt (memRead d 0x5000 208) 8 5 = (rd s.dev .sboxNonce 0).toNat ∧ s.dev.sbox.run = none ∧ s.dev.sbox.signQ = [] ∧ queuesFreeB s.dev = true ∧ cacheSoundB s.dev = true) ∧
    (let c := cmd 0xE4 [0x5000, 0, 0, 0]; let s := withCmd upDev c; FwBegins s.dev c 0xE4 ∧ pf c 3 16 0 = 0 ∧ pf c 4 0 0 = 0) ∧
    (let c := cmd 0xE4 [0x5000, 0x2FF000, 4096, 0]; let s := withCmd upDev c; let u := modCmd (chunkClears (fwTaken s.dev c)) 7 (fun k => { k with aux := [1] }); FwBegins s.dev c 0xE4 ∧ 0 < pf c 3 16 0 ∧ pf c 3 16 0 ≤ 4096 ∧ pf c 2 21 0 + pf c 3 16 0 ≤ 0x300000 ∧ isHost c 1 = false ∧ spanFault u 0 0x5000 4096 = none ∧ queuesFreeB s.dev = true) ∧
    ([0, 1].all (fun k => let c := cmd 0xE5 []; let s := withCmd (setFld upDev .sboxFw 0 3 3 k) c; decide (FwBegins s.dev c 0xE5 ∧ fld s.dev .sboxFw 0 3 3 = k))) ∧
    ([0, 1, 2, 3].all (fun k => let c := cmd 0xE6 [k + 0x30, 5]; let s := withCmd upDev c; decide (FwBegins s.dev c 0xE6 ∧ s.dev.pwr.sleep.active = false ∧ s.dev.pwr.profile = none ∧ pf c 1 1 0 = k ∧ pf c 1 5 4 = 3))) ∧
    (let c := hostCmd 0xE7 [0x5000, 0, 0]; let s := withCmd upDev c; FwBegins s.dev c 0xE7 ∧ pf c 3 15 0 = 0) ∧
    (let c := hostCmd 0xE7 [0x5000, 3, 2]; let s := withCmd upDev c; FwBegins s.dev c 0xE7 ∧ pf c 3 15 0 ≠ 0 ∧ pf c 2 14 0 = 3 ∧ firstBadLine (fwTaken s.dev c) (0xC000600000 + 64 * 3) 64 = none ∧ isHost c 1 = true ∧ hostOut (fwTaken s.dev c) 0 0x5000 64 = none) ∧
    (let c := hostCmd 0xE8 [0x5000, 5]; let s := withCmd upDev c; FwBegins s.dev c 0xE8 ∧ isHost c 1 = true ∧ hostOut (fwTaken s.dev c) 0 0x5000 64 = none) := by
  refine ⟨?_, ?_, ?_, ?_, ?_, ?_, ?_, ?_, ?_⟩ <;> decide +kernel

theorem witness_SigningRows :
    ([((Instr.sign : Requester → Word → Instr), 1), (.verifySignature, 2), (.timeTokenCheck, 3)].all (fun e => let v : Word := BitVec.ofNat 40 (e.2 * 2 ^ 38 + 0x40); decide (isSbox .sbox = true ∧ WriteOpen signDev .sbox 0xD00010 ∧ signDev.sbox.run = none ∧ bitsOf v.toNat 39 38 = e.2))) ∧
    ([1, 2, 3].all (fun op => let d := runDev (.direct op 0); decide (running d = true ∧ d.sbox.run = some { req := .direct op 0, bytes := zeros 64 } ∧ d.sbox.signQ = []))) ∧
    (let d := outDev sealedDev (.seal_ 3) (List.replicate 128 7); fwUp d = true ∧ d.sbox.signQ = [] ∧ d.sbox.events = []) ∧
    (fwUp attestDev = true ∧ attestDev.sbox.signQ = [] ∧ (consist attestDev 4).ph = .signing ∧ (consist attestDev 4).event = 0 ∧ (consist attestDev 4).attestHost = true ∧ queuesFreeB attestDev = true ∧ hostOut attestDev 0 0x5000 256 = none) ∧
    (fwUp upDev = true ∧ upDev.tap.token = none ∧ upDev.sbox.run = none ∧ upDev.sbox.signQ = []) := by
  refine ⟨?_, ?_, ?_, ?_, ?_⟩ <;> decide +kernel

theorem witness_KeysAndLifecycle :
    (isSbox .sbox = true ∧ WriteOpen signDev .sbox 0xD00000 ∧ bitOf (2 : Word).toNat 1 = 1 ∧ bitOf (2 : Word).toNat 0 = 0 ∧ bitOf (1 : Word).toNat 1 = 0 ∧ bitOf (1 : Word).toNat 0 = 1) ∧
    (WriteOpen signDev .sbox 0xE00010 ∧ bitOf (0x1000000 : Word).toNat 24 = 1) ∧
    ([1, 2].all (fun l => let v : Word := BitVec.ofNat 40 (0xA5 * 2 ^ 32 + (l + 1) * 2 ^ 8); decide (WriteOpen upDev .port0 0x18 ∧ 1 ≤ l ∧ bitsOf v.toNat 9 8 = l + 1 ∧ bitsOf v.toNat 39 32 = 0xA5))) ∧
    (fld (setFld signDev .chipLifecycle 0 2 2 1) .chipLifecycle 0 2 2 = 1) ∧
    (let d := outDev signDev .debug (zeros 112); fwUp d = true ∧ d.sbox.outs = [{ req := .debug, ok := true, bytes := zeros 112 }]) ∧
    (let s := State.reset; let d := setFld s.dev .wakeCtrl 0 4 4 0; d.pwr.bootDue = true ∧ running d = true ∧ (chooseSlot s.otp d).2.2 = none ∧ fld d .wakeCtrl 0 4 4 = 0 ∧ MemoryCanonical s) ∧
    (imageState.dev.pwr.bootDue = true ∧ running imageState.dev = true ∧ (chooseSlot imageState.otp imageState.dev).2.2 = some 1) := by
  refine ⟨?_, ?_, ?_, ?_, ?_, ?_, ?_⟩ <;> decide +kernel

theorem witness_TapRows :
    ([PowerMode.running, .standing].all (fun m => decide ((inMode m).pwr.mode = .running ∨ (inMode m).pwr.mode = .standing))) ∧
    ([PowerMode.stabled, .laidUp, .raising, .pinReset].all (fun m => decide ((inMode m).pwr.mode ≠ .running ∧ (inMode m).pwr.mode ≠ .standing))) ∧
    ([0x00, 0x01, 0x02, 0x03, 0x04, 0x10, 0x12, 0x18].all (fun k => decide (({ ir := BitVec.ofNat 5 k, dr := 0 } : TapScan).ir = BitVec.ofNat 5 k)) = true ∧ ({ ir := 0x1F, dr := 0 } : TapScan).ir.toNat ∉ [0x00, 0x01, 0x02, 0x03, 0x04, 0x10, 0x11, 0x12, 0x18]) ∧
    (dbgOpen signDev = false ∧ FirstOnPath signDev .dbg) ∧
    (dbgRead.ir = 0x18 ∧ dbgOpen dbgDev = true ∧ dbgRead.dr.getLsbD 80 = false ∧ regOff (bitsOf dbgRead.dr.toNat 79 40) = some (coreOff 3 0x28) ∧ pathUp dbgDev (coreOff 3 0x28) = true ∧ regWay dbgDev (coreOff 3 0x28) = .open_ ∧ FirstOnPath dbgDev .dbg ∧ regAt (coreOff 3 0x28 / 8 * 8) = some (.coreFaultPc, 3) ∧ Reg.coreFaultPc.rcMask = 0 ∧ readsFree .coreFaultPc = false) := by
  refine ⟨?_, ?_, ?_, ?_, ?_⟩ <;> decide +kernel

theorem witness_RegisterAccesses :
    (39 < 40) ∧
    (let a := regAddr (coreOff 3 8); regOff a.toNat = some (coreOff 3 8) ∧ regAt (coreOff 3 8 / 8 * 8) = some (.coreResetPc, 3) ∧ WriteOpen upDev .port0 (coreOff 3 8) ∧ Reg.coreResetPc ∉ writesAct) ∧
    (regOff (regAddr 0x100000).toNat = some 0x100000 ∧ FirstOnPath upDev (.core 4)) ∧
    ([0x2FF8, 0x100800].all (fun off => let a := regAddr off; decide (regOff a.toNat = some off ∧ regAt (off / 8 * 8) = none ∧ WriteOpen upDev .port0 off))) ∧
    (let a := regAddr (coreOff 3 0x40); regOff a.toNat = some (coreOff 3 0x40) ∧ (regAt (coreOff 3 0x40 / 8 * 8)).isSome = true ∧ WriteOpen upDev .port0 (coreOff 3 0x40)) ∧
    (let off := 0x100000 + 0x28; (match regAt off with | some (r, i) => decide (r = .linkErrCnt ∧ i = 1 ∧ r.rcMask ≠ 0) && !readsFree r | none => false) = true ∧ WriteOpen rcDev .port0 off ∧ regOff (regAddr off).toNat = some off) ∧
    (let off := coreOff 5 0x20; FirstOnPath upDev (.core 5) ∧ lnGrant upDev 5 off = true ∧ pathUp upDev off = true ∧ regWay upDev off = .open_ ∧ (match regAt off with | some (r, _) => !readsFree r | none => false) = true ∧ regOff (regAddr off).toNat = some off) ∧
    (let q : Packet := { ty := 0x10, addr := 0xF000000000 + coreOff 3 0x28, tag := 9 }; let off := q.addr - 0xF000000000; pathUp (regPktDev q) off = true ∧ regWayOf (regPktDev q) q.woke off = .open_ ∧ regAt (off / 8 * 8) = some (.coreFaultPc, 3) ∧ Reg.coreFaultPc.rcMask = 0 ∧ readsFree .coreFaultPc = false) ∧
    (let q : Packet := { ty := 0x11, addr := 0xF000000000 + coreOff 3 8, len := 8, data := toLE 8 0x123456789F }; let off := q.addr - 0xF000000000; pathUp (regPktDev q) off = true ∧ regWayOf (regPktDev q) q.woke off = .open_ ∧ regAt (off / 8 * 8) = some (.coreResetPc, 3) ∧ Reg.coreResetPc ∉ writesAct) ∧
    (WriteOpen lineDev .port0 0x200000 ∧ fld lineDev .ringCtrl 0 16 16 = 0 ∧ bitOf (0x10000 : Word).toNat 16 = 1) ∧
    (WriteOpen upDev .port0 0xB00000) ∧
    ([0, 31].all (fun n => [(8 : Word), 12].all (fun v => decide (WriteOpen upDev .port0 (coreOff n 0) ∧ bitOf v.toNat 3 = 1)))) ∧
    ([0, 31].all (fun n => decide (WriteOpen upDev .port0 (coreOff n 0) ∧ bitOf (4 : Word).toNat 3 = 0 ∧ bitOf (4 : Word).toNat 2 = 1 ∧ (core upDev n).st = .held))) ∧
    (let d := setCore upDev 4 { vcore with st := .running }; WriteOpen d .port0 (coreOff 4 0) ∧ bitOf (0 : Word).toNat 3 = 0 ∧ bitOf (0 : Word).toNat 2 = 0 ∧ (core d 4).st ≠ .held) ∧
    (WriteOpen upDev .port0 (coreOff 4 0x10)) := by
  refine ⟨?_, ?_, ?_, ?_, ?_, ?_, ?_, ?_, ?_, ?_, ?_, ?_, ?_, ?_, ?_⟩ <;> decide +kernel

theorem witness_ConsistRows :
    (let d := consistDev startingK; let k := consist d 5; k.valid = true ∧ k.ph = .starting ∧ k.params.isSome = true ∧ readsOf d (fun o => decide (o = .params 5)) = [] ∧ 2 ∉ k.rakes ∧ 2 ∈ copyRakes d 5 k ∧ domOn d 6 = true ∧ queuesFreeB d = true) ∧
    (let d := consistDev startingK; let k := consist d 5; running d = true ∧ k.ph = .starting ∧ k.carved = false ∧ k.claimCount = 0 ∧ k.carving = none ∧ allOn d (consistDoms d k.domains) = true) ∧
    (let d := consistDev { startingK with attest := true }; let k := consist d 5; k.ph = .starting ∧ k.attest = true ∧ k.startDigest = none ∧ imageFault d (imageOf k) 0 k.bytes = none ∧ queuesFreeB d = true) ∧
    (let d := consistDev readyK; let k := consist d 5; k.ph = .starting ∧ k.event = 0 ∧ startDone d 5 k = true ∧ k.seedsOut = false ∧ readsOf d (fun o => decide (o = .params 5)) = [] ∧ k.seedCount = 0 ∧ k.held = []) ∧
    (let d := consistDev { readyK with seedCount := 4, seedOff := 0x400, held := [(9, {})] }; let k := consist d 5; startDone d 5 k = true ∧ k.seedCount ≠ 0 ∧ imageFault d (imageOf k) k.seedOff (64 * ceilDiv k.seedCount 3) = none ∧ queuesFreeB d = true) ∧
    ([false, true].all (fun a => let d := consistDev (idleK a); let k := consist d 5; decide (k.valid = true ∧ k.ph = .running ∧ k.event = 0 ∧ consistIdle d 5 k = true ∧ k.attest = a))) ∧
    (let d := consistDev { idleK false with watchdog := 3, ms := 4 }; let k := consist d 5; k.watchdog ≠ 0 ∧ k.watchdog < k.ms ∧ k.ph = .running ∧ k.event = 0) ∧
    (let d0 := consistDev { idleK false with event := 8 }; let d := { d0 with ring := { d0.ring with cmds := [{ cmd 0x12 [] with st := .running }] } }; let k := consist d 5; k.event ≠ 0 ∧ k.ph ≠ .completing ∧ k.work = 0 ∧ (cmdOf d k.cmd).isSome = true) ∧
    (let d := kernelDev; let k := consist d 5; let m := imageOf k; let at_ := bitsOf (descWord d (imageOf k) 0 2) 15 0; let s1 := descWord d (imageOf k) 0 1; let n := min (min 65536 (bitsOf s1 56 40)) (65536 - at_); d.badUnits = [] ∧ cacheSoundB d = true ∧ Memory.wf d.mem = true ∧ descFault d m 0 = none ∧ imageFault d m (bitsOf s1 39 0) n = none ∧ at_ = 0x100 ∧ n = 32 ∧ bitsOf (descWord d (imageOf k) 0 3) 44 44 = 0 ∧ 7 ∈ rakeCores (bitsOf (descWord d (imageOf k) 0 0) 63 32) 1 ∧ 7 < 32 ∧ 31 < n) := by
  refine ⟨?_, ?_, ?_, ?_, ?_, ?_, ?_, ?_, ?_⟩ <;> decide +kernel

theorem witness_DispatcherRows :
    (let o : Offer := { prod := .junction, w := wSetConsist {} 9 }; let d := dispDev {} [o]; dispUp d = true ∧ queuesFreeB d = true ∧ d.disp.offers = [o] ∧ o.stalled = false ∧ (consist d (wConsist o.w)).valid = false) ∧
    (let o : Offer := { prod := .junction, w := wagonTo 0 }; let d := dispDev (listOf 2) [o]; let k := consist d 5; wConsist o.w = 5 ∧ k.valid = true ∧ k.ph = .running ∧ k.event = 0 ∧ wStage o.w ≠ k.resultStage ∧ o.key = none ∧ (∀ n < 33, o.prod ≠ .core n) ∧ mustSpill (dropOffer d o) (rlist d (listKey 5 0)) = false) ∧
    (let o : Offer := { prod := .junction, w := wagonTo 1 }; let d := dispDev (listOf 2) [o]; wStage o.w = (consist d 5).resultStage) ∧
    (let d := capDev 1 false; mustStall d (rlist d (listKey 5 0)) = true ∧ wStage (wagonTo 0) ≠ (consist d 5).resultStage) ∧
    (let d := capDev 0 true; dispUp d = true ∧ mustSpill d (rlist d (listKey 5 0)) = false) ∧
    (let d := fullDev; let o : Offer := { prod := .junction, w := wagonTo 0 }; let l := rlist d (listKey 5 0); dispUp d = true ∧ queuesFreeB d = true ∧ d.disp.offers = [o] ∧ o.stalled = false ∧ wStage o.w ≠ (consist d 5).resultStage ∧ (consist d 5).ph = .running ∧ mustSpill (dropOffer d o) l = true ∧ mustStall (dropOffer d o) l = false ∧ gddrOut d (consist d 5).port (l.sidingBase + 64 * (l.written % sidingCap l / 3)) 64 = none) ∧
    (let o : Offer := { prod := .junction, w := wagonTo 0, key := some 0x123456 }; let d := keyedDev [o]; let l := rlist d (listKey 5 0); let off := l.ptOff + 2 * (h40 0x123456 % 2 ^ l.ptBits); dispUp d = true ∧ queuesFreeB d = true ∧ d.disp.offers = [o] ∧ wStage o.w ≠ (consist d 5).resultStage ∧ l.ptBits ≠ 0 ∧ imageFault d (imageOf (consist d 5)) off 2 = none ∧ imageNat d (imageOf (consist d 5)) off 2 ∈ [0x1111, 0x2222, 0x3333, 0x4444] ∧ mustSpill (dropOffer d o) l = false) ∧
    (let o : Offer := { prod := .core 6, w := wagonTo 0 }; let d := emitDev (listOf 2) [o]; dispUp d = true ∧ queuesFreeB d = true ∧ d.disp.offers = [o] ∧ windowPlace d 6 = none ∧ (core d 6).st = .emitw ∧ wStage o.w ≠ (consist d 5).resultStage ∧ mustSpill (dropOffer d o) (rlist d (listKey 5 0)) = false) ∧
    (let o : Offer := { prod := .core 6, w := wagonTo 0 }; let d := orderedDev 1 [o]; dispUp d = true ∧ queuesFreeB d = true ∧ windowPlace d 6 = some (320, 4, false) ∧ o.key = none ∧ poolUsed d < 16384) ∧
    (let d := orderedDev 16384 [{ prod := .core 6, w := wagonTo 0 }]; windowPlace d 6 = some (320, 4, false) ∧ 16384 ≤ poolUsed d) ∧
    ([(5, 6), (6, 5), (5, 5)].all (fun e => [(Producer.hump, Producer.junction), (.junction, .hump), (.core 3, .core 2)].all (fun p => let d := twoOffers { prod := p.1, time := e.1 } { prod := p.2, time := e.2 }; dispUp d && queuesFreeB d && d.disp.offers.all (fun o => !(consist d (wConsist o.w)).valid && !o.stalled) && decide (d.disp.offers.map (fun o => o.prod) = [p.1, p.2]) && !sameLine d { prod := p.2 } { prod := p.1 }))) ∧
    (let d := spillDev; let l := rlist d (listKey 5 0); dispUp d = true ∧ (consist d 5).valid = true ∧ (consist d 5).event = 0 ∧ l.spilled = true ∧ l.written = l.moved + 1 ∧ 0 < sidingCap l ∧ l.chip.length < listCap d / 2 ∧ poolUsed d < 16384 ∧ gddrOut d 0 (l.sidingBase + 64 * (l.moved % sidingCap l / 3)) 64 = none ∧ rawBadLine d (l.sidingBase + 64 * (l.moved % sidingCap l / 3)) 64 = none) ∧
    (let d := flowDev; dispUp d = true ∧ d.disp.flowReads = [(5, 0, 77, flowAddr d (flowTag 5 0 77))] ∧ rawBadLine d (flowAddr d (flowTag 5 0 77)) 8 = none ∧ flowOf d 5 0 77 = none ∧ d.disp.flows.length < 4096 ∧ bitOf (rawNat d (flowAddr d (flowTag 5 0 77)) 8) 37 = 1 ∧ rawNat d (flowAddr d (flowTag 5 0 77)) 8 % 2 ^ 32 = flowTag 5 0 77) ∧
    (let d := waitingDev (listOf 1); let l := rlist d 320; dispUp d = true ∧ d.disp.lists = [(320, l)] ∧ l.valid = true ∧ l.order = 0 ∧ l.chip = [{ w := wagonTo 0 }] ∧ candidates d 320 l = [6] ∧ lastCore d 5 0 (wFlow (wagonTo 0)) = none) ∧
    (let d := setDom (waitingDev (listOf 1)) 5 { dom (waitingDev (listOf 1)) 5 with st := .gated }; let l := rlist d 320; dispUp d = true ∧ queuesFreeB d = true ∧ d.disp.lists = [(320, l)] ∧ l.chip = [{ w := wagonTo 0 }] ∧ candidates d 320 l = [6] ∧ coreDom 6 = 5 ∧ domOn d (coreDom 6) = false) ∧
    (let d := holdDev; let l := rlist d 320; dispUp d = true ∧ queuesFreeB d = true ∧ d.disp.lists = [(listKey 5 0, l)] ∧ l.valid = true ∧ l.order = 1 ∧ l.chip = [{ w := wagonTo 0, eligible := some 0 }] ∧ candidates d (listKey 5 0) l = [6] ∧ flowBusy d 5 0 (wFlow (wagonTo 0)) = false ∧ lastCore d 5 0 (wFlow (wagonTo 0)) = some 4 ∧ bitOf l.cores 4 = 1 ∧ 4 ∉ [6] ∧ 0 + l.affHold ≤ d.cc ∧ domOn d (coreDom 6) = true) ∧
    ([none, some 320].all (fun cur => let d := arrivingDev cur; decide (d.disp.delivering = [{ w := wagonTo 0, core := 6, serial := 9 }] ∧ (core d 6).st = .waitw ∧ levelOf (core d 6) = 0 ∧ (core d 6).loads = [] ∧ wStage (wagonTo 0) = 0 ∧ imageFault d (imageOf (consist d 5)) 256 64 = none ∧ domOn d (coreDom 6) = true ∧ queuesFreeB d = true))) ∧
    (let d := { dispDev {} [] with disp := { releasing := [{ w := wagonTo 0, core := 6, serial := 9 }], service := [{ w := wagonTo 0, core := 6, serial := 9 }] } }; dispUp d = true ∧ d.disp.releasing = [{ w := wagonTo 0, core := 6, serial := 9 }]) ∧
    (let d := drainDev; dispUp d = true ∧ queuesFreeB d = true ∧ d.disp.releasing.length = 1 ∧ window d (listKey 5 0) = [{ core := 5, serial := 3 }, { core := 6, serial := 4, held := [{ w := wagonTo 2 }, { w := wagonTo 3 }] }] ∧ d.disp.offers = []) ∧
    (let d := resultDev; let k := consist d 5; let n := wRows (wagonTo 1) * k.rowBytes; n = 24 ∧ dispUp d = true ∧ queuesFreeB d = true ∧ (d.disp.resultQ.map (fun h => h.core)) = [none] ∧ allOn d (resultDoms d { wagonTo 1 with w2 := 0x7000 }) = true ∧ k.event = 0 ∧ d.disp.resultQ.all (fun h => decide (h.copied = 0)) = true ∧ 0 < k.rowBytes ∧ k.truncated = false ∧ k.valid = true ∧ k.written.length + n ≤ k.resultBytes ∧ resultReach d k 0x7000 n = n ∧ lineReads d .result = []) ∧
    (let d := resultRead; let k := consist d 5; dispUp d = true ∧ queuesFreeB d = true ∧ d.disp.resultQ.length = 1 ∧ k.written.length + 24 ≤ k.resultBytes ∧ resultReach d k 0x7000 24 = 24 ∧ (match fetchLines { d with disp := { d.disp with resultQ := [] } } .result 50 k.port none [(0x7000, 24)] with | .got _ bs => decide (bs = memRead d 0x7000 24 ∧ spaceOut d k.port k.resultHost (k.result + k.written.length) bs.length = none) | _ => false) = true) ∧
    (let d := resultPiece1; let k := consist d 5; d.disp.resultQ.all (fun h => decide (wRows h.w * k.rowBytes = 1024)) = true ∧ min 1024 (1024 - 0x7010 % 64) = 1008 ∧ dispUp d = true ∧ queuesFreeB d = true ∧ resultReach d k 0x7010 1008 = 1008 ∧ (match fetchLines { d with disp := { d.disp with resultQ := [] } } .result 50 k.port none [(0x7010, 1008)] with | .got _ bs => decide (bs.length = 1008 ∧ spaceOut d k.port k.resultHost (k.result + k.written.length) 1008 = none) | _ => false) = true) := by
  refine ⟨?_, ?_, ?_, ?_, ?_, ?_, ?_, ?_, ?_, ?_, ?_, ?_, ?_, ?_, ?_, ?_, ?_, ?_, ?_, ?_, ?_, ?_⟩ <;> decide +kernel

theorem witness_PlanesDecideRows :
    ([0, 1, 2, 3, 4, 5, 6, 7].all (fun p => [true, false].all (fun b => [(0, 0), (5, 5), (9, 9), (12, 12), (20, 20), (63, 63)].any (fun x => decide (scanDecide { pred := p, consts := [5, 12], nvals := 2 } x.1 x.2 = some b ∧ x.1 ≤ x.1 ∧ x.1 ≤ x.2))))) := by
  decide +kernel

theorem witness_PlaneAndHumpRows :
    (let d := scanDev { arriving := [ring6] }; running d = true ∧ domOn d 5 = true ∧ nextRing (plane d 3).arriving = some ring6 ∧ dropReason d ring6 = 0) ∧
    (let r : Ring := { ring6 with consist := none }; let d := scanDev { arriving := [r] }; running d = true ∧ nextRing (plane d 3).arriving = some r ∧ dropReason d r = 1 ∧ fld d .planeErr 3 39 39 = 0) ∧
    ([(6, 5), (7, 6)].all (fun e => let r : Ring := { ring6 with core := e.1, consist := some e.2 }; let d := setConsist (scanDev { arriving := [r] }) 5 { idleK false with valid := true, event := 3 }; decide (running d = true ∧ domOn d 5 = true ∧ nextRing (plane d 3).arriving = some r ∧ fld d .planeErr 3 39 39 = 0 ∧ ((consist d e.2).valid = false ∨ (consist d e.2).event ≠ 0)))) ∧
    (let d := scanDev { queue := [ring6] }; let a := storeBase 6 + 64 * 4; (plane d 3).queue = [ring6] ∧ (plane d 3).progs = [] ∧ allOn d (needDoms d a) = true ∧ memUp d a = true ∧ d.badUnits = [] ∧ a + 576 ≤ storeBase 6 + 0x40000 ∧ reachOut d { stores := [6] } a 576 = none ∧ firstBadLine d a 576 = none) ∧
    (let g := scanProg; let d := scanDev { progs := [g] }; let x : ScanSeg := { s := 0 }; running d = true ∧ g.next < g.segs ∧ g.opened = [] ∧ wagonStalled d (.scanner 3) = false ∧ scanRun g.rows g.steps 9 { s := g.next } 0 = (x, some .plane, 0) ∧ scanNeeds g.rows { pred := 0, width := 2, planes := 0x40000, consts := [2] } x = some .plane ∧ reachOut d (ringReach g.ring (scanPair 3)) (scanLineAddr { pred := 0, width := 2, planes := 0x40000, consts := [2] } x .plane) 64 = none) ∧
    (let g := flyingProg; let d := flyingDev; running d = true ∧ (plane d 3).progs = [g] ∧ g.opened = [{ s := 0, flight := some .plane }] ∧ allOn d (needDoms d 0x40000) = true ∧ memUp d 0x40000 = true ∧ queuesFreeB d = true ∧ ((g.steps[0]?).map (fun st => scanLineAddr st { s := 0, flight := some .plane } .plane)) = some 0x40000 ∧ g.ring.port = 0 ∧ g.ring.consist = some 5 ∧ (gotBy d (.scan 3 0 0) 35 0x40000 (some 5)).map (fun x => x.2) = some (memRead d 0x40000 64)) ∧
    (let g := { scanProg with next := 1, selected := 7, lines := 2 }; let d := scanDev { progs := [g] }; g.segs ≤ g.next ∧ g.opened = [] ∧ allOn d (needDoms d (storeBase 6 + 64 * 4)) = true ∧ d.badUnits = [] ∧ d.cache.stale = [] ∧ d.cache.sets = []) ∧
    (let d := humpDev { arriving := [ring6], queue := List.replicate 15 (.cmd 3) }; humpUp d = true ∧ nextRing d.hump.arriving = some ring6 ∧ dropReason d ring6 = 0 ∧ d.hump.rings = [] ∧ d.hump.cmds = [] ∧ d.hump.queue.length < 16) ∧
    (let d := humpDev { queue := [.cmd 7] }; humpUp d = true ∧ d.hump.cur = none ∧ wagonStalled d .hump = false ∧ (cmdOf d 7).isSome = true) ∧
    (let d := humpDev { queue := [.ring ring6] }; let a := storeBase 6 + 64 * 4; humpUp d = true ∧ wagonStalled d .hump = false ∧ allOn d (needDoms d a) = true ∧ memUp d a = true ∧ firstBadLine d a 64 = none) ∧
    (let j := humpJob (.cmd 7); let d := humpDev { cur := some j }; humpUp d = true ∧ d.hump.pend = [] ∧ j.passDone = false ∧ (humpNext j).map (fun x => (x.1, x.2.1)) = some (0, 0x40000) ∧ humpOut d j 0x40000 64 = none ∧ allOn d (needDoms d (humpAddr j 0x40000)) = true ∧ memUp d (humpAddr j 0x40000) = true ∧ lineReads d (.hump 0) = []) ∧
    (let j := humpJob (.cmd 7); let d := lineDev1; humpUp d = true ∧ d.hump.cur = some j ∧ d.hump.pend = [] ∧ queuesFreeB d = true ∧ (humpNext j).map (fun x => (x.1, x.2.1)) = some (0, 0x40000) ∧ humpOut d j 0x40000 64 = none ∧ memUp d 0x40000 = true ∧ (gotBy d (.hump 0) 49 0x40000 none).map (fun x => x.2) = some (memRead d 0x40000 64) ∧ min 12 (inElems j - 12 * j.lines) = 12 ∧ j.buf.length + 12 < pairWords j * min 4096 (j.pairs - 4096 * j.part)) ∧
    (let j := { humpJob (.cmd 7) with pairs := 5000, passDone := true }; j.passDone = true ∧ j.pass < mergePasses j ∧ j.pairs ≠ 0) ∧
    (let j := { humpJob (.cmd 7) with passDone := true }; j.passDone = true ∧ j.pass = mergePasses j ∧ j.src = .cmd 7) ∧
    (let j := { humpJob (.ring ring6) with passDone := true }; let d := humpDev { cur := some j }; j.pass = mergePasses j ∧ j.src = .ring ring6 ∧ allOn d (needDoms d (storeBase 6 + 64 * 4)) = true ∧ d.badUnits = [] ∧ d.cache.stale = [] ∧ d.cache.sets = []) := by
  refine ⟨?_, ?_, ?_, ?_, ?_, ?_, ?_, ?_, ?_, ?_, ?_, ?_, ?_, ?_, ?_⟩ <;> decide +kernel

theorem witness_HumpSorts :
    (fourPairs.all (fun p => decide (p.1.length = (humpJob (.cmd 7)).words + 1)) = true ∧ (humpJob (.cmd 7)).fast = false) ∧
    ([false, true].all (fun b => let j := humpJob (.cmd 7); (headRun j (twoRuns b)).isSome && (twoRuns b).runs.all (fun r => decide (r.taken < r.size → pairWords j ≤ r.buf.length)))) := by
  refine ⟨?_, ?_⟩ <;> decide +kernel

theorem witness_JunctionWinner :
    (threeHits.Pairwise (fun a b => a.1 < b.1) ∧ winnerOf threeHits = some (6, { valid := true, prio := 9 })) := by
  decide +kernel

theorem witness_JunctionRows :
    (let d := juncDev { arriving := [ring6] }; juncUp d = true ∧ nextRing d.junc.arriving = some ring6 ∧ dropReason d ring6 = 0) ∧
    (let d := juncDev { cmds := [7] }; d.junc.queue.length < 64 ∧ (cmdOf d 7).isSome = true) ∧
    (let d := juncDev { rings := [ring6] }; let a := storeBase 6 + 64 * 4; d.junc.cmds = [] ∧ allOn d (needDoms d a) = true ∧ memUp d a = true ∧ firstBadLine d a 64 = none) ∧
    (let p := juncProg (.ring ring6); let d := juncDev { queue := [p] }; d.junc.active.length < 8 ∧ wagonStalled d .junction = false ∧ d.junc.queue.find? (freeToStart d) = some p ∧ p.src = .ring ring6) ∧
    ([false, true].all (fun u => let p := { juncProg (.cmd 7) with upd := u }; let d := keyDev u; let a := jLine p p.src_ (jNextLine p); decide (juncUp d = true ∧ d.junc.active[0]? = some p ∧ jReadyForLine d p = true ∧ queuesFreeB d = true ∧ p.srcHost = false ∧ a = 0x40000 ∧ jOut d p false a 64 = none ∧ allOn d (needDoms d a) = true ∧ memUp d a = true ∧ jConsist p = none ∧ (gotBy d (.junc 4) 48 a none).map (fun x => x.2) = some (memRead d a 64)))) ∧
    ([false, true].all (fun u => let p := { juncProg (.cmd 7) with upd := u, srcHost := true }; let d := hostKeyDev u; decide (d.junc.active[0]? = some p ∧ jReadyForLine d p = true ∧ queuesFreeB d = true ∧ (readsOf d (jReads p)).map (fun r => decide (r.st = .done)) = [true]))) ∧
    (let p := { juncProg (.cmd 7) with upd := true, record := some (0, 65535, { valid := true, key := 5, prio := 3 }) }; let d := juncDev { active := [p] }; scrubDue d = false ∧ d.junc.fixes = [] ∧ d.junc.retries = [] ∧ p.keys = [] ∧ p.srcHost = false) ∧
    (let d := hitDev false {} []; juncUp d = true ∧ scrubDue d = false ∧ d.junc.fixes = [] ∧ d.junc.retries = [] ∧ (d.junc.active.map (fun p => (p.keys, p.record, p.counts))) = [([{ idx := 2, key := some 5 }], none, false)]) ∧
    ([0, 3].all (fun n => let d := hitDev true {} [flight none n]; decide (juncUp d = true ∧ d.junc.flights[0]? = some (flight none n) ∧ (d.junc.active.find? (fun p => decide (p.num = 4))).map (fun p => p.counts) = some true))) ∧
    (let c : JEntry := { valid := true, key := 5, mask := 0xFF, prio := 3 }; let d := hitDev false c [flight (some (33, { valid := true, key := 5, mask := 0xFF, prio := 3 })) 0]; let e := hitDev false c [flight none 0]; juncUp d = true ∧ e.junc.flights[0]? = some (flight none 0) ∧ d.junc.flights[0]? = some (flight (some (33, c)) 0) ∧ 33 ∉ d.junc.badCopy ∧ mget {} d.junc.copy 33 = c ∧ entryHit false 0 5 c = true ∧ sameFields c c = true ∧ queuesFreeB d = true ∧ queuesFreeB e = true) ∧
    (let c : JEntry := { valid := true, key := 5, mask := 0xFF, prio := 3 }; let f := { flight (some (33, c)) 0 with copy := { c with prio := 4 } }; let g := { flight (some (33, c)) 0 with copy := { c with key := 4 } }; let d := hitDev false c [f, g]; juncUp d = true ∧ d.junc.flights = [f, g] ∧ 33 ∉ d.junc.badCopy ∧ sameFields f.copy c = false ∧ entryHit false 0 5 f.copy = true ∧ entryHit false 0 5 g.copy = false ∧ f.again = false ∧ g.again = false ∧ queuesFreeB d = true ∧ (d.junc.active.map (fun p => (p.num, p.counts))) = [(4, false)]) ∧
    ([false, true].all (fun u => let p := { juncProg (.cmd 7) with next := 30, upd := u, tally := 8, done := 30 }; let d := juncDev { active := [p] }; decide (d.junc.active[0]? = some p ∧ p.count ≤ p.next ∧ jReadyForLine d { p with count := p.next + 1 } = true))) ∧
    (let p := { juncProg (.ring ring6) with next := 30, tally := 8 }; let d := juncDev { active := [p] }; d.junc.active[0]? = some p ∧ p.count ≤ p.next ∧ jReadyForLine d { p with count := p.next + 1 } = true ∧ allOn d (needDoms d (storeBase 6 + 64 * 4)) = true ∧ d.badUnits = [] ∧ d.cache.stale = [] ∧ d.cache.sets = []) := by
  refine ⟨?_, ?_, ?_, ?_, ?_, ?_, ?_, ?_, ?_, ?_, ?_, ?_, ?_⟩ <;> decide +kernel

theorem witness_ShuntPrograms :
    (let d := shuntDev { arriving := [ring6] }; let a := storeBase 6 + 64 * 4; shuntUp d = true ∧ nextRing d.shunt.arriving = some ring6 ∧ dropReason d ring6 = 0 ∧ allOn d (needDoms d a) = true ∧ memUp d a = true ∧ firstBadLine d a 5 = none) ∧
    (let d := moveDev; shuntUp d = true ∧ arbHeld d = false ∧ d.shunt.cmds = [7] ∧ (cmdOf d 7).isSome = true ∧ bitOf (fld d .shuntCtrl 0 15 0) 1 = 1 ∧ (chan d 1).ph = .idle ∧ (chan d 0).ph ≠ .idle) ∧
    (let d := { chanDev { runChan [] with ph := .turn } with shunt := { (chanDev { runChan [] with ph := .turn }).shunt with turns := [2, 5] } }; shuntUp d = true ∧ (chan d 2).ph = .turn ∧ d.shunt.turns.head? = some 2 ∧ (chan d 2).prog ≠ none) ∧
    (let d := shuntDev { rings := [{ ring := ring6, channel := 11 }] }; let a := storeBase 6 + 64 * 4; arbHeld d = false ∧ (chan d 11).ph = .idle ∧ d.shunt.rings = [{ ring := ring6, channel := 11 }] ∧ allOn d (needDoms d a) = true ∧ memUp d a = true ∧ firstBadLine d a 40 = none) ∧
    (let d := servedChan; let c := chan d 2; shuntUp d = true ∧ c.ph = .run ∧ chanFailing d c = false ∧ c.prog = some 0x40000 ∧ c.pc < 64 ∧ hasLine c = false ∧ c.skip = none ∧ chanOut d c false 0x40000 64 = none ∧ allOn d (needDoms d 0x40000) = true ∧ memUp d 0x40000 = true ∧ c.port = 0 ∧ chanConsist c = none ∧ (gotBy d (.prog 2) 50 0x40000 none).map (fun x => x.2) = some ([1, 2, 3] ++ zeros 61)) ∧
    ([{ runChan [] with pc := 64 }, runChan [0], runChan [6], runChan [0xFF]].all (fun c => let d := chanDev c; decide (shuntUp d = true ∧ (chan d 2).ph = .run ∧ (chan d 2).skip = none ∧ (64 ≤ c.pc ∨ (hasLine c = true ∧ (iw c 0 % 256 = 0 ∨ 5 < iw c 0 % 256)))))) ∧
    (let c := { runChan [] with ph := .ended, bytes := 99 }; let d := chanDev c; chan d 2 = c ∧ writesDone d 2 = true ∧ c.src = .dma 7 ∧ c.failed = none) ∧
    (let c := { runChan [] with ph := .ended, bytes := 99, src := .kernel ring6 true {} }; let d := chanDev c; chan d 2 = c ∧ writesDone d 2 = true ∧ c.failed = none ∧ allOn d (needDoms d (storeBase 6 + 64 * 4)) = true ∧ d.badUnits = [] ∧ d.cache.stale = [] ∧ d.cache.sets = []) ∧
    (shuntUp (shuntDev {}) = true ∧ allIdle (shuntDev {}) = true) := by
  refine ⟨?_, ?_, ?_, ?_, ?_, ?_, ?_, ?_, ?_⟩ <;> decide +kernel

theorem witness_ShuntInstructions :
    (let d := atChan [2, 3] [(1, 0), (1, 0), (1, 0)]; let e := atChan [2, 0] []; atOp d 2 2 = true ∧ (chan d 2).loops.length < 4 ∧ iw (chan d 2) 1 % 2 ^ 40 ≠ 0 ∧ atOp e 2 2 = true ∧ iw (chan e 2) 1 % 2 ^ 40 = 0) ∧
    (let d := atChan [3] [(2, 0)]; let e := atChan [3] [(1, 0), (5, 5)]; atOp d 2 3 = true ∧ (chan d 2).loops = (2, 0) :: [] ∧ 1 < 2 ∧ atOp e 2 3 = true ∧ (chan e 2).loops = (1, 0) :: [(5, 5)]) ∧
    ([(4, 0), (4, 9), (0x3104, 0)].all (fun e => let d := atChan [e.1, e.2] []; decide (atOp d 2 4 = true ∧ writesDone d 2 = true ∧ (bitOf (iw (chan d 2) 0) 8 = 0 ∨ gateSet d (bitsOf (iw (chan d 2) 0) 15 12) = false)))) ∧
    (let d := heldChan [4, 0] .run; let e := heldChan [4, 0] (.wait 1 0); let g := chanDev { runChan [4, 0] with ph := .wait 1 0 }; atOp d 2 4 = true ∧ writesDone d 2 = false ∧ shuntUp e = true ∧ chanFailing e (chan e 2) = false ∧ (chan e 2).ph = .wait 1 0 ∧ writesDone e 2 = false ∧ writesDone g 2 = true ∧ chanFailing g (chan g 2) = false ∧ bitOf (iw (chan g 2) 0) 8 = 0 ∧ iw (chan g 2) 1 % 2 ^ 40 = 0) ∧
    ([.run, .signal false].all (fun ph => let d := heldChan [0x3105, 0] ph; decide ((atOp d 2 5 = true ∨ (shuntUp d = true ∧ (chan d 2).ph = .signal false ∧ chanFailing d (chan d 2) = false)) ∧ writesDone d 2 = false))) ∧
    (let d := chanDev { runChan [0x3105, 0] with ph := .signal false, consist := some 5 }; shuntUp d = true ∧ (chan d 2).ph = .signal false ∧ chanFailing d (chan d 2) = false ∧ writesDone d 2 = true ∧ (chan d 2).consist = some 5) ∧
    (let d := gateDev (.wait 2 0); let c := chan d 2; shuntUp d = true ∧ c.ph = .wait 2 0 ∧ bitOf (iw c 0) 8 = 1 ∧ gateSet d (bitsOf (iw c 0) 15 12) = true ∧ gateTaken d 2 3 = false ∧ iw c 1 % 2 ^ 40 = 0) ∧
    (let d := { gateDev (.wait 3 9) with cc := 9 }; shuntUp d = true ∧ (chan d 2).ph = .wait 3 9 ∧ 9 ≤ d.cc) ∧
    (let d := chanDev { runChan [0x3105, 0] with consist := some 5 }; let e := atChan [0x3105, 0] []; atOp d 2 5 = true ∧ writesDone d 2 = true ∧ (chan d 2).consist = some 5 ∧ atOp e 2 5 = true ∧ writesDone e 2 = true ∧ (chan e 2).consist = none ∧ bitOf (iw (chan e 2) 0) 8 = 1) ∧
    (let d := atChan [1, 0x60000, 0x70000, 640] []; let e := atChan [1, 0, 0, 0] []; atOp d 2 1 = true ∧ iw (chan d 2) 3 % 2 ^ 40 ≠ 0 ∧ atOp e 2 1 = true ∧ iw (chan e 2) 3 % 2 ^ 40 = 0 ∧ bitOf (iw (chan e 2) 0) 18 = 0) ∧
    (let d := movingDev (moveOf false); let m := moveOf false; shuntUp d = true ∧ nextReader d = some 2 ∧ readingMove (chan d 2) = some m ∧ m.srcHost = false ∧ pieceRanges m m.next = [(0x60000, 640)] ∧ rangesOut d (chan d 2) false (pieceRanges m m.next) = none ∧ allOn d (needDoms d 0x60000) = true ∧ memUp d 0x60000 = true ∧ lineReads d (.piece 2 (pieceId m.num m.next)) = []) ∧
    (let d := pieceDev; let m := { moveOf false with count := 64 }; shuntUp d = true ∧ nextReader d = some 2 ∧ readingMove (chan d 2) = some m ∧ rangesOut d (chan d 2) false (pieceRanges m m.next) = none ∧ pieceRanges m m.next = [(0x60000, 64)] ∧ allOn d (needDoms d 0x60000) = true ∧ memUp d 0x60000 = true ∧ d.badUnits = [] ∧ (chan d 2).port = 0 ∧ chanConsist (chan d 2) = none ∧ (gotBy (setChan { d with shunt := { d.shunt with last := 2 } } 2 (pieceTaken (chan d 2) m)) (.piece 2 (pieceId m.num m.next)) 50 0x60000 none).map (fun x => x.2) = some ([1, 2, 3] ++ zeros 61)) ∧
    (let d := movingDev (moveOf true); let m := moveOf true; nextReader d = some 2 ∧ readingMove (chan d 2) = some m ∧ m.srcHost = true ∧ pieceRanges m m.next ≠ [] ∧ rangesOut d (chan d 2) true (pieceRanges m m.next) = none) ∧
    (let d := stagedDev; let c := chan d 2; let m : ShMove := { moveOf false with count := 8, next := 1 }; shuntUp d = true ∧ queuesFreeB d = true ∧ cacheSoundB d = true ∧ stagedPiece.out = none ∧ d.shunt.reading = [] ∧ nextWrite d = some stagedPiece ∧ c.moves = [m] ∧ m.num = stagedPiece.mv ∧ m.dstHost = false ∧ pieceWrites m (freeVal d) 0 (stagedBytes d stagedPiece) = ([(0x70000, [1, 2, 3, 4, 5, 6, 7, 8])], m) ∧ (cutWrites [(0x70000, [1, 2, 3, 4, 5, 6, 7, 8])]).map (fun w => (w.1, w.2.length)) = [(0x70000, 8)] ∧ allOn d (needDoms d 0x70000) = true ∧ memUp d 0x70000 = true ∧ chanOut d c false 0x70000 8 = none ∧ d.badUnits = []) ∧
    (let d := waitingPiece; shuntUp d = true ∧ d.shunt.reading = [] ∧ (nextWrite d).map (fun p => p.out) = some (some [(0x70000, [1, 2, 3, 4, 5, 6, 7, 8])]) ∧ (chan d 2).moves.length = 1 ∧ allOn d (needDoms d 0x70000) = true ∧ memUp d 0x70000 = true ∧ roomFor d 0x70000 8 = false) ∧
    ([false, true].all (fun q => let m : ShMove := { moveOf false with count := 8, next := 1, written := 1, irq := q }; let d := movingDev m; decide (shuntUp d = true ∧ (chan d 2).moves = [m] ∧ moveDone d 2 m = true ∧ (chan d 2).prog ≠ none))) := by
  refine ⟨?_, ?_, ?_, ?_, ?_, ?_, ?_, ?_, ?_, ?_, ?_, ?_, ?_, ?_, ?_, ?_⟩ <;> decide +kernel

theorem witness_CacheRows :
    (let d := cacheDev 1 (setWith 0x40000); running d = true ∧ domOn d 3 = true ∧ regionOf d cacheReq.addr.toNat = .gddr ∧ cacheEn d = true ∧ cacheReq.arrayError = none ∧ cacheReq.corrected = false ∧ SetSound d 0x40000 ∧ lineUp d cacheReq.addr.toNat = true ∧ cacheReq.req.val ≤ 55 ∧ wayOf d 0x40000 = some { way := 5, line := 0x40000 } ∧ waitingReq d 3 0x40000 = none) ∧
    (let d := cacheWait; SetSound d 0x40000 ∧ lineUp d cacheReq.addr.toNat = true ∧ cacheEn d = true ∧ wayOf d 0x40000 = some { way := 5, line := 0x40000 } ∧ waitingReq d 3 0x40000 = some 0 ∧ d.cache.reqs[0]? = some { own := .load 3 0, req := 3, addr := 0x40020, len := 8 }) ∧
    (let d := setFld (cacheDev 1 (setWith 0x1040000)) .cacheCtrl 0 1 1 0; lineUp d cacheReq.addr.toNat = true ∧ waitingReq d 3 0x40000 = none ∧ cacheEn d = true ∧ wayOf d 0x40000 = none ∧ fillOf d 0x40000 = none ∧ fillsIn d (sliceOf 0x40000) < 32 ∧ readRoom d 0x40000 = true ∧ fld d .cacheCtrl 0 1 1 = 0) ∧
    ([.bad, .tag].all (fun x => let d := flawed x; decide (lineUp d cacheReq.addr.toNat = true ∧ waitingReq d 3 0x40000 = none ∧ cacheEn d = true ∧ fillOf d 0x40000 = none ∧ fillsIn d (sliceOf 0x40000) < 32 ∧ readRoom d 0x40000 = true ∧ fld d .cacheCtrl 0 1 1 = 0) && (setOf d 0x40000).all (fun w => decide (w.line = 0x40000 → w.flaw = .tag ∨ w.flaw = .bad)))) ∧
    ([.bad, .tag].all (fun x => let d := flawed x; decide (running d = true ∧ domOn d 3 = true ∧ lineUp d 0x40038 = true ∧ writeRoom d 0x40000 = true ∧ cacheEn d = true))) ∧
    (let d := cacheDev 0 {}; lineUp d cacheReq.addr.toNat = true ∧ waitingReq d 3 0x40000 = none ∧ cacheEn d = false ∧ readRoom d 0x40000 = true ∧ regionOf d cacheReq.addr.toNat = .gddr) ∧
    ((fillOf (fillDev {}) 0x40000).map (fun f => (f.back, f.half)) = some (true, false)) ∧
    (let d := fillReqs (fillDev {}); (d.cache.reqs.map (fun g => (g.lo, g.hi))) = [(0, 0), (0, 1)] ∧ (fillOf d 0x40000).map (fun f => (f.back, f.half, f.bad, f.crit)) = some (true, false, false, 0)) ∧
    ([({ half := true, bad := true } : CFill), { half := true, discard := true }].all (fun f => decide ((fillOf (fillDev f) 0x40000).map (fun x => (x.back, x.half, x.bad || x.discard)) = some (true, true, true)))) ∧
    (let d := fillDev { half := true }; (fillOf d 0x40000).map (fun f => (f.back, f.half, f.bad, f.discard, f.opener)) = some (true, true, false, false, 3) ∧ cacheEn d = true ∧ (victim (setOf d 0x40000) (wayMask d 3)).isSome = true) ∧
    (let d := cacheDev 1 {}; SetSound d 0x40000 ∧ running d = true ∧ domOn d 3 = true ∧ regionOf d 0x40038 = .gddr ∧ 0x40038 % 64 + (List.replicate 8 (7 : Byte)).length ≤ 64 ∧ lineUp d 0x40038 = true ∧ writeRoom d 0x40000 = true) ∧
    (let d := cacheDev 1 (setWith 0x40000); lineUp d 0x40038 = true ∧ cacheEn d = true ∧ SetSound d 0x40000 ∧ writeRoom d 0x40000 = true ∧ (setOf d 0x40000).find? (fun y => decide (y.way = (5 : Fin 16).val)) = some { way := 5, line := 0x40000 }) ∧
    ([1, 2, 3].all (fun op => decide (bitsOf (BitVec.ofNat 40 op : Word).toNat 1 0 = op ∧ WriteOpen maintDev .port0 0x900010 ∧ maintDev.cache.maint = none ∧ (maintScope maintDev op).1 < (maintScope maintDev op).2))) ∧
    (bitsOf (3 : Word).toNat 1 0 = 3 ∧ WriteOpen { maintDev with cache := { maintDev.cache with maint := some { op := 1, lo := 0, hi := 64 } } } .port0 0x900010) ∧
    (let d := cacheDev 1 { setWith 0x40000 with maint := some { op := 1, lo := 0x40000, hi := 0x40040 } }; d.cache.maint = some { op := 1, lo := 0x40000, hi := 0x40040 } ∧ d.cache.fills = [] ∧ (0x40040 - 0x40000) % 64 = 0) ∧
    (WriteOpen (fillDev {}) .port0 0x900000 ∧ bitOf (0 : Word).toNat 0 = 0) ∧
    (let a := yardBase + 4096; regionOf upDev a = .yard ∧ a / 16 ∉ upDev.badUnits ∧ a / 16 ∈ ({ upDev with softUnits := [a / 16] } : Dev).softUnits ∧ (BitVec.ofNat 40 a : Word).toNat = a) ∧
    (let a := yardBase + 4096; regionOf { upDev with badUnits := [a / 16] } a = .yard ∧ a / 16 ∈ ({ upDev with badUnits := [a / 16] } : Dev).badUnits) ∧
    ([(4095, 5, 1), (7, 2, 2)].all (fun e => let v : Word := BitVec.ofNat 40 (e.2.1 * 4096 + e.1); decide (WriteOpen upDev .port0 0xA00000 ∧ upDev.cache.clear = none ∧ e.2.2 = min (sat4096 (bitsOf v.toNat 24 12)) (4096 - bitsOf v.toNat 11 0) ∧ e.2.2 ≠ 0))) ∧
    (let d := { upDev with cache := { upDev.cache with clear := some (1, 1) } }; d.cache.clear = some (1, 1) ∧ running d = true ∧ domOn d 3 = true ∧ d.cache.cleared = 0 ∧ MemoryCanonical { dev := d }) := by
  refine ⟨?_, ?_, ?_, ?_, ?_, ?_, ?_, ?_, ?_, ?_, ?_, ?_, ?_, ?_, ?_, ?_, ?_, ?_, ?_, ?_⟩ <;> decide +kernel

theorem witness_ChannelRows :
    (let v : McChan := { q := [{ line := lineOf3 }], slot := 255 }; let d := setFld (chDev v) .pwrStatus 0 39 38 0; mcServes d 3 = true ∧ v.slot < 256 ∧ slotOpen d v.slot = true ∧ v.turn = 0 ∧ v.sched = false ∧ v.out = [] ∧ v.drain = false ∧ v.srWait = false) ∧
    (let v : McChan := { q := [{ line := lineOf3, consist := some 6 }], slot := 8, sched := true, frames := [(5, zeros 1 ++ (1 :: zeros 30))] }; let d := chDev v; mcServes d 3 = true ∧ slotOpen d v.slot = true ∧ slotHolder v v.slot = some 5 ∧ v.q.all (fun r => decide (r.consist ≠ some 5)) = true) ∧
    (let v : McChan := { q := [{ line := lineOf3, consist := some 5 }], slot := 8, sched := true, refSlot := true, frames := [(5, zeros 1 ++ (1 :: zeros 30))] }; let d := chDev v; mcServes d 3 = true ∧ slotOpen d v.slot = true ∧ slotHolder v v.slot = some 5) ∧
    (mcServes (chDev { slot := 256 }) 3 = true) ∧
    (mcServes edcFillDev 3 = true ∧ (mcChan edcFillDev 3).srWait = false ∧ (mcChan edcFillDev 3).out = [{ line := lineOf3, tries := 1, fill := true }] ∧ (fld edcFillDev .mcGlobal 0 22 22 = 0 ∨ (mcChan edcFillDev 3).halves = [])) ∧
    (let d := edcCheckDev; mcServes d 3 = true ∧ (mcChan d 3).srWait = false ∧ fld d .mcGlobal 0 22 22 = 1 ∧ heldLine d (mcChan d 3) lineOf3 = none ∧ (((mcChan d 3).halves.find? (fun x => decide (x.num = halfOf d lineOf3))).map (fun h => (h.words[mcCol d lineOf3 % 8]?).map (fun w => bitsOf w.toNat 31 20))) = some (some (achk lineOf3))) ∧
    (mcServes edcDev 3 = true ∧ fld edcDev .mcCtrl (3 / 2) 7 7 = 1 ∧ 1 < fld edcDev .mcCtrl (3 / 2) 11 8) ∧
    (let v : McChan := { rows := [(0, some 7)], refBank := 15, q := [{ line := lineOf3 }] }; let d := chDev v; mcAwake d 3 = true ∧ fld d .mcCtrl (3 / 2) 3 3 = 0 ∧ v.q.all (fun r => decide (mcBank d r.line ≠ v.refBank)) = true) ∧
    (let d := setFld (chDev { rows := [(0, some 7)] }) .mcCtrl 1 3 3 1; mcAwake d 3 = true ∧ fld d .mcCtrl (3 / 2) 3 3 = 1 ∧ (mcChan d 3).q = []) ∧
    (let d := chDev { counts := [(2, [(77, 4096)])], rows := [(2, some 77)] }; mcAwake d 3 = true ∧ (mget [] (mcChan d 3).counts 2).find? (fun e => decide (rdThresh d ≤ e.2)) = some (77, 4096)) ∧
    (running (chDev { counts := [(2, [(77, 4096)])], acts := [(2, 5)] }) = true) ∧
    (mcAwake (chDev {}) 3 = true ∧ 135 < (136 : Byte).toNat) := by
  refine ⟨?_, ?_, ?_, ?_, ?_, ?_, ?_, ?_, ?_, ?_, ?_, ?_⟩ <;> decide +kernel

theorem witness_ChannelConfiguration :
    ([1, 2, 3, 4, 5, 6, 7].all (fun op => let v : Word := BitVec.ofNat 40 (op + 5 * 256); decide (WriteOpen (stateDev 1) .sbox (mcChOff 3 0x1008) ∧ bitsOf v.toNat 3 0 = op ∧ mcState (stateDev 1) 3 = 1 ∧ (mcChan (stateDev 1) 3).train = none))) ∧
    ([4, 5].all (fun op => let d := setMc (stateDev 1) 3 { train := some { op := op } }; decide ((mcChan d 3).train = some { op := op } ∧ d.pwr.rateStep = 0 ∧ d.pwr.rateNow = mcRate d))) ∧
    (let d := stateDev 0; WriteOpen d .sbox (mcOff 7 0x10) ∧ bitsOf (3 : Word).toNat 1 0 = 3 ∧ [14, 15].all (fun ch => decide (mcState d ch = 0 ∧ excluded d ch = false)) = true) ∧
    (let d := stateDev 2; WriteOpen d .sbox (mcOff 7 0x10) ∧ bitsOf (7 : Word).toNat 2 0 = 7 ∧ fld d .mcCtrl 7 2 2 = 0 ∧ d.pwr.rateStep = 0 ∧ d.pwr.rateNow = mcRate d ∧ [14, 15].all (fun ch => decide (mcState d ch = 2 ∧ (mcChan d ch).q = [] ∧ (mcChan d ch).out = [] ∧ (mcChan d ch).wout = [])) = true) ∧
    (let d := stateDev 4; WriteOpen d .sbox (mcOff 7 0x10) ∧ bitsOf (0x13 : Word).toNat 4 0 = 0x13 ∧ [14, 15].all (fun ch => decide (mcState d ch = 4 ∧ ch ∈ channels d)) = true) ∧
    (let d := setFld (stateDev 1) .mcGlobal 0 24 24 0; WriteOpen d .sbox (mcOff 0 0) ∧ bitOf (0x1000000 : Word).toNat 24 = 1 ∧ fld d .mcGlobal 0 24 24 = 0 ∧ (channels d).all (fun ch => decide (mcState d ch = 1)) = true) ∧
    (let d := stateDev 0; WriteOpen d .sbox (mcOff 0 0) ∧ bitOf (0x20340 : Word).toNat 24 = 0 ∧ (List.range 16).all (fun ch => decide (mcState d ch = 0)) = true) ∧
    (WriteOpen (stateDev 2) .sbox (mcOff 0 0) ∧ 15 < 16 ∧ mcState (stateDev 2) 15 ≠ 0) := by
  refine ⟨?_, ?_, ?_, ?_, ?_, ?_, ?_, ?_⟩ <;> decide +kernel

theorem witness_DomainsAndProfiles :
    ([4, 14].all (fun k => [DomState.on, .gated].all (fun st => let d := domDev k { st := st }; decide (running d = true ∧ idles k = true ∧ (dom d k).falling = false ∧ domBusy d k = false ∧ (dom d k).st = st ∧ fld d .pwrDomain k 15 4 ≠ 0 ∧ fld d .pwrDomain k 31 16 ≠ 0)))) ∧
    ([4, 11, 12, 13].all (fun k => let d := domDev k { falling := true }; decide (running d = true ∧ (dom d k).falling = true ∧ (dom d k).wanted = false ∧ d.pwr.rakeWait = []))) ∧
    ([1, 14, 23].all (fun k => let d := setFld (domDev k { st := .gated }) .pwrDomain k 36 36 1; decide (running d = true ∧ k ≠ 0 ∧ (dom d k).st = .gated ∧ (dom d k).falling = false ∧ autowake d k = true))) ∧
    ([1, 4, 23].all (fun k => decide (running (domDev k { st := .waking, prev := .offRetain }) = true ∧ (dom (domDev k { st := .waking }) k).st = .waking))) ∧
    ([1, 14, 23].all (fun k => let d := domDev k { st := .gated }; decide (bitOf (0x800000000 : Word).toNat 35 = 1 ∧ WriteOpen d .port0 (0xF00100 + 8 * k) ∧ (dom d k).st = .gated ∧ (dom d k).falling = false))) ∧
    ([1, 2].all (fun p => let v : Word := BitVec.ofNat 40 p; decide (isSbox .sbox = true ∧ WriteOpen upDev .sbox 0xF00000 ∧ bitsOf v.toNat 5 4 = 0 ∧ bitsOf v.toNat 1 0 ≠ min 2 (fld upDev .pwrCtrl 0 1 0) ∧ bitsOf v.toNat 1 0 ≠ fld upDev .pwrStatus 0 39 38))) ∧
    (let q : ProfileReq := { want := 1, lower := true }; let d := profDev 0 1200 q; running d = true ∧ d.pwr.profile = some q ∧ heldFit d q.want = true ∧ fld d .pwrStatus 0 34 24 ≤ (profileCeil d q.want).1 ∧ rakesToShed d (profileCeil d q.want).2.1 = [] ∧ d.pwr.rateNow = mcRate d ∧ d.pwr.rateStep = 0 ∧ q.cmd = none ∧ q.sleep = 0) ∧
    (let d := lowerDev true; let e := lowerDev false; running d = true ∧ d.pwr.profile = some { want := 2, lower := true } ∧ heldFit d 2 = false ∧ heldFit e 2 = true ∧ (rakesToShed e (profileCeil e 2).2.1).all (fun r => rakeDrained e r && decide ((dom e (4 + r)).falling = false ∧ (dom e (4 + r)).st ≠ .waking)) = true ∧ rakesToShed e (profileCeil e 2).2.1 ≠ []) ∧
    (let q : ProfileReq := { want := 0, lower := false }; let d := profDev 2 1000 q; running d = true ∧ d.pwr.profile = some q ∧ d.pwr.rakeWait = []) ∧
    ([600, 1500, 1800].all (fun m => let d := setFld upDev .pwrStatus 0 34 24 m; decide (running d = true ∧ fld d .pwrStatus 0 34 24 = m ∧ m ≠ 0))) ∧
    (23 < 24 ∧ fwUp hotDev = true ∧ ((throttleC hotDev * 16 : Nat) : Int) < thermal hotDev 23) ∧
    (fwUp upDev = true ∧ 40 < 41 ∧ ((List.replicate 41 { value := 0x8001, failed := true : SensorIn })[40]?).map (fun v => (v.value, v.failed)) = some (0x8001, true)) := by
  refine ⟨?_, ?_, ?_, ?_, ?_, ?_, ?_, ?_, ?_, ?_, ?_, ?_⟩ <;> decide +kernel

theorem witness_TimeRailsAndResets :
    (fld (setFld upDev .pwrStatus 0 36 36 1) .pwrStatus 0 36 36 = 1 ∧ fwUp (setFld upDev .pwrStatus 0 36 36 1) = true) ∧
    (let d := setFld (setFld upDev .gpioOe 0 7 0 0xA5) .gpioOut 0 7 0 0x3C; d.tap.ir ≠ .highz ∧ scanDrives d = false ∧ fld d .padHold 0 8 8 = 0 ∧ fld d .gpioOe 0 7 7 = 1) ∧
    (let d := setFld { upDev with pwr := { upDev.pwr with ppsMs := 3000 } } .pwrStatus 0 36 36 1; fld d .pwrStatus 0 36 36 = 1 ∧ 3000 ≤ d.pwr.ppsMs ∧ fwUp d = true) ∧
    (isSbox .sbox = true ∧ WriteOpen upDev .sbox 0xF00050) ∧
    ([0, 1, 3, 7].all (fun en => decide ((modeDev .raising en).pwr.mode = .raising ∧ (firstIdx 4 (fun k => decide (bitOf (modeDev .raising en).pwr.pwrEn k = 0))).isSome = true))) ∧
    ((modeDev .raising 15).pwr.mode = .raising ∧ (modeDev .raising 15).pwr.pwrEn = 15) ∧
    (let d := setFld (modeDev .raising 7) .wakeCtrl 0 4 4 0; d.pwr.mode = .raising ∧ fld d .wakeCtrl 0 4 4 = 0 ∧ d.pwr.pwrStep < 4) ∧
    ([PowerMode.running, .standing].all (fun m => let d := setFld (modeDev m 15) .wakeCtrl 0 4 4 0; decide (d.pwr.pwrEn = 15 ∧ fld d .wakeCtrl 0 4 4 = 0))) ∧
    ([PowerMode.running, .standing, .stabled, .laidUp, .raising].all (fun m => decide ((modeDev m 15).pwr.mode ≠ .pinReset))) ∧
    ((modeDev .pinReset 0).pwr.mode = .pinReset) ∧
    (MemoryCanonical { dev := memWrite upDev 0xBFFFFFFFFF [1, 2, 3] } ∧ WriteOpen upDev .port0 0xF00038 ∧ bitOf (0x5A00000001 : Word).toNat 0 = 1 ∧ bitsOf (0x5A00000001 : Word).toNat 39 32 = 0x5A ∧ mwf (0 : Word) upDev.regs = true) ∧
    (MemoryCanonical { dev := mramDev } ∧ mramDev.nv.writing = some (0xC000000040, List.replicate 64 3) ∧ (List.replicate 64 (3 : Byte)).length = 64 ∧ upDev.nv.writing = none) ∧
    (¬(bitOf (0x5B00000001 : Word).toNat 0 = 1 ∧ bitsOf (0x5B00000001 : Word).toNat 39 32 = 0x5A)) ∧
    (isSbox .sbox = true ∧ WriteOpen upDev .sbox 0xF00030) := by
  refine ⟨?_, ?_, ?_, ?_, ?_, ?_, ?_, ?_, ?_, ?_, ?_, ?_, ?_, ?_⟩ <;> decide +kernel

theorem witness_SleepAndWake :
    ([1, 2, 3].all (fun k => let v : Word := BitVec.ofNat 40 (16 * k + fld upDev .pwrCtrl 0 1 0); decide (isSbox .sbox = true ∧ WriteOpen upDev .sbox 0xF00000 ∧ running upDev = true ∧ upDev.pwr.sleep.active = false ∧ bitsOf v.toNat 5 4 ≠ 0 ∧ bitsOf v.toNat 1 0 = fld upDev .pwrCtrl 0 1 0))) ∧
    ([13, 11].all (fun k => decide (running (sleepDev [k, 14] .on) = true ∧ (dom (sleepDev [k, 14] .on) k).falling = false ∧ domDrained (sleepDev [k, 14] .on) k = true ∧ (dom (sleepDev [k, 14] .offRetain) k).st = .offRetain))) ∧
    (running busyDev = true ∧ busyDev.pwr.sleep.active = true ∧ busyDev.pwr.sleep.toAsk = 13 :: [14] ∧ (dom busyDev 13).st = .on ∧ domDrained busyDev 13 = false ∧ busyDev.pwr.sleep.cmd = none) ∧
    ([1, 2, 3].all (fun g => let d0 := sleepDev [13] .on; let d := { d0 with pwr := { d0.pwr with sleep := { d0.pwr.sleep with target := g } } }; decide (running d = true ∧ d.pwr.sleep.active = true ∧ d.pwr.sleep.toAsk = [13] ∧ (dom d 13).falling = false ∧ (dom d 13).st = .on ∧ domDrained d 13 = true))) ∧
    ([2, 3].all (fun k => let d := agreedDev k; decide (running d = true ∧ d.pwr.sleep.active = true ∧ d.pwr.sleep.agreed = true ∧ d.pwr.window = false ∧ MemoryCanonical { dev := d } ∧ regionOf d 0x4001 = .gddr))) ∧
    ([([] : List Nat), [3]].all (fun due => let d := windowDev due; decide (d.pwr.window = true ∧ fld d .wakeCtrl 0 4 4 = 0 ∧ d.pwr.mode = .stabled ∧ d.pwr.wakeDue = due))) ∧
    ([(0, 0), (1, 1), (6, 4)].all (fun e => [PowerMode.standing, .laidUp].all (fun m => let d := wakeDev m e.1; decide (fld d .wakeCtrl 0 e.1 e.1 = 1 ∧ d.pwr.mode = m ∧ d.pwr.railFault = false ∧ d.pwr.window = false)))) ∧
    (fld (wakeDev .stabled 5) .wakeCtrl 0 5 5 = 1 ∧ (wakeDev .stabled 5).pwr.mode = .stabled ∧ (wakeDev .stabled 5).pwr.window = false) ∧
    (accessDev.link.rxReg = [{ ty := 0x10, addr := 0xF000200000 }] ∧ accessDev.pwr.mode = .standing ∧ pathUp accessDev 0x200000 = false) ∧
    ([PowerMode.standing, .stabled].all (fun m => decide ((dom (dueDev m) 4).st = .gated ∧ (dom (dueDev m) 13).st = .gated ∧ (dueDev m).pwr.mode = m ∧ (dueDev m).pwr.wakeDue ≠ [] ∧ (dueDev m).pwr.window = false))) := by
  refine ⟨?_, ?_, ?_, ?_, ?_, ?_, ?_, ?_, ?_, ?_⟩ <;> decide +kernel

theorem witness_CellRowsFrame :
    (∃ t, exec (.vadd 3 0xC0108300) (code 3 0xC0108300 {}) = .next t) := by
  exact ⟨_, rfl⟩

end Sys2Proof.Machine.Tests

end SmallProofs
end

section
namespace Sys2Proof.Machine

/-! ## Folds over devices -/

/-- A projection that every step of a fold keeps is kept by the fold. -/
theorem foldl_proj {α β γ : Type} (g : β → γ) {f : β → α → β} (l : List α) (h : ∀ b, ∀ a ∈ l, g (f b a) = g b) (b : β) :
    g (l.foldl f b) = g b := by
  induction l generalizing b with
  | nil => rfl
  | cons x l ih => rw [List.foldl_cons, ih (fun b a ha => h b a (List.mem_cons_of_mem _ ha)), h _ _ List.mem_cons_self]

theorem mem_idxWhere {n i : Nat} {p : Nat → Bool} : i ∈ idxWhere n p ↔ i < n ∧ p i = true := by
  simp [idxWhere]

theorem idxWhere_nodup (n : Nat) (p : Nat → Bool) : (idxWhere n p).Nodup := List.nodup_range.filter _

/-- Two registers of different names have no key in common. -/
theorem key_ne {r r' : Reg} {i i' : Nat} (h : r.ctorIdx ≠ r'.ctorIdx) (hi : i < 4096) (hi' : i' < 4096) : r.key i ≠ r'.key i' := by
  unfold Reg.key; omega

/-- A fold that changes cores by number changes each core once for each time that the list holds its number, here at most once. -/
theorem core_foldl_modCore (f : Nat → Core → Core) (l : List Nat) (hl : l.Nodup) (d : Dev) (m : Nat) :
    core (l.foldl (fun e n => modCore e n (f n)) d) m = if m ∈ l then f m (core d m) else core d m := by
  induction l generalizing d with
  | nil => simp
  | cons n l ih =>
    obtain ⟨hn, hl⟩ := List.nodup_cons.mp hl
    rw [List.foldl_cons, ih hl]
    by_cases hm : m = n
    · subst hm; simp [hn]
    · simp [hm, core_modCore_ne]

/-- What a byte reads as depends on memory, on the lines that differ from it, and on CACHE_CTRL.EN. -/
theorem memByte_congr {d e : Dev} (hm : e.mem = d.mem) (hs : e.cache.stale = d.cache.stale) (hc : rd e .cacheCtrl 0 = rd d .cacheCtrl 0) (a : Nat) :
    memByte e a = memByte d a := by
  have h : cacheEn e = cacheEn d := by rw [cacheEn, cacheEn, fld, fld, hc]
  rw [memByte, memByte, rawByte, rawByte, hm, hs, h]

/-! ## Time that passes -/

/-- What goes on in FABRIC by itself touches the cache, memory with its error marks, and one counter of the Yard. -/
theorem fabricTime_frame (k : Nat) (d : Dev) : fabricTime k d = { d with
    cache := (fabricTime k d).cache, mem := (fabricTime k d).mem, badUnits := (fabricTime k d).badUnits
    softUnits := (fabricTime k d).softUnits, regs := (fabricTime k d).regs } := by
  have hm (e : Dev) : maintSteps e k = { e with cache := (maintSteps e k).cache } := by unfold maintSteps; split <;> rfl
  have hc (e : Dev) (n : Nat) : clearSteps e n = { e with
      cache := (clearSteps e n).cache, mem := (clearSteps e n).mem, badUnits := (clearSteps e n).badUnits
      softUnits := (clearSteps e n).softUnits, regs := (clearSteps e n).regs } := by unfold clearSteps; split <;> rfl
  unfold fabricTime
  dsimp only
  split
  · rw [hc, hm]
  · rfl

/-- With no clear and no maintenance, the slices and the Yard only free their banks. -/
theorem fabricTime_idle (k : Nat) {d : Dev} (hc : d.cache.clear = none) (hm : d.cache.maint = none) :
    fabricTime k d = { d with cache := { d.cache with banks := [] } } := by
  simp [fabricTime, maintSteps, clearSteps, hc, hm]

/-- The counters of the cores' waits and stalls, and of a producer that stalls, alone count in a cycle. -/
def countTime (k : Nat) (d e : Dev) : Dev :=
  let d2 := (idxWhere 32 (fun n => decide ((core d n).st = .waitw))).foldl (fun d n => bumpN d .coreCnt (n * 4 + 1) k) e
  let d3 := (idxWhere 32 (fun n => (core d n).stalled)).foldl (fun d n => bumpN d .coreCnt (n * 4 + 2) k) d2
  if d.disp.offers.any (fun o => o.stalled) then bumpN d3 .dispCnt 7 k else d3

/-- The device with its clocks k cc further. -/
def clockOn (k : Nat) (d : Dev) : Dev :=
  { d with cc := d.cc + k, pwr := { d.pwr with scPart := (d.pwr.scPart + 600 * k) % coreMhz d }, nv := { d.nv with writing := none } }

/-- The device as a step of time leaves its clocks and its cores, before any counter counts. -/
def clockTime (k : Nat) (d : Dev) : Dev :=
  (idxWhere 33 (fun n => decide ((core d n).st ≠ .held))).foldl (fun e n => modCore e n (coreTime (if n = 32 then sboxCycles d k else k)))
    (clockOn k d)

theorem advance_eq (k : Nat) (d : Dev) : advance k d = fabricTime k (countTime k d (clockTime k d)) := rfl

/-- The counters keep every projection that a write of a counter keeps. -/
theorem countTime_proj {γ : Type} (g : Dev → γ) (hg : ∀ d i n, i < 128 → g (bumpN d .coreCnt i n) = g d) (hg' : ∀ d n, g (bumpN d .dispCnt 7 n) = g d)
    (k : Nat) (d e : Dev) : g (countTime k d e) = g e := by
  have h : g ((idxWhere 32 (fun n => (core d n).stalled)).foldl (fun d n => bumpN d .coreCnt (n * 4 + 2) k)
      ((idxWhere 32 (fun n => decide ((core d n).st = .waitw))).foldl (fun d n => bumpN d .coreCnt (n * 4 + 1) k) e)) = g e := by
    rw [foldl_proj g _ (fun _ n hn => hg _ _ _ (by have := (mem_idxWhere.mp hn).1; omega)),
      foldl_proj g _ (fun _ n hn => hg _ _ _ (by have := (mem_idxWhere.mp hn).1; omega))]
  unfold countTime
  dsimp only
  split
  · rw [hg', h]
  · exact h

/-- The clocks keep every projection that neither the cores nor the clock fields touch. -/
theorem clockTime_proj {γ : Type} (g : Dev → γ) (hg : ∀ d n c, g (setCore d n c) = g d) (k : Nat) (d : Dev) :
    g (clockTime k d) = g (clockOn k d) :=
  foldl_proj g _ (fun _ _ _ => hg _ _ _) _

@[simp] theorem advance_cc (k : Nat) (d : Dev) : (advance k d).cc = d.cc + k := by
  rw [advance_eq, fabricTime_frame, countTime_proj (·.cc) (fun _ _ _ _ => rfl) (fun _ _ => rfl), clockTime_proj (·.cc) (fun _ _ _ => rfl)]
  rfl

/-- CYCLE of every core counts the cycles of the core's own clock (R3, R226). -/
theorem core_advance (k : Nat) (d : Dev) (n : CoreIx) :
    core (advance k d) n.val = coreTime (if n.val = 32 then sboxCycles d k else k) (core d n.val) := by
  have h : core (advance k d) n.val = core (clockTime k d) n.val := by
    refine core_congr ?_ _
    rw [advance_eq, fabricTime_frame, countTime_proj (·.cores) (fun _ _ _ _ => rfl) (fun _ _ => rfl)]
  rw [h]
  have hc : core (clockOn k d) n.val = core d n.val := rfl
  rw [clockTime, core_foldl_modCore (fun n => coreTime (if n = 32 then sboxCycles d k else k)) _ (idxWhere_nodup _ _), hc]
  by_cases hs : (core d n.val).st = .held
  · rw [if_neg (by simp [mem_idxWhere, hs]), coreTime, if_pos hs]
  · rw [if_pos (by simp [mem_idxWhere, hs])]

/-- With no clear and no maintenance under way, memory reads the same after any time. -/
theorem memByte_advance (k : Nat) {d : Dev} (hc : d.cache.clear = none) (hm : d.cache.maint = none) (a : Nat) :
    memByte (advance k d) a = memByte d a := by
  have h1 : (countTime k d (clockTime k d)).cache = d.cache := by
    rw [countTime_proj (·.cache) (fun _ _ _ _ => rfl) (fun _ _ => rfl), clockTime_proj (·.cache) (fun _ _ _ => rfl)]
    rfl
  have h2 : (countTime k d (clockTime k d)).mem = d.mem := by
    rw [countTime_proj (·.mem) (fun _ _ _ _ => rfl) (fun _ _ => rfl), clockTime_proj (·.mem) (fun _ _ _ => rfl)]
    rfl
  have h3 : rd (countTime k d (clockTime k d)) .cacheCtrl 0 = rd d .cacheCtrl 0 := by
    rw [countTime_proj (fun d => rd d .cacheCtrl 0) (fun _ i _ hi => rd_bumpN_ne _ _ (key_ne (by decide) (by omega) (by omega)))
      (fun _ _ => rd_bumpN_ne _ _ (by decide)), clockTime_proj (fun d => rd d .cacheCtrl 0) (fun _ _ _ => rfl)]
    rfl
  rw [advance_eq, fabricTime_idle k (by rw [h1, hc]) (by rw [h1, hm])]
  exact memByte_congr h2 (by simp only [h1]) h3 a

/-- Settles O2: `advance` frees the banks of the Yard and lets the clocks and the cores' counters count. -/
theorem emptyQueueIsOneCycle : Obligations.EmptyQueueIsOneCycle := by
  intro s hp
  refine ⟨{ s with dev := advance 1 s.dev }, by simp [step, hp], hp, rfl, advance_cc 1 s.dev,
    fun hc hm => memByte_advance 1 hc hm, fun n => ?_⟩
  have h : (if n.val < 32 then 1 else BitVec.ofNat 40 ((s.dev.pwr.scPart + 600) / coreMhz s.dev)) =
      BitVec.ofNat 40 (if n.val = 32 then sboxCycles s.dev 1 else 1) := by
    by_cases h32 : n.val = 32
    · simp [h32, sboxCycles]
    · simp [h32, show n.val < 32 by omega]
  rw [h]
  exact core_advance 1 s.dev n

/-! ## Reset -/

/-- An operator core at reset is the default one. -/
theorem core_reset (n : Fin 32) : core State.reset.dev n.val = {} := by
  rw [core, coreDefault, if_neg (by omega)]
  rfl

theorem xget_reset (i : Nat) : xget ({} : Core) i = 0 := by
  rw [xget]; split <;> rfl

/-- Settles O5: every array of the reset state is empty, so that what it holds is its default. -/
theorem resetLeaves : Obligations.ResetLeaves := by
  refine ⟨by decide, fun r i => rfl, reset_memory_wf, fun a => rfl, rfl, fun n => ?_, rfl, rfl, by decide⟩
  rw [core_reset]
  exact ⟨rfl, xget_reset⟩

/-! ## WAITI and the timer -/

/-- A row that acts, with no interrupt due, has its body's effect. -/
theorem instr_of_acts {s : State} {n : CoreIx} {w : BitVec 32} {mine : Nat → Bool} {uses : Nat → Uses} {body : Nat → Nat → Dev → Dev}
    (h : Acts s n w (uses w.toNat)) (hm : mine w.toNat = true) : instr n w mine uses body s.dev = body n.val w.toNat s.dev := by
  obtain ⟨hi, hu, hd⟩ := h
  rw [instr_acts s.dev n w mine uses body hm hi hu, afterInterrupt_none _ (by simp [hd])]

/-- A core that issues runs. -/
theorem issues_running {d : Dev} {n w : Nat} (h : issues d n w = true) : (core d n).st = .running := by
  simp only [issues, Bool.and_eq_true, decide_eq_true_eq] at h
  obtain ⟨⟨⟨⟨-, hs⟩, -⟩, -⟩, -⟩ := h
  exact hs

theorem exec_waiti (n : CoreIx) (w : BitVec 32) (s : State) : exec (.waiti n w) s = execWaiti n w s := rfl

/-- WAITI where it issues (R225). -/
theorem execWaiti_acts {n : CoreIx} {w : BitVec 32} {s : State} (hw : isSys 6 w.toNat = true) (h : Acts s n w {}) :
    exec (.waiti n w) s = .next { s with dev := waitiRow n.val w.toNat s.dev } := by
  have hr : (core s.dev n.val).st ≠ .waiti := by rw [issues_running h.1]; decide
  rw [exec_waiti, execWaiti, onDev_next, if_neg hr, instr_of_acts h hw]

/-- WAITI on a core that it has stopped (R225). -/
theorem execWaiti_stopped {n : CoreIx} {w : BitVec 32} {s : State} (h : (core s.dev n.val).st = .waiti) :
    exec (.waiti n w) s = .next { s with dev := waitiResume n.val w.toNat s.dev } := by
  rw [exec_waiti, execWaiti, onDev_next, if_pos h]

/-- The cc that `ccFor` counts are those in which the core's own clock counts n: the Signal Box's 600 MHz beside a clock no slower (R3). -/
theorem coreCycles_ccFor {d : Dev} {n : CoreIx} {k : Nat} (hk : 0 < k) (h : n.val < 32 ∨ (600 ≤ coreMhz d ∧ d.pwr.scPart < coreMhz d)) :
    (if n.val = 32 then sboxCycles d (ccFor d n.val k) else ccFor d n.val k) = k := by
  by_cases hn : n.val = 32
  · obtain ⟨h1, h2⟩ := h.resolve_left (by omega)
    have h3 : coreMhz d ≤ k * coreMhz d := Nat.le_mul_of_pos_left _ hk
    rw [if_pos hn, sboxCycles, ccFor, if_pos hn, ceilDiv]
    refine Nat.div_eq_of_lt_le (by omega) ?_
    rw [Nat.add_mul]; omega
  · rw [if_neg hn, ccFor, if_neg hn]

/-- Time until CYCLE reaches TCMP makes CYCLE equal to TCMP (R226). -/
theorem core_timerCompare {d : Dev} {n : CoreIx} (hs : (core d n.val).st ≠ .held)
    (hlt : (csrGet (core d n.val) 0x028).toNat < (csrGet (core d n.val) 0x02A).toNat)
    (hc : n.val < 32 ∨ (600 ≤ coreMhz d ∧ d.pwr.scPart < coreMhz d)) :
    core (timerCompare n.val d) n.val = csrSet (core d n.val) 0x028 (csrGet (core d n.val) 0x02A) := by
  have ht : timerPending (core d n.val) = false := by simp [timerPending, hlt]
  have hsum : csrGet (core d n.val) 0x028 +
      BitVec.ofNat 40 ((csrGet (core d n.val) 0x02A).toNat - (csrGet (core d n.val) 0x028).toNat) = csrGet (core d n.val) 0x02A := by
    apply BitVec.eq_of_toNat_eq
    rw [BitVec.toNat_add, BitVec.toNat_ofNat]
    omega
  rw [timerCompare, if_neg (by simp [hs, ht]), core_advance, coreCycles_ccFor (by omega) hc, coreTime, if_neg hs, hsum]

theorem csrGet_csrSet_ne (c : Core) {k j : Nat} (v : Word) (h : j ≠ k) : csrGet (csrSet c k v) j = csrGet c j := mget_mset_ne _ _ _ _ h

/-- Settles O30. -/
theorem waitiAndTimer : Obligations.WaitiAndTimer := by
  refine ⟨fun n w s ho hf ha => ?_, fun n w s ho hf hrun hst hend hdue => ?_, fun n s hst hlt hcl => ?_⟩
  · rw [execWaiti_acts (by simp [isSys, ho, hf]) ha]
    refine ⟨fun hp => ?_, fun hp he => ?_, fun hp he hl => ?_⟩
    · simp [waitiRow, hp, Excepted]
    · simp [waitiRow, hp, he, Retired]
    · simp [waitiRow, hp, he, hl]
  · have hw : isSys 6 w.toNat = true := by simp [isSys, ho, hf]
    rw [execWaiti_stopped hst, waitiResume, if_pos ⟨hrun, hst, hw, hend, by simp [hdue]⟩, Retired]
  · have hcore := core_timerCompare hst hlt hcl
    refine ⟨_, rfl, ?_, ?_, fun hn => ?_⟩
    · rw [hcore, csrGet_csrSet_self]
    · simp only [causePending]
      rw [hcore, timerPending, csrGet_csrSet_self, csrGet_csrSet_ne _ _ (by decide)]
      simp
    · have ht : timerPending (core s.dev n.val) = false := by simp [timerPending, hlt]
      simp only [timerCompare]
      rw [if_neg (by simp [hst, ht]), advance_cc, ccFor, if_neg (by omega)]

end Sys2Proof.Machine
end

section
namespace Sys2Proof.Machine

/-! ## The register path -/

theorem port0First_empty {s : State} (h : s.dev.link.rxReg = []) : port0First s = s := by simp [port0First, h]

theorem coreFirst_idle {s : State} {n : Nat} (hl : regLoadDue s.dev n = false) (hs : regStoreDue s.dev n = false) : coreFirst s n = s := by
  simp [coreFirst, hl, hs]

/-- Cores none of which waits leave the state as it is. -/
theorem coresFirst_idle {s : State} (l : List Nat) (h : ∀ m ∈ l, regLoadDue s.dev m = false) :
    l.foldl (fun s m => if regLoadDue s.dev m then coreFirst s m else s) s = s := by
  induction l with
  | nil => rfl
  | cons m l ih =>
    rw [List.foldl_cons, if_neg (by simp [h m List.mem_cons_self])]
    exact ih (fun m hm => h m (List.mem_cons_of_mem _ hm))

/-- A requester before which nothing waits is served at once (R485). -/
theorem pathFirst_first {s : State} {who : Requester} (h : FirstOnPath s.dev who) : pathFirst s who = s := by
  cases who with
  | port0 => rfl
  | sbox => exact port0First_empty (List.isEmpty_iff.mp h)
  | dbg =>
    simp only [FirstOnPath, firstOnPath, Bool.and_eq_true, Bool.not_eq_true'] at h
    obtain ⟨⟨h0, hl⟩, hs⟩ := h
    rw [pathFirst, port0First_empty (List.isEmpty_iff.mp h0), coreFirst_idle hl hs]
  | core n =>
    simp only [FirstOnPath, firstOnPath, Bool.and_eq_true, Bool.not_eq_true', List.all_eq_true] at h
    obtain ⟨⟨⟨h0, hl⟩, hs⟩, hm⟩ := h
    rw [pathFirst, port0First_empty (List.isEmpty_iff.mp h0), coreFirst_idle hl hs, coresFirst_idle _ hm]

/-- An open write has its effect (R425, R483, R486). -/
theorem viaPath_open {d : Dev} {who : Requester} {off : Nat} (h : WriteOpen d who off) (f : Dev → Dev) : viaPath d who off f = f d := by
  obtain ⟨hw, hp, ho, -⟩ := h
  simp [viaPath, hw, hp, ho]

theorem viaPathS_open {s : State} {who : Requester} {off : Nat} (h : WriteOpen s.dev who off) (f : State → State) : viaPathS s who off f = f s := by
  obtain ⟨hw, hp, ho, -⟩ := h
  simp [viaPathS, hw, hp, ho]

theorem pathFirst_open {s : State} {who : Requester} {off : Nat} (h : WriteOpen s.dev who off) : pathFirst s who = s :=
  pathFirst_first h.2.2.2

/-- An operator core writes no register (R483). -/
theorem viaPathS_core (s : State) (n : Fin 32) (off : Nat) (f : State → State) : viaPathS s (.core n) off f = s := rfl

/-- A requester that may write is no operator core, so that its reads clear RC fields (R483, R484). -/
theorem mayWrite_not_core {d : Dev} {who : Requester} (h : mayWrite d who = true) (n : Fin 32) : who ≠ .core n := by
  rintro rfl; exact Bool.noConfusion h

/-! ## What a register write and a register read do -/

/-- A register whose write does not act stores by its access codes (R12). -/
theorem regEffect_stores {r : Reg} (h : r ∉ writesAct) (s : State) (who : Requester) (i : Nat) (v : Word) :
    regEffect s who r i v = { s with dev := regStore s.dev r i v } := by
  unfold regEffect
  dsimp only
  split
  rotate_right
  · rfl
  all_goals exact absurd (by decide) h

theorem regWrite_stores {r : Reg} {i off : Nat} (hr : regAt (off / 8 * 8) = some (r, i)) (h : r ∉ writesAct) (s : State) (who : Requester) (v : Word) :
    regWrite s who off v = { s with dev := regStore s.dev r i v } := by
  rw [regWrite, hr]; exact regEffect_stores h s who i v

/-- An operator core's read clears nothing (R13). -/
theorem regRead_core {r : Reg} {i off : Nat} (hr : regAt (off / 8 * 8) = some (r, i)) (hf : readsFree r = false) (d : Dev) (n : Fin 32) :
    regRead d (.core n) off = (regLive d r i, d) := by
  simp [regRead, hr, hf]

/-- Another requester's read clears the register's RC field (R13). -/
theorem regRead_clears {r : Reg} {i off : Nat} (hr : regAt (off / 8 * 8) = some (r, i)) (hf : readsFree r = false) (d : Dev) {who : Requester}
    (hw : ∀ n, who ≠ .core n) : regRead d who off = (regLive d r i, if r.rcMask = 0 then d else regClear d r i) := by
  cases who with
  | core n => exact absurd rfl (hw n)
  | port0 | sbox | dbg => simp [regRead, hr, hf]

/-- A bit of a word written by the access codes (R12). -/
theorem getLsbD_accessWrite (r : Reg) (old v : Word) {i : Nat} (hi : i < 40) : (accessWrite r old v).getLsbD i =
    (if v.getLsbD i && r.w1sMask.getLsbD i then true else if v.getLsbD i && r.w1cMask.getLsbD i then false
      else if r.rwMask.getLsbD i then v.getLsbD i else old.getLsbD i) := by
  simp only [accessWrite, BitVec.getLsbD_or, BitVec.getLsbD_and, BitVec.getLsbD_not, hi, decide_true, Bool.true_and]
  cases v.getLsbD i <;> cases r.w1sMask.getLsbD i <;> cases r.w1cMask.getLsbD i <;> cases r.rwMask.getLsbD i <;> cases old.getLsbD i <;> rfl

theorem exec_registerWrite (who : Requester) (a v : Word) (s : State) : exec (.registerWrite who a v) s = execRegisterWrite who a v s := rfl
theorem exec_rcFieldRead (who : Requester) (a : Word) (s : State) : exec (.rcFieldRead who a) s = execRcFieldRead who a s := rfl

/-- A register write whose way is open, up to its effect. -/
theorem registerWrite_open {s : State} {who : Requester} {a : Word} {off : Nat} (ha : regOff a.toNat = some off) (h : WriteOpen s.dev who off)
    (v : Word) : exec (.registerWrite who a v) s =
      .next { regWrite s who off v with dev := pump (regWrite s who off v).dev } := by
  rw [exec_registerWrite, execRegisterWrite, pathFirst_open h]
  simp only [ha, regAccess, viaPathS_open h]

/-- A read whose way is open, up to its effect: of a requester that may write, and of an operator core at its privilege. -/
theorem rcFieldRead_open {s : State} {who : Requester} {a : Word} {off : Nat} (ha : regOff a.toNat = some off) (h : WriteOpen s.dev who off) :
    exec (.rcFieldRead who a) s = .next { s with dev := (regRead s.dev who off).2 } := by
  obtain ⟨hw, hp, ho, hf⟩ := h
  rw [exec_rcFieldRead, execRcFieldRead, pathFirst_first hf, onDev_next]
  cases who with
  | core n => exact absurd rfl (mayWrite_not_core hw n)
  | port0 | sbox => simp only [ha, hp, ho, Bool.and_true]
  | dbg =>
    have hd : dbgOpen s.dev = true := hw
    simp only [ha, hp, ho, hd, Bool.and_true]

theorem rcFieldRead_core {s : State} {n : Fin 32} {a : Word} {off : Nat} (ha : regOff a.toNat = some off) (hl : lnGrant s.dev n.val off = true)
    (hp : pathUp s.dev off = true) (ho : regWay s.dev off = .open_) (hf : FirstOnPath s.dev (.core n)) :
    exec (.rcFieldRead (.core n) a) s = .next { s with dev := (regRead s.dev (.core n) off).2 } := by
  rw [exec_rcFieldRead, execRcFieldRead, pathFirst_first hf, onDev_next]
  simp only [ha, hp, ho, hl, Bool.and_true]

/-! ## Transactions of port 0 -/

theorem exec_regRd (s : State) : exec .regRd s = execRegRd s := rfl
theorem exec_regWr (s : State) : exec .regWr s = execRegWr s := rfl

/-- A REG_RD whose way is open reads and answers (R50). -/
theorem regRd_open {d : Dev} {q : Packet} {qs : List Packet} (hq : d.link.rxReg = q :: qs) (hty : q.ty = 0x10)
    (hp : pathUp d (q.addr - 0xF000000000) = true) (ho : regWayOf d q.woke (q.addr - 0xF000000000) = .open_) :
    regRd d = regReply (regRead d .port0 (q.addr - 0xF000000000)).2 q (regRead d .port0 (q.addr - 0xF000000000)).1
      (rcBack (q.addr - 0xF000000000) (regRead d .port0 (q.addr - 0xF000000000)).1) := by
  simp only [regRd, hq, hty, hp, ho, and_self, if_true]

/-- A REG_WR whose way is open leaves the queue and writes (R50). -/
theorem regWr_open {s : State} {q : Packet} {qs : List Packet} (hq : s.dev.link.rxReg = q :: qs) (hty : q.ty = 0x11)
    (hp : pathUp s.dev (q.addr - 0xF000000000) = true) (ho : regWayOf s.dev q.woke (q.addr - 0xF000000000) = .open_) :
    regWr s = regWrite { s with dev := regTaken s.dev q } .port0 (q.addr - 0xF000000000) (BitVec.ofNat 40 (leAt q.data 0 5)) := by
  simp only [regWr, hq, hty, hp, ho, and_self, if_true]

/-- A register transaction that is taken owes its credits by its class (R43, R44). -/
theorem regTaken_read {d : Dev} {q : Packet} {qs : List Packet} (hq : d.link.rxReg = q :: qs) (hty : q.ty = 0x10) :
    regTaken d q = { d with link := { d.link with rxReg := qs, oweNP := d.link.oweNP + pktCost q.data.length } } := by
  simp [regTaken, modLink, owe, pktClass, hq, hty]

theorem regTaken_write {d : Dev} {q : Packet} {qs : List Packet} (hq : d.link.rxReg = q :: qs) (hty : q.ty = 0x11) :
    regTaken d q = { d with link := { d.link with rxReg := qs, oweP := d.link.oweP + pktCost q.data.length } } := by
  simp [regTaken, modLink, owe, pktClass, hq, hty]

/-! ## Fields of a written register -/

/-- A one-bit field is the bit. -/
theorem bitsOf_self (n k : Nat) : bitsOf n k k = bitOf n k := by simp [bitsOf, bitOf]

theorem bitOf_eq_getLsbD (w : Word) (k : Nat) : bitOf w.toNat k = (w.getLsbD k).toNat := by
  rw [bitOf, BitVec.getLsbD, Nat.toNat_testBit, Nat.shiftRight_eq_div_pow]

/-- A plain RW bit takes the bit that is written. -/
theorem bitOf_accessWrite_rw {r : Reg} {k : Nat} (hk : k < 40) (hrw : r.rwMask.getLsbD k = true) (h1 : r.w1sMask.getLsbD k = false)
    (h0 : r.w1cMask.getLsbD k = false) (old v : Word) : bitOf (accessWrite r old v).toNat k = bitOf v.toNat k := by
  rw [bitOf_eq_getLsbD, bitOf_eq_getLsbD, getLsbD_accessWrite r old v hk]
  simp [hrw, h1, h0]

/-- A field of a register that was written by its access codes. -/
theorem fld_regStore_self (d : Dev) (r : Reg) (i hi lo : Nat) (v : Word) :
    fld (regStore d r i v) r i hi lo = bitsOf (accessWrite r (rd d r i) v).toNat hi lo := by
  rw [fld, regStore, rd_wr_self]

theorem rd_regStore_ne (d : Dev) {r r' : Reg} {i i' : Nat} (v : Word) (h : r.key i ≠ r'.key i') : rd (regStore d r' i' v) r i = rd d r i :=
  rd_wr_ne d _ h

/-! ## RING_CTRL (R101, R103) -/

/-- A write that takes EN from 0 to 1 samples the summary line and the roster of port 0. -/
theorem ringCtrlWrite_enables {d : Dev} {v : Word} (h0 : fld d .ringCtrl 0 16 16 = 0) (h1 : bitOf v.toNat 16 = 1) :
    ringCtrlWrite d v = setPort (regStore d .ringCtrl 0 v) 0 { port d 0 with
      summary := ((rd d .port0SummaryLo 0).toNat + fld d .port0SummaryHi 0 23 0 * 2 ^ 40) / 64 * 64
      roster := ((rd d .port0RosterLo 0).toNat + fld d .port0RosterHi 0 23 0 * 2 ^ 40) / 64 * 64 } := by
  have he : fld (regStore d .ringCtrl 0 v) .ringCtrl 0 16 16 = 1 := by
    rw [fld_regStore_self, bitsOf_self, bitOf_accessWrite_rw (by decide) (by decide) (by decide) (by decide), h1]
  have hr : ∀ r ∈ [Reg.port0SummaryLo, .port0SummaryHi, .port0RosterLo, .port0RosterHi], rd (regStore d .ringCtrl 0 v) r 0 = rd d r 0 := by
    intro r hr
    refine rd_regStore_ne d v (key_ne ?_ (by omega) (by omega))
    revert r; decide
  have hp : port (regStore d .ringCtrl 0 v) 0 = port d 0 := rfl
  unfold ringCtrlWrite
  dsimp only
  rw [if_pos ⟨h0, he⟩, hp, fld, fld, hr _ (by decide), hr _ (by decide), hr _ (by decide), hr _ (by decide)]
  rfl

/-! ## CORE_CTRL and CORE_MSG (R231, R234, R490) -/

@[simp] theorem abortInterrupts_regs (d : Dev) (c : Nat) : (abortInterrupts d c).regs = d.regs := by
  unfold abortInterrupts
  refine foldl_proj (fun d : Dev => d.regs) _ (fun _ _ _ => ?_) d
  exact modCore_regs _ _ _

@[simp] theorem recordEvent_regs (d : Dev) (c st r : Nat) : (recordEvent d c st r).regs = d.regs := by
  unfold recordEvent
  dsimp only
  split
  · rw [abortInterrupts_regs]; rfl
  · split <;> rfl

/-- A core reset leaves the default core, with its cells, at CORE_RESET_PC and privilege CEILING, running where RUN is 1 (R490). -/
theorem core_coreReset (d : Dev) {n : Nat} (hn : n < 32) : core (coreReset d n) n =
    { ({} : Core) with
      st := if fld d .coreCtrl n 2 2 = 1 then .running else .held, pc := (rd d .coreResetPc n).toNat
      status := mkStatus (ceilingOf d n) 0 false false, cells := (core d n).cells } := by
  have h32 : n ≠ 32 := by omega
  unfold coreReset
  dsimp only
  rw [core_setCore_self]
  simp only [h32, if_false, false_or, coreDefault]
  rfl

/-- The device as a write of CORE_CTRL that ends the core's service leaves it, before the core's reset. -/
theorem coreCtrlWrite_resets {d : Dev} {n : Nat} {v : Word} (h : bitOf v.toNat 3 = 1 ∨ (bitOf v.toNat 2 = 0 ∧ (core d n).st ≠ .held)) :
    ∃ e, e.regs = (regStore d .coreCtrl n v).regs ∧ coreCtrlWrite d n v = coreReset e n := by
  unfold coreCtrlWrite
  dsimp only
  rw [if_pos (by simpa using h)]
  refine ⟨_, ?_, rfl⟩
  split
  · exact recordEvent_regs _ _ _ _
  · rfl

theorem coreCtrlWrite_starts {d : Dev} {n : Nat} {v : Word} (h3 : bitOf v.toNat 3 = 0) (h2 : bitOf v.toNat 2 = 1) (hh : (core d n).st = .held) :
    coreCtrlWrite d n v = coreReset (regStore d .coreCtrl n v) n := by
  simp [coreCtrlWrite, h3, h2, hh]

/-- RUN as a write of CORE_CTRL leaves it. -/
theorem fld_run_regStore (d : Dev) (n : Nat) (v : Word) : fld (regStore d .coreCtrl n v) .coreCtrl n 2 2 = bitOf v.toNat 2 := by
  rw [fld_regStore_self, bitsOf_self, bitOf_accessWrite_rw (by decide) (by decide) (by decide) (by decide)]

/-- A core after a reset by a write of CORE_CTRL. -/
theorem core_coreReset_of_regs {d e : Dev} {n : Nat} {v : Word} (hn : n < 32) (he : e.regs = (regStore d .coreCtrl n v).regs) :
    core (coreReset e n) n =
      { ({} : Core) with
        st := if bitOf v.toNat 2 = 1 then .running else .held, pc := (rd d .coreResetPc n).toNat
        status := mkStatus (ceilingOf e n) 0 false false, cells := (core e n).cells } := by
  rw [core_coreReset e hn, fld_congr he, fld_run_regStore, rd_congr he, rd_regStore_ne d v (key_ne (by decide) (by omega) (by omega))]

theorem levelOf_mkStatus_zero {c : Core} {p : Nat} (h : c.status = mkStatus p 0 false false) : levelOf c = 0 := by
  have hp : p % 4 < 4 := Nat.mod_lt _ (by decide)
  rw [levelOf, h, mkStatus]
  generalize p % 4 = q at hp
  interval_cases q <;> decide

/-- A number joins a set that it is put in. -/
theorem mem_sins (l : List Nat) (k : Nat) : k ∈ sins l k := by
  induction l with
  | nil => simp [sins]
  | cons x l ih =>
    unfold sins
    split
    · simp
    · split
      · next h => simp [h]
      · exact List.mem_cons_of_mem _ ih

theorem exec_ringEnableWrite (who : Requester) (v : Word) (s : State) : exec (.ringEnableWrite who v) s = execRingEnableWrite who v s := rfl
theorem exec_shuntArbWrite (who : Requester) (v : Word) (s : State) : exec (.shuntArbWrite who v) s = execShuntArbWrite who v s := rfl
theorem exec_coreResetWrite (who : Requester) (n : Fin 32) (v : Word) (s : State) :
    exec (.coreResetWrite who n v) s = execCoreResetWrite who n v s := rfl
theorem exec_coreRunWrite (who : Requester) (n : Fin 32) (v : Word) (s : State) : exec (.coreRunWrite who n v) s = execCoreRunWrite who n v s := rfl
theorem exec_coreMsgWrite (who : Requester) (n : Fin 32) (v : Word) (s : State) : exec (.coreMsgWrite who n v) s = execCoreMsgWrite who n v s := rfl

/-- A read of a register without an RC field clears nothing (R13). -/
theorem rcBack_plain {off i : Nat} {r : Reg} (hr : regAt (off / 8 * 8) = some (r, i)) (hc : r.rcMask = 0) (v : Word) : rcBack off v = none := by
  simp only [rcBack, hr, hc, if_true]

/-- REG_RD of a register without an RC field answers with what it shows (R50). -/
theorem regRd_answers {s : State} {q : Packet} {qs : List Packet} {r : Reg} {i : Nat} (hq : s.dev.link.rxReg = q :: qs) (hty : q.ty = 0x10)
    (hp : pathUp s.dev (q.addr - 0xF000000000) = true) (ho : regWayOf s.dev q.woke (q.addr - 0xF000000000) = .open_)
    (hr : regAt ((q.addr - 0xF000000000) / 8 * 8) = some (r, i)) (hc : r.rcMask = 0) (hf : readsFree r = false) :
    MakesTx .regRd s { s.dev with link := { s.dev.link with
      rxReg := qs, oweNP := s.dev.link.oweNP + pktCost q.data.length
      txq := s.dev.link.txq ++ [{ ty := 4, len := 8, tag := q.tag, addr := 8, data := toLE 8 (regLive s.dev r i).toNat }] } } := by
  have hx : regRead s.dev .port0 (q.addr - 0xF000000000) = (regLive s.dev r i, s.dev) := by
    rw [regRead_clears hr hf _ (fun n => Requester.noConfusion), if_pos hc]
  rw [MakesTx, exec_regRd, execRegRd, onDevTx_next, regRd_open hq hty hp ho, hx]
  dsimp only
  rw [rcBack_plain hr hc, regReply, regTaken_read hq hty, queuePkt]

/-- REG_WR of a register whose write does not act stores by its access codes (R50). -/
theorem regWr_stores {s : State} {q : Packet} {qs : List Packet} {i : Nat} {r : Reg} (hq : s.dev.link.rxReg = q :: qs) (hty : q.ty = 0x11)
    (hp : pathUp s.dev (q.addr - 0xF000000000) = true) (ho : regWayOf s.dev q.woke (q.addr - 0xF000000000) = .open_)
    (hr : regAt ((q.addr - 0xF000000000) / 8 * 8) = some (r, i)) (hw : r ∉ writesAct) :
    MakesTx .regWr s (wr { s.dev with link := { s.dev.link with rxReg := qs, oweP := s.dev.link.oweP + pktCost q.data.length } } r i
      (accessWrite r (rd s.dev r i) (BitVec.ofNat 40 (leAt q.data 0 5)))) := by
  rw [MakesTx, exec_regWr, execRegWr, regWr_open hq hty hp ho, regWrite_stores hr hw, regTaken_write hq hty]
  rfl

/-- Settles O45. -/
theorem registerAccesses : Obligations.RegisterAccesses := by
  refine ⟨⟨fun r old v i hi => getLsbD_accessWrite r old v hi, ?_, ?_, ?_, ?_, ?_, ?_, ?_⟩, fun s who v => ⟨?_, ?_, ?_, ?_, ?_, ?_⟩⟩
  · intro s who a v off r i ha hr h hw
    rw [MakesTx, registerWrite_open ha h, regWrite_stores hr hw, regStore]
  · intro s n a v off ha hf
    rw [MakesTx, exec_registerWrite, execRegisterWrite, pathFirst_first hf]
    simp only [ha, regAccess, viaPathS_core]
  · intro s who a v off ha hr h
    rw [MakesTx, registerWrite_open ha h, regWrite, hr]
  · intro s who a off r i ha hr h hc hf
    rw [Makes, rcFieldRead_open ha h, regRead_clears hr hf _ (mayWrite_not_core h.1), if_neg hc, regClear]
  · intro s n a off r i ha hr hl hp ho hf hrf
    rw [Makes, rcFieldRead_core ha hl hp ho hf, regRead_core hr hrf]
  · exact fun s q qs r i hq hty hp ho hr hc hf => regRd_answers hq hty hp ho hr hc hf
  · exact fun s q qs i r hq hty hp ho hr hw => regWr_stores hq hty hp ho hr hw
  · intro h h0 h1
    refine ⟨{ s with dev := ringCtrlWrite s.dev v }, ?_, ?_⟩
    · rw [exec_ringEnableWrite, execRingEnableWrite, pathFirst_open h, onDev_next, viaPath_open h]
    dsimp only
    rw [ringCtrlWrite_enables h0 h1]
    refine ⟨?_, ?_, ?_⟩
    · rw [fld_congr (setPort_regs _ _ _), fld_regStore_self, bitsOf_self, bitOf_accessWrite_rw (by decide) (by decide) (by decide) (by decide), h1]
    · rw [port_setPort_self]
    · rw [port_setPort_self]
  · intro h
    rw [Makes, exec_shuntArbWrite, execShuntArbWrite, pathFirst_open h, onDev_next, viaPath_open h, regStore]
  · intro n h h3
    obtain ⟨e, he, hc⟩ := coreCtrlWrite_resets (d := s.dev) (n := n.val) (v := v) (.inl h3)
    have hk := core_coreReset_of_regs n.isLt he
    refine ⟨{ s with dev := coreReset e n.val }, ?_, ?_⟩
    · rw [exec_coreResetWrite, execCoreResetWrite, pathFirst_open h, onDev_next, if_pos h3, viaPath_open h, hc]
    · dsimp only
      rw [hk]
      exact ⟨rfl, rfl, levelOf_mkStatus_zero rfl, xget_reset, rfl, rfl, rfl⟩
  · intro n h h3 h2 hh
    have hk := core_coreReset_of_regs (d := s.dev) (v := v) n.isLt rfl
    refine ⟨{ s with dev := coreReset (regStore s.dev .coreCtrl n.val v) n.val }, ?_, ?_⟩
    · rw [exec_coreRunWrite, execCoreRunWrite, pathFirst_open h, onDev_next, if_pos h3, viaPath_open h, coreCtrlWrite_starts h3 h2 hh]
    · dsimp only
      rw [hk]
      exact ⟨if_pos h2, rfl⟩
  · intro n h h3 h2 hh
    obtain ⟨e, he, hc⟩ := coreCtrlWrite_resets (d := s.dev) (n := n.val) (v := v) (.inr ⟨h2, hh⟩)
    have hk := core_coreReset_of_regs n.isLt he
    refine ⟨{ s with dev := coreReset e n.val }, ?_, ?_⟩
    · rw [exec_coreRunWrite, execCoreRunWrite, pathFirst_open h, onDev_next, if_pos h3, viaPath_open h, hc]
    · dsimp only
      rw [hk]
      exact ⟨if_neg (by omega), xget_reset⟩
  · intro n h
    refine ⟨{ s with dev := coreMsgWrite s.dev n.val v }, ?_, ?_, ?_⟩
    · rw [exec_coreMsgWrite, execCoreMsgWrite, pathFirst_open h, onDev_next, viaPath_open h]
    · dsimp only [coreMsgWrite]
      rw [core_modCore_self]; exact mem_sins _ _
    · exact (rd_congr (modCore_regs _ _ _) _ _).trans (rd_wr_self _ _ _ _)

end Sys2Proof.Machine
end

section
namespace Sys2Proof.Machine

/-! ## Bit fields (R8) -/

theorem testBit_bitsOf (n hi lo k : Nat) : (bitsOf n hi lo).testBit k = (decide (k < hi + 1 - lo) && n.testBit (lo + k)) := by
  rw [bitsOf, Nat.testBit_mod_two_pow, Nat.testBit_shiftRight]

/-- A field depends on its own bits alone. -/
theorem bitsOf_congr {a b : Word} {hi lo : Nat} (h : ∀ k, lo ≤ k → k ≤ hi → a.getLsbD k = b.getLsbD k) : bitsOf a.toNat hi lo = bitsOf b.toNat hi lo := by
  refine Nat.eq_of_testBit_eq fun k => ?_
  rw [testBit_bitsOf, testBit_bitsOf]
  by_cases hk : k < hi + 1 - lo
  · have := h (lo + k) (by omega) (by omega)
    rw [BitVec.getLsbD, BitVec.getLsbD] at this
    rw [this]
  · simp [hk]

/-- Bits below a bound, read off a wider field. -/
theorem bitOf_of_bitsOf {n hi lo m k : Nat} (h : bitsOf n hi lo = m) (hk : lo + k ≤ hi) : bitOf n (lo + k) = bitOf m k := by
  have h1 : n.testBit (lo + k) = m.testBit k := by
    rw [← h, testBit_bitsOf]; simp; omega
  have e (a b : Nat) : bitOf a b = (a.testBit b).toNat := by rw [bitOf, Nat.toNat_testBit, Nat.shiftRight_eq_div_pow]
  rw [e, e, h1]

/-- Two neighbouring bits make their field. -/
theorem bitsOf_two (n k : Nat) : bitsOf n (k + 1) k = bitOf n k + 2 * bitOf n (k + 1) := by
  rw [bitsOf, bitOf, bitOf, Nat.shiftRight_succ, show k + 1 + 1 - k = 2 by omega]
  omega

theorem getLsbD_maskW {hi lo k : Nat} (hh : hi < 40) : (maskW hi lo).getLsbD k = decide (lo ≤ k ∧ k ≤ hi) := by
  rw [maskW, BitVec.getLsbD_shiftLeft, BitVec.getLsbD_ushiftRight, BitVec.getLsbD_allOnes]
  by_cases h : lo ≤ k ∧ k ≤ hi
  · simp [h.1, h.2]; omega
  · simp only [h, decide_false, Bool.and_eq_false_iff, decide_eq_false_iff_not, Bool.not_eq_false', decide_eq_true_eq]; omega

theorem getLsbD_setBitsW (w : Word) {hi lo : Nat} (v : Nat) {k : Nat} (hh : hi < 40) :
    (setBitsW w hi lo v).getLsbD k = if lo ≤ k ∧ k ≤ hi then v.testBit (k - lo) else w.getLsbD k := by
  rw [setBitsW, BitVec.getLsbD_or, BitVec.getLsbD_and, BitVec.getLsbD_and, BitVec.getLsbD_not, getLsbD_maskW hh, BitVec.getLsbD_shiftLeft,
    BitVec.getLsbD_ofNat]
  by_cases h : lo ≤ k ∧ k ≤ hi
  · obtain ⟨h1, h2⟩ := h
    have h3 : k < 40 ∧ k - lo < 40 := by omega
    simp [h1, h2, h3]
  · simp only [h, decide_false, Bool.not_false, Bool.and_true, Bool.and_false, Bool.or_false, if_false]
    by_cases hk : k < 40
    · simp [hk]
    · simp [hk, BitVec.getLsbD_of_ge w k (by omega)]

/-- A field that is set reads as the value, cut to its width. -/
theorem bitsOf_setBitsW_self (w : Word) {hi lo : Nat} (v : Nat) (hh : hi < 40) (hl : lo ≤ hi) :
    bitsOf (setBitsW w hi lo v).toNat hi lo = v % 2 ^ (hi + 1 - lo) := by
  refine Nat.eq_of_testBit_eq fun k => ?_
  rw [testBit_bitsOf, Nat.testBit_mod_two_pow]
  by_cases hk : k < hi + 1 - lo
  · have := getLsbD_setBitsW w v (lo := lo) (k := lo + k) hh
    rw [BitVec.getLsbD, if_pos ⟨by omega, by omega⟩, Nat.add_sub_cancel_left] at this
    rw [this]
  · simp [hk]

/-- A field that shares no bit with the one that is set reads as before. -/
theorem bitsOf_setBitsW_apart (w : Word) {hi lo hi' lo' : Nat} (v : Nat) (hh : hi < 40) (h : hi' < lo ∨ hi < lo') :
    bitsOf (setBitsW w hi lo v).toNat hi' lo' = bitsOf w.toNat hi' lo' :=
  bitsOf_congr fun k h1 h2 => by rw [getLsbD_setBitsW w v hh, if_neg (by omega)]

theorem fld_setFld_self (d : Dev) (r : Reg) (i : Nat) {hi lo : Nat} (v : Nat) (hh : hi < 40) (hl : lo ≤ hi) :
    fld (setFld d r i hi lo v) r i hi lo = v % 2 ^ (hi + 1 - lo) := by
  rw [fld, rd_setFld_self, bitsOf_setBitsW_self _ _ hh hl]

/-! ## Registers that a step leaves alone -/

theorem ctorIdx_injective : Function.Injective Reg.ctorIdx := fun a b h => by
  have := congrArg Reg.ofNat h
  rwa [Reg.ofNat_ctorIdx, Reg.ofNat_ctorIdx] at this

/-- Two devices agree on every register but those listed. -/
def SameRegs (rs : List Reg) (d e : Dev) : Prop := ∀ r i, r ∉ rs → i < 4096 → rd e r i = rd d r i

namespace SameRegs

variable {rs : List Reg} {d e f : Dev}

theorem of_regs (h : e.regs = d.regs) : SameRegs rs d e := fun r i _ _ => rd_congr h r i

theorem refl : SameRegs rs d d := of_regs rfl

theorem trans (h1 : SameRegs rs d e) (h2 : SameRegs rs e f) : SameRegs rs d f := fun r i hr hi => (h2 r i hr hi).trans (h1 r i hr hi)

theorem mono {rs' : List Reg} (h : SameRegs rs d e) (hs : ∀ r ∈ rs, r ∈ rs') : SameRegs rs' d e := fun r i hr hi => h r i (fun h' => hr (hs r h')) hi

theorem wr {r : Reg} {i : Nat} (v : Word) (hr : r ∈ rs) (hi : i < 4096) : SameRegs rs d (wr d r i v) := fun _ _ hr' hi' =>
  rd_wr_ne d v (key_ne (fun h => hr' (ctorIdx_injective h ▸ hr)) hi' hi)

theorem setFld {r : Reg} {i : Nat} (hi' lo v : Nat) (hr : r ∈ rs) (hi : i < 4096) : SameRegs rs d (setFld d r i hi' lo v) := wr _ hr hi

theorem bumpN {r : Reg} {i : Nat} (n : Nat) (hr : r ∈ rs) (hi : i < 4096) : SameRegs rs d (bumpN d r i n) := wr _ hr hi

theorem foldl {α : Type} {g : Dev → α → Dev} (l : List α) (h : ∀ e, ∀ a ∈ l, SameRegs rs e (g e a)) : SameRegs rs d (l.foldl g d) := by
  induction l generalizing d with
  | nil => exact refl
  | cons a l ih => exact (h d a List.mem_cons_self).trans (ih fun e b hb => h e b (List.mem_cons_of_mem _ hb))

/-- A field of a register outside the list. -/
theorem fld (h : SameRegs rs d e) {r : Reg} {i : Nat} (hi lo : Nat) (hr : r ∉ rs) (hi' : i < 4096) : fld e r i hi lo = fld d r i hi lo := by
  rw [Machine.fld, Machine.fld, h r i hr hi']

end SameRegs

end Sys2Proof.Machine
end

section
namespace Sys2Proof.Machine

/-! ## STATE of a channel (R391) -/

theorem key_ne_of_index (r : Reg) {i j : Nat} (h : i ≠ j) : r.key i ≠ r.key j := by unfold Reg.key; omega

theorem mcState_congr {d e : Dev} (h : e.regs = d.regs) (ch : Nat) : mcState e ch = mcState d ch := fld_congr h ..

@[simp] theorem mcState_setMc (d : Dev) (ch : Nat) (v : McChan) (c : Nat) : mcState (setMc d ch v) c = mcState d c := mcState_congr (setMc_regs ..) c

theorem mcState_setMcState_self (d : Dev) (ch : Nat) {v : Nat} (hv : v < 8) : mcState (setMcState d ch v) ch = v :=
  (fld_setFld_self d _ _ v (by decide) (by decide)).trans (Nat.mod_eq_of_lt hv)

theorem mcState_setMcState_ne (d : Dev) {ch c : Nat} (v : Nat) (h : c ≠ ch) : mcState (setMcState d ch v) c = mcState d c := by
  rw [mcState, setMcState, fld, rd_setFld_ne d _ _ _ (key_ne_of_index _ h)]; rfl

theorem mcState_sameRegs {rs : List Reg} {d e : Dev} (h : SameRegs rs d e) (hr : Reg.mcStatus ∉ rs) {ch : Nat} (hc : ch < 4096) :
    mcState e ch = mcState d ch := h.fld _ _ hr hc

/-- What is excluded depends on the mapping's bits of MC_GLOBAL alone (R374). -/
theorem excluded_congr_map {d e : Dev} (h : ∀ k, 6 ≤ k → k ≤ 18 → (rd e .mcGlobal 0).getLsbD k = (rd d .mcGlobal 0).getLsbD k) (ch : Nat) :
    excluded e ch = excluded d ch := by
  have hf (hi lo : Nat) (h6 : 6 ≤ lo) (h18 : hi ≤ 18) : fld e .mcGlobal 0 hi lo = fld d .mcGlobal 0 hi lo :=
    bitsOf_congr fun k h1 h2 => h k (by omega) (by omega)
  unfold excluded
  rw [hf 12 9 (by omega) (by omega), hf 16 13 (by omega) (by omega), hf 18 17 (by omega) (by omega)]

theorem excluded_congr {d e : Dev} (h : rd e .mcGlobal 0 = rd d .mcGlobal 0) (ch : Nat) : excluded e ch = excluded d ch :=
  excluded_congr_map (fun _ _ _ => by rw [h]) ch

theorem channels_congr_map {d e : Dev} (h : ∀ k, 6 ≤ k → k ≤ 18 → (rd e .mcGlobal 0).getLsbD k = (rd d .mcGlobal 0).getLsbD k) :
    channels e = channels d := by
  simp only [channels, excluded_congr_map h]

theorem channels_congr {d e : Dev} (h : rd e .mcGlobal 0 = rd d .mcGlobal 0) : channels e = channels d := by
  simp only [channels, excluded_congr h]

theorem mem_channels {d : Dev} {ch : Nat} : ch ∈ channels d ↔ ch < 16 ∧ excluded d ch = false := by
  rw [channels, mem_idxWhere]; simp

/-- Exclusion removes two channels at most (R374). -/
theorem channels_nonempty (d : Dev) : ∃ ch, ch ∈ channels d := by
  by_contra h
  simp only [not_exists, mem_channels, not_and, Bool.not_eq_false] at h
  have h0 := h 0 (by omega); have h1 := h 1 (by omega); have h2 := h 2 (by omega)
  simp only [excluded, Bool.or_eq_true, Bool.and_eq_true, decide_eq_true_eq] at h0 h1 h2
  omega

/-! ## The data rate and the governor (R389) -/

/-- The data rate that is asked for depends on three registers, on the profile that is asked for and on the Consists. -/
theorem mcRate_congr {rs : List Reg} {d e : Dev} (h : SameRegs rs d e) (hr : ∀ r ∈ rs, r ≠ .mcGlobal ∧ r ≠ .chipId ∧ r ≠ .pwrStatus)
    (hp : e.pwr.profile = d.pwr.profile) (hc : e.consists = d.consists) : mcRate e = mcRate d := by
  have hf (r : Reg) (hi lo : Nat) (hn : r ∈ [Reg.mcGlobal, .chipId, .pwrStatus]) : fld e r 0 hi lo = fld d r 0 hi lo := by
    refine h.fld _ _ (fun h' => ?_) (by omega)
    have := hr r h'
    simp only [List.mem_cons, List.not_mem_nil, or_false] at hn
    tauto
  have h1 : profileCeil e = profileCeil d := by
    funext p; simp only [profileCeil, hf .chipId _ _ (by decide)]
  have h2 : heldFit e = heldFit d := by
    funext p; unfold heldFit heldRakes; rw [h1, hc]
  unfold mcRate
  rw [hf .mcGlobal _ _ (by decide), hf .pwrStatus _ _ (by decide), h1, h2, hp]

/-- With no change of rate under way or due, the governor does nothing. -/
theorem governRate_idle {d : Dev} (h0 : d.pwr.rateStep = 0) (hr : d.pwr.rateNow = mcRate d) : governRate d = d := by
  unfold governRate
  split
  · rfl
  · simp [h0, hr]

/-! ## Frames (R379) -/

theorem startFrames_regs (d : Dev) : (startFrames d).regs = d.regs := by
  refine foldl_proj (fun d : Dev => d.regs) _ (fun b ch _ => ?_) d
  split <;> rfl

/-- Every channel in use in STATE 2 is at slot 0. -/
theorem startFrames_slot {d : Dev} {ch : Nat} (hc : ch ∈ channels d) (hs : mcState d ch = 2) : (mcChan (startFrames d) ch).slot = 0 := by
  have key : ∀ (l : List Nat) (e : Dev), e.regs = d.regs → (ch ∈ l ∨ (mcChan e ch).slot = 0) →
      (mcChan (l.foldl (fun d ch => if mcState d ch = 2 then startFrame d ch else d) e) ch).slot = 0 := by
    intro l
    induction l with
    | nil => intro e _ h; simpa using h
    | cons c l ih =>
      intro e he h
      rw [List.foldl_cons]
      refine ih _ (by split <;> exact he) ?_
      by_cases hcc : c = ch
      · subst hcc
        rw [if_pos ((mcState_congr he c).trans hs), startFrame, mcChan_setMc_self]
        exact .inr rfl
      · rcases h with h | h
        · exact .inl ((List.mem_cons.mp h).resolve_left (Ne.symm hcc))
        · right
          split
          · rw [startFrame, mcChan_setMc_ne _ _ (Ne.symm hcc)]; exact h
          · exact h
  exact key _ d rfl (.inl hc)

/-! ## MC_TRAIN_CTRL (R387) -/

theorem trainCtrlWrite_starts {d : Dev} {ch : Nat} {v : Word} (h1 : 1 ≤ bitsOf v.toNat 3 0) (h7 : bitsOf v.toNat 3 0 ≤ 7) (hs : mcState d ch = 1)
    (ht : (mcChan d ch).train = none) : mcChan (trainCtrlWrite d ch v) ch = { mcChan d ch with
      train := some { op := bitsOf v.toNat 3 0, arg := bitsOf v.toNat 15 8, iter := max 1 (bitsOf v.toNat 31 16), pat := max 1 (rd d .mcTrainPat ch).toNat } } := by
  have hc : mcChan (regStore d .mcTrainCtrl ch v) ch = mcChan d ch := rfl
  simp [trainCtrlWrite, hc, h1, h7, hs, ht]

/-- A training operation shows its FAIL bits. -/
def showRes (d : Dev) (ch n : Nat) : Dev :=
  setMc (setFld d .mcTrainRes ch 19 0 n) ch { mcChan d ch with opFail := (mcChan d ch).opFail || decide (d.pwr.rateStep ≠ 0 ∧ n ≠ 0) }

theorem mcTrainDone_of_op {d : Dev} {ch fail found : Nat} {x : McTrain} (ht : (mcChan d ch).train = some x) (ho : x.op = 4 ∨ x.op = 5) :
    mcTrainDone ch fail found d = governRate (showRes (setMc d ch { mcChan d ch with train := none }) ch fail) := by
  unfold mcTrainDone
  dsimp only
  rw [ht]
  obtain ⟨op, _, _, _⟩ := x
  rcases ho with rfl | rfl <;> rfl

theorem showRes_sameRegs (d : Dev) {ch : Nat} (n : Nat) (hc : ch < 4096) : SameRegs [.mcTrainRes] d (showRes d ch n) :=
  SameRegs.setFld 19 0 n (by decide) hc

/-- The end of a read or write training shows its FAIL bits and leaves no operation. -/
theorem mcTrainDone_shows {d : Dev} {ch fail found : Nat} {x : McTrain} (hc : ch < 4096) (ht : (mcChan d ch).train = some x) (ho : x.op = 4 ∨ x.op = 5)
    (h0 : d.pwr.rateStep = 0) (hr : d.pwr.rateNow = mcRate d) (hf : fail < 2 ^ 20) :
    (mcChan (mcTrainDone ch fail found d) ch).train = none ∧ fld (mcTrainDone ch fail found d) .mcTrainRes ch 19 0 = fail := by
  have hreg : SameRegs [.mcTrainRes] d (showRes (setMc d ch { mcChan d ch with train := none }) ch fail) :=
    (SameRegs.of_regs (setMc_regs ..)).trans (showRes_sameRegs _ _ hc)
  have hi : governRate (showRes (setMc d ch { mcChan d ch with train := none }) ch fail) = showRes (setMc d ch { mcChan d ch with train := none }) ch fail :=
    governRate_idle h0 (hr.trans (mcRate_congr hreg (by decide) rfl rfl).symm)
  rw [mcTrainDone_of_op ht ho, hi, showRes, mcChan_setMc_self, mcChan_setMc_self, fld_congr (setMc_regs ..), fld_setFld_self _ _ _ _ (by decide) (by decide)]
  exact ⟨rfl, Nat.mod_eq_of_lt hf⟩

/-! ## MC_CTRL (R374, R387, R389) -/

/-- What a write of MC_CTRL does at one channel of its controller. -/
def mcCtrlStep (v : Word) (d : Dev) (ch : Nat) : Dev :=
  let d2 := if bitOf v.toNat 0 = 1 ∧ bitOf v.toNat 1 = 1 then channelUp d ch else channelReset d ch
  let d3 := channelSelfRef d2 ch (decide (bitOf v.toNat 2 = 1))
  if bitOf v.toNat 4 = 1 ∧ mcState d3 ch = 4 then startFrames (setMcState d3 ch 2) else d3

theorem mcCtrlWrite_eq (d : Dev) (k : Nat) (v : Word) :
    mcCtrlWrite d k v = mcCtrlStep v (mcCtrlStep v (regStore d .mcCtrl k v) (2 * k)) (2 * k + 1) := rfl

/-- A channel that is in no state of self-refresh, and does not enter it, keeps every register. -/
theorem channelSelfRef_regs {d : Dev} {ch : Nat} {enter : Bool} (he : enter = true → mcState d ch ≠ 2) (hl : enter = false → mcState d ch ≠ 3) :
    (channelSelfRef d ch enter).regs = d.regs := by
  cases enter with
  | true => simp [channelSelfRef, he rfl]
  | false => simp [channelSelfRef, hl rfl]

/-- With CK_EN and RESET_REL set a channel leaves reset; SELF_REF and RATE_DONE follow (R387, R389). -/
theorem mcCtrlStep_up {v : Word} (h0 : bitOf v.toNat 0 = 1) (h1 : bitOf v.toNat 1 = 1) (d : Dev) (ch : Nat) : mcCtrlStep v d ch =
    if bitOf v.toNat 4 = 1 ∧ mcState (channelSelfRef (channelUp d ch) ch (decide (bitOf v.toNat 2 = 1))) ch = 4 then
      startFrames (setMcState (channelSelfRef (channelUp d ch) ch (decide (bitOf v.toNat 2 = 1))) ch 2)
    else channelSelfRef (channelUp d ch) ch (decide (bitOf v.toNat 2 = 1)) := by
  simp only [mcCtrlStep, h0, h1, and_self, if_true]

/-- A channel in reset comes into STATE 1 (R374, R387). -/
theorem mcCtrlStep_release {v : Word} {d : Dev} {ch : Nat} (h0 : bitOf v.toNat 0 = 1) (h1 : bitOf v.toNat 1 = 1) (hs : mcState d ch = 0)
    (hx : excluded d ch = false) : (mcCtrlStep v d ch).regs = (setMcState d ch 1).regs := by
  have hup : channelUp d ch = setMcState d ch 1 := by simp [channelUp, hs, hx]
  have hs1 : mcState (setMcState d ch 1) ch = 1 := mcState_setMcState_self d ch (by decide)
  have hr : (channelSelfRef (setMcState d ch 1) ch (decide (bitOf v.toNat 2 = 1))).regs = (setMcState d ch 1).regs :=
    channelSelfRef_regs (fun _ => by rw [hs1]; decide) (fun _ => by rw [hs1]; decide)
  rw [mcCtrlStep_up h0 h1, hup, if_neg (by rw [mcState_congr hr, hs1]; omega), hr]

/-- A channel as it enters self-refresh. -/
def selfRefreshed (d : Dev) (ch : Nat) : Dev :=
  setMcState (setMc d ch { flushHalves d (mcChan d ch) with srWait := false, rows := [], rateIn := d.pwr.rateNow }) ch 3

theorem selfRefreshed_sameRegs (d : Dev) {ch : Nat} (hc : ch < 4096) : SameRegs [.mcStatus] d (selfRefreshed d ch) :=
  (SameRegs.of_regs (setMc_regs ..)).trans (SameRegs.setFld 39 37 3 (by decide) hc)

/-- With its queues empty and no change of rate due, a channel in STATE 2 enters self-refresh at once (R389). -/
theorem trySelfRef_enters {d : Dev} {ch : Nat} (hc : ch < 4096) (hw : (mcChan d ch).srWait = true) (hs : mcState d ch = 2)
    (hq : (mcChan d ch).q = [] ∧ (mcChan d ch).out = [] ∧ (mcChan d ch).wout = []) (h0 : d.pwr.rateStep = 0) (hr : d.pwr.rateNow = mcRate d) :
    trySelfRef d ch = selfRefreshed d ch := by
  unfold trySelfRef
  dsimp only
  rw [if_pos ⟨hw, hs, hq⟩]
  exact governRate_idle h0 (hr.trans (mcRate_congr (selfRefreshed_sameRegs d hc) (by decide) rfl rfl).symm)

/-- A write with SELF_REF takes a channel in STATE 2 into self-refresh. -/
theorem mcCtrlStep_selfRef {v : Word} {d : Dev} {ch : Nat} (h0 : bitOf v.toNat 0 = 1) (h1 : bitOf v.toNat 1 = 1) (h2 : bitOf v.toNat 2 = 1)
    (hc : ch < 4096) (hs : mcState d ch = 2) (hq : (mcChan d ch).q = [] ∧ (mcChan d ch).out = [] ∧ (mcChan d ch).wout = [])
    (hp : d.pwr.rateStep = 0) (hr : d.pwr.rateNow = mcRate d) :
    mcCtrlStep v d ch = selfRefreshed (setMc d ch { mcChan d ch with srWait := true }) ch := by
  have hup : channelUp d ch = d := by simp [channelUp, hs]
  have hm : mcChan (setMc d ch { mcChan d ch with srWait := true }) ch = { mcChan d ch with srWait := true } := mcChan_setMc_self _ _ _
  have hsr : channelSelfRef d ch (decide (bitOf v.toNat 2 = 1)) = selfRefreshed (setMc d ch { mcChan d ch with srWait := true }) ch := by
    have hmr : mcRate (setMc d ch { mcChan d ch with srWait := true }) = mcRate d :=
      mcRate_congr (rs := []) (SameRegs.of_regs rfl) (by decide) rfl rfl
    simp only [channelSelfRef, h2, hs, decide_true, if_true]
    exact trySelfRef_enters hc (by rw [hm]) ((mcState_setMc ..).trans hs) (by rw [hm]; exact hq) hp (hr.trans hmr.symm)
  have h3 : mcState (selfRefreshed (setMc d ch { mcChan d ch with srWait := true }) ch) ch = 3 := mcState_setMcState_self _ _ (by decide)
  rw [mcCtrlStep_up h0 h1, hup, hsr, if_neg (by rw [h3]; omega)]

/-- RATE_DONE takes a channel in STATE 4 to STATE 2, and every channel in STATE 2 to slot 0 (R379, R389). -/
theorem mcCtrlStep_rateDone {v : Word} {d : Dev} {ch : Nat} (h0 : bitOf v.toNat 0 = 1) (h1 : bitOf v.toNat 1 = 1) (h2 : bitOf v.toNat 2 = 0)
    (h4 : bitOf v.toNat 4 = 1) (hs : mcState d ch = 4) :
    mcCtrlStep v d ch = startFrames (setMcState (setMc d ch { mcChan d ch with srWait := false }) ch 2) := by
  have hup : channelUp d ch = d := by simp [channelUp, hs]
  have hsr : channelSelfRef d ch (decide (bitOf v.toNat 2 = 1)) = setMc d ch { mcChan d ch with srWait := false } := by
    simp [channelSelfRef, h2, hs]
  rw [mcCtrlStep_up h0 h1, hup, hsr, if_pos ⟨h4, (mcState_setMc ..).trans hs⟩]

/-! ## MC_GLOBAL (R374, R376, R387) -/

/-- The bits of MC_GLOBAL that a write leaves alone: the mapping unless every channel is in reset, and ECC once LOCKED. -/
def mcGlobalKeep (d : Dev) : Word :=
  (if (List.range 16).all (fun ch => decide (mcState d ch = 0)) then 0 else mapMask) ||| (if fld d .mcGlobal 0 25 25 = 1 then maskW 22 22 else 0)

/-- The word that a write of MC_GLOBAL stores. -/
def mcGlobalWord (d : Dev) (v : Word) : Word :=
  (rd d .mcGlobal 0 &&& mcGlobalKeep d) ||| (accessWrite .mcGlobal (rd d .mcGlobal 0) v &&& ~~~ mcGlobalKeep d)

theorem getLsbD_mcGlobalWord (d : Dev) (v : Word) {k : Nat} (hk : k < 40) : (mcGlobalWord d v).getLsbD k =
    if (mcGlobalKeep d).getLsbD k then (rd d .mcGlobal 0).getLsbD k else (accessWrite .mcGlobal (rd d .mcGlobal 0) v).getLsbD k := by
  rw [mcGlobalWord, BitVec.getLsbD_or, BitVec.getLsbD_and, BitVec.getLsbD_and, BitVec.getLsbD_not]
  cases (mcGlobalKeep d).getLsbD k <;> simp [hk]

/-- The device with that word stored, and without what GDDR6 held where the mapping has changed. -/
def mcGlobalStored (d : Dev) (v : Word) : Dev :=
  if rd d .mcGlobal 0 &&& mapMask = mcGlobalWord d v &&& mapMask then wr d .mcGlobal 0 (mcGlobalWord d v)
  else loseGddr (wr d .mcGlobal 0 (mcGlobalWord d v)) (fun _ => true)

/-- Trained channels in use come into STATE 2. -/
def channelsReady (d : Dev) (l : List Nat) : Dev := l.foldl (fun d ch => if mcState d ch = 1 then setMcState d ch 2 else d) d

theorem mcGlobalWrite_eq (d : Dev) (v : Word) : mcGlobalWrite d v =
    if fld d .mcGlobal 0 24 24 = 1 then enterSelfRef (governRate (mcGlobalStored d v))
    else if bitOf v.toNat 24 = 1 then
      startFrames (channelsReady (setFld (setRate (mcGlobalStored d v) (mcRate (mcGlobalStored d v))) .mcGlobal 0 25 25 1)
        (channels (setRate (mcGlobalStored d v) (mcRate (mcGlobalStored d v)))))
    else setRate (mcGlobalStored d v) (mcRate (mcGlobalStored d v)) := rfl

theorem rd_mcGlobalStored (d : Dev) (v : Word) : rd (mcGlobalStored d v) .mcGlobal 0 = mcGlobalWord d v := by
  unfold mcGlobalStored
  split
  · exact rd_wr_self ..
  · exact (rd_congr rfl ..).trans (rd_wr_self d ..)

theorem mcGlobalStored_sameRegs (d : Dev) (v : Word) : SameRegs [.mcGlobal] d (mcGlobalStored d v) := by
  have h := SameRegs.wr (d := d) (rs := [.mcGlobal]) (i := 0) (mcGlobalWord d v) (List.mem_singleton.mpr rfl) (by omega)
  unfold mcGlobalStored
  split
  · exact h
  · exact h.trans (SameRegs.of_regs rfl)

/-- The bits of the mapping are plain RW bits. -/
theorem getLsbD_accessWrite_map (old v : Word) {k : Nat} (h6 : 6 ≤ k) (h18 : k ≤ 18) : (accessWrite .mcGlobal old v).getLsbD k = v.getLsbD k := by
  rw [getLsbD_accessWrite _ _ _ (by omega)]
  have h : Reg.mcGlobal.rwMask.getLsbD k = true ∧ Reg.mcGlobal.w1sMask.getLsbD k = false ∧ Reg.mcGlobal.w1cMask.getLsbD k = false := by
    interval_cases k <;> decide
  simp [h]

/-- While every channel is in reset a write sets the mapping (R374). -/
theorem mcGlobalWord_idle {d : Dev} (v : Word) (hi : ∀ ch, ch < 16 → mcState d ch = 0) :
    bitsOf (mcGlobalWord d v).toNat 18 6 = bitsOf v.toNat 18 6 := by
  have ha : (List.range 16).all (fun ch => decide (mcState d ch = 0)) = true := by simpa [List.all_eq_true] using hi
  refine bitsOf_congr fun k h6 h18 => ?_
  have hk : (mcGlobalKeep d).getLsbD k = false := by
    rw [mcGlobalKeep, ha, if_pos rfl, BitVec.getLsbD_or]
    split
    · rw [getLsbD_maskW (by decide)]; simp; omega
    · simp
  rw [getLsbD_mcGlobalWord d v (by omega), hk, getLsbD_accessWrite_map _ _ h6 h18]
  rfl

/-- Otherwise the mapping stands. -/
theorem mcGlobalWord_busy {d : Dev} (v : Word) {ch : Nat} (hc : ch < 16) (hs : mcState d ch ≠ 0) {k : Nat} (h6 : 6 ≤ k) (h18 : k ≤ 18) :
    (mcGlobalWord d v).getLsbD k = (rd d .mcGlobal 0).getLsbD k := by
  have ha : (List.range 16).all (fun ch => decide (mcState d ch = 0)) = false := by
    rw [List.all_eq_false]; exact ⟨ch, List.mem_range.mpr hc, by simpa using hs⟩
  have hk : (mcGlobalKeep d).getLsbD k = true := by
    rw [mcGlobalKeep, ha, BitVec.getLsbD_or, if_neg (by decide), mapMask, getLsbD_maskW (by decide)]
    simp [h6, h18]
  rw [getLsbD_mcGlobalWord d v (by omega), hk, if_pos rfl]

/-- A mapping that stands loses nothing. -/
theorem mcGlobalStored_busy {d : Dev} (v : Word) {ch : Nat} (hc : ch < 16) (hs : mcState d ch ≠ 0) :
    mcGlobalStored d v = wr d .mcGlobal 0 (mcGlobalWord d v) := by
  refine if_pos (BitVec.eq_of_getLsbD_eq fun k _ => ?_)
  rw [BitVec.getLsbD_and, BitVec.getLsbD_and, mapMask, getLsbD_maskW (by decide)]
  by_cases h : 6 ≤ k ∧ k ≤ 18
  · rw [mcGlobalWord_busy v hc hs h.1 h.2]
  · simp [h]

/-- TRAFFIC_EN is set by a write of 1 (R12). -/
theorem mcGlobalWord_traffic (d : Dev) {v : Word} (hv : bitOf v.toNat 24 = 1) : bitOf (mcGlobalWord d v).toNat 24 = 1 := by
  have hv' : v.getLsbD 24 = true := by rw [bitOf_eq_getLsbD] at hv; simpa using hv
  have hk : (mcGlobalKeep d).getLsbD 24 = false := by
    unfold mcGlobalKeep
    split <;> split <;> decide
  rw [bitOf_eq_getLsbD, getLsbD_mcGlobalWord d v (by omega), hk, if_neg (by decide), getLsbD_accessWrite _ _ _ (by omega), hv', if_pos (by decide)]
  rfl

/-! ## What the controllers' own steps touch -/

/-- The registers of the controllers that their own steps write, and PWR_STATUS. -/
def mcOwnRegs : List Reg := [.mcCtrl, .mcStatus, .mcTrainCtrl, .mcLane, .pwrStatus]

/-- The device d with the state of another that the controllers' own steps write. -/
def mcTake (d e : Dev) : Dev :=
  { d with regs := e.regs, mc := e.mc, fresh := e.fresh, nv := { d.nv with lanes := e.nv.lanes }
           pwr := { d.pwr with rateNow := e.pwr.rateNow, rateStep := e.pwr.rateStep } }

/-- A step of the controllers: channels, rates, lanes saved, and their own registers. -/
structure McStep (d e : Dev) : Prop where
  regs : SameRegs mcOwnRegs d e
  rest : e = mcTake d e

namespace McStep

variable {d e f : Dev}

theorem refl : McStep d d := ⟨.refl, rfl⟩

theorem trans (h1 : McStep d e) (h2 : McStep e f) : McStep d f :=
  ⟨h1.regs.trans h2.regs, by
    have h : mcTake e f = mcTake (mcTake d e) f := congrArg (mcTake · f) h1.rest
    exact h2.rest.trans h⟩

theorem foldl {α : Type} {g : Dev → α → Dev} (l : List α) (h : ∀ e, ∀ a ∈ l, McStep e (g e a)) : McStep d (l.foldl g d) := by
  induction l generalizing d with
  | nil => exact refl
  | cons a l ih => exact (h d a List.mem_cons_self).trans (ih fun e b hb => h e b (List.mem_cons_of_mem _ hb))

theorem wr {r : Reg} {i : Nat} (v : Word) (hr : r ∈ mcOwnRegs) (hi : i < 4096) : McStep d (wr d r i v) := ⟨.wr v hr hi, rfl⟩

theorem setFld {r : Reg} {i : Nat} (hi' lo v : Nat) (hr : r ∈ mcOwnRegs) (hi : i < 4096) : McStep d (setFld d r i hi' lo v) := wr _ hr hi

theorem setMc (ch : Nat) (v : McChan) : McStep d (setMc d ch v) := ⟨.of_regs rfl, rfl⟩

theorem ite {p : Prop} [Decidable p] (h1 : McStep d e) (h2 : McStep d f) : McStep d (if p then e else f) := by
  split <;> assumption

end McStep

theorem startFrames_step (d : Dev) : McStep d (startFrames d) :=
  .foldl _ fun _ _ _ => .ite (.setMc ..) .refl

theorem setMcState_step (d : Dev) {ch : Nat} (v : Nat) (h : ch < 4096) : McStep d (setMcState d ch v) := .setFld _ _ _ (by decide) h

theorem setRate_step (d : Dev) (r : Nat) : McStep d (setRate d r) := by
  have h : McStep d { d with pwr := { d.pwr with rateNow := r } } := ⟨.of_regs rfl, rfl⟩
  exact .ite h (h.trans (.setFld _ _ _ (by decide) (by omega)))

theorem rateStep_step (d : Dev) (k : Nat) : McStep d { d with pwr := { d.pwr with rateStep := k } } := ⟨.of_regs rfl, rfl⟩

theorem tookFree_step (d : Dev) : McStep d (tookFree d) := ⟨.of_regs rfl, rfl⟩

theorem saveLane_step (d : Dev) {i : Nat} (v : Word) (h : i < 4096) : McStep d (saveLane d i v) :=
  (McStep.wr v (by decide) h).trans ⟨.of_regs rfl, rfl⟩

theorem mem_channels_lt {d : Dev} {ch : Nat} (h : ch ∈ channels d) : ch < 16 := (mem_channels.mp h).1

theorem setSelfRef_step (d : Dev) (v : Nat) : McStep d (setSelfRef d v) :=
  .foldl _ fun _ ch hc => .setFld _ _ _ (by decide) (by have := mem_channels_lt hc; omega)

theorem leaveSelfRef_step (d : Dev) {ch : Nat} (h : ch < 4096) : McStep d (leaveSelfRef d ch) := by
  have h1 : McStep d (if (channels d).any (fun c => decide (mcState d c = 2)) then d else setRate d (mcRate d)) := .ite .refl (setRate_step ..)
  exact .ite ((h1.trans (setMcState_step _ _ h)).trans (startFrames_step _)) (h1.trans (setMcState_step _ _ h))

theorem loadLanes_step (d : Dev) {ch : Nat} (h : ch < 16) : McStep d (loadLanes d ch) := by
  refine .foldl _ fun e j hj => ?_
  have := List.mem_range.mp hj
  split
  · exact .wr _ (by decide) (by omega)
  · exact .refl

theorem governorOp_step (d : Dev) (op : Nat) (iter : Option Nat) : McStep d (governorOp d op iter) := by
  refine .foldl _ fun e ch hc => ?_
  have := mem_channels_lt hc
  cases iter with
  | none => exact .setMc ..
  | some n => exact (McStep.setFld (d := e) _ _ n (by decide) (by omega)).trans (.setMc ..)

theorem sweepLanes_step (d : Dev) {ch : Nat} (h : ch < 16) : McStep d (sweepLanes d ch) := by
  refine .trans (.foldl _ fun e j hj => ?_) (tookFree_step _)
  have := List.mem_range.mp hj
  exact saveLane_step _ _ (by omega)

theorem sweepFailed_step (d : Dev) : McStep d (sweepFailed d) :=
  .foldl _ fun _ _ hc => .ite (.trans (.setMc ..) (sweepLanes_step _ (mem_channels_lt hc))) .refl

theorem governRate_step (d : Dev) : McStep d (governRate d) := by
  unfold governRate
  dsimp only
  split
  · exact .refl
  split
  · split
    · exact .trans (.trans (setSelfRef_step d 1) (.foldl _ fun _ _ _ => .setMc ..)) (rateStep_step ..)
    · exact .refl
  · split
    · have h1 := (setRate_step d (mcRate d)).trans (setSelfRef_step _ 0)
      have h2 : McStep d ((channels d).foldl leaveSelfRef (setSelfRef (setRate d (mcRate d)) 0)) :=
        h1.trans (.foldl _ fun _ _ hc => leaveSelfRef_step _ (by have := mem_channels_lt hc; omega))
      split
      · exact ((h2.trans (.foldl _ fun _ _ hc => loadLanes_step _ (mem_channels_lt hc))).trans (governorOp_step ..)).trans (rateStep_step ..)
      · exact h2.trans (rateStep_step ..)
    · exact .refl
  · exact .ite ((governorOp_step ..).trans (rateStep_step ..)) .refl
  · exact .ite ((governorOp_step ..).trans (rateStep_step ..)) .refl
  · refine .ite (.trans (.trans (.trans (sweepFailed_step d) (.foldl _ fun _ _ hc => ?_)) (startFrames_step _)) (rateStep_step ..)) .refl
    exact .ite (setMcState_step _ _ (by have := mem_channels_lt hc; omega)) .refl

theorem trySelfRef_step (d : Dev) {ch : Nat} (h : ch < 4096) : McStep d (trySelfRef d ch) :=
  .ite (((McStep.setMc ..).trans (setMcState_step _ 3 h)).trans (governRate_step _)) .refl

theorem enterSelfRef_step (d : Dev) : McStep d (enterSelfRef d) :=
  .foldl _ fun _ _ hc => trySelfRef_step _ (by have := mem_channels_lt hc; omega)

end Sys2Proof.Machine
end

section
namespace Sys2Proof.Machine

/-! ## The rows that configure the channels -/

theorem exec_mcResetRelease (who : Requester) (k : Fin 8) (v : Word) (s : State) :
    exec (.mcResetRelease who k v) s = execMcResetRelease who k v s := rfl
theorem exec_selfRef (who : Requester) (k : Fin 8) (v : Word) (s : State) : exec (.selfRef who k v) s = execSelfRef who k v s := rfl
theorem exec_rateDone (who : Requester) (k : Fin 8) (v : Word) (s : State) : exec (.rateDone who k v) s = execRateDone who k v s := rfl
theorem exec_trafficEn (who : Requester) (v : Word) (s : State) : exec (.trafficEn who v) s = execTrafficEn who v s := rfl
theorem exec_mcConfigWrite (who : Requester) (v : Word) (s : State) : exec (.mcConfigWrite who v) s = execMcConfigWrite who v s := rfl

/-- A row whose command is a write of MC_TRAIN_CTRL with one OP starts that operation on a channel in STATE 1 (R387). -/
theorem trainRow_starts {s : State} {who : Requester} {ch : Fin 16} {v : Word} {op : Nat} {i : Instr}
    (hi : exec i s = onDev (pathFirst s who) (trainRow op who ch v)) (h1 : 1 ≤ op) (h7 : op ≤ 7) (h : WriteOpen s.dev who (mcChOff ch.val 0x1008))
    (hv : bitsOf v.toNat 3 0 = op) (hs : mcState s.dev ch.val = 1) (ht : (mcChan s.dev ch.val).train = none) :
    ∃ t, exec i s = .next t ∧ (mcChan t.dev ch.val).train =
      some { op := op, arg := bitsOf v.toNat 15 8, iter := max 1 (bitsOf v.toNat 31 16), pat := max 1 (rd s.dev .mcTrainPat ch.val).toNat } := by
  refine ⟨{ s with dev := trainCtrlWrite s.dev ch.val v }, ?_, ?_⟩
  · rw [hi, pathFirst_open h, onDev_next, trainRow, if_pos hv, viaPath_open h]
  · dsimp only
    rw [trainCtrlWrite_starts (by omega) (by omega) hs ht, hv]

/-- The state after a write of MC_CTRL that a row makes. -/
theorem mcCtrlRow {s : State} {who : Requester} {k : Fin 8} {v : Word} (h : WriteOpen s.dev who (mcOff k.val 0x10)) {p : Dev → Prop} [DecidablePred p] (hp : p s.dev) :
    onDev (pathFirst s who) (fun d => if p d then viaPath d who (mcOff k.val 0x10) (fun d => mcCtrlWrite d k.val v) else d) =
      .next { s with dev := mcCtrlWrite s.dev k.val v } := by
  rw [pathFirst_open h, onDev_next, if_pos hp, viaPath_open h]

/-- CK_EN and RESET_REL bring both channels of a controller out of reset. -/
theorem mcCtrlWrite_release {d : Dev} {k : Nat} {v : Word} (hk : k < 8) (hv : bitsOf v.toNat 1 0 = 3)
    (hc : ∀ ch ∈ [2 * k, 2 * k + 1], mcState d ch = 0 ∧ excluded d ch = false) : ∀ ch ∈ [2 * k, 2 * k + 1], mcState (mcCtrlWrite d k v) ch = 1 := by
  have h0 : bitOf v.toNat 0 = 1 := (bitOf_of_bitsOf (k := 0) hv (by omega)).trans (by decide)
  have h1 : bitOf v.toNat 1 = 1 := (bitOf_of_bitsOf (k := 1) hv (by omega)).trans (by decide)
  simp only [List.forall_mem_cons, List.not_mem_nil, false_implies, implies_true, and_true] at hc ⊢
  obtain ⟨⟨ha, hxa⟩, hb, hxb⟩ := hc
  have hreg : SameRegs [.mcCtrl] d (regStore d .mcCtrl k v) := .wr _ (by decide) (by omega)
  have hx (c : Nat) : excluded (regStore d .mcCtrl k v) c = excluded d c := excluded_congr (hreg _ _ (by decide) (by omega)) c
  have hst (c : Nat) (h : c < 4096) : mcState (regStore d .mcCtrl k v) c = mcState d c := mcState_sameRegs hreg (by decide) h
  -- the first channel's step
  have e1 := mcCtrlStep_release h0 h1 ((hst (2 * k) (by omega)).trans ha) ((hx _).trans hxa)
  have s1 : SameRegs [.mcStatus] (regStore d .mcCtrl k v) (mcCtrlStep v (regStore d .mcCtrl k v) (2 * k)) :=
    (SameRegs.setFld (d := regStore d .mcCtrl k v) 39 37 1 (by decide) (by omega)).trans (.of_regs e1)
  have b1 : mcState (mcCtrlStep v (regStore d .mcCtrl k v) (2 * k)) (2 * k + 1) = 0 := by
    rw [mcState_congr e1, mcState_setMcState_ne _ _ (by omega), hst _ (by omega), hb]
  -- the second channel's
  have e2 := mcCtrlStep_release h0 h1 b1 ((excluded_congr (s1 _ _ (by decide) (by omega)) _).trans ((hx _).trans hxb))
  rw [mcCtrlWrite_eq]
  refine ⟨?_, ?_⟩
  · rw [mcState_congr e2, mcState_setMcState_ne _ _ (by omega), mcState_congr e1, mcState_setMcState_self _ _ (by decide)]
  · rw [mcState_congr e2, mcState_setMcState_self _ _ (by decide)]

/-- A write with SELF_REF at one channel: that channel is in self-refresh with its rows closed, and nothing else of the controllers has changed. -/
theorem mcCtrlStep_selfRef_effect {v : Word} {d : Dev} {ch : Nat} (hv : bitsOf v.toNat 2 0 = 7) (hc : ch < 4096) (hs : mcState d ch = 2)
    (hq : (mcChan d ch).q = [] ∧ (mcChan d ch).out = [] ∧ (mcChan d ch).wout = []) (hp : d.pwr.rateStep = 0) (hr : d.pwr.rateNow = mcRate d) :
    mcState (mcCtrlStep v d ch) ch = 3 ∧ (mcChan (mcCtrlStep v d ch) ch).rows = [] ∧ (mcCtrlStep v d ch).pwr = d.pwr ∧
      mcRate (mcCtrlStep v d ch) = mcRate d ∧
      ∀ c, c ≠ ch → mcState (mcCtrlStep v d ch) c = mcState d c ∧ mcChan (mcCtrlStep v d ch) c = mcChan d c := by
  have h0 : bitOf v.toNat 0 = 1 := (bitOf_of_bitsOf (k := 0) hv (by omega)).trans (by decide)
  have h1 : bitOf v.toNat 1 = 1 := (bitOf_of_bitsOf (k := 1) hv (by omega)).trans (by decide)
  have h2 : bitOf v.toNat 2 = 1 := (bitOf_of_bitsOf (k := 2) hv (by omega)).trans (by decide)
  rw [mcCtrlStep_selfRef h0 h1 h2 hc hs hq hp hr]
  have hreg : SameRegs [.mcStatus] d (selfRefreshed (setMc d ch { mcChan d ch with srWait := true }) ch) :=
    (SameRegs.of_regs (setMc_regs ..)).trans (selfRefreshed_sameRegs _ hc)
  refine ⟨mcState_setMcState_self _ _ (by decide), ?_, rfl, mcRate_congr hreg (by decide) rfl rfl, fun c hn => ⟨?_, ?_⟩⟩
  · exact congrArg McChan.rows (mcChan_setMc_self ..)
  · rw [selfRefreshed, mcState_setMcState_ne _ _ hn, mcState_setMc, mcState_setMc]
  · exact (mcChan_setMc_ne _ _ hn).trans (mcChan_setMc_ne _ _ hn)

theorem regStore_mcCtrl_sameRegs (d : Dev) {k : Nat} (v : Word) (hk : k < 8) : SameRegs [.mcCtrl] d (regStore d .mcCtrl k v) :=
  .wr _ (by decide) (by omega)

/-- SELF_REF takes both channels of a controller into self-refresh with their rows closed. -/
theorem mcCtrlWrite_selfRef {d : Dev} {k : Nat} {v : Word} (hk : k < 8) (hv : bitsOf v.toNat 2 0 = 7) (hp : d.pwr.rateStep = 0)
    (hr : d.pwr.rateNow = mcRate d) (hc : ∀ ch ∈ [2 * k, 2 * k + 1], mcState d ch = 2 ∧ (mcChan d ch).q = [] ∧ (mcChan d ch).out = [] ∧ (mcChan d ch).wout = []) :
    ∀ ch ∈ [2 * k, 2 * k + 1], mcState (mcCtrlWrite d k v) ch = 3 ∧ (mcChan (mcCtrlWrite d k v) ch).rows = [] := by
  simp only [List.forall_mem_cons, List.not_mem_nil, false_implies, implies_true, and_true] at hc ⊢
  obtain ⟨⟨ha, hqa⟩, hb, hqb⟩ := hc
  have hreg := regStore_mcCtrl_sameRegs d v hk
  have hst (c : Nat) (h : c < 4096) : mcState (regStore d .mcCtrl k v) c = mcState d c := mcState_sameRegs hreg (by decide) h
  have hrate : mcRate (regStore d .mcCtrl k v) = mcRate d := mcRate_congr hreg (by decide) rfl rfl
  obtain ⟨s1, r1, p1, m1, o1⟩ := mcCtrlStep_selfRef_effect (d := regStore d .mcCtrl k v) (ch := 2 * k) hv (by omega)
    ((hst _ (by omega)).trans ha) hqa hp (hr.trans hrate.symm)
  obtain ⟨b1, c1⟩ := o1 (2 * k + 1) (by omega)
  obtain ⟨s2, r2, -, -, o2⟩ := mcCtrlStep_selfRef_effect (d := mcCtrlStep v (regStore d .mcCtrl k v) (2 * k)) (ch := 2 * k + 1) hv (by omega)
    (b1.trans ((hst _ (by omega)).trans hb)) (by rw [c1]; exact hqb) (by rw [p1]; exact hp) (by rw [p1, m1]; exact hr.trans hrate.symm)
  obtain ⟨b2, c2⟩ := o2 (2 * k) (by omega)
  rw [mcCtrlWrite_eq]
  exact ⟨⟨b2.trans s1, by rw [c2, r1]⟩, s2, r2⟩

/-- RATE_DONE at one channel: it is in STATE 2, the other channels keep their STATE, and every channel in use in STATE 2 is at slot 0. -/
theorem mcCtrlStep_rateDone_effect {v : Word} {d : Dev} {ch : Nat} (hv : bitsOf v.toNat 4 0 = 0x13) (hc : ch < 4096) (hs : mcState d ch = 4) :
    SameRegs [.mcStatus] d (mcCtrlStep v d ch) ∧ mcState (mcCtrlStep v d ch) ch = 2 ∧
      (∀ c, c ≠ ch → mcState (mcCtrlStep v d ch) c = mcState d c) ∧
      ∀ c ∈ channels d, mcState (mcCtrlStep v d ch) c = 2 → (mcChan (mcCtrlStep v d ch) c).slot = 0 := by
  have h0 : bitOf v.toNat 0 = 1 := (bitOf_of_bitsOf (k := 0) hv (by omega)).trans (by decide)
  have h1 : bitOf v.toNat 1 = 1 := (bitOf_of_bitsOf (k := 1) hv (by omega)).trans (by decide)
  have h2 : bitOf v.toNat 2 = 0 := (bitOf_of_bitsOf (k := 2) hv (by omega)).trans (by decide)
  have h4 : bitOf v.toNat 4 = 1 := (bitOf_of_bitsOf (k := 4) hv (by omega)).trans (by decide)
  rw [mcCtrlStep_rateDone h0 h1 h2 h4 hs]
  have hreg : SameRegs [.mcStatus] d (setMcState (setMc d ch { mcChan d ch with srWait := false }) ch 2) :=
    (SameRegs.of_regs (setMc_regs ..)).trans (.setFld 39 37 2 (by decide) hc)
  have hf := startFrames_regs (setMcState (setMc d ch { mcChan d ch with srWait := false }) ch 2)
  refine ⟨hreg.trans (.of_regs hf), ?_, fun c hn => ?_, fun c hm h => ?_⟩
  · rw [mcState_congr hf, mcState_setMcState_self _ _ (by decide)]
  · rw [mcState_congr hf, mcState_setMcState_ne _ _ hn, mcState_setMc]
  · refine startFrames_slot ?_ ((mcState_congr hf c).symm.trans h)
    rwa [channels_congr (hreg _ _ (by decide) (by omega))]

/-- RATE_DONE takes both channels of a controller from STATE 4 to STATE 2, and every channel in use in STATE 2 to slot 0. -/
theorem mcCtrlWrite_rateDone {d : Dev} {k : Nat} {v : Word} (hk : k < 8) (hv : bitsOf v.toNat 4 0 = 0x13)
    (hc : ∀ ch ∈ [2 * k, 2 * k + 1], mcState d ch = 4) : (∀ ch ∈ [2 * k, 2 * k + 1], mcState (mcCtrlWrite d k v) ch = 2) ∧
      ∀ ch ∈ channels d, mcState (mcCtrlWrite d k v) ch = 2 → (mcChan (mcCtrlWrite d k v) ch).slot = 0 := by
  simp only [List.forall_mem_cons, List.not_mem_nil, false_implies, implies_true, and_true] at hc ⊢
  obtain ⟨ha, hb⟩ := hc
  have hreg := regStore_mcCtrl_sameRegs d v hk
  have hst (c : Nat) (h : c < 4096) : mcState (regStore d .mcCtrl k v) c = mcState d c := mcState_sameRegs hreg (by decide) h
  obtain ⟨g1, s1, o1, -⟩ := mcCtrlStep_rateDone_effect (d := regStore d .mcCtrl k v) (ch := 2 * k) hv (by omega) ((hst _ (by omega)).trans ha)
  obtain ⟨-, s2, o2, f2⟩ := mcCtrlStep_rateDone_effect (d := mcCtrlStep v (regStore d .mcCtrl k v) (2 * k)) (ch := 2 * k + 1) hv (by omega)
    ((o1 _ (by omega)).trans ((hst _ (by omega)).trans hb))
  have hch : channels (mcCtrlStep v (regStore d .mcCtrl k v) (2 * k)) = channels d :=
    channels_congr ((g1 _ _ (by decide) (by omega)).trans (hreg _ _ (by decide) (by omega)))
  rw [mcCtrlWrite_eq]
  exact ⟨⟨(o2 _ (by omega)).trans s1, s2⟩, fun c hm => f2 c (hch ▸ hm)⟩

/-! ## MC_GLOBAL -/

theorem channelsReady_sameRegs (d : Dev) {l : List Nat} (hl : ∀ c ∈ l, c < 4096) : SameRegs [.mcStatus] d (channelsReady d l) :=
  .foldl _ fun _ c hc => by
    split
    · exact .setFld 39 37 2 (by decide) (hl c hc)
    · exact .refl

/-- Every channel of the list that has been trained is in STATE 2 afterwards. -/
theorem channelsReady_state {d : Dev} {l : List Nat} {ch : Nat} (hs : mcState d ch = 2 ∨ ch ∈ l ∧ mcState d ch = 1) :
    mcState (channelsReady d l) ch = 2 := by
  induction l generalizing d with
  | nil => exact hs.resolve_right (fun h => List.not_mem_nil h.1)
  | cons c l ih =>
    refine ih (d := if mcState d c = 1 then setMcState d c 2 else d) ?_
    by_cases hc : ch = c
    · subst hc
      rcases hs with h | ⟨-, h⟩
      · left; rw [if_neg (by omega), h]
      · left; rw [if_pos h, mcState_setMcState_self _ _ (by decide)]
    · have hk : mcState (if mcState d c = 1 then setMcState d c 2 else d) ch = mcState d ch := by
        split
        · exact mcState_setMcState_ne _ _ hc
        · rfl
      rw [hk]
      exact hs.imp_right fun ⟨hm, h⟩ => ⟨(List.mem_cons.mp hm).resolve_left hc, h⟩

/-- The mapping's field depends on the bits of the mapping. -/
theorem mcGlobalWrite_map (d : Dev) (v : Word) (hv : bitOf v.toNat 24 = 0) :
    fld (mcGlobalWrite d v) .mcGlobal 0 18 6 = bitsOf (mcGlobalWord d v).toNat 18 6 ∧ (mcGlobalWrite d v).mem = (mcGlobalStored d v).mem := by
  have h : McStep (mcGlobalStored d v) (mcGlobalWrite d v) := by
    rw [mcGlobalWrite_eq, if_neg (by omega : ¬ bitOf v.toNat 24 = 1)]
    exact .ite ((governRate_step _).trans (enterSelfRef_step _)) (setRate_step ..)
  refine ⟨?_, by rw [h.rest]; rfl⟩
  rw [fld, h.regs _ _ (by decide) (by omega), rd_mcGlobalStored]

/-- TRAFFIC_EN locks the mapping and takes the trained channels in use to STATE 2 at slot 0 (R387). -/
theorem mcGlobalWrite_traffic {d : Dev} {v : Word} (hv : bitOf v.toNat 24 = 1) (h0 : fld d .mcGlobal 0 24 24 = 0)
    (hc : ∀ ch ∈ channels d, mcState d ch = 1) : fld (mcGlobalWrite d v) .mcGlobal 0 25 24 = 3 ∧
      ∀ ch ∈ channels d, mcState (mcGlobalWrite d v) ch = 2 ∧ (mcChan (mcGlobalWrite d v) ch).slot = 0 := by
  obtain ⟨ch0, hch0⟩ := channels_nonempty d
  have hst : mcGlobalStored d v = wr d .mcGlobal 0 (mcGlobalWord d v) :=
    mcGlobalStored_busy v (mem_channels_lt hch0) (by rw [hc ch0 hch0]; decide)
  -- the device as TRAFFIC_EN finds it, and with LOCKED set
  obtain ⟨e1, he1⟩ : ∃ e, e = setRate (mcGlobalStored d v) (mcRate (mcGlobalStored d v)) := ⟨_, rfl⟩
  obtain ⟨e2, he2⟩ : ∃ e, e = setFld e1 .mcGlobal 0 25 25 1 := ⟨_, rfl⟩
  have hw1 : rd e1 .mcGlobal 0 = mcGlobalWord d v := by
    rw [he1, (setRate_step ..).regs _ _ (by decide) (by omega), rd_mcGlobalStored]
  have hw2 : rd e2 .mcGlobal 0 = setBitsW (mcGlobalWord d v) 25 25 1 := by rw [he2, rd_setFld_self, hw1]
  have hmap (k : Nat) (h6 : 6 ≤ k) (h18 : k ≤ 18) : (mcGlobalWord d v).getLsbD k = (rd d .mcGlobal 0).getLsbD k :=
    mcGlobalWord_busy v (mem_channels_lt hch0) (by rw [hc ch0 hch0]; decide) h6 h18
  have hch1 : channels e1 = channels d := channels_congr_map fun k h6 h18 => by rw [hw1, hmap k h6 h18]
  have hch2 : channels e2 = channels d := channels_congr_map fun k h6 h18 => by
    rw [hw2, getLsbD_setBitsW _ _ (by decide), if_neg (by omega), hmap k h6 h18]
  have hreg : SameRegs [.mcGlobal, .mcCtrl, .mcTrainCtrl, .mcLane, .pwrStatus] d e2 := by
    have h1 : SameRegs [.mcGlobal, .mcCtrl, .mcTrainCtrl, .mcLane, .pwrStatus] d e1 := by
      rw [he1]
      refine ((mcGlobalStored_sameRegs d v).mono (by decide)).trans ?_
      unfold setRate
      dsimp only
      split
      · exact .of_regs rfl
      · exact .trans (.of_regs rfl) (.setFld 23 19 _ (by decide) (by omega))
    rw [he2]
    exact h1.trans (.setFld 25 25 1 (by decide) (by omega))
  have hready := channelsReady_sameRegs e2 (l := channels e1) (fun c h => by have := mem_channels_lt h; omega)
  have hmw : mcGlobalWrite d v = startFrames (channelsReady e2 (channels e1)) := by
    rw [mcGlobalWrite_eq, if_neg (by omega : ¬ fld d .mcGlobal 0 24 24 = 1), if_pos hv, he2, he1]
  have hs (c : Nat) (h : c ∈ channels d) : mcState (channelsReady e2 (channels e1)) c = 2 := by
    refine channelsReady_state (.inr ⟨hch1 ▸ h, ?_⟩)
    rw [mcState_sameRegs hreg (by decide) (by have := mem_channels_lt h; omega), hc c h]
  rw [hmw]
  refine ⟨?_, fun c h => ⟨(mcState_congr (startFrames_regs _) c).trans (hs c h), startFrames_slot ?_ (hs c h)⟩⟩
  · rw [fld_congr (startFrames_regs _), hready.fld _ _ (by decide) (by omega), fld, hw2, bitsOf_two, ← bitsOf_self _ 24, ← bitsOf_self _ (24 + 1),
      bitsOf_setBitsW_apart _ _ (by decide) (by omega), bitsOf_setBitsW_self _ _ (by decide) (by decide), bitsOf_self, mcGlobalWord_traffic d hv]
    decide
  · rw [channels_congr (hready _ _ (by decide) (by omega)), hch2]
    exact h

/-- Settles O57. -/
theorem channelConfiguration : Obligations.ChannelConfiguration := by
  intro s who v
  dsimp only
  refine ⟨?_, ?_, ?_, ?_, ?_, ?_, ?_, ?_⟩
  · intro ch e he h hv hs ht
    simp only [List.mem_cons, List.not_mem_nil, or_false] at he
    rcases he with rfl | rfl | rfl | rfl | rfl | rfl | rfl <;> exact trainRow_starts rfl (by decide) (by decide) h hv hs ht
  · intro ch fail found x ht ho h0 hr
    exact ⟨_, rfl, mcTrainDone_shows (by omega) ht ho h0 hr fail.isLt⟩
  · intro k h hv hc
    exact ⟨_, (exec_mcResetRelease ..).trans (mcCtrlRow (p := fun _ => bitsOf v.toNat 1 0 = 3) h hv), mcCtrlWrite_release k.isLt hv hc⟩
  · intro k h hv hf h0 hr hc
    have h2 : bitOf v.toNat 2 ≠ fld s.dev .mcCtrl k.val 2 2 := by
      rw [hf, (bitOf_of_bitsOf (k := 2) hv (by omega) : bitOf v.toNat 2 = bitOf 7 2)]; decide
    exact ⟨_, (exec_selfRef ..).trans (mcCtrlRow (p := fun d => bitOf v.toNat 2 ≠ fld d .mcCtrl k.val 2 2) h h2), mcCtrlWrite_selfRef k.isLt hv h0 hr hc⟩
  · intro k h hv hc
    have h4 : bitOf v.toNat 4 = 1 := (bitOf_of_bitsOf (k := 4) hv (by omega)).trans (by decide)
    exact ⟨_, (exec_rateDone ..).trans (mcCtrlRow (p := fun _ => bitOf v.toNat 4 = 1) h h4), mcCtrlWrite_rateDone k.isLt hv fun ch hm => (hc ch hm).1⟩
  · intro h hv h0 hc
    refine ⟨{ s with dev := mcGlobalWrite s.dev v }, ?_, mcGlobalWrite_traffic hv h0 hc⟩
    rw [exec_trafficEn, execTrafficEn, pathFirst_open h, onDev_next, if_pos hv, viaPath_open h]
  · intro h hv hc
    refine ⟨{ s with dev := mcGlobalWrite s.dev v }, ?_, (mcGlobalWrite_map s.dev v hv).1.trans (mcGlobalWord_idle v hc)⟩
    rw [exec_mcConfigWrite, execMcConfigWrite, pathFirst_open h, onDev_next, viaPath_open h]
  · intro h hv hc
    obtain ⟨ch, hch, hs⟩ := hc
    obtain ⟨hf, hm⟩ := mcGlobalWrite_map s.dev v hv
    refine ⟨{ s with dev := mcGlobalWrite s.dev v }, ?_, hf.trans ?_, hm.trans ?_⟩
    · rw [exec_mcConfigWrite, execMcConfigWrite, pathFirst_open h, onDev_next, viaPath_open h]
    · exact bitsOf_congr fun k h6 h18 => mcGlobalWord_busy v hch hs h6 h18
    · rw [mcGlobalStored_busy v hch hs, wr_mem]

end Sys2Proof.Machine
end

section
namespace Sys2Proof.Machine

/-! ## A channel's own operations -/

/-- A channel that does not wait for self-refresh does not enter it. -/
theorem trySelfRef_idle {d : Dev} {ch : Nat} (h : (mcChan d ch).srWait = false) : trySelfRef d ch = d := by
  simp [trySelfRef, h]

/-- A written check half changes the words and their mirrors alone. -/
theorem putHalf_frame (d : Dev) (v : McChan) (e : CheckHalf) : ∃ ws ms, putHalf d v e = { v with words := ws, mirrors := ms } := by
  have key : ∀ (l : List (Nat × BitVec 32)) (v : McChan), ∃ ws ms, l.foldl (fun v x =>
      { v with words := mset none v.words x.1 (some x.2), mirrors := mset none v.mirrors x.1 (some x.2) }) v = { v with words := ws, mirrors := ms } := by
    intro l
    induction l with
    | nil => exact fun v => ⟨_, _, rfl⟩
    | cons x l ih => exact fun v => by obtain ⟨ws, ms, h⟩ := ih _; exact ⟨ws, ms, h⟩
  unfold putHalf
  split
  · exact key _ v
  · exact ⟨_, _, rfl⟩

/-- The check cache is all that its use changes in a channel (R376). -/
theorem useCheck_frame (d : Dev) (ch : Nat) (v : McChan) (line : Nat) (write : Bool) :
    ∃ hs ws ms, useCheck d ch v line write = { v with halves := hs, words := ws, mirrors := ms } := by
  have key : ∀ (l : List CheckHalf) (v : McChan), ∃ ws ms, l.foldl (putHalf d) v = { v with words := ws, mirrors := ms } := by
    intro l
    induction l with
    | nil => exact fun v => ⟨_, _, rfl⟩
    | cons e l ih =>
      intro v
      obtain ⟨ws, ms, h⟩ := putHalf_frame d v e
      obtain ⟨ws', ms', h'⟩ := ih (putHalf d v e)
      exact ⟨ws', ms', by rw [List.foldl_cons, h', h]⟩
  unfold useCheck
  split
  · obtain ⟨ws, ms, h⟩ := key _ _
    exact ⟨_, ws, ms, h⟩
  · exact ⟨_, _, _, rfl⟩

/-! ## The one read that waits (R380) -/

/-- The one read of a channel that has nothing on the way is ready. -/
theorem readyAt_one {v : McChan} {r : McReq} (hq : v.q = [r]) (ho : v.out = []) (hw : r.write = false) (p : McReq → Bool) :
    readyAt v p = if p r then [0] else [] := by
  simp [readyAt, idxWhere, hq, lineHeld, inQueue, ho, hw, List.range_succ, List.filter_cons]

theorem bankPick_one {d : Dev} {v : McChan} {r : McReq} (hq : v.q = [r]) (ho : v.out = []) (hw : r.write = false) (b : Nat) :
    bankPick d v b = if mcBank d r.line = b then some (0, false) else none := by
  unfold bankPick
  dsimp only
  rw [readyAt_one hq ho hw]
  by_cases hb : mcBank d r.line = b
  · simp only [hw, hb, Bool.not_false, decide_true, Bool.and_self, if_true]
    split
    · next h => simp at h
    · next i l j h hf =>
      obtain rfl : i = 0 := by simpa using (List.cons.inj h).1.symm
      have hj := List.mem_of_find?_eq_some hf
      simp at hj
      simp [hj]
    · next i l h hf =>
      obtain rfl : i = 0 := by simpa using (List.cons.inj h).1.symm
      rfl
  · simp [hw, hb]

/-- A search that one element alone answers. -/
theorem findSome?_of_unique {α β : Type} {f : α → Option β} {l : List α} {a : α} {b : β} (ha : a ∈ l) (hf : f a = some b)
    (hn : ∀ c ∈ l, c ≠ a → f c = none) : l.findSome? f = some b := by
  induction l with
  | nil => cases ha
  | cons c l ih =>
    rw [List.findSome?_cons]
    by_cases hc : c = a
    · rw [hc, hf]
    · rw [hn c List.mem_cons_self hc]
      exact ih ((List.mem_cons.mp ha).resolve_left (Ne.symm hc)) fun c' h => hn c' (List.mem_cons_of_mem _ h)

theorem mcBank_lt (d : Dev) (line : Nat) : mcBank d line < 16 := Nat.xor_lt_two_pow (n := 4) (Nat.mod_lt _ (by decide)) (Nat.mod_lt _ (by decide))

theorem turnBank_one {d : Dev} {v : McChan} {r : McReq} (hq : v.q = [r]) (ho : v.out = []) (hw : r.write = false) :
    turnBank d v = some (mcBank d r.line, 0, false) := by
  have hb := mcBank_lt d r.line
  refine findSome?_of_unique (a := mcBank d r.line) (List.mem_map.mpr ⟨(mcBank d r.line + 16 - v.ptr % 16) % 16, ?_, ?_⟩) ?_ fun c _ hc => ?_
  · exact List.mem_range.mpr (Nat.mod_lt _ (by decide))
  · omega
  · rw [bankPick_one hq ho hw, if_pos rfl]; rfl
  · rw [bankPick_one hq ho hw, if_neg (Ne.symm hc)]; rfl

theorem mcBank_congr {d e : Dev} (h : e.regs = d.regs) (line : Nat) : mcBank e line = mcBank d line := by
  simp only [mcBank, mcRow, mcIndex, channels_congr (rd_congr h ..), dataLines, fld_congr h]

theorem mcRow_congr {d e : Dev} (h : e.regs = d.regs) (line : Nat) : mcRow e line = mcRow d line := by
  simp only [mcRow, mcIndex, channels_congr (rd_congr h ..), dataLines, fld_congr h]

end Sys2Proof.Machine
end

section
namespace Sys2Proof.Machine

/-! ## Slots (R378 to R381) -/

@[simp] theorem mcChan_bumpN (d : Dev) (r : Reg) (i n ch : Nat) : mcChan (bumpN d r i n) ch = mcChan d ch := rfl

@[simp] theorem mcChan_bump (d : Dev) (r : Reg) (i ch : Nat) : mcChan (bump d r i) ch = mcChan d ch := rfl

/-- The row of a request is open after it has been used; of its channel the rows and their counters alone have changed (R380, R384). -/
theorem useRow_chan (d : Dev) (ch line : Nat) : ∃ rs cs as, mcChan (useRow d ch line) ch = { mcChan d ch with rows := rs, counts := cs, acts := as } ∧
    mget none rs (mcBank d line) = some (mcRow d line) := by
  by_cases h : openRow (mcChan d ch) (mcBank d line) = some (mcRow d line)
  · exact ⟨_, _, _, by rw [useRow, if_pos h], h⟩
  · refine ⟨(activateRow (mcChan d ch) (mcBank d line) (mcRow d line)).rows, (activateRow (mcChan d ch) (mcBank d line) (mcRow d line)).counts,
      (activateRow (mcChan d ch) (mcBank d line) (mcRow d line)).acts, ?_, mget_mset_self ..⟩
    rw [useRow, if_neg h]
    exact mcChan_setMc_self ..

theorem rd_useRow_reads (d : Dev) (ch line : Nat) : rd (useRow d ch line) .mcCnt (ch * 10) = rd d .mcCnt (ch * 10) := by
  unfold useRow
  dsimp only
  split
  · rfl
  · exact rd_bumpN_ne (setMc d ch _) 1 (key_ne_of_index _ (by omega))

theorem issueReq_read {d : Dev} {ch i : Nat} {r : McReq} (hq : (mcChan d ch).q[i]? = some r) (hw : r.write = false) : issueReq d ch i =
    bump (setMc (useRow d ch r.line) ch
      { useCheck (useRow d ch r.line) ch { mcChan (useRow d ch r.line) ch with q := (mcChan (useRow d ch r.line) ch).q.eraseIdx i } r.line false with
        out := (mcChan (useRow d ch r.line) ch).out ++ [r] }) .mcCnt (ch * 10) := by
  simp [issueReq, hq, hw]

/-- A free slot whose channel serves reads, with few writes waiting, goes to the bank pointer's read (R380). -/
theorem freeSlot_read {d : Dev} {ch b i : Nat} {by_ : Bool} (hd : (mcChan d ch).drain = false) (ht : turnBank d (mcChan d ch) = some (b, i, by_))
    (hn : writesHeld (mcChan d ch) < 24) : ∃ p ps, freeSlot d ch = setMc (issueReq d ch i) ch { mcChan (issueReq d ch i) ch with ptr := p, passed := ps } := by
  refine ⟨(b + 1) % 16, mset 0 (mcChan (issueReq d ch i) ch).passed b (if by_ then mget 0 (mcChan (issueReq d ch i) ch).passed b + 1 else 0), ?_⟩
  unfold freeSlot
  dsimp only
  rw [hd, ht]
  simp only [if_neg (by omega : ¬ 24 ≤ writesHeld (mcChan d ch))]

/-- The channel once a slot has begun. -/
def slotBegun (d : Dev) (ch : Nat) : Dev :=
  setMc d ch { mcChan d ch with slot := (mcChan d ch).slot + 1, turn := (mcChan d ch).turn - 1, refSlot := false }

/-- A slot that goes out and is not left idle by a change of direction (R379 to R381). -/
theorem mcSlotIssue_open {d : Dev} {ch : Nat} (hs : mcServes d ch = true) (h256 : (mcChan d ch).slot < 256) (ho : slotOpen d (mcChan d ch).slot = true)
    (ht : (mcChan d ch).turn = 0) : mcSlotIssue ch d =
      match (if (mcChan d ch).sched then slotHolder (mcChan d ch) (mcChan d ch).slot else none) with
      | some c => if (mcChan d ch).refSlot then slotBegun d ch else trySelfRef (reservedSlot (slotBegun d ch) ch c) ch
      | none => trySelfRef (freeSlot (slotBegun d ch) ch) ch := by
  unfold mcSlotIssue
  dsimp only
  rw [if_pos ⟨hs, h256⟩, if_neg (by simp [ho, ht])]
  rfl

/-- A slot issues the one read that waits: its row is open, its burst is on the way, and it is counted. -/
theorem mcSlotIssue_read {d : Dev} {ch : Nat} {r : McReq} (hs : mcServes d ch = true) (h256 : (mcChan d ch).slot < 256)
    (ho : slotOpen d (mcChan d ch).slot = true) (ht : (mcChan d ch).turn = 0) (hsch : (mcChan d ch).sched = false) (hq : (mcChan d ch).q = [r])
    (hw : r.write = false) (hout : (mcChan d ch).out = []) (hd : (mcChan d ch).drain = false) (hsr : (mcChan d ch).srWait = false) :
    (mcChan (mcSlotIssue ch d) ch).q = [] ∧ (mcChan (mcSlotIssue ch d) ch).out = [r] ∧
      (mcChan (mcSlotIssue ch d) ch).slot = (mcChan d ch).slot + 1 ∧
      openRow (mcChan (mcSlotIssue ch d) ch) (mcBank d r.line) = some (mcRow d r.line) ∧
      rd (mcSlotIssue ch d) .mcCnt (ch * 10) = satAdd (rd d .mcCnt (ch * 10)) 1 := by
  obtain ⟨e, he⟩ : ∃ e, e = slotBegun d ch := ⟨_, rfl⟩
  have hm : mcChan e ch = { mcChan d ch with slot := (mcChan d ch).slot + 1, turn := (mcChan d ch).turn - 1, refSlot := false } := by
    rw [he]; exact mcChan_setMc_self ..
  have her : e.regs = d.regs := by rw [he]; rfl
  have hqe : (mcChan e ch).q = [r] := by rw [hm]; exact hq
  have hoe : (mcChan e ch).out = [] := by rw [hm]; exact hout
  obtain ⟨p, ps, hf⟩ := freeSlot_read (d := e) (ch := ch) (by rw [hm]; exact hd) (turnBank_one hqe hoe hw) (by simp [writesHeld, hqe, hoe, hw])
  obtain ⟨rs, cs, as, hrow, hopen⟩ := useRow_chan e ch r.line
  obtain ⟨hs', ws, ms, hchk⟩ := useCheck_frame (useRow e ch r.line) ch
    { mcChan (useRow e ch r.line) ch with q := (mcChan (useRow e ch r.line) ch).q.eraseIdx 0 } r.line false
  have hi := issueReq_read (d := e) (ch := ch) (i := 0) (by rw [hqe]; rfl) hw
  have hchan : mcChan (freeSlot e ch) ch = { mcChan d ch with
      slot := (mcChan d ch).slot + 1, turn := (mcChan d ch).turn - 1, refSlot := false, q := [], out := [r], rows := rs, counts := cs, acts := as
      halves := hs', words := ws, mirrors := ms, ptr := p, passed := ps } := by
    rw [hf, mcChan_setMc_self, hi, mcChan_bump, mcChan_setMc_self, hchk, hrow, hm, hq, hout]
    rfl
  have hissue : mcSlotIssue ch d = freeSlot e ch := by
    rw [mcSlotIssue_open hs h256 ho ht, hsch, ← he]
    exact trySelfRef_idle (by rw [hchan]; exact hsr)
  rw [hissue, hchan]
  refine ⟨rfl, rfl, rfl, ?_, ?_⟩
  · rw [mcBank_congr her, mcRow_congr her] at hopen
    exact hopen
  · rw [hf, hi]
    refine (rd_congr (setMc_regs ..) ..).trans ((rd_bumpN_self ..).trans ?_)
    rw [rd_congr (setMc_regs ..), rd_useRow_reads, rd_congr her]

/-- A reservation without a request of its holder leaves its slot idle, and the slot is counted (R381). -/
theorem reservedSlot_idle {d : Dev} {ch c : Nat} (h : ∀ r ∈ (mcChan d ch).q, r.consist ≠ some c) :
    reservedSlot d ch c = bump d .mcCnt (ch * 10 + 7) := by
  have hn : readyAt (mcChan d ch) (fun r => decide (r.consist = some c)) = [] := by
    rw [readyAt, idxWhere, List.filter_eq_nil_iff]
    intro i _
    cases hi : (mcChan d ch).q[i]? with
    | none => simp
    | some r => simp [h r (List.mem_of_getElem? hi)]
  simp only [reservedSlot, hn]

/-- A reserved slot whose holder has no request, and one that a refresh takes, stay idle (R380, R381). -/
theorem mcSlotIssue_reserved {d : Dev} {ch c : Nat} (hs : mcServes d ch = true) (h256 : (mcChan d ch).slot < 256)
    (ho : slotOpen d (mcChan d ch).slot = true) (ht : (mcChan d ch).turn = 0) (hsch : (mcChan d ch).sched = true)
    (hh : slotHolder (mcChan d ch) (mcChan d ch).slot = some c) :
    mcSlotIssue ch d = if (mcChan d ch).refSlot then slotBegun d ch else trySelfRef (reservedSlot (slotBegun d ch) ch c) ch := by
  rw [mcSlotIssue_open hs h256 ho ht, if_pos hsch, hh]

theorem mcSlotIssue_reservedIdle {d : Dev} {ch c : Nat} (hs : mcServes d ch = true) (h256 : (mcChan d ch).slot < 256)
    (ho : slotOpen d (mcChan d ch).slot = true) (ht : (mcChan d ch).turn = 0) (hsch : (mcChan d ch).sched = true)
    (hh : slotHolder (mcChan d ch) (mcChan d ch).slot = some c) (hr : (mcChan d ch).refSlot = false)
    (hq : ∀ r ∈ (mcChan d ch).q, r.consist ≠ some c) (hw : (mcChan d ch).srWait = false) :
    mcSlotIssue ch d = bump (setMc d ch { mcChan d ch with slot := (mcChan d ch).slot + 1, turn := 0 }) .mcCnt (ch * 10 + 7) := by
  have hb : slotBegun d ch = setMc d ch { mcChan d ch with slot := (mcChan d ch).slot + 1, turn := 0 } := by
    rw [slotBegun, ht, ← hr]
  have hm : mcChan (slotBegun d ch) ch = { mcChan d ch with slot := (mcChan d ch).slot + 1, turn := 0 } := by rw [hb, mcChan_setMc_self]
  rw [mcSlotIssue_reserved hs h256 ho ht hsch hh, hr, if_neg (by decide), reservedSlot_idle (by rw [hm]; exact hq),
    trySelfRef_idle (by rw [mcChan_bump, hm]; exact hw), hb]

/-! ## Returns (R375, R382, R385, R386) -/

/-- A channel whose last burst came back good. -/
def edcGood (d : Dev) (ch : Nat) : Dev := setMc d ch { mcChan d ch with edcRun := 0 }

/-- A good read that its fill entry waits for: the burst leaves, and every entry of the line has come back without error (R330). -/
theorem deliverRead_fill {d : Dev} {ch : Nat} {r : McReq} {rest : List McReq} (ho : (mcChan d ch).out = r :: rest) (hw : r.write = false)
    (hf : r.fill = true) : mcChan (deliverRead d ch r false []) ch = { mcChan d ch with out := rest } ∧
      ∀ f ∈ (deliverRead d ch r false []).cache.fills, f.line = r.line → f.back = true ∧ f.bad = false := by
  have hm : mcChan (markLine d r.line false) ch = mcChan d ch := rfl
  have hd : deliverRead d ch r false [] =
      modFill (setMc (markLine d r.line false) ch { mcChan d ch with out := rest }) r.line
        (fun f => { f with back := true, bad := false, wrong := [] }) := by
    unfold deliverRead
    dsimp only
    rw [hm, ho]
    simp [hw, hf, wrongBytes]
  rw [hd]
  refine ⟨mcChan_setMc_self (markLine d r.line false) ch _, fun f hf' hl => ?_⟩
  obtain ⟨g, -, hg⟩ := List.mem_map.mp hf'
  by_cases hgl : g.line = r.line
  · rw [if_pos hgl] at hg; subst hg; exact ⟨rfl, rfl⟩
  · rw [if_neg hgl] at hg; subst hg; exact absurd hl hgl

/-- A read burst that returns with its CRC good goes on to the check of its word, where words are kept, and to its slice (R375, R382). -/
theorem mcReadReturn_good {d : Dev} {ch : Nat} {r : McReq} {rest : List McReq} {e : ReadCheck} (hs : mcServes d ch = true)
    (ho : (mcChan d ch).out = r :: rest) (he : e.edcOk = true) (hfl : e.flips = []) : mcReadReturn ch e d =
      if fld d .mcGlobal 0 22 22 = 1 then trySelfRef (eccDecode (edcGood d ch) ch r e) ch else trySelfRef (deliverRead (edcGood d ch) ch r false []) ch := by
  unfold mcReadReturn
  rw [ho]
  simp only [hs, he, hfl, Bool.not_true, Bool.and_false, if_true]
  simp [edcGood]

/-- A failed CRC with retries left sends the burst again (R385). -/
theorem mcReadReturn_retries {d : Dev} {ch : Nat} {r : McReq} {rest : List McReq} {e : ReadCheck} (hs : mcServes d ch = true)
    (ho : (mcChan d ch).out = r :: rest) (hen : fld d .mcCtrl (ch / 2) 7 7 = 1) (he : e.edcOk = false) (ht : r.tries < fld d .mcCtrl (ch / 2) 11 8) :
    mcReadReturn ch e d = retryRead (edcFailed d ch) ch r := by
  unfold mcReadReturn
  rw [ho]
  simp [hs, hen, he, ht]

@[simp] theorem logBook_mc (d : Dev) (cls code : Nat) (data : List Nat) : (logBook d cls code data).mc = d.mc := by rw [logBook_frame]

/-- A failure is counted in the channel; the sixteenth in a row is reported (R385, R403). -/
theorem mcChan_edcFailed (d : Dev) (ch : Nat) : mcChan (edcFailed d ch) ch = { mcChan d ch with edcRun := (mcChan d ch).edcRun + 1 } := by
  unfold edcFailed
  dsimp only
  split
  · rw [mcChan, logBook_mc]; exact mcChan_setMc_self d ch _
  · exact mcChan_setMc_self ..

/-- The Log Book writes SBOX_LOG alone among the registers. -/
theorem logBook_sameRegs (d : Dev) (cls code : Nat) (data : List Nat) : SameRegs [.sboxLog] d (logBook d cls code data) := by
  unfold logBook
  split
  · exact .trans (.of_regs rfl) (.setFld 14 0 _ (by decide) (by omega))
  · exact .refl

theorem edcFailed_sameRegs (d : Dev) (ch : Nat) : SameRegs [.sboxEvent, .sboxLog] d (edcFailed d ch) := by
  unfold edcFailed
  dsimp only
  split
  · refine .trans (.trans (.of_regs rfl) ?_) (SameRegs.mono (logBook_sameRegs _ _ _ _) (by decide))
    exact .setFld 5 5 1 (by decide) (by omega)
  · exact .of_regs rfl

/-- A half with no bit in error is clean (R386). -/
theorem decodeHalf_clean (free half : Nat) : decodeHalf free half [] 0 = (.clean, []) := rfl

theorem popcN_zero (k : Nat) : popcN k 0 = 0 := by
  induction k with
  | zero => rfl
  | succ k ih => simp [popcN, ih]

theorem achk_lt (line : Nat) : achk line < 4096 := Nat.mod_lt _ (by decide)

/-- A check word whose code agrees with the line and whose ACHK is the line's decodes clean (R375, R386). -/
theorem decodeCopy_clean {line : Nat} {w : BitVec 32} (free : Nat) (h0 : bitsOf w.toNat 9 0 = 0) (h1 : bitsOf w.toNat 19 10 = 0)
    (ha : bitsOf w.toNat 31 20 = achk line) : decodeCopy free line w [] = .good false [] := by
  have hm : achk line % 4096 = achk line := Nat.mod_eq_of_lt (achk_lt line)
  simp [decodeCopy, h0, h1, ha, hm, popcN_zero, decodeHalf_clean]

end Sys2Proof.Machine
end

section
namespace Sys2Proof.Machine

/-! ## A read that returns clean (R375, R386) -/

theorem bitsOf_eq_zero {n hi lo : Nat} (h : ∀ k, lo ≤ k → k ≤ hi → n.testBit k = false) : bitsOf n hi lo = 0 := by
  refine Nat.eq_of_testBit_eq fun k => ?_
  rw [testBit_bitsOf, Nat.zero_testBit]
  by_cases hk : k < hi + 1 - lo
  · rw [h _ (by omega) (by omega), Bool.and_false]
  · simp [hk]

/-- A stored word that agrees with the line's code arrives with no code bit in error, and with its own ACHK (R375). -/
theorem arrivedWord_clean {d : Dev} {v : McChan} {line : Nat} {w : BitVec 32}
    (h : ∀ bs, heldLine d v line = some bs → bitsOf w.toNat 19 0 = bitsOf (wordOf d line bs).toNat 19 0) :
    (∀ k, k ≤ 19 → (arrivedWord d v line w 0).toNat.testBit k = false) ∧ bitsOf (arrivedWord d v line w 0).toNat 31 20 = bitsOf w.toNat 31 20 := by
  obtain ⟨own, how⟩ : ∃ own, own = (match heldLine d v line with | some bs => wordOf d line bs | none => w) := ⟨_, rfl⟩
  have hlow : ∀ k, k ≤ 19 → own.toNat.testBit k = w.toNat.testBit k := by
    intro k hk
    rw [how]
    cases hb : heldLine d v line with
    | none => rfl
    | some bs =>
      have := congrArg (fun n => n.testBit k) (h bs hb)
      simp only [testBit_bitsOf] at this
      simpa [show k < 20 by omega] using this.symm
  have harr : arrivedWord d v line w 0 = ((w ^^^ own ^^^ 0) &&& 0xFFFFF#32) ||| ((w ^^^ 0) &&& 0xFFF00000#32) := by
    rw [how]; rfl
  have hbit (k : Nat) : (arrivedWord d v line w 0).toNat.testBit k =
      (((w.toNat.testBit k ^^ own.toNat.testBit k) && (0xFFFFF : Nat).testBit k) || (w.toNat.testBit k && (0xFFF00000 : Nat).testBit k)) := by
    rw [harr]
    simp [Nat.testBit_xor, Nat.testBit_and, Nat.testBit_or]
  have hcode : ∀ k < 20, (0xFFF00000 : Nat).testBit k = false := by decide
  have hachk : ∀ k < 12, (0xFFFFF : Nat).testBit (20 + k) = false ∧ (0xFFF00000 : Nat).testBit (20 + k) = true := by decide
  constructor
  · intro k hk
    rw [hbit, hlow k hk, hcode k (by omega), Bool.xor_self, Bool.false_and, Bool.and_false, Bool.or_false]
  · refine Nat.eq_of_testBit_eq fun k => ?_
    rw [testBit_bitsOf, testBit_bitsOf, hbit]
    by_cases hk : k < 12
    · rw [(hachk k hk).1, (hachk k hk).2, Bool.and_false, Bool.false_or, Bool.and_true]
    · simp [hk]

/-- A clean check word delivers the line as it stands (R375, R386). -/
theorem eccDecode_clean {d : Dev} {ch : Nat} {r : McReq} {e : ReadCheck} {h : CheckHalf} {w : BitVec 32} (hfl : e.flips = []) (hwd : e.word = 0)
    (hh : (mcChan d ch).halves.find? (fun x => decide (x.num = halfOf d r.line)) = some h) (hw : h.words[mcCol d r.line % 8]? = some w)
    (ha : bitsOf w.toNat 31 20 = achk r.line)
    (hb : ∀ bs, heldLine d (mcChan d ch) r.line = some bs → bitsOf w.toNat 19 0 = bitsOf (wordOf d r.line bs).toNat 19 0) :
    eccDecode d ch r e = deliverRead (tookFree (tookFree d)) ch r false [] := by
  obtain ⟨hlow, hhigh⟩ := arrivedWord_clean hb
  have hc (free : Nat) : decodeCopy free r.line (arrivedWord d (mcChan d ch) r.line w 0) [] = .good false [] :=
    decodeCopy_clean free (bitsOf_eq_zero fun k _ hk => hlow k (by omega)) (bitsOf_eq_zero fun k _ hk => hlow k hk) (hhigh.trans ha)
  have hbits : (e.flips.map Fin.val).eraseDups = [] := by rw [hfl]; rfl
  unfold eccDecode
  dsimp only
  rw [hh, Option.getD_some, hw, Option.getD_some, hbits, hwd, hc]

/-- A read burst whose CRC and check word are good leaves, and its fill entry has come back without error (R330, R375, R382). -/
theorem mcReadReturn_clean {d : Dev} {ch : Nat} {r : McReq} {rest : List McReq} {e : ReadCheck} (hs : mcServes d ch = true)
    (ho : (mcChan d ch).out = r :: rest) (hwr : r.write = false) (hf : r.fill = true) (hsr : (mcChan d ch).srWait = false) (he : e.edcOk = true)
    (hfl : e.flips = []) (hwd : e.word = 0)
    (hc : fld d .mcGlobal 0 22 22 = 0 ∨ ∃ h w, (mcChan d ch).halves.find? (fun x => decide (x.num = halfOf d r.line)) = some h ∧
      h.words[mcCol d r.line % 8]? = some w ∧ bitsOf w.toNat 31 20 = achk r.line ∧
      ∀ bs, heldLine d (mcChan d ch) r.line = some bs → bitsOf w.toNat 19 0 = bitsOf (wordOf d r.line bs).toNat 19 0) :
    (mcChan (mcReadReturn ch e d) ch).out = rest ∧ (mcChan (mcReadReturn ch e d) ch).edcRun = 0 ∧
      ∀ f ∈ (mcReadReturn ch e d).cache.fills, f.line = r.line → f.back = true ∧ f.bad = false := by
  have hm : mcChan (edcGood d ch) ch = { mcChan d ch with edcRun := 0 } := mcChan_setMc_self ..
  obtain ⟨g, hg, hgc⟩ : ∃ g, mcReadReturn ch e d = trySelfRef (deliverRead g ch r false []) ch ∧ mcChan g ch = mcChan (edcGood d ch) ch := by
    rw [mcReadReturn_good hs ho he hfl]
    rcases hc with h0 | ⟨h, w, hh, hw, ha, hb⟩
    · exact ⟨edcGood d ch, by rw [if_neg (by omega)], rfl⟩
    · by_cases h1 : fld d .mcGlobal 0 22 22 = 1
      · rw [if_pos h1]
        refine ⟨tookFree (tookFree (edcGood d ch)), congrArg (trySelfRef · ch) (eccDecode_clean (h := h) (w := w) hfl hwd ?_ hw ha ?_), rfl⟩
        · rw [hm]; exact hh
        · rw [hm]; exact hb
      · exact ⟨edcGood d ch, if_neg h1, rfl⟩
  have hgo : (mcChan g ch).out = r :: rest := by rw [hgc, hm]; exact ho
  obtain ⟨hchan, hfills⟩ := deliverRead_fill hgo hwr hf
  rw [hg, trySelfRef_idle (by rw [hchan, hgc, hm]; exact hsr)]
  exact ⟨by rw [hchan], by rw [hchan, hgc, hm], hfills⟩

/-! ## Bursts that are tried again (R385) -/

/-- A read burst that is tried again stands first on the way, and its retry is counted. -/
theorem retryRead_again {d : Dev} {ch : Nat} {r : McReq} {rest : List McReq} (hc : ch < 16) (ho : (mcChan d ch).out = r :: rest) :
    (mcChan (retryRead (edcFailed d ch) ch r) ch).out = { r with tries := r.tries + 1 } :: rest ∧
      (mcChan (retryRead (edcFailed d ch) ch r) ch).edcRun = (mcChan d ch).edcRun + 1 ∧
      rd (retryRead (edcFailed d ch) ch r) .mcCnt (ch * 10 + 3) = satAdd (rd d .mcCnt (ch * 10 + 3)) 1 := by
  have hm : mcChan (retryRead (edcFailed d ch) ch r) ch =
      { mcChan d ch with out := { r with tries := r.tries + 1 } :: rest, edcRun := (mcChan d ch).edcRun + 1 } := by
    unfold retryRead
    dsimp only
    rw [mcChan_bump, mcChan_setMc_self, mcChan_edcFailed]
    simp [ho]
  refine ⟨by rw [hm], by rw [hm], ?_⟩
  refine (rd_bumpN_self ..).trans ?_
  rw [rd_congr (setMc_regs ..), edcFailed_sameRegs d ch .mcCnt (ch * 10 + 3) (by decide) (by omega)]

/-- A write burst whose CRC returns good is done (R385). -/
theorem returnedWriteCrc_good {d : Dev} {ch : Nat} {r : McReq} {rest : List McReq} (hs : mcServes d ch = true) (ho : (mcChan d ch).wout = r :: rest)
    (hsr : (mcChan d ch).srWait = false) : returnedWriteCrc ch true d = setMc d ch { mcChan d ch with wout := rest, edcRun := 0 } := by
  unfold returnedWriteCrc
  dsimp only
  rw [ho]
  simp only [hs, if_true]
  exact trySelfRef_idle (by rw [mcChan_setMc_self]; exact hsr)

/-- A write burst with a failed CRC and retries left is sent again (R385). -/
theorem returnedWriteCrc_again {d : Dev} {ch : Nat} {r : McReq} {rest : List McReq} (hs : mcServes d ch = true) (ho : (mcChan d ch).wout = r :: rest)
    (ht : r.tries < fld d .mcCtrl (ch / 2) 11 8) : (mcChan (returnedWriteCrc ch false d) ch).wout = { r with tries := r.tries + 1 } :: rest := by
  unfold returnedWriteCrc
  dsimp only
  rw [ho]
  simp only [hs, if_true, ht, Bool.false_eq_true, if_false]
  rw [mcChan_bump, mcChan_setMc_self]

/-! ## Refresh and row disturbance (R380, R381, R383, R384) -/

/-- The refresh that is due, with none owed before: done at once where its bank is idle, and postponed otherwise. -/
theorem refreshRow_due {d : Dev} {ch b : Nat} (ha : mcAwake d ch = true) (ho : (mcChan d ch).owed = [])
    (hb : b = if fld d .mcCtrl (ch / 2) 3 3 = 1 then 16 else (mcChan d ch).refBank) :
    refreshRow ch d = setMc d ch { (if bankBusy d (mcChan d ch) b then mcChan d ch else refreshBank (mcChan d ch) b) with
      owed := if bankBusy d (mcChan d ch) b then [(b, 0)] else []
      refSlot := (mcChan d ch).refSlot || !bankBusy d (mcChan d ch) b
      refBank := if fld d .mcCtrl (ch / 2) 3 3 = 1 then (mcChan d ch).refBank else ((mcChan d ch).refBank + 1) % 16 } := by
  unfold refreshRow
  dsimp only
  rw [if_pos ha, ho]
  simp only [decide_eq_true_eq, ← hb, List.map_nil, List.nil_append]
  cases hbusy : bankBusy d (mcChan d ch) b <;> simp [hbusy]

theorem refreshBank_one {v : McChan} {b : Nat} (hb : b < 16) : refreshBank v b = closeRow v b := if_neg (by omega)

/-- A refresh of an idle bank closes its row (R380). -/
theorem refreshRow_bank {d : Dev} {ch : Nat} (ha : mcAwake d ch = true) (hall : fld d .mcCtrl (ch / 2) 3 3 = 0) (ho : (mcChan d ch).owed = [])
    (hb : (mcChan d ch).refBank < 16) (hq : ∀ r ∈ (mcChan d ch).q, mcBank d r.line ≠ (mcChan d ch).refBank) :
    refreshRow ch d = setMc d ch { mcChan d ch with
      rows := mset none (mcChan d ch).rows (mcChan d ch).refBank none, refBank := ((mcChan d ch).refBank + 1) % 16, refSlot := true } := by
  have hn : ¬ fld d .mcCtrl (ch / 2) 3 3 = 1 := by omega
  have hidle : bankBusy d (mcChan d ch) (mcChan d ch).refBank = false := by
    rw [bankBusy, List.any_eq_false]
    intro r hr
    simpa [Nat.ne_of_lt hb] using hq r hr
  rw [refreshRow_due ha ho rfl]
  simp only [if_neg hn, hidle, Bool.not_false, Bool.or_true, Bool.false_eq_true, if_false, refreshBank_one hb, closeRow, ← ho]

/-- A refresh of a bank with requests waiting is postponed (R380). -/
theorem refreshRow_postponed {d : Dev} {ch : Nat} (ha : mcAwake d ch = true) (hall : fld d .mcCtrl (ch / 2) 3 3 = 0) (ho : (mcChan d ch).owed = [])
    (hq : ∃ r ∈ (mcChan d ch).q, mcBank d r.line = (mcChan d ch).refBank) :
    refreshRow ch d = setMc d ch { mcChan d ch with refBank := ((mcChan d ch).refBank + 1) % 16, owed := [((mcChan d ch).refBank, 0)] } := by
  have hn : ¬ fld d .mcCtrl (ch / 2) 3 3 = 1 := by omega
  have hbusy : bankBusy d (mcChan d ch) (mcChan d ch).refBank = true := by
    obtain ⟨r, hr, h⟩ := hq
    exact List.any_eq_true.mpr ⟨r, hr, by simp [h]⟩
  rw [refreshRow_due ha ho rfl]
  simp only [if_neg hn, hbusy, Bool.not_true, Bool.or_false, if_true]

/-- With no request waiting, a refresh of every bank closes all of them (R380). -/
theorem refreshRow_all {d : Dev} {ch : Nat} (ha : mcAwake d ch = true) (hall : fld d .mcCtrl (ch / 2) 3 3 = 1) (ho : (mcChan d ch).owed = [])
    (hq : (mcChan d ch).q = []) : refreshRow ch d = setMc d ch { mcChan d ch with rows := [], refSlot := true } := by
  have hidle : bankBusy d (mcChan d ch) 16 = false := by rw [bankBusy, hq]; rfl
  rw [refreshRow_due (b := 16) ha ho (by rw [if_pos hall])]
  simp only [if_pos hall, hidle, Bool.not_false, Bool.or_true, Bool.false_eq_true, if_false, refreshBank, if_true, ← ho]

/-- A row counter at its threshold is zeroed, with its bank precharged after the neighbours' activates (R384). -/
theorem rowDisturbRefresh_zeroes {d : Dev} {ch bank : Nat} {e : Nat × Nat} (ha : mcAwake d ch = true)
    (he : (mget [] (mcChan d ch).counts bank).find? (fun e => decide (rdThresh d ≤ e.2)) = some e) :
    mget 0 (mget [] (mcChan (rowDisturbRefresh ch bank d) ch).counts bank) e.1 = 0 ∧ openRow (mcChan (rowDisturbRefresh ch bank d) ch) bank = none ∧
      rd (rowDisturbRefresh ch bank d) .mcCnt (ch * 10 + 6) = satAdd (rd d .mcCnt (ch * 10 + 6)) 1 := by
  unfold rowDisturbRefresh
  dsimp only
  rw [he]
  simp only [ha, if_true]
  refine ⟨?_, ?_, ?_⟩
  · rw [mcChan_bump, mcChan_bumpN, mcChan_setMc_self, mget_mset_self, mget_mset_self]
  · rw [mcChan_bump, mcChan_bumpN, mcChan_setMc_self]
    exact mget_mset_self ..
  · refine (rd_bumpN_self ..).trans ?_
    rw [rd_bumpN_ne _ _ (key_ne_of_index _ (by omega))]
    rfl

theorem mcChan_clearCounts_self (d : Dev) (ch : Nat) : mcChan (clearCounts d ch) ch = { mcChan d ch with counts := [], acts := [] } := mcChan_setMc_self ..

theorem mcChan_clearCounts_ne (d : Dev) {ch j : Nat} (h : j ≠ ch) : mcChan (clearCounts d ch) j = mcChan d j := by
  unfold clearCounts
  dsimp only
  rw [mcChan_setMc_ne _ _ h]
  split <;> rfl

/-- Clearing the tables of a list of channels leaves the requests of every channel, and clears those of the channels of the list. -/
theorem mcChan_foldl_clearCounts (l : List Nat) (d : Dev) (ch : Nat) :
    mcChan (l.foldl clearCounts d) ch = if ch ∈ l then { mcChan d ch with counts := [], acts := [] } else mcChan d ch := by
  induction l generalizing d with
  | nil => simp
  | cons j l ih =>
    rw [List.foldl_cons, ih]
    by_cases h : ch = j
    · subst h
      rw [mcChan_clearCounts_self]
      simp
    · rw [mcChan_clearCounts_ne _ h]
      simp [h]

theorem mem_clearCounts (d : Dev) (ch : Nat) : (clearCounts d ch).mem = d.mem := by
  unfold clearCounts
  dsimp only
  split <;> rfl

/-! ## Device temperature (R383, R391) -/

/-- A device temperature writes the error record and its announcements beside its own field. -/
theorem mcErrAt_sameRegs (d : Dev) {ch : Nat} (reason a : Nat) (hc : ch < 16) : SameRegs [.mcErr, .mcErrAddr, .sboxEvent, .sboxLog] d (mcErrAt d ch reason a) := by
  have hev : SameRegs [.mcErr, .mcErrAddr, .sboxEvent, .sboxLog] d (sboxEvent d 5) := .setFld 5 5 1 (by decide) (by omega)
  unfold mcErrAt
  dsimp only
  split
  · exact hev
  · refine .trans (.trans hev ?_) (SameRegs.mono (logBook_sameRegs _ _ _ _) (by decide))
    unfold recordErrAt recordErr
    split
    · exact .refl
    · exact .trans (.wr _ (by decide) (by omega)) (.wr _ (by decide) (by omega))

/-- A record taken while none stands has its VALID bit (R391). -/
theorem fld_recordErrAt {d : Dev} {r ra : Reg} {i : Nat} (v a : Nat) (h : fld d r i 39 39 ≠ 1) (hne : ra.ctorIdx ≠ r.ctorIdx) (hi : i < 4096) :
    fld (recordErrAt d r ra i v a) r i 39 39 = 1 := by
  unfold recordErrAt recordErr
  rw [if_neg h, if_neg h, fld, rd_wr_ne _ _ (key_ne hne.symm hi hi), rd_wr_self, bitsOf, BitVec.toNat_ofNat, Nat.shiftRight_eq_div_pow]
  omega

/-- After an event of a channel, MC_ERR of its controller holds a record (R391). -/
theorem mcErrAt_recorded (d : Dev) {ch : Nat} (reason a : Nat) (hc : ch < 16) : fld (mcErrAt d ch reason a) .mcErr (ch / 2) 39 39 = 1 := by
  have hk : ch / 2 < 4096 := by omega
  have hev : fld (sboxEvent d 5) .mcErr (ch / 2) 39 39 = fld d .mcErr (ch / 2) 39 39 :=
    SameRegs.fld (rs := [.sboxEvent]) (.setFld 5 5 1 (by decide) (by omega)) 39 39 (by decide) hk
  unfold mcErrAt
  dsimp only
  split
  · next h => exact hev.trans h
  · next h =>
    rw [(logBook_sameRegs _ _ _ _).fld 39 39 (by decide) hk]
    exact fld_recordErrAt _ _ (fun h' => h (hev.symm.trans h')) (by decide) hk

/-- A device temperature stands in its field, and above 95 °C in an error record (R383, R391). -/
theorem takeTemp_shows (d : Dev) {ch : Nat} (t : Byte) (hc : ch < 16) : fld (takeTemp d ch t.toNat) .mcStatus ch 36 29 = t.toNat ∧
    (135 < t.toNat → fld (takeTemp d ch t.toNat) .mcErr (ch / 2) 39 39 = 1) := by
  have hf : fld (setFld d .mcStatus ch 36 29 t.toNat) .mcStatus ch 36 29 = t.toNat := by
    rw [fld_setFld_self d .mcStatus ch _ (by omega) (by omega)]
    exact Nat.mod_eq_of_lt t.isLt
  unfold takeTemp
  dsimp only
  split
  · exact ⟨by rw [(mcErrAt_sameRegs _ 6 0 hc).fld 36 29 (by decide) (by omega), hf], fun _ => mcErrAt_recorded _ 6 0 hc⟩
  · next h => exact ⟨hf, fun h' => absurd h' h⟩

/-! ## The arms of a channel's own instructions -/

theorem exec_mcSlotIssue (ch : Fin 16) (s : State) : exec (.mcSlotIssue ch) s = onDev s (mcSlotIssue ch.val) := rfl
theorem exec_frameBoundary (ch : Fin 16) (s : State) : exec (.frameBoundary ch) s = onDev s (frameBoundary ch.val) := rfl
theorem exec_mcReadReturn (ch : Fin 16) (e : ReadCheck) (s : State) : exec (.mcReadReturn ch e) s = onDev s (mcReadReturn ch.val e) := rfl
theorem exec_returnedWriteCrc (ch : Fin 16) (ok : Bool) (s : State) : exec (.returnedWriteCrc ch ok) s = onDev s (returnedWriteCrc ch.val ok) := rfl
theorem exec_refresh (ch : Fin 16) (s : State) : exec (.refresh ch) s = onDev s (refreshRow ch.val) := rfl
theorem exec_rowDisturbRefresh (ch bank : Fin 16) (s : State) : exec (.rowDisturbRefresh ch bank) s = onDev s (rowDisturbRefresh ch.val bank.val) := rfl
theorem exec_rowCounterClear (s : State) : exec .rowCounterClear s = onDev s rowCounterClear := rfl
theorem exec_deviceTempRead (ch : Fin 16) (t : Byte) (s : State) : exec (.deviceTempRead ch t) s = onDev s (deviceTempRead ch.val t.toNat) := rfl

/-- A row that acts on the device alone makes the device that its function gives. -/
theorem makes_of_onDev {i : Instr} {s : State} {f : Dev → Dev} {d : Dev} (h : exec i s = onDev s f) (hf : f s.dev = d) : Makes i s d := by
  rw [Makes, h, onDev, hf]

/-- Settles O56. -/
theorem channelRows : Obligations.ChannelRows := by
  intro s ch d v
  have hc := ch.isLt
  refine ⟨?_, ?_, ?_, ?_, ?_, ?_, ?_, ?_, ?_, ?_, ?_, ?_⟩
  · intro r hs h256 ho ht hsch hq hw hout hd hsr
    exact ⟨_, exec_mcSlotIssue ch s, mcSlotIssue_read hs h256 ho ht hsch hq hw hout hd hsr⟩
  · intro c hs h256 ho ht hsch hh
    refine ⟨fun hr hq hsr => makes_of_onDev (exec_mcSlotIssue ch s) (mcSlotIssue_reservedIdle hs h256 ho ht hsch hh hr hq hsr), fun hr => ?_⟩
    refine makes_of_onDev (exec_mcSlotIssue ch s) ?_
    rw [mcSlotIssue_reserved hs h256 ho ht hsch hh, if_pos hr, slotBegun, ht]
  · intro hs h256
    exact makes_of_onDev (exec_frameBoundary ch s) (if_pos ⟨hs, h256⟩)
  · intro r rest e hs ho hw hf hsr he hfl hwd _ hecc
    exact ⟨_, exec_mcReadReturn ch e s, mcReadReturn_clean hs ho hw hf hsr he hfl hwd hecc⟩
  · intro r rest e hs ho hen he ht
    refine ⟨_, exec_mcReadReturn ch e s, ?_⟩
    rw [mcReadReturn_retries hs ho hen he ht]
    exact retryRead_again hc ho
  · intro r rest hs ho hsr
    exact makes_of_onDev (exec_returnedWriteCrc ch true s) (returnedWriteCrc_good hs ho hsr)
  · intro r rest hs ho ht
    exact ⟨_, exec_returnedWriteCrc ch false s, returnedWriteCrc_again hs ho ht⟩
  · intro ha hall ho hb
    exact ⟨fun hq => makes_of_onDev (exec_refresh ch s) (refreshRow_bank ha hall ho hb hq),
      fun hq => makes_of_onDev (exec_refresh ch s) (refreshRow_postponed ha hall ho hq)⟩
  · intro ha hall ho hq
    exact makes_of_onDev (exec_refresh ch s) (refreshRow_all ha hall ho hq)
  · intro bank e ha he
    exact ⟨_, exec_rowDisturbRefresh ch bank s, rowDisturbRefresh_zeroes ha he⟩
  · intro hr
    have hm : mcChan (rowCounterClear d) ch.val = { mcChan d ch.val with counts := [], acts := [] } := by
      rw [rowCounterClear, if_pos hr, mcChan_foldl_clearCounts, if_pos (List.mem_range.mpr hc)]
    refine ⟨_, exec_rowCounterClear s, by rw [hm], by rw [hm], by rw [hm], ?_⟩
    rw [rowCounterClear, if_pos hr]
    exact foldl_proj Dev.mem _ (fun e ch _ => mem_clearCounts e ch) _
  · intro t ha
    refine ⟨_, exec_deviceTempRead ch t s, ?_⟩
    rw [deviceTempRead, if_pos ha]
    exact takeTemp_shows d t hc

end Sys2Proof.Machine
end

section
namespace Sys2Proof.Machine

/-! ## How many writes a run of bytes puts into the channels (R328, R378) -/

/-- An access that meets an error in the arrays leaves the channels (R333). -/
theorem meetErrors_mc (d : Dev) (line : Nat) (reads : Bool) : (meetErrors d line reads).mc = d.mc := by
  unfold meetErrors
  dsimp only
  split <;> rfl

theorem meetErrors_sameRegs (d : Dev) (line : Nat) (reads : Bool) : SameRegs [.cacheCnt] d (meetErrors d line reads) := by
  unfold meetErrors
  dsimp only
  split
  · exact .refl
  · exact .trans (.trans (.of_regs rfl) (.bumpN _ (by decide) (by omega))) (.bumpN _ (by decide) (by omega))

/-- A slice that takes a write puts it into its channel, and does nothing else to the channels. -/
theorem acceptWrite_mc (d : Dev) (a : Nat) (bs : List Byte) (by_ : Option Nat) : (acceptWrite d a bs by_).mc = (queueWrite d a bs.length by_).mc := by
  unfold acceptWrite
  dsimp only
  split
  · split <;> exact meetErrors_mc ..
  · rfl

theorem acceptWrite_mcGlobal (d : Dev) (a : Nat) (bs : List Byte) (by_ : Option Nat) : rd (acceptWrite d a bs by_) .mcGlobal 0 = rd d .mcGlobal 0 := by
  have hb (e : Dev) (i : Nat) (hi : i < 4096) : rd (bump e .cacheCnt i) .mcGlobal 0 = rd e .mcGlobal 0 :=
    rd_bumpN_ne _ _ (key_ne (by decide) (by omega) hi)
  unfold acceptWrite
  dsimp only
  split
  · split <;> exact (hb _ _ (by omega)).trans (meetErrors_sameRegs _ _ _ .mcGlobal 0 (by decide) (by omega))
  · rfl

theorem chanOf_congr {d e : Dev} (h : rd e .mcGlobal 0 = rd d .mcGlobal 0) (a : Nat) : chanOf e a = chanOf d a := by
  rw [chanOf, chanOf, channels_congr h]

theorem writesHeld_queueWrite (d : Dev) (a n : Nat) (by_ : Option Nat) (ch : Nat) :
    writesHeld (mcChan (queueWrite d a n by_) ch) = writesHeld (mcChan d ch) + if chanOf d (a / 64 * 64) = ch then 1 else 0 := by
  unfold queueWrite queueReq
  dsimp only
  by_cases h : ch = chanOf d (a / 64 * 64)
  · subst h
    rw [mcChan_setMc_self, if_pos rfl]
    simp [writesHeld]
    omega
  · rw [mcChan_setMc_ne _ _ h, if_neg (Ne.symm h), Nat.add_zero]

/-- Each piece of a run of bytes is one write more in its channel. -/
theorem writesHeld_acceptWrites (l : List (Nat × List Byte)) (d : Dev) (ch : Nat) :
    writesHeld (mcChan (l.foldl (fun d p => acceptWrite d p.1 p.2 none) d) ch) =
      writesHeld (mcChan d ch) + (l.map Prod.fst).countP (fun a => decide (chanOf d (a / 64 * 64) = ch)) := by
  induction l generalizing d with
  | nil => rfl
  | cons p l ih =>
    have hw : writesHeld (mcChan (acceptWrite d p.1 p.2 none) ch) = writesHeld (mcChan d ch) + if chanOf d (p.1 / 64 * 64) = ch then 1 else 0 := by
      rw [mcChan, acceptWrite_mc, ← mcChan, writesHeld_queueWrite]
    have hc : ∀ a, chanOf (acceptWrite d p.1 p.2 none) a = chanOf d a :=
      chanOf_congr (acceptWrite_mcGlobal d p.1 p.2 none)
    simp only [List.foldl_cons, ih, hw, hc, List.map_cons, List.countP_cons, decide_eq_true_eq]
    omega

/-- A run from a line's start is cut into lines, one after the other. -/
theorem lineParts_addrs {n k a : Nat} {bs : List Byte} (ha : a % 64 = 0) (hk : n ≤ k) (hn : 64 * n ≤ bs.length) :
    ∃ l, (lineParts k a bs).map Prod.fst = (List.range n).map (fun i => a + 64 * i) ++ l := by
  induction n generalizing k a bs with
  | zero => exact ⟨_, rfl⟩
  | succ n ih =>
    obtain ⟨k, rfl⟩ : ∃ k', k = k' + 1 := ⟨k - 1, by omega⟩
    have hne : bs ≠ [] := fun h => by rw [h] at hn; simp at hn
    obtain ⟨l, hl⟩ := ih (k := k) (a := a + 64) (bs := bs.drop 64) (by omega) (by omega) (by rw [List.length_drop]; omega)
    refine ⟨l, ?_⟩
    rw [lineParts, if_neg hne, ha, Nat.sub_zero, List.map_cons, hl, List.range_succ_eq_map, List.map_cons, List.map_map, List.cons_append]
    refine congrArg₂ _ rfl (congrArg (· ++ l) (List.map_congr_left fun i _ => ?_))
    simp only [Function.comp_apply]
    omega

theorem mem_of_mget_ne {α : Type} {d : α} {m : SMap α} {k : Nat} (h : mget d m k ≠ d) : ∃ v, (k, v) ∈ m := by
  induction m with
  | nil => exact absurd rfl h
  | cons e m ih =>
    obtain ⟨k', w⟩ := e
    rw [mget] at h
    split at h
    · next hk => exact ⟨w, hk ▸ List.mem_cons_self⟩
    · split at h
      · exact absurd rfl h
      · obtain ⟨v, hv⟩ := ih h
        exact ⟨v, List.mem_cons_of_mem _ hv⟩

/-- A step that leaves more than 32 writes in a channel that had none has to wait (R328, R380). -/
theorem overfills_of_writes {d e : Dev} {ch : Nat} (hd : writesHeld (mcChan d ch) = 0) (he : 32 < writesHeld (mcChan e ch)) : overfills d e = true := by
  have hne : mget {} e.mc ch ≠ ({} : McChan) := fun h => by
    rw [mcChan, h] at he
    exact absurd he (by decide)
  obtain ⟨v, hv⟩ := mem_of_mget_ne hne
  have hany : e.mc.any (fun x => decide (32 < writesHeld (mcChan e x.1) ∧ writesHeld (mcChan d x.1) < writesHeld (mcChan e x.1)) ||
      (List.range 16).any (fun b => decide (16 ≤ bankReads d x.1 b ∧ bankReads d x.1 b < bankReads e x.1 b))) = true :=
    List.any_eq_true.mpr ⟨_, hv, by simp only [hd, Bool.or_eq_true, decide_eq_true_eq]; exact .inl (by omega)⟩
  rw [overfills, hany, Bool.true_or]

/-! ## A Siding line that no queue takes (R183, R328) -/

theorem length_toLE (n v : Nat) : (toLE n v).length = n := by
  induction n generalizing v with
  | zero => rfl
  | succ n ih => rw [toLE, List.length_cons, ih]

theorem length_wagonBytes (w : Wagon) : (wagonBytes w).length = 20 := by
  simp [wagonBytes, length_toLE]

/-- A Siding line as the model writes it has 20 bytes for each Wagon recorded for it. -/
theorem length_sidingLine (i : Nat) (ws : List Wagon) : 20 * ws.length ≤ (sidingLine i ws).length := by
  have h (ws : List Wagon) : ((ws.map wagonBytes).flatten).length = 20 * ws.length := by
    induction ws with
    | nil => rfl
    | cons w ws ih => rw [List.map_cons, List.flatten_cons, List.length_append, ih, length_wagonBytes, List.length_cons]; omega
  rw [sidingLine, List.length_append, h]
  omega

/-- A Junction's Wagon that must spill, and has a Siding with room, goes to the Siding (R182, R185). -/
theorem acceptOffer_spills {d : Dev} {o : Offer} {k : Consist} {l : ReadyList} (hk : consist d (wConsist o.w) = k)
    (hl : rlist d (listKey (wConsist o.w) (wStage o.w)) = l) (hv : k.valid = true) (hp : k.ph = .running) (he : k.event = 0)
    (ho : o.prod = .junction) (hkey : o.key = none) (hs : wStage o.w ≠ k.resultStage) (hspill : l.spilled = true)
    (hroom : ¬ sidingCap l ≤ l.written - l.moved / 3 * 3) :
    acceptOffer d o = bump (spill (dropOffer d o) (listKey (wConsist o.w) (wStage o.w)) o.w) .dispCnt 0 := by
  have hl' : rlist (dropOffer d o) (listKey (wConsist o.w) (wStage o.w)) = l := hl
  have hk' : consist (dropOffer d o) (wConsist o.w) = k := hk
  unfold acceptOffer
  dsimp only
  rw [hl', hk, ho, hkey]
  simp [hv, hp, he, hs, mustStall, mustSpill, hspill, hroom, routeFlow, hk', produced]

/-- A spilled Wagon is written behind those recorded for its Siding line. -/
theorem spill_mc {d : Dev} {k : Nat} {w : Wagon} {l : ReadyList} (hl : rlist d k = l) (hn : l.written % sidingCap l % 3 ≠ 0)
    (hg : gddrOut d (consist d (k / 64)).port (l.sidingBase + 64 * (l.written % sidingCap l / 3)) 64 = none) :
    (spill d k w).mc = (devWrite d (l.sidingBase + 64 * (l.written % sidingCap l / 3))
      (sidingLine (l.written % sidingCap l / 3) (l.tail ++ [w]))).1.mc := by
  unfold spill
  dsimp only
  rw [hl, hg, if_neg hn]
  rfl

/-- A list that has spilled one Wagon, with the given Wagons recorded for its Siding line. -/
def crowdedList (tail : List Wagon) : ReadyList := { valid := true, sidingLog2 := 1, written := 1, spilled := true, tail := tail }

/-- A running Consist 0 with that list for its stage 0, and a Junction's Wagon for it that waits to be accepted. -/
def crowded (tail : List Wagon) : Dev :=
  { pwr := { doms := [(3, { st := .on })] }
    consists := [(0, { valid := true, ph := .running, resultStage := 1 })]
    disp := { lists := [(0, crowdedList tail)], offers := [{ prod := .junction }] } }

/-- The device without the offer that is being accepted. -/
def crowdedDropped (tail : List Wagon) : Dev := dropOffer (crowded tail) { prod := .junction }

/-- The next Wagon's line is the first of the Siding, which it does not begin. -/
theorem crowdedList_place (tail : List Wagon) : (crowdedList tail).sidingBase + 64 * ((crowdedList tail).written % sidingCap (crowdedList tail) / 3) = 0 ∧
    (crowdedList tail).written % sidingCap (crowdedList tail) / 3 = 0 ∧ (crowdedList tail).written % sidingCap (crowdedList tail) % 3 ≠ 0 ∧
    ¬ sidingCap (crowdedList tail) ≤ (crowdedList tail).written - (crowdedList tail).moved / 3 * 3 := by
  simp [crowdedList, sidingCap]

theorem gddrOut_crowded {d : Dev} (hr : d.regs = []) : gddrOut d 0 0 64 = none := by
  have h : usable d = usable {} := by
    have hr : d.regs = ({} : Dev).regs := hr
    simp only [usable, channels_congr (rd_congr hr ..), dataLines, rowsPerBank, fld_congr hr]
  have h64 : 64 ≤ usable {} := by decide
  unfold gddrOut
  dsimp only
  rw [if_pos rfl, Nat.min_self, if_neg (by decide), if_pos (by rw [h]; exact h64)]

theorem wagonAcceptance_crowded (tail : List Wagon) :
    (wagonAcceptance (crowded tail)).mc = (devWrite (crowdedDropped tail) 0 (sidingLine 0 (tail ++ [({} : Wagon)]))).1.mc := by
  obtain ⟨hline, hindex, hmid, hroom⟩ := crowdedList_place tail
  have hkey : listKey (wConsist {}) (wStage {}) = 0 := by decide
  have hu : dispUp (crowded tail) = true := rfl
  have hn : nextOffer (crowded tail) (fun o => !o.stalled) = some { prod := .junction } := rfl
  have ha : acceptOffer (crowded tail) { prod := .junction } = bump (spill (crowdedDropped tail) (listKey (wConsist {}) (wStage {})) {}) .dispCnt 0 :=
    acceptOffer_spills (k := { valid := true, ph := .running, resultStage := 1 }) (l := crowdedList tail) rfl rfl rfl rfl rfl rfl rfl (by decide) rfl hroom
  have hm : (spill (crowdedDropped tail) 0 {}).mc = (devWrite (crowdedDropped tail) 0 (sidingLine 0 (tail ++ [({} : Wagon)]))).1.mc := by
    rw [spill_mc (l := crowdedList tail) rfl hmid (by rw [hline]; exact gddrOut_crowded rfl), hline, hindex]
    rfl
  rw [wagonAcceptance, if_pos hu, hn]
  refine (congrArg Dev.mc ha).trans ?_
  rw [hkey]
  exact hm

/-- The lines that stand a channel's number of lines apart lie in one channel (R373). -/
theorem chanOf_crowded (tail : List Wagon) (i : Nat) : chanOf (crowdedDropped tail) ((0 + 64 * i) / 64 * 64) = 0 ↔ i % 16 = 0 := by
  have hr : (crowdedDropped tail).regs = ({} : Dev).regs := rfl
  have hc : channels (crowdedDropped tail) = List.range 16 := by
    rw [channels_congr (rd_congr hr ..)]
    decide
  rw [chanOf, hc]
  simp [Nat.mod_lt]

/-- A multiple of m stands in each of n runs of m numbers. -/
theorem le_countP_multiples {m : Nat} (hm : 0 < m) (n : Nat) : n ≤ (List.range (m * n)).countP (fun i => decide (i % m = 0)) := by
  induction n with
  | zero => exact Nat.zero_le _
  | succ n ih =>
    have h : 0 < ((List.range m).map (m * n + ·)).countP (fun i => decide (i % m = 0)) :=
      List.countP_pos_iff.mpr ⟨m * n, List.mem_map.mpr ⟨0, List.mem_range.mpr hm, rfl⟩, by simp⟩
    rw [Nat.mul_succ, List.range_add, List.countP_append]
    omega

/-- Enough Wagons in the line fill a channel's write queue more than once. -/
theorem writesHeld_crowded {tail : List Wagon} (h : 1694 ≤ tail.length) : 32 < writesHeld (mcChan (wagonAcceptance (crowded tail)) 0) := by
  obtain ⟨bs, hbs⟩ : ∃ bs, bs = sidingLine 0 (tail ++ [({} : Wagon)]) := ⟨_, rfl⟩
  have hlen : 64 * 529 ≤ bs.length := by
    have := length_sidingLine 0 (tail ++ [({} : Wagon)])
    rw [List.length_append, List.length_singleton] at this
    rw [hbs]
    omega
  obtain ⟨l, hl⟩ := lineParts_addrs (n := 16 * 33) (k := bs.length / 64 + 2) (a := 0) (bs := bs) rfl (by omega) (by omega)
  have hcount := le_countP_multiples (m := 16) (by decide) 33
  rw [mcChan, wagonAcceptance_crowded, ← hbs, devWrite, devWriteFor, if_pos (by decide), ← mcChan, writesHeld_acceptWrites, hl, List.countP_append,
    List.countP_map]
  simp only [Function.comp_def, chanOf_crowded]
  omega

/-- Refutes O47: a Wagon that goes to the Siding is written there with all the Wagons that the state records for its line, and the statement bounds
their number nowhere. With 1,700 of them that one write is 532 lines, more than 32 for a channel, so the step waits and the Wagon is not taken, although no
request waits in the queues of GDDR6 (R183, R328, R380). -/
theorem not_dispatcherRows : ¬ Obligations.DispatcherRows := by
  unfold Obligations.DispatcherRows
  rintro ⟨h, -⟩
  obtain ⟨tail, ht⟩ : ∃ tail : List Wagon, tail.length = 1700 := ⟨List.replicate 1700 {}, List.length_replicate ..⟩
  obtain ⟨hline, -, -, hroom⟩ := crowdedList_place tail
  have hkey : listKey (wConsist {}) (wStage {}) = 0 := by decide
  obtain ⟨-, -, -, h, -⟩ := h { dev := crowded tail } { prod := .junction } { valid := true, ph := .running, resultStage := 1 } rfl rfl
    ⟨fun ch => ⟨rfl, fun b => rfl⟩, fun k => rfl⟩ rfl
  have hlist : rlist (crowded tail) (listKey (wConsist {}) (wStage {})) = crowdedList tail := by rw [hkey]; rfl
  have hstall : mustStall (dropOffer (crowded tail) { prod := .junction }) (crowdedList tail) = false := by
    rw [mustStall, decide_eq_false hroom, Bool.and_false]
  obtain ⟨t, hstep, hoffers, -⟩ := h rfl ⟨⟨rfl, .inr rfl, rfl⟩, fun n x y hn => by cases hn⟩ (by decide) rfl (by rw [hlist]; rfl) (by rw [hlist]; exact hstall)
    (by rw [hlist, hline]; exact gddrOut_crowded rfl)
  have hover : overfills (crowded tail) (wagonAcceptance (crowded tail)) = true := overfills_of_writes (ch := 0) rfl (writesHeld_crowded (by omega))
  have hexec : exec .wagonAcceptance { dev := crowded tail } = .next { dev := crowded tail } := by
    have : exec .wagonAcceptance { dev := crowded tail } = onUnit { dev := crowded tail } wagonAcceptance := rfl
    rw [this, onUnit, hover, if_pos rfl]
  rw [hexec] at hstep
  cases hstep
  cases hoffers

end Sys2Proof.Machine
end

section
namespace Sys2Proof.Machine

/-! ## Bytes that stand in cached lines (R326, R337) -/

/-- What a byte reads as, whether or not anything in the cache differs from the memory below. -/
theorem memByte_eq (d : Dev) (a : Nat) : memByte d a = if cacheEn d then (mget none d.cache.stale a).getD (rawByte d a) else rawByte d a := by
  unfold memByte
  cases h : d.cache.stale with
  | nil => simp
  | cons e m => rfl

theorem mget_zip_run {bs : List Byte} {a k : Nat} {b : Byte} (hb : bs[k]? = some b) :
    mget none ((List.range' a bs.length).zip (bs.map some)) (a + k) = some b := by
  induction bs generalizing a k with
  | nil => cases hb
  | cons c cs ih =>
    rw [List.length_cons, List.range'_succ, List.map_cons, List.zip_cons_cons, mget]
    cases k with
    | zero => simpa using hb
    | succ k =>
      rw [if_neg (by omega), if_neg (by omega), show a + (k + 1) = a + 1 + k by omega]
      exact ih hb

/-- Bytes that lie in the enabled cache alone, from an address on. -/
structure CachedAt (d : Dev) (a : Nat) (bs : List Byte) : Prop where
  en : cacheEn d = true
  stale : d.cache.stale = (List.range' a bs.length).zip (bs.map some)

/-- A read of cached bytes gives them (R337). -/
theorem memRead_cached {d : Dev} {a : Nat} {bs : List Byte} (h : CachedAt d a bs) {o n : Nat} (hn : o + n ≤ bs.length) :
    memRead d (a + o) n = (bs.drop o).take n := by
  have hbyte {k : Nat} (hk : k < n) : memByte d (a + o + k) = ((bs.drop o).take n)[k]'(by simp; omega) := by
    have hg : bs[o + k]? = some (bs[o + k]'(by omega)) := List.getElem?_eq_getElem _
    rw [memByte_eq, if_pos h.en, h.stale, Nat.add_assoc, mget_zip_run hg]
    simp
  unfold memRead
  split
  · next he =>
    obtain rfl : bs = [] := by
      cases bs with
      | nil => rfl
      | cons b bs => rw [h.stale] at he; cases he
    obtain rfl : n = 0 := by simpa using (Nat.le_zero.mp hn ▸ Nat.le_add_left n o : n ≤ 0)
    simp [rawRead, readRun]
  · refine List.ext_getElem (by simp; omega) fun k h1 h2 => ?_
    rw [List.getElem_map, List.getElem_range]
    exact hbyte (by simpa using h1)

/-! ## An image that verifies (R411) -/

/-- Bytes 0 to 127 of a header: a load of no bytes, with their digest. -/
def sampleHead : List Byte :=
  toLE 8 0x15346 ++ (zeros 24 ++ (toBE 48 0x38b060a751ac96384cd9327eb1b1e36a21fdb71114be07434c0cc7bf63f6e1da274edebfe76f65fbd51ad2f14898b95b ++
    (1#8 :: zeros 47)))

/-- Its signer's key. -/
def sampleSigner : List Byte :=
  toBE 48 0x41d45eedb08051cff4a5bb7eca40a351c9471911c707b1dbb24bea2636c8e71980a0868e794eba16d2faf0048da7657 ++
    toBE 48 0xa332bbead5b37f02859dfb7dd14684d8905b93591a6310ae622e7a085b0db02fa2cfc3d4d8e99d2f242eb94c34c26a67

/-- Digest of the header's first 128 bytes; the key is such that r and s may both be this number. -/
def sampleDigest : Nat := 0xd1e15b397ca1be874a941b47c5eb19f544a7a72c61b0cb4d5b6a64693bc66eff903da19cf6a91d9814ac7a7864de1628

/-- A signed image header of 512 bytes. -/
def sampleImage : List Byte := sampleHead ++ (sampleSigner ++ (toBE 48 sampleDigest ++ (toBE 48 sampleDigest ++ zeros 192)))

/-- Digest of the signer's key, as the fuses hold it. -/
def sampleFwHash : BitVec 384 := 0x6522435595a26629c72e3f8648c52cd1ff9ca8b199c5e79251b426eaadebc0a269f39b497832824629c4acdce315cd0a#384

theorem length_sampleImage : sampleImage.length = 512 := by decide +kernel

theorem sampleImage_empty : (sampleImage.drop 32).take 48 = sha384 [] := by decide +kernel

theorem sampleImage_signer : ofBE (sha384 ((sampleImage.drop 128).take 96)) = sampleFwHash.toNat := by decide +kernel

theorem sampleImage_digest : ofBE (sha384 (sliceB sampleImage 0 128)) = sampleDigest := by decide +kernel

theorem sampleImage_verifies : ecdsaVerify (ofBE (sliceB sampleImage 128 48), ofBE (sliceB sampleImage 176 48)) sampleDigest
    (ofBE (sliceB sampleImage 224 48)) (ofBE (sliceB sampleImage 272 48)) = true := by decide +kernel

theorem sampleImage_signed : headerSigOk sampleImage = true := by
  rw [headerSigOk, sampleImage_digest]
  exact sampleImage_verifies

theorem memBad_none {d : Dev} (h : d.badUnits = []) (a n : Nat) : memBad d a n = false := by
  simp [memBad, badIn, rawBadIn, h]

/-- The header of an image of no bytes, signed, as ROM asks (R411). -/
structure SignedHeader (o : Otp) (img : List Byte) : Prop where
  length : img.length = 512
  magic : bitsOf (ofLE (img.take 8)) 15 0 = 0x5346
  version : bitsOf (ofLE (img.take 8)) 23 16 = 1
  svn : o.rollback ≤ bitsOf (ofLE (img.take 8)) 31 24
  len : bitsOf (ofLE ((img.drop 8).take 8)) 21 0 = 0
  load : bitsOf (ofLE ((img.drop 16).take 8)) 18 0 = 0
  digest : (img.drop 32).take 48 = sha384 []
  signer : ofBE (sha384 ((img.drop 128).take 96)) = o.fwHash.toNat
  signed : headerSigOk img = true

theorem sampleImage_header {o : Otp} (hf : o.fwHash = sampleFwHash) (hr : o.rollback = 0) : SignedHeader o sampleImage where
  length := length_sampleImage
  magic := by decide +kernel
  version := by decide +kernel
  svn := by rw [hr]; exact Nat.zero_le _
  len := by decide +kernel
  load := by decide +kernel
  digest := sampleImage_empty
  signer := by rw [hf]; exact sampleImage_signer
  signed := sampleImage_signed

/-- A slot whose bytes the cache gives as such a header's holds a valid image (R411). -/
theorem imageValid_cached {o : Otp} {d : Dev} {k : Nat} {img : List Byte} (h : CachedAt d (slotBase k) img) (hb : d.badUnits = [])
    (hi : SignedHeader o img) : imageValid o d k = true := by
  unfold imageValid imageForm memNat
  dsimp only
  generalize slotBase k = b at h ⊢
  have hread {x n : Nat} (hn : x + n ≤ 512) : memRead d (b + x) n = (img.drop x).take n := memRead_cached h (by rw [hi.length]; exact hn)
  have h0 {n : Nat} (hn : n ≤ 512) : memRead d b n = img.take n := by simpa using hread (x := 0) (n := n) (by omega)
  have hz : (img.drop 512).take (0 - 512) = [] := rfl
  rw [h0 (by omega), h0 (by omega), hread (by omega), hread (by omega), hread (by omega), hread (by omega), hi.len, hi.load, memBad_none hb,
    hread (by omega), hi.signer, hi.digest, List.take_of_length_le (Nat.le_of_eq hi.length), hi.signed, hz]
  simp [hi.magic, hi.version, hi.svn]

/-! ## A slot without an image -/

theorem readRun_head (n a : Nat) {m : List Host.Cell} (h : ∀ e ∈ m.head?, a ≤ e.1) : ∃ bs, readRun (n + 1) a m = mget 0 m a :: bs := by
  cases m with
  | nil => exact ⟨_, rfl⟩
  | cons e m =>
    obtain ⟨k, v⟩ := e
    have hk : a ≤ k := h (k, v) rfl
    rw [readRun, mget]
    by_cases he : k = a
    · exact ⟨_, by rw [if_pos he, if_pos he.symm]⟩
    · exact ⟨_, by rw [if_neg he, if_neg (Ne.symm he), if_pos (by omega)]⟩

/-- The first byte of a read is the byte at its address. -/
theorem memRead_head (d : Dev) (a n : Nat) : ∃ bs, memRead d a (n + 1) = memByte d a :: bs := by
  unfold memRead memByte
  split
  · obtain ⟨bs, h⟩ := readRun_head n a (m := d.mem.dropWhile (fun e => decide (e.1 < a))) fun e he => by
      have := List.head?_dropWhile_not (fun e : Host.Cell => decide (e.1 < a)) d.mem
      rw [he] at this
      simpa using this
    refine ⟨bs, h.trans ?_⟩
    rw [mget_dropWhile 0 d.mem (Nat.le_refl a)]
    rfl
  · rw [List.range_succ_eq_map]
    exact ⟨_, rfl⟩

/-- The first byte of a valid image is that of its magic number (R411). -/
theorem imageValid_magic {o : Otp} {d : Dev} {k : Nat} (h : imageValid o d k = true) : memByte d (slotBase k) = 0x46 := by
  obtain ⟨bs, hbs⟩ := memRead_head d (slotBase k) 7
  have hmagic : bitsOf (memNat d (slotBase k) 8) 15 0 = 0x5346 := by
    unfold imageValid imageForm at h
    simp only [Bool.and_eq_true, decide_eq_true_eq] at h
    exact h.1.1.1.1.1
  have hlow : (memByte d (slotBase k)).toNat = 0x46 := by
    have := (memByte d (slotBase k)).isLt
    rw [memNat, hbs, ofLE, bitsOf] at hmagic
    omega
  exact BitVec.eq_of_toNat_eq hlow

end Sys2Proof.Machine
end

section
namespace Sys2Proof.Machine

/-! ## Bytes written while the cache is on (R328, R337) -/

/-- Bytes that have been written agree with those below. -/
theorem mget_writtenStale (l : List Nat) (m : SMap (Option Byte)) (a x : Nat) :
    mget none (l.foldl (fun m k => mset none m (a + k) none) m) x = if ∃ k ∈ l, a + k = x then none else mget none m x := by
  induction l generalizing m with
  | nil => simp
  | cons k l ih =>
    rw [List.foldl_cons, ih, mget_mset]
    by_cases hx : x = a + k
    · simp [hx]
    · simp [hx, Ne.symm hx]

theorem mget_staleAfter {d : Dev} (hc : cacheEn d = true) (a n x : Nat) :
    mget none (staleAfter d a n) x = if a ≤ x ∧ x < a + n then none else mget none d.cache.stale x := by
  unfold staleAfter
  split
  · next h =>
    simp only [Bool.and_eq_true, List.isEmpty_iff] at h
    rw [h.2]
    split <;> rfl
  · rw [mget_writtenStale]
    have hin : (∃ k ∈ List.range n, a + k = x) ↔ a ≤ x ∧ x < a + n := by
      simp only [List.mem_range]
      exact ⟨fun ⟨k, hk, hx⟩ => by omega, fun ⟨h1, h2⟩ => ⟨x - a, by omega, by omega⟩⟩
    by_cases h : a ≤ x ∧ x < a + n
    · rw [if_pos h, if_pos (hin.mpr h)]
    · rw [if_neg h, if_neg (fun h' => h (hin.mp h'))]

theorem memByte_memWrite_in {d : Dev} (hc : cacheEn d = true) {a k : Nat} {bs : List Byte} {b : Byte} (hb : bs[k]? = some b) :
    memByte (memWrite d a bs) (a + k) = b := by
  have hk : k < bs.length := (List.getElem?_eq_some_iff.mp hb).1
  have hs : mget none (memWrite d a bs).cache.stale (a + k) = none := (mget_staleAfter hc a bs.length (a + k)).trans (if_pos (by omega))
  rw [memByte_eq, hs, Option.getD_none, ite_self]
  exact mget_putBytes_in d.mem a bs (a + k) b (by omega) (by rw [Nat.add_sub_cancel_left]; exact hb)

theorem memByte_memWrite_below {d : Dev} (hc : cacheEn d = true) {a x : Nat} (bs : List Byte) (h : x < a) : memByte (memWrite d a bs) x = memByte d x := by
  have hs : mget none (memWrite d a bs).cache.stale x = mget none d.cache.stale x := (mget_staleAfter hc a bs.length x).trans (if_neg (by omega))
  have hr : rawByte (memWrite d a bs) x = rawByte d x := mget_putBytes_out d.mem a bs x (.inl h)
  have hen : cacheEn (memWrite d a bs) = cacheEn d := rfl
  rw [memByte_eq, memByte_eq, hs, hr, hen]

/-! ## The first entry of the Log Book (R402, R417) -/

/-- An entry of the Log Book begins with AO time (R402). -/
theorem logBook_entry {d : Dev} (hon : d.sbox.logOn = true) (cls code : Nat) (data : List Nat) :
    ∃ bs, bs[0]? = some (BitVec.ofNat 8 (aoTime d)) ∧
      ∀ x, memByte (logBook d cls code data) x = memByte (memWrite d (0xC000600000 + 64 * (d.sbox.logNext % 32768)) bs) x := by
  obtain ⟨w0, hw0⟩ : ∃ w0, w0 = aoTime d + fld d .pwrStatus 0 14 14 * 2 ^ 40 + cls * 2 ^ 41 + code * 2 ^ 48 := ⟨_, rfl⟩
  obtain ⟨bs, hbs⟩ : ∃ bs, bs = sliceB (toLE 8 w0 ++ (toLE 8 (d.sbox.logNext % 2 ^ 32) ++ ((data.take 6).map (toLE 8)).flatten)) 0 64 := ⟨_, rfl⟩
  refine ⟨bs, ?_, fun x => ?_⟩
  · have h8 : BitVec.ofNat 8 w0 = BitVec.ofNat 8 (aoTime d) := BitVec.eq_of_toNat_eq (by rw [BitVec.toNat_ofNat, BitVec.toNat_ofNat]; omega)
    rw [hbs, ← h8]
    rfl
  · unfold logBook
    dsimp only
    rw [if_pos hon, ← hw0, ← hbs]
    generalize 0xC000600000 + 64 * (d.sbox.logNext % 32768) = a
    refine memByte_congr (d := memWrite d a bs) ?_ ?_ ?_ x
    · rfl
    · rfl
    · exact (rd_wr_ne _ _ (key_ne (r := .cacheCtrl) (r' := .sboxLog) (i := 0) (i' := 0) (by decide) (by omega) (by omega)))

theorem logBook_slot (d : Dev) (cls code : Nat) (data : List Nat) :
    (logBook d cls code data).nv.selected = d.nv.selected ∧ (logBook d cls code data).nv.trial = d.nv.trial := by
  unfold logBook
  split <;> exact ⟨rfl, rfl⟩

/-- An empty Log Book of a provisioned part takes its first entry at its base. -/
theorem takeLog_first {o : Otp} {d : Dev} (hm : d.mem = []) (hlc : 1 ≤ o.lifecycle) (hen : cacheEn d = true) :
    memByte (takeLog o d) 0xC000600000 = BitVec.ofNat 8 (aoTime d) ∧ (∀ x, x < 0xC000600000 → memByte (takeLog o d) x = memByte d x) ∧
      (takeLog o d).nv.selected = d.nv.selected ∧ (takeLog o d).nv.trial = d.nv.trial := by
  have hlist : logListed d = [] := by rw [logListed, hm]; rfl
  have hhead : logHead d = 0 := by rw [logHead, hlist]; rfl
  obtain ⟨e, he⟩ : ∃ e, e = setFld (modSbox d (fun s => { s with logOn := decide (1 ≤ o.lifecycle), logNext := 0 })) .sboxLog 0 14 0 0 := ⟨_, rfl⟩
  have ht : takeLog o d = logBook e 3 0x0092 [0, 1] := by
    have hfirst : firstEntry o e = true := by
      have hmem : e.mem = [] := by rw [he]; exact hm
      rw [firstEntry, logListed, hmem, decide_eq_true hlc]
      rfl
    unfold takeLog
    dsimp only
    rw [hhead, if_pos rfl, ← he, if_pos hfirst]
  have hr : SameRegs [.sboxLog] d e := by rw [he]; exact .trans (.of_regs rfl) (.setFld 14 0 0 (by decide) (by omega))
  have hce : rd e .cacheCtrl 0 = rd d .cacheCtrl 0 := hr _ _ (by decide) (by omega)
  have hene : cacheEn e = true := by rw [cacheEn, fld, hce]; exact hen
  have hao : aoTime e = aoTime d := by rw [aoTime, hr .aoTime 0 (by decide) (by omega), aoTime]
  have hbyte (x : Nat) : memByte e x = memByte d x := memByte_congr (by rw [he]; rfl) (by rw [he]; rfl) hce x
  have hnext : e.sbox.logNext % 32768 = 0 := by rw [he]; rfl
  obtain ⟨bs, hbs, hw⟩ := logBook_entry (d := e) (by rw [he]; exact decide_eq_true hlc) 3 0x0092 [0, 1]
  rw [hnext, Nat.mul_zero, Nat.add_zero] at hw
  obtain ⟨hsel, htri⟩ := logBook_slot e 3 0x0092 [0, 1]
  have hnv : e.nv = d.nv := by rw [he]; rfl
  rw [ht, hsel, htri, hnv]
  rw [hao] at hbs
  generalize 0xC000600000 = a at hw ⊢
  refine ⟨?_, fun x hx => ?_, rfl, rfl⟩
  · rw [hw]
    exact memByte_memWrite_in (k := 0) hene hbs
  · rw [hw, memByte_memWrite_below hene bs hx, hbyte]

/-! ## The slot that ROM chooses (R399) -/

/-- Outside a trial ROM takes the selected slot where its image is valid. -/
theorem chooseSlot_selected {o : Otp} {d : Dev} (ht : d.nv.trial = false) (hv : imageValid o d d.nv.selected = true) :
    (chooseSlot o d).2.2 = some d.nv.selected := by
  simp [chooseSlot, ht, hv]

theorem chooseSlot_none {o : Otp} {d : Dev} (ht : d.nv.trial = false) (hv : imageValid o d d.nv.selected = false)
    (hw : imageValid o d (1 - d.nv.selected) = false) : (chooseSlot o d).2.2 = none := by
  simp [chooseSlot, ht, hv, hw]

/-- Registers that show fuses. -/
def fuseRegs : List Reg := [.chipId, .chipSerialLo, .chipSerialHi, .chipLifecycle, .sboxFw, .sboxPubkey]

theorem loadFuses_sameRegs (o : Otp) (d : Dev) : SameRegs fuseRegs d (loadFuses o d) := by
  have h (d : Dev) (r : Reg) (hr : r ∈ fuseRegs) (hi lo v : Nat) : SameRegs fuseRegs d (setFld d r 0 hi lo v) := .setFld hi lo v hr (by omega)
  unfold loadFuses
  dsimp only
  refine .trans ?_ (.foldl _ fun e i hi => .wr _ (by decide) (by have := List.mem_range.mp hi; omega))
  refine .trans (.trans (.trans (.trans (.trans (.trans (.trans (.trans (h _ _ (by decide) _ _ _) (h _ _ (by decide) _ _ _)) (h _ _ (by decide) _ _ _))
    (h _ _ (by decide) _ _ _)) (h _ _ (by decide) _ _ _)) (h _ _ (by decide) _ _ _)) (h _ _ (by decide) _ _ _)) (h _ _ (by decide) _ _ _))
    (h _ _ (by decide) _ _ _)

/-- What the fuses show changes registers alone. -/
theorem loadFuses_proj {β : Type} (g : Dev → β) (h : ∀ (e : Dev) (r : Reg) (i : Nat) (v : Word), g (wr e r i v) = g e) (o : Otp) (d : Dev) :
    g (loadFuses o d) = g d := by
  unfold loadFuses
  dsimp only
  rw [foldl_proj g _ (fun e i _ => h e _ _ _)]
  simp only [setFld, h]

/-- The device with fresh nonces. -/
def freshNonces (d : Dev) : Dev := freshDebugNonce (freshNonce d)

theorem freshNonces_sameRegs (d : Dev) : SameRegs [.sboxNonce] d (freshNonces d) := .trans (.of_regs rfl) (.wr _ (by decide) (by omega))

theorem freshNonces_rest (d : Dev) : (freshNonces d).mem = d.mem ∧ (freshNonces d).cache = d.cache ∧ (freshNonces d).nv = d.nv := ⟨rfl, rfl, rfl⟩

/-- The device as the boot takes its Log Book up: fuses shown, nonces fresh. -/
def freshLoaded (o : Otp) (d : Dev) : Dev := freshNonces (loadFuses o d)

theorem freshLoaded_sameRegs (o : Otp) (d : Dev) : SameRegs (.sboxNonce :: fuseRegs) d (freshLoaded o d) :=
  SameRegs.trans (SameRegs.mono (loadFuses_sameRegs o d) (by decide)) (SameRegs.mono (freshNonces_sameRegs _) (by decide))

theorem freshLoaded_rest (o : Otp) (d : Dev) : (freshLoaded o d).mem = d.mem ∧ (freshLoaded o d).cache = d.cache ∧ (freshLoaded o d).nv = d.nv := by
  obtain ⟨hm, hc, hn⟩ := freshNonces_rest (loadFuses o d)
  exact ⟨hm.trans (loadFuses_proj Dev.mem (fun _ _ _ _ => rfl) o d), hc.trans (loadFuses_proj Dev.cache (fun _ _ _ _ => rfl) o d),
    hn.trans (loadFuses_proj Dev.nv (fun _ _ _ _ => rfl) o d)⟩

/-- A wake from Laid-up raises the power enables (R439). -/
theorem startWake_laidUp {d : Dev} (bit : Nat) (h : d.pwr.mode = .laidUp) : (startWake d bit).pwr.mode = .raising := by
  unfold startWake
  rw [h]
  dsimp only
  split <;> rfl

theorem alarmWake_laidUp {d : Dev} (h : d.pwr.mode = .laidUp) : (alarmWake d).pwr.mode ≠ .running := by
  unfold alarmWake wakeSource
  rw [h]
  dsimp only
  by_cases ha : fld d .wakeCause 0 2 2 = 1 ∧ fld d .wakeCtrl 0 4 4 = 1
  · rw [if_pos ha]
    by_cases hw : d.pwr.window = true
    · rw [if_pos hw, h]; decide
    · rw [if_neg hw, startWake_laidUp 2 h]; decide
  · rw [if_neg ha, h]; decide

/-- A device that enters Laid-up does not go on to Running at once (R439 to R441). -/
theorem entered_laidUp {d : Dev} (h : d.pwr.mode = .laidUp) : (entered d []).pwr.mode ≠ .running := alarmWake_laidUp h

/-- Where ROM finds no valid image, the device does not stay in Running (R399, R452). -/
theorem bootStep_without_image {s : State} (hr : running s.dev = true) (hb : s.dev.pwr.bootDue = true) (hlc : s.otp.lifecycle = 3)
    (hc : (chooseSlot s.otp (takeLog s.otp (freshLoaded s.otp s.dev))).2.2 = none) :
    (bootStep s).dev.pwr.mode ≠ .running := by
  have hp (first : Bool) : provisioned first s = s := if_neg (by rw [hlc]; omega)
  unfold bootStep
  dsimp only
  rw [freshLoaded, freshNonces] at hc
  rw [if_pos ⟨hr, hb⟩, hp, hc]
  exact entered_laidUp rfl

/-! ## An image in the cache's lines alone -/

/-- The fuses of a part in its last lifecycle state, for the sample's signer. -/
def sampleFuses : Otp := { lifecycle := 3, fwHash := sampleFwHash }

/-- A device that boots with the given bytes of slot number 2, which is the Log Book's region, in the enabled cache alone, and with that slot selected. -/
def cachedBoot (img : List Byte) : Dev :=
  { regs := [(Reg.cacheCtrl.key 0, 1)], pwr := { bootDue := true }, nv := { selected := 2 }
    cache := { stale := (List.range' (slotBase 2) img.length).zip (img.map some) } }

theorem cacheEn_cachedBoot (img : List Byte) : cacheEn (cachedBoot img) = true := rfl

theorem aoTime_cachedBoot (img : List Byte) : aoTime (cachedBoot img) = 0 := rfl

theorem cachedBoot_cached (img : List Byte) : CachedAt (cachedBoot img) (slotBase 2) img := ⟨cacheEn_cachedBoot img, rfl⟩

/-- Below the image the device holds nothing. -/
theorem memByte_cachedBoot (img : List Byte) {x : Nat} (hx : x < slotBase 2) : memByte (cachedBoot img) x = 0 := by
  have hs : mget none (cachedBoot img).cache.stale x = none := by
    refine mget_of_head_gt _ _ _ fun e he => ?_
    have hmem := List.mem_of_mem_head? (Option.mem_def.mpr he)
    have := List.mem_range'_1.mp (List.of_mem_zip hmem).1
    omega
  rw [memByte_eq, hs, Option.getD_none, ite_self]
  rfl

/-- The first entry of the Log Book takes the image's place. -/
theorem chooseSlot_cachedBoot {o : Otp} (img : List Byte) (hlc : 1 ≤ o.lifecycle) : (chooseSlot o (takeLog o (freshLoaded o (cachedBoot img)))).2.2 = none := by
  obtain ⟨hm, hc, hn⟩ := freshLoaded_rest o (cachedBoot img)
  have hr := freshLoaded_sameRegs o (cachedBoot img)
  have hctrl : rd (freshLoaded o (cachedBoot img)) .cacheCtrl 0 = rd (cachedBoot img) .cacheCtrl 0 := hr _ _ (by decide) (by omega)
  have hen : cacheEn (freshLoaded o (cachedBoot img)) = true := by rw [cacheEn, fld, hctrl]; exact cacheEn_cachedBoot img
  have hao : aoTime (freshLoaded o (cachedBoot img)) = 0 := by
    rw [aoTime, hr .aoTime 0 (by decide) (by omega)]
    exact aoTime_cachedBoot img
  obtain ⟨hbase, hbelow, hsel, htri⟩ := takeLog_first (d := freshLoaded o (cachedBoot img)) hm hlc hen
  have h2 : slotBase 2 = 0xC000600000 := by decide
  have h0 : slotBase 0 < 0xC000600000 := by decide
  have hinvalid (k : Nat) (hk : memByte (takeLog o (freshLoaded o (cachedBoot img))) (slotBase k) = 0) :
      imageValid o (takeLog o (freshLoaded o (cachedBoot img))) k = false := by
    refine Bool.eq_false_iff.mpr fun hv => ?_
    have := (imageValid_magic hv).symm.trans hk
    exact absurd this (by decide)
  rw [hn] at hsel htri
  refine chooseSlot_none htri ?_ ?_
  · rw [hsel]
    exact hinvalid 2 (by rw [h2, hbase, hao]; rfl)
  · rw [hsel]
    refine hinvalid 0 ?_
    rw [hbelow _ h0, memByte_congr hm (by rw [hc]) hctrl]
    exact memByte_cachedBoot img (by rw [h2]; exact h0)

/-- Refutes O43: a state may have slot number 2 selected, whose place is the Log Book's, and hold a valid image of it in lines of the cache over an empty
Log Book. ROM's choice on that state is slot 2, but the boot first writes the Log Book's first entry over the image's header, and then finds no valid image
and enters Laid-up (R398, R399, R402, R417). -/
theorem not_keysAndLifecycle : ¬ Obligations.KeysAndLifecycle := by
  intro h
  obtain ⟨s, ho, hd⟩ : ∃ s : State, s.otp = sampleFuses ∧ s.dev = cachedBoot sampleImage := ⟨{ otp := sampleFuses, dev := cachedBoot sampleImage }, rfl, rfl⟩
  have hvalid : imageValid sampleFuses (cachedBoot sampleImage) 2 = true := imageValid_cached (cachedBoot_cached sampleImage) rfl (sampleImage_header rfl rfl)
  have hchosen : (chooseSlot s.otp s.dev).2.2 = some 2 := by
    rw [ho, hd]
    exact chooseSlot_selected rfl hvalid
  have hrun : running s.dev = true := by rw [hd]; rfl
  have hdue : s.dev.pwr.bootDue = true := by rw [hd]; rfl
  have hnone : (chooseSlot s.otp (takeLog s.otp (freshLoaded s.otp s.dev))).2.2 = none := by
    rw [ho, hd]
    exact chooseSlot_cachedBoot sampleImage (by decide)
  obtain ⟨-, -, -, -, -, -, -, h⟩ := h s
  obtain ⟨t, hstep, -, hmode, -⟩ := h 2 (by rw [MemoryCanonical, hd]; rfl) hdue hrun hchosen
  have hexec : exec .boot s = .next (bootStep s) := rfl
  rw [hexec] at hstep
  injection hstep with ht
  rw [← ht] at hmode
  exact bootStep_without_image hrun hdue (by rw [ho]; rfl) hnone hmode

end Sys2Proof.Machine
end

section
namespace Sys2Proof.Machine

/-! ## A byte after a write, whatever the cache holds (R16, R19, R337) -/

/-- With the cache off a byte reads as the memory below holds it (R337). -/
theorem memByte_bypassed {d : Dev} (h : cacheEn d = false) (x : Nat) : memByte d x = rawByte d x := by
  rw [memByte_eq, h]
  exact if_neg Bool.false_ne_true

theorem memByte_memWrite_at (d : Dev) {a x : Nat} {bs : List Byte} {b : Byte} (ha : a ≤ x) (hb : bs[x - a]? = some b) :
    memByte (memWrite d a bs) x = b := by
  cases hc : cacheEn d with
  | false => exact (memByte_bypassed (d := memWrite d a bs) hc x).trans (mget_putBytes_in d.mem a bs x b ha hb)
  | true =>
    have hx : a + (x - a) = x := by omega
    exact hx ▸ memByte_memWrite_in hc hb

theorem memByte_memWrite_outside (d : Dev) {a x : Nat} {bs : List Byte} (hx : x < a ∨ a + bs.length ≤ x) :
    memByte (memWrite d a bs) x = memByte d x := by
  have hraw : rawByte (memWrite d a bs) x = rawByte d x := mget_putBytes_out d.mem a bs x hx
  cases hc : cacheEn d with
  | false => rw [memByte_bypassed (d := memWrite d a bs) hc, memByte_bypassed hc, hraw]
  | true =>
    have hstale : mget none (memWrite d a bs).cache.stale x = mget none d.cache.stale x :=
      (mget_staleAfter hc a bs.length x).trans (if_neg (by omega))
    have hen : cacheEn (memWrite d a bs) = cacheEn d := rfl
    rw [memByte_eq, memByte_eq, hstale, hraw, hen]

/-- Settles O6: with the cache on a write takes the lines' own bytes away where it writes and nowhere else; with the cache off they are not read. -/
theorem memoryReadsWhatWasWritten : Obligations.MemoryReadsWhatWasWritten :=
  fun d _ _ _ => ⟨fun _ ha hb => memByte_memWrite_at d ha hb, memByte_memWrite_outside d⟩

end Sys2Proof.Machine
end

section
namespace Sys2Proof.Machine

/-! ## Runs of bytes read back (R7, R19) -/

theorem ofLE_toLE (n v : Nat) : ofLE (toLE n v) = v % 256 ^ n := by
  induction n generalizing v with
  | zero => exact (Nat.mod_one v).symm
  | succ n ih =>
    rw [toLE, ofLE, ih, BitVec.toNat_ofNat, pow_succ' 256, Nat.mod_mul]

/-- The cells from an address on lie at or above it. -/
theorem head_dropWhile_ge (m : List Host.Cell) (a : Nat) : ∀ e ∈ (m.dropWhile (fun e => decide (e.1 < a))).head?, a ≤ e.1 := by
  intro e he
  have h := List.head?_dropWhile_not (fun e : Host.Cell => decide (e.1 < a)) m
  rw [Option.mem_def.mp he] at h
  simpa using h

/-- Cells that all lie below an address are dropped. -/
theorem dropWhile_append_below {l r : List Host.Cell} {b : Nat} (h : ∀ e ∈ l, e.1 < b) :
    (l ++ r).dropWhile (fun e => decide (e.1 < b)) = r.dropWhile (fun e => decide (e.1 < b)) :=
  List.dropWhile_append_of_pos fun e he => decide_eq_true (h e he)

theorem dropWhile_of_head_ge {l : List Host.Cell} {b : Nat} (h : ∀ e ∈ l.head?, b ≤ e.1) : l.dropWhile (fun e => decide (e.1 < b)) = l := by
  cases l with
  | nil => rfl
  | cons e l =>
    have := h e rfl
    exact List.dropWhile_cons_of_neg (by simp; omega)

theorem dropWhile_dropWhile_ge (m : List Host.Cell) {a b : Nat} (h : a ≤ b) :
    (m.dropWhile (fun e => decide (e.1 < a))).dropWhile (fun e => decide (e.1 < b)) = m.dropWhile (fun e => decide (e.1 < b)) := by
  induction m with
  | nil => rfl
  | cons e m ih =>
    by_cases he : e.1 < a
    · have hb : e.1 < b := by omega
      simpa [he, hb] using ih
    · simp [he]

/-- The cells that a run of bytes puts into memory. -/
def runCells (a : Nat) (bs : List Byte) : List Host.Cell := ((List.range' a bs.length).zip bs).filter (fun e => decide (e.2 ≠ 0))

theorem mem_runCells {a : Nat} {bs : List Byte} {e : Host.Cell} (h : e ∈ runCells a bs) : a ≤ e.1 ∧ e.1 < a + bs.length :=
  mem_run (List.mem_filter.mp h).1

theorem runCells_cons (a : Nat) (b : Byte) (bs : List Byte) :
    runCells a (b :: bs) = if b = 0 then runCells (a + 1) bs else (a, b) :: runCells (a + 1) bs := by
  unfold runCells
  rw [List.length_cons, List.range'_succ, List.zip_cons_cons, List.filter_cons]
  by_cases hb : b = 0 <;> simp [hb]

theorem head_runCells_append {a : Nat} {bs : List Byte} {r : List Host.Cell} (hr : ∀ e ∈ r.head?, a + bs.length ≤ e.1) :
    ∀ e ∈ (runCells a bs ++ r).head?, a ≤ e.1 := by
  intro e he
  cases h : runCells a bs with
  | nil =>
    rw [h, List.nil_append] at he
    exact Nat.le_trans (Nat.le_add_right ..) (hr e he)
  | cons c cs =>
    rw [h] at he
    obtain rfl : c = e := by simpa using he
    exact (mem_runCells (bs := bs) (by rw [h]; exact List.mem_cons_self)).1

theorem readRun_gap {n a : Nat} {m : List Host.Cell} (h : ∀ e ∈ m.head?, a + 1 ≤ e.1) : readRun (n + 1) a m = 0 :: readRun n (a + 1) m := by
  cases m with
  | nil => rfl
  | cons e m =>
    obtain ⟨k, v⟩ := e
    have hk : a + 1 ≤ k := h (k, v) rfl
    exact if_neg (by omega)

theorem readRun_runCells (a : Nat) (bs : List Byte) {r : List Host.Cell} (hr : ∀ e ∈ r.head?, a + bs.length ≤ e.1) :
    readRun bs.length a (runCells a bs ++ r) = bs := by
  induction bs generalizing a with
  | nil => rfl
  | cons b bs ih =>
    have hr' : ∀ e ∈ r.head?, a + 1 + bs.length ≤ e.1 := fun e he => by have := hr e he; rw [List.length_cons] at this; omega
    rw [runCells_cons, List.length_cons]
    split
    · next hb => rw [readRun_gap (head_runCells_append hr'), ih _ hr', hb]
    · rw [List.cons_append, readRun, if_pos rfl, ih _ hr']

theorem putBytes_eq (m : List Host.Cell) (a : Nat) (bs : List Byte) : putBytes m a bs =
    m.takeWhile (fun e => decide (e.1 < a)) ++ (runCells a bs ++ m.dropWhile (fun e => decide (e.1 < a + bs.length))) := rfl

theorem takeWhile_below {m : List Host.Cell} {a : Nat} {e : Host.Cell} (h : e ∈ m.takeWhile (fun e => decide (e.1 < a))) : e.1 < a := by
  simpa using List.mem_takeWhile_imp h

/-- What was written reads back, whether or not memory is canonical. -/
theorem rawRead_memWrite_self (d : Dev) (a : Nat) (bs : List Byte) : rawRead (memWrite d a bs) a bs.length = bs := by
  have hr := head_dropWhile_ge d.mem (a + bs.length)
  change readRun bs.length a ((putBytes d.mem a bs).dropWhile _) = bs
  rw [putBytes_eq, dropWhile_append_below fun _ => takeWhile_below, dropWhile_of_head_ge (head_runCells_append hr), readRun_runCells a bs hr]

theorem rawRead_memWrite_above (d : Dev) {a b : Nat} {bs : List Byte} (n : Nat) (h : a + bs.length ≤ b) :
    rawRead (memWrite d a bs) b n = rawRead d b n := by
  have hbelow : ∀ e ∈ d.mem.takeWhile (fun e => decide (e.1 < a)), e.1 < b := fun e he => by have := takeWhile_below he; omega
  have hrun : ∀ e ∈ runCells a bs, e.1 < b := fun e he => by have := mem_runCells he; omega
  have hmem : (putBytes d.mem a bs).dropWhile (fun e => decide (e.1 < b)) = d.mem.dropWhile (fun e => decide (e.1 < b)) := by
    rw [putBytes_eq, dropWhile_append_below hbelow, dropWhile_append_below hrun, dropWhile_dropWhile_ge _ h]
  exact congrArg (readRun n b) hmem

/-! ## Memory with no line cached and no error (R325, R337) -/

/-- Nothing stands between an access and what memory holds: no line is cached, no byte of one differs, no unit is uncorrectable. -/
structure PlainMemory (d : Dev) : Prop where
  sets : d.cache.sets = []
  stale : d.cache.stale = []
  badUnits : d.badUnits = []

namespace PlainMemory

variable {d : Dev}

theorem memWrite (h : PlainMemory d) (a : Nat) (bs : List Byte) : PlainMemory (memWrite d a bs) where
  sets := h.sets
  stale := by simp [Machine.memWrite, staleAfter, h.sets, h.stale]
  badUnits := by simp [Machine.memWrite, h.badUnits]

theorem memNat_eq (h : PlainMemory d) (a n : Nat) : memNat d a n = ofLE (rawRead d a n) := by
  simp [memNat, memRead, h.stale]

theorem memNat_memWrite_self (h : PlainMemory d) (a n v : Nat) : memNat (Machine.memWrite d a (toLE n v)) a n = v % 256 ^ n := by
  have hread := rawRead_memWrite_self d a (toLE n v)
  rw [length_toLE] at hread
  rw [(h.memWrite a _).memNat_eq, hread, ofLE_toLE]

theorem memNat_memWrite_above (h : PlainMemory d) {a b : Nat} {bs : List Byte} (n : Nat) (hab : a + bs.length ≤ b) :
    memNat (Machine.memWrite d a bs) b n = memNat d b n := by
  rw [(h.memWrite a bs).memNat_eq, h.memNat_eq, rawRead_memWrite_above d n hab]

/-- A unit's write of a store on chip other than the Yard (R325). -/
theorem unitWrite_store (h : PlainMemory d) (c : Option Nat) {a : Nat} (ha : 0x8001000000 ≤ a) (bs : List Byte) :
    unitWrite d c a bs = Machine.memWrite d a bs := by
  have htouch : yardTouch d a bs.length = d := if_pos (.inr (.inr ha))
  have hstore : storeWrite d a bs = (Machine.memWrite d a bs, none) := by simp [storeWrite, spoiled, h.badUnits, lowLine]
  have hdev : devWriteFor c d a bs = (Machine.memWrite d a bs, none) := by
    rw [devWriteFor, if_neg (by omega), htouch, hstore]
  simp only [unitWrite, hdev]

end PlainMemory

theorem storeBase_chip (n : Nat) : 0x8001000000 ≤ storeBase n := by
  unfold storeBase
  omega

end Sys2Proof.Machine
end

section
namespace Sys2Proof.Machine

/-! ## Channels of the Shunting Engine (R340, R362) -/

@[simp] theorem chan_setChan_self (d : Dev) (ch : Nat) (c : ShChan) : chan (setChan d ch c) ch = c := mget_mset_self _ _ _ _

theorem chan_setChan_ne (d : Dev) {ch k : Nat} (c : ShChan) (h : k ≠ ch) : chan (setChan d ch c) k = chan d k := mget_mset_ne _ _ _ _ h

/-- What a started program changes of the engine: its own channel, which runs or waits for its turn, the turns and the staging (R362, R369). -/
theorem startChan_shunt (d : Dev) (ch : Nat) (c : ShChan) : ∃ st ts ph, (ph = .run ∨ ph = .turn) ∧ (startChan d ch c).shunt =
    { d.shunt with stage := st, turns := ts, chans := mset {} d.shunt.chans ch { c with ph := ph } } := by
  have hph (b : Bool) : (if b then ShPh.turn else .run) = .run ∨ (if b then ShPh.turn else .run) = .turn := by cases b <;> simp
  unfold startChan
  dsimp only
  by_cases hi : allIdle d = true
  · rw [if_pos hi]
    exact ⟨_, _, _, hph _, rfl⟩
  · rw [if_neg hi]
    exact ⟨_, _, _, hph _, rfl⟩

theorem startChan_rings (d : Dev) (ch : Nat) (c : ShChan) : (startChan d ch c).shunt.rings = d.shunt.rings := by
  obtain ⟨st, ts, ph, -, h⟩ := startChan_shunt d ch c
  rw [h]

theorem startChan_cmds (d : Dev) (ch : Nat) (c : ShChan) : (startChan d ch c).shunt.cmds = d.shunt.cmds := by
  obtain ⟨st, ts, ph, -, h⟩ := startChan_shunt d ch c
  rw [h]

theorem chan_startChan_self (d : Dev) (ch : Nat) (c : ShChan) : ∃ ph, (ph = .run ∨ ph = .turn) ∧ chan (startChan d ch c) ch = { c with ph := ph } := by
  obtain ⟨st, ts, ph, hph, h⟩ := startChan_shunt d ch c
  exact ⟨ph, hph, by rw [chan, h]; exact mget_mset_self _ _ _ _⟩

theorem chan_startChan_ne (d : Dev) {ch k : Nat} (c : ShChan) (hk : k ≠ ch) : chan (startChan d ch c) k = chan d k := by
  obtain ⟨st, ts, ph, -, h⟩ := startChan_shunt d ch c
  rw [chan, h]
  exact mget_mset_ne _ _ _ _ hk

/-! ## Captured rings and command moves (R341, R342) -/

theorem whenUp_up {d : Dev} {a : Nat} (ha : allOn d (needDoms d a) = true) (hm : memUp d a = true) (k : Dev → Dev) : whenUp d a k = k d := by
  rw [whenUp, ha, hm]
  rfl

/-- The ring that is next is captured where its line can be read (R263, R342). -/
theorem shuntRingCapture_captures {d : Dev} {r : Ring} {line : Nat} (hl : line = storeBase r.core + 64 * r.line) (hu : shuntUp d = true)
    (hn : nextRing d.shunt.arriving = some r) (hd : dropReason d r = 0) (ha : allOn d (needDoms d line) = true) (hm : memUp d line = true)
    (hb : firstBadLine d line 5 = none) :
    shuntRingCapture d = { d with shunt := { d.shunt with arriving := d.shunt.arriving.erase r, rings := d.shunt.rings ++
      [{ ring := r, channel := bitsOf (slotAt d line 0) 3 0, noWagon := decide (bitOf (slotAt d line 0) 4 = 1) }] } } := by
  subst hl
  simp only [shuntRingCapture, hn, hu, hd, if_true]
  rw [whenUp_up ha hm, hb]

theorem firstIdx_eq_some {n k : Nat} {p : Nat → Bool} : firstIdx n p = some k ↔ p k = true ∧ k < n ∧ ∀ j, j < k → p j = false := by
  simp [firstIdx, List.find?_range_eq_some]

/-- The oldest command move takes the channel (R341). -/
theorem commandMoveChannel_takes {d : Dev} {id : Nat} {ids : List Nat} {c : Cmd} {ch : Nat} (hu : shuntUp d = true) (hb : arbHeld d = false)
    (hq : d.shunt.cmds = id :: ids) (hc : cmdOf d id = some c)
    (hf : firstIdx 16 (fun k => decide (bitOf (fld d .shuntCtrl 0 15 0) k = 1 ∧ (chan d k).ph = .idle)) = some ch) :
    (commandMoveChannel d).shunt.cmds = ids ∧
      (∃ ph, ph ≠ .idle ∧ chan (commandMoveChannel d) ch = { moveChan d c with ph := ph }) ∧
      ∀ k, k ≠ ch → chan (commandMoveChannel d) k = chan d k := by
  obtain ⟨e, he⟩ : ∃ e, e = { d with shunt := { d.shunt with cmds := ids } } := ⟨_, rfl⟩
  have hchan (k : Nat) : chan e k = chan d k := by rw [he]; rfl
  have hcmds : (startChan e ch (moveChan d c)).shunt.cmds = ids := by rw [startChan_cmds, he]
  obtain ⟨ph, hph, hself⟩ := chan_startChan_self e ch (moveChan d c)
  have hother {k : Nat} (hk : k ≠ ch) : chan (startChan e ch (moveChan d c)) k = chan d k := (chan_startChan_ne e _ hk).trans (hchan k)
  unfold commandMoveChannel
  simp only [hq, hf]
  rw [if_pos ⟨hu, by rw [hb]; rfl⟩, ← he, hc]
  dsimp only
  split
  · refine ⟨hcmds, ⟨.move, by decide, ?_⟩, fun k hk => (chan_setChan_ne _ _ hk).trans (hother hk)⟩
    rw [chan_setChan_self, hself]
  · exact ⟨hcmds, ⟨ph, by rcases hph with rfl | rfl <;> decide, hself⟩, fun k hk => hother hk⟩

/-! ## The start of a program (R342, R362) -/

theorem shuntProgramStart_turn {d : Dev} {ch : Nat} (hu : shuntUp d = true) (hp : (chan d ch).ph = .turn) (ht : d.shunt.turns.head? = some ch)
    (hg : (chan d ch).prog ≠ none) : shuntProgramStart ch d = setChan d ch { chan d ch with ph := .run } := by
  have hn : (chan d ch).prog.isNone = false := Option.isNone_eq_false_iff.mpr (Option.isSome_iff_ne_none.mpr hg)
  simp [shuntProgramStart, hu, hp, ht, hn]

/-- The channel state with which a captured ring of a line starts its program (R342). -/
def ringChan (d : Dev) (r : ShRing) (line : Nat) : ShChan :=
  let w := fun k => BitVec.ofNat 40 (slotAt d line (4 + k))
  { src := .kernel r.ring r.noWagon { w0 := w 0, w1 := w 1, w2 := w 2, w3 := w 3 }, port := r.ring.port, consist := r.ring.consist,
    prog := some (slotAt d line 1 / 64 * 64), sbase := slotAt d line 2, dbase := slotAt d line 3 }

/-- An idle channel starts the one captured ring, which names it (R342). -/
theorem shuntProgramStart_ring {d : Dev} {ch : Nat} {r : ShRing} {line : Nat} (hl : line = storeBase r.ring.core + 64 * r.ring.line)
    (hu : shuntUp d = true) (hb : arbHeld d = false) (hp : (chan d ch).ph = .idle) (hr : d.shunt.rings = [r]) (hc : r.channel = ch)
    (ha : allOn d (needDoms d line) = true) (hm : memUp d line = true) (hf : firstBadLine d line 40 = none) :
    shuntProgramStart ch d = startChan { d with shunt := { d.shunt with rings := [] } } ch (ringChan d r line) := by
  subst hl
  have hfind : d.shunt.rings.find? (fun r => decide (r.channel = ch) && !arbHeld d) = some r := by simp [hr, hc, hb]
  have herase : d.shunt.rings.erase r = [] := by simp [hr]
  unfold shuntProgramStart
  simp only [hu, hp, hfind, if_true]
  rw [whenUp_up ha hm, hf, herase]
  rfl

/-! ## Program lines and the end of a program (R343, R344, R364, R365) -/

theorem skipOn_none {c : ShChan} (n : Nat) (h : c.skip = none) : skipOn n c = c := by
  cases n with
  | zero => rfl
  | succ n => rw [skipOn, h]

/-- A line that has come is kept (R343). -/
theorem programLineArrival_keeps {d e : Dev} {ch : Nat} {c : ShChan} {p a : Nat} {bs : List Byte} (hc : c = chan d ch) (hu : shuntUp d = true)
    (hr : c.ph = .run) (hg : chanFailing d c = false) (hp : c.prog = some p) (h64 : c.pc < 64) (hl : hasLine c = false) (hs : c.skip = none)
    (ha : a = p + 64 * c.pc) (ho : chanOut d c false a 64 = none) (hd : allOn d (needDoms d a) = true) (hm : memUp d a = true)
    (hf : fetchLines d (.prog ch) 50 c.port (chanConsist c) [(a, 64)] = .got e bs) :
    programLineArrival ch d = setChan e ch { c with kept := mset [] c.kept c.pc ((List.range 8).map (fun j => leAt bs (8 * j) 8)) } := by
  have hi : issuedOr d (.prog ch) none = none := ite_self none
  unfold programLineArrival
  dsimp only
  rw [← hc, hp]
  dsimp only
  rw [if_pos ⟨hu, hr, by rw [hg]; rfl, h64, by rw [hl]; rfl⟩, ← ha, ho, hi]
  dsimp only
  rw [whenUp_up hd hm, hf]
  dsimp only
  rw [skipOn_none]
  exact hs

theorem shEndRow_ends {d : Dev} {ch : Nat} {c : ShChan} (hc : c = chan d ch) (hu : shuntUp d = true) (hr : c.ph = .run)
    (hg : chanFailing d c = false) (hs : c.skip = none) (he : 64 ≤ c.pc ∨ (hasLine c = true ∧ (iw c 0 % 256 = 0 ∨ 5 < iw c 0 % 256))) :
    shEndRow ch d = setChan d ch { c with ph := .ended } := by
  subst hc
  exact if_pos ⟨hu, hr, by rw [hg]; rfl, by rw [hs]; rfl, he⟩

/-- An ended DMA_RUN completes with the bytes written (R364, R365). -/
theorem shuntProgramComplete_dma {d : Dev} {ch : Nat} {c : ShChan} {id : Nat} (hc : c = chan d ch) (hu : shuntUp d = true) (he : c.ph = .ended)
    (hw : writesDone d ch = true) (hg : chanFailing d c = false) (hs : c.src = .dma id) (hf : c.failed = none) :
    shuntProgramComplete ch d = finish (freeChan (bump (setFld d .shuntIrq 0 ch ch 1) .shuntCnt 2) ch) id 0 (c.bytes % 2 ^ 40) := by
  unfold shuntProgramComplete
  dsimp only
  rw [← hc, if_pos ⟨hu, he, hw, by rw [hg]; rfl⟩, hs, hf]
  rfl

/-- The device once a kernel program on a channel has ended without a failure: its interrupt is raised, the program is counted. -/
def programEnded (d : Dev) (ch : Nat) : Dev := bump (chanIrq d ch) .shuntCnt 2

/-- An ended kernel program without a Wagon writes WRITTEN, then DONE, and frees its channel (R364). -/
theorem shuntProgramComplete_kernel {d : Dev} {ch : Nat} {c : ShChan} {r : Ring} {w : Wagon} {line : Nat}
    (hl : line = storeBase r.core + 64 * r.line) (hc : c = chan d ch) (hu : shuntUp d = true) (he : c.ph = .ended) (hw : writesDone d ch = true)
    (hs : c.src = .kernel r true w) (hf : c.failed = none) (ha : allOn d (needDoms d line) = true) :
    shuntProgramComplete ch d = freeChan (workLess (unitWrite (unitWrite (programEnded d ch) r.consist (line + 55) (toLE 5 c.bytes))
      r.consist (line + 50) (toLE 5 1)) r) ch := by
  subst hl
  have hg : chanFailing d c = false := by rw [chanFailing, hs]
  unfold shuntProgramComplete
  dsimp only
  rw [← hc, if_pos ⟨hu, he, hw, by rw [hg]; rfl⟩, hs, hf]
  dsimp only
  rw [if_pos ha, if_pos rfl]
  rfl

theorem workLess_frame (d : Dev) (r : Ring) : workLess d r = { d with consists := (workLess d r).consists } := by
  unfold workLess
  split <;> rfl

/-- The end of a program's work and the release of its channel leave memory and the registers. -/
theorem freed_memNat (d : Dev) (r : Ring) (ch a n : Nat) : memNat (freeChan (workLess d r) ch) a n = memNat d a n := by
  rw [workLess_frame]
  rfl

theorem freed_fld (d : Dev) (r : Ring) (ch : Nat) (q : Reg) (i hi lo : Nat) : fld (freeChan (workLess d r) ch) q i hi lo = fld d q i hi lo := by
  rw [workLess_frame]
  rfl

theorem fld_programEnded (d : Dev) {ch : Nat} (h : ch < 16) : fld (programEnded d ch) .shuntIrq 0 ch ch = 1 := by
  have hr : rd (programEnded d ch) .shuntIrq 0 = rd (chanIrq d ch) .shuntIrq 0 := rd_bumpN_ne _ 1 (key_ne (by decide) (by omega) (by omega))
  rw [fld, hr]
  refine (fld_setFld_self d .shuntIrq 0 1 (by omega) (Nat.le_refl ch)).trans ?_
  simp

/-- What the completion of a kernel program leaves in its line: WRITTEN and DONE. -/
theorem shuntProgramComplete_line {d : Dev} {ch : Nat} {c : ShChan} {r : Ring} {w : Wagon} {line : Nat} (hch : ch < 16)
    (hl : line = storeBase r.core + 64 * r.line) (hc : c = chan d ch) (hu : shuntUp d = true) (he : c.ph = .ended) (hw : writesDone d ch = true)
    (hs : c.src = .kernel r true w) (hf : c.failed = none) (ha : allOn d (needDoms d line) = true) (hm : PlainMemory d) :
    memNat (shuntProgramComplete ch d) (line + 55) 5 = c.bytes % 2 ^ 40 ∧ memNat (shuntProgramComplete ch d) (line + 50) 5 = 1 ∧
      fld (shuntProgramComplete ch d) .shuntIrq 0 ch ch = 1 := by
  have hbase : 0x8001000000 ≤ line := by
    have := storeBase_chip r.core
    omega
  have h0 : PlainMemory (programEnded d ch) := ⟨hm.sets, hm.stale, hm.badUnits⟩
  have h1 := h0.memWrite (line + 55) (toLE 5 c.bytes)
  rw [shuntProgramComplete_kernel hl hc hu he hw hs hf ha, h0.unitWrite_store _ (by omega), h1.unitWrite_store _ (by omega), freed_memNat, freed_memNat,
    freed_fld]
  refine ⟨?_, h1.memNat_memWrite_self _ _ _, fld_programEnded d hch⟩
  rw [h1.memNat_memWrite_above 5 (by rw [length_toLE]), h0.memNat_memWrite_self]
  rfl

/-! ## The arms of the Shunting Engine's programs -/

theorem exec_shuntRingCapture (s : State) : exec .shuntRingCapture s = onDev s shuntRingCapture := rfl
theorem exec_commandMoveChannel (s : State) : exec .commandMoveChannel s = onDev s commandMoveChannel := rfl
theorem exec_shuntProgramStart (ch : Fin 16) (s : State) : exec (.shuntProgramStart ch) s = onDev s (shuntProgramStart ch.val) := rfl
theorem exec_programLineArrival (ch : Fin 16) (s : State) : exec (.programLineArrival ch) s = onDev s (programLineArrival ch.val) := rfl
theorem exec_shEnd (ch : Fin 16) (s : State) : exec (.shEnd ch) s = onDev s (shEndRow ch.val) := rfl
theorem exec_shuntProgramComplete (ch : Fin 16) (s : State) : exec (.shuntProgramComplete ch) s = onDev s (shuntProgramComplete ch.val) := rfl
theorem exec_shuntArbSwitch (s : State) : exec .shuntArbSwitch s = onDev s shuntArbSwitch := rfl

/-- Settles O53: each row's effect is that of its function, and the lines of a kernel program lie in a store on chip, which reads back as it was written. -/
theorem shuntPrograms : Obligations.ShuntPrograms := by
  intro s d h
  refine ⟨?_, ?_, ?_, ?_, ?_, ?_, ?_, ?_, ?_⟩
  · intro r line hl hu hn hd ha hm hb
    exact makes_of_onDev (exec_shuntRingCapture s) (shuntRingCapture_captures hl hu hn hd ha hm hb)
  · intro id ids c ch hu hb hq hc hlt hbit hidle hlow
    have hfirst : firstIdx 16 (fun k => decide (bitOf (fld d .shuntCtrl 0 15 0) k = 1 ∧ (chan d k).ph = .idle)) = some ch := by
      refine firstIdx_eq_some.mpr ⟨decide_eq_true ⟨hbit, hidle⟩, hlt, fun j hj => decide_eq_false fun ⟨h1, h2⟩ => ?_⟩
      rcases hlow j hj with h0 | h0
      · omega
      · exact h0 h2
    have hid : c.id = id := by simpa using List.find?_some hc
    obtain ⟨hcmds, ⟨ph, hph, hself⟩, hother⟩ := commandMoveChannel_takes hu hb hq hc hfirst
    refine ⟨_, (exec_commandMoveChannel s).trans (onDev_next s _), hcmds, ?_, ?_, ?_, hother⟩
    · exact (congrArg ShChan.src hself).trans (congrArg ShSrc.move hid)
    · exact congrArg ShChan.port hself
    · exact fun h0 => hph ((congrArg ShChan.ph hself).symm.trans h0)
  · intro ch hu hp ht hg
    exact makes_of_onDev (exec_shuntProgramStart ch s) (shuntProgramStart_turn hu hp ht hg)
  · intro ch r line hl hu hb hp hr hc ha hm hf
    have hstart := shuntProgramStart_ring hl hu hb hp hr hc ha hm hf
    obtain ⟨ph, hph, hself⟩ := chan_startChan_self { d with shunt := { h with rings := [] } } ch.val (ringChan d r line)
    refine ⟨_, (exec_shuntProgramStart ch s).trans (onDev_next s _), ?_⟩
    dsimp only
    rw [hstart, hself]
    exact ⟨startChan_rings .., rfl, rfl, rfl, rfl, hph⟩
  · intro ch c p a e bs hc hu hr hg hp h64 hl hs ha ho hd hm hf
    exact makes_of_onDev (exec_programLineArrival ch s) (programLineArrival_keeps hc hu hr hg hp h64 hl hs ha ho hd hm hf)
  · intro ch c hc hu hr hg hs he
    exact makes_of_onDev (exec_shEnd ch s) (shEndRow_ends hc hu hr hg hs he)
  · intro ch c id hc hu he hw hg hs hf
    exact makes_of_onDev (exec_shuntProgramComplete ch s) (shuntProgramComplete_dma hc hu he hw hg hs hf)
  · intro ch c r w line hl hc hu he hw hs hf ha hbad hstale hsets
    exact ⟨_, (exec_shuntProgramComplete ch s).trans (onDev_next s _),
      shuntProgramComplete_line ch.isLt hl hc hu he hw hs hf ha ⟨hsets, hstale, hbad⟩⟩
  · intro hu hi
    exact makes_of_onDev (exec_shuntArbSwitch s) (if_pos ⟨hu, hi⟩)

end Sys2Proof.Machine
end

section
namespace Sys2Proof.Machine

/-! ## What the transmitter leaves alone (R40 to R44) -/

/-- The link without what its transmitter works on. -/
def rxPart (l : LinkSt) : LinkSt :=
  { l with
    tx := [], txSeq := 0, replay := [], credP := 0, credNP := 0, credCPL := 0, oweP := 0, oweNP := 0, oweCPL := 0, farP := 0, farNP := 0, farCPL := 0
    txq := [], reads := [], ctlOut := [], parkAsked := false }

theorem rxPart_sendFlit (l : LinkSt) (slots : List Byte) : rxPart (sendFlit l slots) = rxPart l := by unfold sendFlit onLanes rxPart; rfl

theorem rxPart_sendCtl (l : LinkSt) (nak sub : Nat) : rxPart (sendCtl l nak sub) = rxPart l := by unfold sendCtl onLanes rxPart; rfl

theorem rxPart_parkAsked (l : LinkSt) (b : Bool) : rxPart { l with parkAsked := b } = rxPart l := rfl

theorem rxPart_issueReads (k : Nat) (l : LinkSt) : rxPart (issueReads k l) = rxPart l := by
  induction k generalizing l with
  | zero => rfl
  | succ k ih =>
    unfold issueReads
    split
    · split
      · split
        · exact ih _
        · rfl
      · rfl
    · rfl

theorem rxPart_sendBytes (k : Nat) (l : LinkSt) (bs : List Byte) : rxPart (sendBytes k l bs) = rxPart l := by
  induction k generalizing l bs with
  | zero => rfl
  | succ k ih =>
    unfold sendBytes
    split
    · rfl
    · rw [ih, rxPart_sendFlit]

theorem rxPart_pumpL (l : LinkSt) : rxPart (pumpL l) = rxPart l := by
  have hr := rxPart_issueReads l.reads.length l
  unfold pumpL
  dsimp only
  split
  · split
    · rw [rxPart_sendFlit]; exact hr
    · exact hr
  · exact (rxPart_sendBytes _ _ _).trans hr

/-- A drain of the LINK domain sends a control flit and notes that it has asked. -/
theorem parkDrain_frame (d : Dev) : parkDrain d = { d with link := (parkDrain d).link } := by
  unfold parkDrain
  split <;> rfl

theorem rxPart_parkDrain (d : Dev) : rxPart (parkDrain d).link = rxPart d.link := by
  unfold parkDrain
  split
  · exact (rxPart_parkAsked (sendCtl d.link 0 0x20) true).trans (rxPart_sendCtl ..)
  · rfl

theorem pump_inL0 {d : Dev} (h : linkState d = 2) : pump d = parkDrain { d with link := pumpL d.link } := by rw [pump, if_pos h]

theorem pump_outsideL0 {d : Dev} (h : linkState d ≠ 2) : pump d = parkDrain d := by rw [pump, if_neg h]

/-- The transmitter touches the link alone, and there only its own part. -/
theorem pump_frame (d : Dev) : pump d = { d with link := (pump d).link } := by
  by_cases h : linkState d = 2
  · rw [pump_inL0 h]; exact parkDrain_frame _
  · rw [pump_outsideL0 h]; exact parkDrain_frame _

theorem rxPart_pump (d : Dev) : rxPart (pump d).link = rxPart d.link := by
  by_cases h : linkState d = 2
  · rw [pump_inL0 h]; exact (rxPart_parkDrain _).trans (rxPart_pumpL _)
  · rw [pump_outsideL0 h]; exact rxPart_parkDrain _

@[simp] theorem pump_regs (d : Dev) : (pump d).regs = d.regs := by rw [pump_frame]
@[simp] theorem pump_mem (d : Dev) : (pump d).mem = d.mem := by rw [pump_frame]
@[simp] theorem pump_ports (d : Dev) : (pump d).ports = d.ports := by rw [pump_frame]
@[simp] theorem pump_train (d : Dev) : (pump d).link.train = d.link.train := (congrArg LinkSt.train (rxPart_pump d) :)
@[simp] theorem pump_fails (d : Dev) : (pump d).link.fails = d.link.fails := (congrArg LinkSt.fails (rxPart_pump d) :)

/-- With nothing to ask, to send or to give back, the transmitter rests. -/
theorem pumpL_rests {l : LinkSt} (hr : l.reads = []) (ht : l.txq = []) (ho : l.oweP + l.oweNP + l.oweCPL = 0) : pumpL l = l := by
  have hi : issueReads l.reads.length l = l := by rw [hr]; rfl
  have hp : pickSend l.txq l.credP l.credNP l.credCPL (248 * (64 - l.replay.length)) false false = ([], [], l.credP, l.credNP, l.credCPL) := by
    rw [ht]; rfl
  unfold pumpL
  rw [hi]
  dsimp only
  rw [hp]
  simp only [List.map_nil, List.flatten_nil, if_true, ho, Nat.lt_irrefl, false_and, if_false]
  rw [← ht]

/-- A link outside L0 and L-Coast sends nothing (R54). -/
theorem pump_idle {d : Dev} (h2 : linkState d ≠ 2) (h3 : linkState d ≠ 3) : pump d = d := by
  unfold pump parkDrain
  rw [if_neg h2, if_neg]
  rintro ⟨-, -, h, -⟩
  exact h.elim h2 h3

/-- A meaning that lets the transmitter send makes what its function gives. -/
theorem makesTx_of_onDevTx {i : Instr} {s : State} {f : Dev → Dev} {d : Dev} (h : exec i s = onDevTx s f) (hf : f s.dev = d) : MakesTx i s d := by
  rw [MakesTx, h, onDevTx, hf]

/-! ## LINK_STATUS and LINK_ERR_CNT (R54, R63) -/

theorem fld_setFld_apart (d : Dev) (r : Reg) (i : Nat) {hi lo hi' lo' : Nat} (v : Nat) (hh : hi < 40) (h : hi' < lo ∨ hi < lo') :
    fld (setFld d r i hi lo v) r i hi' lo' = fld d r i hi' lo' := by
  rw [fld, rd_setFld_self, bitsOf_setBitsW_apart _ _ hh h, fld]

theorem linkState_setLinkState (d : Dev) {v : Nat} (h : v < 8) : linkState (setLinkState d v) = v := by
  rw [linkState, setLinkState, fld_setFld_self _ _ _ _ (by omega) (by omega)]
  omega

theorem linkState_congr {d e : Dev} (h : e.regs = d.regs) : linkState e = linkState d := fld_congr h ..

theorem linkState_setFld (d : Dev) {hi lo : Nat} (v : Nat) (hh : hi < 40) (h : 2 < lo) : linkState (setFld d .linkStatus 0 hi lo v) = linkState d :=
  fld_setFld_apart d _ _ v hh (.inl h)

theorem linkState_pump (d : Dev) : linkState (pump d) = linkState d := linkState_congr (pump_regs d)

/-- A count of LINK_ERR_CNT touches the registers alone. -/
theorem bumpLink_frame (d : Dev) (i : Nat) : bumpLink d i = { d with regs := (bumpLink d i).regs } := by
  unfold bumpLink
  split <;> rfl

@[simp] theorem bumpLink_link (d : Dev) (i : Nat) : (bumpLink d i).link = d.link := by rw [bumpLink_frame]

theorem bumpLink_sameRegs (d : Dev) {i : Nat} (hi : i < 4096) : SameRegs [.linkErrCnt] d (bumpLink d i) := by
  unfold bumpLink
  split
  · exact .refl
  · exact .setFld _ _ _ (by decide) hi

theorem linkState_bumpLink (d : Dev) {i : Nat} (hi : i < 4096) : linkState (bumpLink d i) = linkState d :=
  (bumpLink_sameRegs d hi).fld 2 0 (by decide) (by omega)

/-- A count below saturation goes up by one (R63). -/
theorem fld_bumpLink (d : Dev) (i : Nat) (h : fld d .linkErrCnt i 31 0 < 0xFFFFFFFF) :
    fld (bumpLink d i) .linkErrCnt i 31 0 = fld d .linkErrCnt i 31 0 + 1 := by
  unfold bumpLink
  rw [if_neg (by omega), fld_setFld_self _ _ _ _ (by omega) (by omega)]
  omega

theorem linkOn_congr {d e : Dev} (h : e.pwr = d.pwr) : linkOn e = linkOn d := by rw [linkOn, linkOn, domOn, domOn, dom, dom, h]

/-- The states that carry flits (R54, R55). -/
theorem linkLive_iff (d : Dev) : linkLive d = true ↔ linkOn d = true ∧ (linkState d = 2 ∨ linkState d = 3) := by simp [linkLive]

/-! ## The start of a retrain (R41) -/

theorem linkState_startRetrain (d : Dev) : linkState (startRetrain d) = 5 :=
  (linkState_bumpLink _ (by omega)).trans (linkState_setLinkState _ (by omega))

theorem startRetrain_link (d : Dev) : (startRetrain d).link = { d.link with train := some { step := 1, retrain := true }, parkAsked := false } :=
  bumpLink_link _ _

/-- The start of a retrain writes LINK_STATUS and LINK_ERR_CNT alone among the registers. -/
theorem startRetrain_sameRegs (d : Dev) : SameRegs [.linkStatus, .linkErrCnt] d (startRetrain d) :=
  .trans (.trans (.of_regs rfl) (.setFld _ _ _ (by decide) (by omega))) (SameRegs.mono (bumpLink_sameRegs _ (by omega)) (by decide))

/-- A link in retrain sends nothing (R54). -/
theorem pump_startRetrain (d : Dev) : pump (startRetrain d) = startRetrain d := by
  have h := linkState_startRetrain d
  exact pump_idle (by omega) (by omega)

end Sys2Proof.Machine
end

section
namespace Sys2Proof.Machine

/-! ## The lanes of a training (R31, R36) -/

theorem chooseWidth_full {ok : Nat → Bool} (h : ∀ n, n < 4 → ok n = true) : chooseWidth 0 ok = some (0, [0, 1, 2, 3]) := by
  simp [chooseWidth, h]

theorem chooseWidth_none {ok : Nat → Bool} (limit : Nat) (h : ∀ n, n < 4 → ok n = false) : chooseWidth limit ok = none := by
  unfold chooseWidth
  dsimp only
  split <;> split <;> simp [h]

theorem physLane_lt (rep : LaneReport) {n : Nat} (h : n < 4) : physLane rep n < 4 := by
  unfold physLane
  split <;> omega

/-- A lane set of four bits that are all set. -/
theorem getLsbD_all {v : BitVec 4} (hv : v = 15) {n : Nat} (h : n < 4) : v.getLsbD n = true := by
  subst hv
  interval_cases n <;> rfl

theorem lanePresent_all {rep : LaneReport} (h : rep.present = 15) {n : Nat} (hn : n < 4) : lanePresent rep n = true :=
  getLsbD_all h (physLane_lt rep hn)

theorem lanePresent_none {rep : LaneReport} (h : rep.present = 0) (n : Nat) : lanePresent rep n = false := by
  rw [lanePresent, h]; exact BitVec.getLsbD_zero

theorem widthLimit_x4 {d : Dev} (h : fld d .linkCtrl 0 1 0 = 0) : widthLimit d = 0 := by rw [widthLimit, h]; rfl

/-! ## A link that has come up (R32, R36, R43, R63) -/

theorem widthReport_sameRegs (d : Dev) (old new : Nat) : SameRegs [.sboxEvent, .sboxLog] d (widthReport d old new) := by
  unfold widthReport
  split
  · exact .refl
  · exact .trans (.setFld _ _ _ (by decide) (by omega)) (SameRegs.mono (logBook_sameRegs _ _ _ _) (by decide))

@[simp] theorem widthReport_link (d : Dev) (old new : Nat) : (widthReport d old new).link = d.link := by
  unfold widthReport
  split
  · rfl
  · rw [logBook_frame]; rfl

theorem linkState_linkUpStatus (d : Dev) (rep : LaneReport) (w : Nat × List Nat) : linkState (linkUpStatus d rep w) = 2 := by
  unfold linkUpStatus
  simp (disch := omega) only [linkState_setFld, linkState_setLinkState]

theorem width_linkUpStatus (d : Dev) (rep : LaneReport) (w : Nat × List Nat) : fld (linkUpStatus d rep w) .linkStatus 0 13 12 = w.1 % 4 := by
  unfold linkUpStatus
  simp (disch := omega) only [fld_setFld_apart, fld_setFld_self]
  rfl

/-- The registers of a link that Configure has brought up. -/
theorem configure_status (d : Dev) (rep : LaneReport) (w : Nat × List Nat) (tx rx : Nat) :
    linkState (configure d rep w tx rx) = 2 ∧ fld (configure d rep w tx rx) .linkStatus 0 13 12 = w.1 % 4 ∧
      fld (configure d rep w tx rx) .linkStatus 0 25 23 = tx % 8 ∧ fld (configure d rep w tx rx) .linkStatus 0 28 26 = rx % 8 := by
  unfold configure
  dsimp only
  have hreport (e : Dev) (hi lo : Nat) :
      fld (widthReport e (d.link.lastWidth.getD w.1) w.1) .linkStatus 0 hi lo = fld e .linkStatus 0 hi lo :=
    (widthReport_sameRegs _ _ _).fld hi lo (by decide) (by omega)
  have hcredit (e : Dev) (v : Word) (hi lo : Nat) : fld (wr e .linkCredit 0 v) .linkStatus 0 hi lo = fld e .linkStatus 0 hi lo :=
    SameRegs.fld (rs := [.linkCredit]) (.wr v (by decide) (by omega)) hi lo (by decide) (by omega)
  refine ⟨?_, ?_, ?_, ?_⟩
  · simp (disch := omega) only [linkState, hreport, fld_setFld_apart, hcredit]
    exact linkState_linkUpStatus ..
  · simp (disch := omega) only [hreport, fld_setFld_apart, hcredit]
    exact width_linkUpStatus ..
  · simp (disch := omega) only [hreport, fld_setFld_apart, fld_setFld_self]
    rfl
  · simp (disch := omega) only [hreport, fld_setFld_self]
    rfl

theorem configure_link (d : Dev) (rep : LaneReport) (w : Nat × List Nat) (tx rx : Nat) :
    (configure d rep w tx rx).link = freshLink rep.credP.toNat rep.credNP.toNat rep.credCPL.toNat d.fresh w.1 w.2 := widthReport_link ..

/-- A fresh link has nothing to send; at most a drain of the LINK domain asks the bridge (R56). -/
theorem pump_freshLink {d : Dev} {p n c fresh w : Nat} {lanes : List Nat} (h : d.link = freshLink p n c fresh w lanes) :
    ∃ tx out asked, (pump d).link = { freshLink p n c fresh w lanes with tx := tx, ctlOut := out, parkAsked := asked } := by
  have hp : ({ d with link := pumpL d.link } : Dev) = d := by rw [pumpL_rests] <;> simp [h, freshLink]
  have hd : pump d = parkDrain d := by rw [pump, hp, ite_self]
  rw [hd, parkDrain]
  split
  · rw [h]; exact ⟨_, _, _, rfl⟩
  · rw [h]; exact ⟨_, _, _, rfl⟩

/-- The link has come up x4 in L0, with the bridge's credits, sequence numbers 0 and a preset pair (R32, R36, R43). -/
def CameUp (e : Dev) (rep : LaneReport) (tx rx : Nat) : Prop :=
  (linkState e = 2 ∧ fld e .linkStatus 0 13 12 = 0 ∧ e.link.train = none ∧ e.link.credP = rep.credP.toNat ∧
    e.link.credNP = rep.credNP.toNat ∧ e.link.credCPL = rep.credCPL.toNat ∧ e.link.txSeq = 0 ∧ e.link.rxSeq = 0) ∧
  fld e .linkStatus 0 25 23 = tx ∧ fld e .linkStatus 0 28 26 = rx

/-- What Configure leaves has come up, whatever else of the device changes beside its registers and its link. -/
theorem cameUp_configure {d e : Dev} {rep : LaneReport} {lanes : List Nat} {tx rx : Nat} (ht : tx < 8) (hx : rx < 8)
    (hr : e.regs = (configure d rep (0, lanes) tx rx).regs) (hl : e.link = (configure d rep (0, lanes) tx rx).link) :
    CameUp (pump e) rep tx rx := by
  obtain ⟨hs, hw, h1, h2⟩ := configure_status d rep (0, lanes) tx rx
  obtain ⟨ts, out, asked, hp⟩ := pump_freshLink (hl.trans (configure_link ..))
  have hr' : (pump e).regs = (configure d rep (0, lanes) tx rx).regs := (pump_regs e).trans hr
  refine ⟨⟨(linkState_congr hr').trans hs, (fld_congr hr' ..).trans hw, ?_⟩, ?_, ?_⟩
  · rw [hp]; exact ⟨rfl, rfl, rfl, rfl, rfl, rfl⟩
  · rw [fld_congr hr', h1, Nat.mod_eq_of_lt ht]
  · rw [fld_congr hr', h2, Nat.mod_eq_of_lt hx]

/-! ## LINK_TRAINING (R32 to R36) -/

/-- A training whose four lanes pass at x4 ends in Configure. -/
theorem trainEnds_x4 {d : Dev} {rep : LaneReport} {rxOk : Nat → Bool} (hw : fld d .linkCtrl 0 1 0 = 0) (hp : rep.present = 15)
    (ht : rep.txPass = 15) (hr : ∀ n, n < 4 → rxOk n = true) (tx rx : Nat) :
    trainEnds d rep rxOk tx rx = configure d rep (0, [0, 1, 2, 3]) tx rx := by
  have h := chooseWidth_full (ok := fun n => lanePresent rep n && rep.txPass.getLsbD n && rxOk n)
    (fun n hn => by rw [lanePresent_all hp hn, getLsbD_all ht hn, hr n hn]; rfl)
  rw [trainEnds, widthLimit_x4 hw, h]

section
variable {d : Dev} {t : Training} {rep : LaneReport} (hon : linkOn d = true) (hs : linkState d = 1) (ht : d.link.train = some t)
include hon hs ht

/-- Saved presets that pass on every lane are kept (R35). -/
theorem linkTraining_saved {tx rx : Nat} (h3 : t.step ≠ 3) (hv : t.saved = some (tx, rx)) (hw : fld d .linkCtrl 0 1 0 = 0) (hp : rep.present = 15)
    (htp : rep.txPass = 15) (hrp : rep.rxPass = 15) : linkTraining rep d = configure d rep (0, [0, 1, 2, 3]) tx rx := by
  have hall : (List.range 4).all (fun n => rep.txPass.getLsbD n && rep.rxPass.getLsbD n) = true := by rw [htp, hrp]; rfl
  unfold linkTraining
  rw [if_pos ⟨hon, by omega⟩]
  simp only [hs, Nat.succ_ne_zero, if_false, ht, h3, hall, if_true, hv]
  exact trainEnds_x4 hw hp htp (fun n hn => getLsbD_all hrp hn) tx rx

/-- Without saved presets the sweep begins where a lane is present, and the training fails where none is (R34, R59). -/
theorem linkTraining_unsaved (h3 : t.step ≠ 3) (hv : t.saved = none) : linkTraining rep d =
    if (List.range 4).any (lanePresent rep) then modLink d (fun l => { l with train := some { t with step := 3 } }) else trainFail d := by
  unfold linkTraining
  rw [if_pos ⟨hon, by omega⟩]
  simp only [hs, Nat.succ_ne_zero, if_false, ht, h3, hv, ite_self]

/-- A finished sweep in which every lane has a trial without errors brings the link up; firmware that runs saves the presets (R34, R35). -/
theorem linkTraining_swept (h3 : t.step = 3) (h8 : t.errs.length = 8) (he : ∀ n, n < 4 → ∃ e ∈ t.errs, trialErr e n = 0)
    (hw : fld d .linkCtrl 0 1 0 = 0) (hp : rep.present = 15) (htp : rep.txPass = 15) :
    let e := configure d rep (0, [0, 1, 2, 3]) rep.txPreset.toNat (bestPreset t.errs)
    linkTraining rep d = if linkState e = 2 ∧ fwUp e then { e with nv := { e.nv with presets := some (rep.txPreset.toNat, bestPreset t.errs) } } else e := by
  have hr : ∀ n, n < 4 → t.errs.any (fun e => decide (trialErr e n = 0)) = true := fun n hn => by simpa using he n hn
  unfold linkTraining
  rw [if_pos ⟨hon, by omega⟩]
  simp only [hs, Nat.succ_ne_zero, if_false, ht, h3, h8, Nat.lt_irrefl, if_true, trainEnds_x4 hw hp htp hr]

end

/-- What every step of a search keeps of the value it has found holds of the value that it ends with. -/
theorem foldl_found {α β : Type} {P : β → Prop} {f : Option β → α → Option β} (l : List α) (acc : Option β) (h0 : ∀ b, acc = some b → P b)
    (h : ∀ acc a, (∀ b, acc = some b → P b) → ∀ b, f acc a = some b → P b) : ∀ b, l.foldl f acc = some b → P b := by
  induction l generalizing acc with
  | nil => exact h0
  | cons a l ih => exact ih _ (h acc a h0)

theorem presetOrder_lt {p : Nat} (h : p ∈ presetOrder) : p < 8 := by
  revert h p; decide

theorem getD_map_fst_lt {o : Option (Nat × Nat)} {n : Nat} (hn : 0 < n) (h : ∀ b, o = some b → b.1 < n) : (o.map Prod.fst).getD 0 < n := by
  cases o with
  | none => exact hn
  | some b => exact h b rfl

/-- A preset has three bits (R34): the best one is that of a trial. -/
theorem bestPreset_lt (errs : List (List Nat)) : bestPreset errs < 8 := by
  unfold bestPreset
  dsimp only
  generalize hsums : (presetOrder.zip errs).map (fun e => (e.1, (List.range 4).foldl (fun a n => a + trialErr e.2 n) 0)) = sums
  have hlt : ∀ s ∈ sums, s.1 < 8 := by
    intro s hs
    rw [← hsums] at hs
    obtain ⟨e, he, rfl⟩ := List.mem_map.mp hs
    exact presetOrder_lt (List.of_mem_zip he).1
  refine getD_map_fst_lt (by omega) fun b hb => hlt b (foldl_found (P := (· ∈ sums)) _ none (by simp) (fun acc p hacc b => ?_) b hb)
  split
  · next s a hs =>
    split
    · rintro ⟨rfl⟩; exact List.mem_of_find?_eq_some hs
    · exact hacc b
  · next s hs => rintro ⟨rfl⟩; exact List.mem_of_find?_eq_some hs
  · exact hacc b

end Sys2Proof.Machine
end

section
namespace Sys2Proof.Machine

/-! ## What a link that goes down leaves of its buffers (R60) -/

/-- The link without its reads: what the end of commands and of the units' work for them leaves alone. -/
def readless (l : LinkSt) : LinkSt := { l with reads := [] }

@[simp] theorem abortInterrupts_link (d : Dev) (c : Nat) : (abortInterrupts d c).link = d.link := by
  unfold abortInterrupts
  refine foldl_proj (fun d : Dev => d.link) _ (fun _ _ _ => ?_) d
  rfl

@[simp] theorem recordEvent_link (d : Dev) (c st r : Nat) : (recordEvent d c st r).link = d.link := by
  unfold recordEvent
  dsimp only
  split
  · rw [abortInterrupts_link, setConsist_link]
  · split <;> rfl

@[simp] theorem shedRakes_link (d : Dev) : (shedRakes d).link = d.link := by
  unfold shedRakes
  split
  · split
    · refine foldl_proj (fun d : Dev => d.link) _ (fun e r _ => ?_) d
      dsimp only
      split <;> rfl
    · rfl
  · rfl

theorem readless_completed (d : Dev) (c : Cmd) : readless (completed d c).link = readless d.link := by
  unfold completed dropCmd
  dsimp only
  split
  · split
    · rw [shedRakes_link]; rfl
    · rfl
  · split <;> rfl
  · split <;> rfl
  · rfl

theorem readless_dropCommand (d : Dev) (c : Cmd) : readless (dropCommand d c).link = readless d.link := by
  unfold dropCommand
  split
  · exact readless_completed d c
  · rfl
  · split
    · split
      · rw [recordEvent_link]; rfl
      · rfl
    · rfl
    · split <;> rfl
    · rfl

theorem readless_dropCmdWork (d : Dev) : readless (dropCmdWork d).link = readless d.link := by
  have hj : ∀ (l : List JProg) (e : Dev), readless (l.foldl dropJProg e).link = readless e.link := fun l e =>
    foldl_proj (fun d : Dev => readless d.link) (f := dropJProg) l (fun _ _ _ => rfl) e
  have hc : ∀ (l : List Nat) (e : Dev), readless (l.foldl freeChan e).link = readless e.link := fun l e =>
    foldl_proj (fun d : Dev => readless d.link) (f := freeChan) l (fun _ _ _ => rfl) e
  unfold dropCmdWork dropReqs
  exact (hc _ _).trans (hj _ _)

theorem readless_dropRings (d : Dev) : readless (dropRings d).link = readless d.link :=
  (foldl_proj (fun d : Dev => readless d.link) _ (fun e c _ => readless_dropCommand e c) _).trans (readless_dropCmdWork d)

/-- A property of the default and of every entry holds of every value that is read. -/
theorem mget_all {α : Type} {P : α → Prop} {d : α} (m : SMap α) (hd : P d) (h : ∀ e ∈ m, P e.2) (k : Nat) : P (mget d m k) := by
  induction m with
  | nil => exact hd
  | cons e m ih =>
    obtain ⟨j, v⟩ := e
    unfold mget
    split
    · exact h _ List.mem_cons_self
    · split
      · exact hd
      · exact ih fun e he => h e (List.mem_cons_of_mem _ he)

/-- No port is polled once the rings are lost (R60). -/
theorem polling_dropRings (d : Dev) (p : Nat) : (port (dropRings d) p).polling = false := by
  refine mget_all (P := fun v : Port => v.polling = false) _ rfl (fun e he => ?_) p
  obtain ⟨x, -, rfl⟩ := List.mem_map.mp (List.mem_filter.mp he).1
  rfl

/-! ## LINK_DOWN (R59, R60) -/

/-- The device whose link has gone down, before that is reported. -/
def linkLost (d : Dev) : Dev :=
  setFld (setFld (setFld (setLinkState (dropRings { readsUndone d with link := { lastWidth := d.link.lastWidth } }) 0)
    .linkStatus 0 29 29 1) .linkStatus 0 17 14 0) .linkStatus 0 13 12 3

/-- Without an FW_ACTIVATE in flight no reset follows (R60, R412). -/
theorem rebootDue_none {d : Dev} (h : ∀ c ∈ d.ring.cmds, c.opcode ≠ 0xE5) : rebootDue d = false := by
  simp only [rebootDue, List.any_eq_false, decide_eq_true_eq]
  exact fun c hc hx => h c hc hx.1

theorem linkDown_reports {d : Dev} (h : ∀ c ∈ d.ring.cmds, c.opcode ≠ 0xE5) : linkDown d =
    if running d ∨ d.pwr.mode = .standing then logBook (sboxEvent (linkLost d) 1) 2 0x0011 [(rd (linkLost d) .linkStatus 0).toNat] else linkLost d := by
  unfold linkDown
  dsimp only
  rw [rebootDue_none h]
  rfl

section
variable {d : Dev} (h : ∀ c ∈ d.ring.cmds, c.opcode ≠ 0xE5)
include h

theorem linkDown_sameRegs : SameRegs [.sboxEvent, .sboxLog] (linkLost d) (linkDown d) := by
  rw [linkDown_reports h]
  split
  · exact .trans (.setFld _ _ _ (by decide) (by omega)) (SameRegs.mono (logBook_sameRegs _ _ _ _) (by decide))
  · exact .refl

/-- The report of a link that is down leaves the link, the ring engine and the ports as they are. -/
theorem linkDown_keeps : (linkDown d).link = (linkLost d).link ∧ (linkDown d).ring = (linkLost d).ring ∧ (linkDown d).ports = (linkLost d).ports := by
  rw [linkDown_reports h]
  split
  · rw [logBook_frame]; exact ⟨rfl, rfl, rfl⟩
  · exact ⟨rfl, rfl, rfl⟩

theorem linkState_linkDown : linkState (linkDown d) = 0 := by
  refine ((linkDown_sameRegs h).fld 2 0 (by decide) (by omega)).trans ?_
  rw [linkLost]
  simp (disch := omega) only [fld_setFld_apart]
  exact linkState_setLinkState _ (by omega)

theorem downSeen_linkDown : fld (linkDown d) .linkStatus 0 29 29 = 1 := by
  rw [(linkDown_sameRegs h).fld 29 29 (by decide) (by omega), linkLost]
  simp (disch := omega) only [fld_setFld_apart, fld_setFld_self]
  rfl

/-- A link that has gone down holds nothing but its last width, and perhaps reads that were given up. -/
theorem readless_linkDown : readless (linkDown d).link = { lastWidth := d.link.lastWidth } := by
  rw [(linkDown_keeps h).1]
  exact readless_dropRings _

theorem polling_linkDown (p : Nat) : (port (linkDown d) p).polling = false := by
  rw [port, (linkDown_keeps h).2.2]
  exact polling_dropRings _ p

end

end Sys2Proof.Machine
end

section
namespace Sys2Proof.Machine

/-! ## Replay and retraining (R36, R41) -/

/-- Every unacknowledged flit is sent again where none has been replayed three times. -/
theorem replayAll_sends {d : Dev} (h0 : d.link.replay ≠ []) (h3 : ∀ f ∈ d.link.replay, f.replays < 3) :
    replayAll d = bumpLink { d with link := { d.link with
      replay := d.link.replay.map (fun f => { f with replays := f.replays + 1 })
      tx := d.link.replay.foldl (fun t f => sendOnLanes d.link.lanes f.bytes t) d.link.tx } } 1 := by
  have hany : d.link.replay.any (fun f => decide (3 ≤ f.replays)) = false := by
    simp only [List.any_eq_false, decide_eq_true_eq]
    exact fun f hf => by have := h3 f hf; omega
  rw [replayAll, if_neg h0, hany, if_neg (by decide)]
  rfl

/-- A flit that has been replayed three times starts a retrain. -/
theorem replayAll_retrains {d : Dev} {f : SentFlit} (hf : f ∈ d.link.replay) (h3 : 3 ≤ f.replays) : replayAll d = startRetrain d := by
  have hany : d.link.replay.any (fun f => decide (3 ≤ f.replays)) = true := List.any_eq_true.mpr ⟨f, hf, decide_eq_true h3⟩
  rw [replayAll, if_neg (List.ne_nil_of_mem hf), if_pos hany]

/-- A replay of flits that have not been replayed keeps the link's state, and the link but for its transmitter. -/
theorem replayAll_keeps {d : Dev} (h3 : ∀ f ∈ d.link.replay, f.replays < 3) :
    SameRegs [.linkErrCnt] d (replayAll d) ∧ rxPart (replayAll d).link = rxPart d.link := by
  by_cases h0 : d.link.replay = []
  · rw [replayAll, if_pos h0]; exact ⟨.refl, rfl⟩
  · rw [replayAll_sends h0 h3, bumpLink_link]
    exact ⟨.trans (.of_regs rfl) (bumpLink_sameRegs _ (by omega)), rfl⟩

/-- The device whose retrain has come up x4, before it reports and replays. -/
def retrained (d : Dev) (rep : LaneReport) : Dev :=
  linkUpStatus (modLink d (fun l => { l with
    train := none, fails := 0, lanes := [0, 1, 2, 3], lastWidth := some 0, replay := l.replay.map (fun f => { f with replays := 0 }) })) rep (0, [0, 1, 2, 3])

theorem retrain_x4 {d : Dev} {rep : LaneReport} (hon : linkOn d = true) (hs : linkState d = 5) (hp : rep.present = 15) (ht : rep.txPass = 15)
    (hr : rep.rxPass = 15) (hw : fld d .linkCtrl 0 1 0 = 0) :
    retrain rep d = replayAll (widthReport (retrained d rep) (fld d .linkStatus 0 13 12) 0) := by
  have h := chooseWidth_full (ok := fun n => lanePresent rep n && rep.txPass.getLsbD n && rep.rxPass.getLsbD n)
    (fun n hn => by rw [lanePresent_all hp hn, getLsbD_all ht hn, getLsbD_all hr hn]; rfl)
  rw [retrain, if_pos ⟨hon, hs⟩, widthLimit_x4 hw, h]
  rfl

theorem retrain_absent {d : Dev} {rep : LaneReport} (hon : linkOn d = true) (hs : linkState d = 5) (hp : rep.present = 0) :
    retrain rep d = retrainFailed d := by
  have h := chooseWidth_none (ok := fun n => lanePresent rep n && rep.txPass.getLsbD n && rep.rxPass.getLsbD n) (widthLimit d)
    (fun n _ => by rw [lanePresent_none hp]; rfl)
  rw [retrain, if_pos ⟨hon, hs⟩, h]

/-- A retrain with four good lanes is over, and the link is in L0 at x4. -/
theorem retrain_comesUp {d : Dev} {rep : LaneReport} (hon : linkOn d = true) (hs : linkState d = 5) (hp : rep.present = 15) (ht : rep.txPass = 15)
    (hr : rep.rxPass = 15) (hw : fld d .linkCtrl 0 1 0 = 0) :
    linkState (retrain rep d) = 2 ∧ fld (retrain rep d) .linkStatus 0 13 12 = 0 ∧ (retrain rep d).link.train = none ∧
      (retrain rep d).link.fails = 0 := by
  have hlink : (widthReport (retrained d rep) (fld d .linkStatus 0 13 12) 0).link = (retrained d rep).link := widthReport_link ..
  have hreplay : ∀ f ∈ (widthReport (retrained d rep) (fld d .linkStatus 0 13 12) 0).link.replay, f.replays < 3 := by
    rw [hlink]
    intro f hf
    obtain ⟨g, -, rfl⟩ := List.mem_map.mp hf
    exact Nat.zero_lt_succ 2
  obtain ⟨hregs, hrx⟩ := replayAll_keeps hreplay
  have hsame := (SameRegs.mono (widthReport_sameRegs (retrained d rep) (fld d .linkStatus 0 13 12) 0) (rs' := [.sboxEvent, .sboxLog, .linkErrCnt])
    (by decide)).trans (hregs.mono (by decide))
  rw [hlink] at hrx
  rw [retrain_x4 hon hs hp ht hr hw]
  refine ⟨?_, ?_, (congrArg LinkSt.train hrx :), (congrArg LinkSt.fails hrx :)⟩
  · exact (hsame.fld 2 0 (by decide) (by omega)).trans (linkState_linkUpStatus ..)
  · exact (hsame.fld 13 12 (by decide) (by omega)).trans (width_linkUpStatus ..)

/-- One failed retrain, and a second in a row, start another (R41). -/
theorem retrainFailed_again {d : Dev} (h : d.link.fails < 2) :
    retrainFailed d = startRetrain (modLink d (fun l => { l with fails := l.fails + 1 })) := by
  rw [retrainFailed, if_neg (by omega)]

theorem fails_retrainFailed {d : Dev} (h : d.link.fails < 2) :
    linkState (retrainFailed d) = 5 ∧ (retrainFailed d).link.fails = d.link.fails + 1 := by
  rw [retrainFailed_again h]
  exact ⟨linkState_startRetrain _, by rw [startRetrain_link]; rfl⟩

/-- A write of LINK_CTRL that asks for a retrain starts it, and the register is written by its access codes (R36, R63). -/
theorem linkCtrlWrite_retrains {d : Dev} {v : Word} (hon : linkOn d = true) (h2 : 2 ≤ linkState d) (h4 : linkState d ≤ 4)
    (hv : bitOf v.toNat 2 = 1 ∨ bitsOf v.toNat 1 0 ≠ fld d .linkCtrl 0 1 0) :
    linkState (linkCtrlWrite d v) = 5 ∧ (linkCtrlWrite d v).link.train = some { step := 1, retrain := true } ∧
      rd (linkCtrlWrite d v) .linkCtrl 0 = accessWrite .linkCtrl (rd d .linkCtrl 0) v := by
  rw [linkCtrlWrite, if_pos ⟨hon, h2, h4, hv⟩]
  refine ⟨linkState_startRetrain _, by rw [startRetrain_link], ?_⟩
  rw [startRetrain_sameRegs _ .linkCtrl 0 (by decide) (by omega), regStore, rd_wr_self]

/-! ## The arms of training and retraining -/

theorem exec_trainingRetryTimer (s : State) : exec .trainingRetryTimer s = execTrainingRetryTimer s := rfl
theorem exec_trainingStepTimeout (s : State) : exec .trainingStepTimeout s = execTrainingStepTimeout s := rfl
theorem exec_presetTrialEnd (errs : List Nat) (s : State) : exec (.presetTrialEnd errs) s = onDev s (presetTrialEnd errs) := rfl
theorem exec_linkTraining (rep : LaneReport) (s : State) : exec (.linkTraining rep) s = onDevTx s (linkTraining rep) := rfl
theorem exec_laneLockLoss (lane : Fin 4) (s : State) : exec (.laneLockLoss lane) s = execLaneLockLoss lane s := rfl
theorem exec_linkRetrainWrite (who : Requester) (v : Word) (s : State) : exec (.linkRetrainWrite who v) s = execLinkRetrainWrite who v s := rfl
theorem exec_linkWidthWrite (who : Requester) (v : Word) (s : State) : exec (.linkWidthWrite who v) s = execLinkWidthWrite who v s := rfl
theorem exec_retrain (rep : LaneReport) (s : State) : exec (.retrain rep) s = onDevTx s (retrain rep) := rfl
theorem exec_retrainTimeout (s : State) : exec .retrainTimeout s = execRetrainTimeout s := rfl

/-- RETRAIN_TIMEOUT in retrain is a failed retrain (R41). -/
theorem retrainTimeout_fails {s : State} (hon : linkOn s.dev = true) (hs : linkState s.dev = 5) :
    exec .retrainTimeout s = .next { s with dev := retrainFailed s.dev } := by
  rw [exec_retrainTimeout, execRetrainTimeout, onDev_next, if_pos ⟨hon, hs⟩]

/-- Settles O35: a link that comes up has nothing to send, so that what Configure sets stands, and a link in retrain sends nothing. -/
theorem linkTrainingRows : Obligations.LinkTrainingRows := by
  intro s hon d goodLanes up
  refine ⟨?_, ?_, ?_, ?_, ?_, ?_, ?_, ?_, ?_⟩
  · intro hs
    exact makes_of_onDev (exec_trainingRetryTimer s) (if_pos ⟨hon, hs⟩)
  · intro hs
    exact makes_of_onDev (exec_trainingStepTimeout s) (if_pos ⟨hon, hs⟩)
  · intro t errs hs ht h3 h8
    refine makes_of_onDev (exec_presetTrialEnd errs s) ?_
    rw [presetTrialEnd, ht]
    exact if_pos ⟨hon, hs, h3, h8⟩
  · intro t rep hs ht
    refine ⟨?_, ?_, ?_, ?_⟩
    · rintro tx rx h3 hv htx hrx hw ⟨hp, htp, hrp⟩
      have h := linkTraining_saved hon hs ht h3 hv hw hp htp hrp
      exact ⟨_, (exec_linkTraining rep s).trans (onDevTx_next s _), cameUp_configure htx hrx (by rw [h]) (by rw [h])⟩
    · intro h3 h8 he hw hp htp
      have h := linkTraining_swept hon hs ht h3 h8 he hw hp htp
      refine ⟨_, (exec_linkTraining rep s).trans (onDevTx_next s _), cameUp_configure (d := d) (lanes := [0, 1, 2, 3]) rep.txPreset.isLt (bestPreset_lt _) ?_ ?_⟩
      · rw [h]; split <;> rfl
      · rw [h]; split <;> rfl
    · intro h3 hv hp
      refine makesTx_of_onDevTx (exec_linkTraining rep s) ((linkTraining_unsaved hon hs ht h3 hv).trans (if_pos ?_))
      exact List.any_eq_true.mpr ⟨0, by decide, lanePresent_all hp (by omega)⟩
    · intro h3 hv hp
      refine makesTx_of_onDevTx (exec_linkTraining rep s) ((linkTraining_unsaved hon hs ht h3 hv).trans (if_neg ?_))
      simp [lanePresent_none hp]
  · intro lane hs hb
    refine ⟨{ s with dev := startRetrain d }, ?_, linkState_startRetrain _, by rw [startRetrain_link]⟩
    rw [exec_laneLockLoss, execLaneLockLoss, onDev_next, if_pos ⟨hon, hs, hb⟩]
  · intro who v h2 h4 ho
    refine ⟨fun hv => ?_, fun hv => ?_⟩
    · refine ⟨{ s with dev := linkCtrlWrite d v }, ?_, linkCtrlWrite_retrains hon h2 h4 (.inl hv)⟩
      rw [exec_linkRetrainWrite, execLinkRetrainWrite, pathFirst_open ho, onDev_next, if_pos hv, viaPath_open ho]
    · refine ⟨{ s with dev := linkCtrlWrite d v }, ?_, linkCtrlWrite_retrains hon h2 h4 (.inr hv)⟩
      rw [exec_linkWidthWrite, execLinkWidthWrite, pathFirst_open ho, onDev_next, if_pos hv, viaPath_open ho]
  · intro hs hf
    exact ⟨_, retrainTimeout_fails hon hs, fails_retrainFailed hf⟩
  · intro hs hf hc
    refine ⟨_, retrainTimeout_fails hon hs, ?_⟩
    rw [retrainFailed, if_pos hf]
    exact ⟨linkState_linkDown hc, downSeen_linkDown hc⟩
  · intro rep hs
    refine ⟨?_, ?_⟩
    · rintro ⟨hp, htp, hrp⟩ hw
      obtain ⟨h1, h2, h3, h4⟩ := retrain_comesUp hon hs hp htp hrp hw
      refine ⟨_, (exec_retrain rep s).trans (onDevTx_next s _), (linkState_pump _).trans h1, (fld_congr (pump_regs _) ..).trans h2, ?_, ?_⟩
      · rw [pump_train, h3]
      · rw [pump_fails, h4]
    · intro hp hf
      obtain ⟨h1, h2⟩ := fails_retrainFailed hf
      refine ⟨_, (exec_retrain rep s).trans (onDevTx_next s _), ?_⟩
      dsimp only
      rw [retrain_absent hon hs hp, linkState_pump, pump_fails]
      exact ⟨h1, h2⟩

end Sys2Proof.Machine
end

section
namespace Sys2Proof.Machine

/-! ## The arms of the link's power states -/

theorem exec_coastIdleExpiry (s : State) : exec .coastIdleExpiry s = onDev s coastIdleExpiry := rfl
theorem exec_coastExit (s : State) : exec .coastExit s = onDevTx s coastExit := rfl
theorem exec_parkIdleExpiry (s : State) : exec .parkIdleExpiry s = onDev s parkIdleExpiry := rfl
theorem exec_lParkExit (s : State) : exec .lParkExit s = execLParkExit s := rfl
theorem exec_parkReqRetry (s : State) : exec .parkReqRetry s = execParkReqRetry s := rfl
theorem exec_ack (h : FlitAck) (s : State) : exec (.ack h) s = onDevTx s (ctlRow h id) := rfl
theorem exec_coast (h : FlitAck) (s : State) : exec (.coast h) s = onDevTx s (ctlRow h coastIn) := rfl
theorem exec_parkReq (h : FlitAck) (s : State) : exec (.parkReq h) s = onDevTx s (ctlRow h parkIn) := rfl
theorem exec_parkAck (h : FlitAck) (s : State) : exec (.parkAck h) s = onDevTx s (ctlRow h parkAgreed) := rfl
theorem exec_parkRefuse (h : FlitAck) (s : State) : exec (.parkRefuse h) s = onDevTx s (ctlRow h parkRefused) := rfl

/-! ## L-Coast and L-Park (R42, R54 to R57) -/

/-- A control flit on a link that its acknowledgement leaves up has its meaning (R42). -/
theorem ctlRow_live {h : FlitAck} {d : Dev} (hl : linkLive d = true) (he : linkLive (takeAck d h) = true) (f : Dev → Dev) :
    ctlRow h f d = f (takeAck d h) := by
  rw [ctlRow, if_pos hl]
  exact if_pos he

theorem parkIn_agrees {d : Dev} (hr : running d = true) (hq : linkQuiet d.link = true) :
    parkIn d = setLinkState { d with link := { sendCtl d.link 0 0x21 with parkAsked := false } } 4 := by
  rw [parkIn, hr, hq]
  rfl

theorem parkIn_refuses {d : Dev} (h : running d = false ∨ linkQuiet d.link = false) : parkIn d = { d with link := sendCtl d.link 0 0x22 } := by
  rw [parkIn, if_neg]
  · rfl
  · rcases h with h | h <;> simp [h]

theorem parkAgreed_parks {d : Dev} (hr : running d = true) (ha : d.link.parkAsked = true) :
    parkAgreed d = setLinkState { d with link := { d.link with parkAsked := false } } 4 := by
  rw [parkAgreed, hr, ha]
  rfl

/-- A refusal outside a sleep sequence ends the request alone (R56). -/
theorem parkRefused_awake {d : Dev} (ha : d.link.parkAsked = true) (hs : d.pwr.sleep.active = false) :
    parkRefused d = { d with link := { d.link with parkAsked := false } } := by
  rw [parkRefused, if_pos ha]
  refine if_neg fun ⟨_, h, _⟩ => ?_
  rw [modLink_pwr, hs] at h
  exact Bool.noConfusion h

/-- A refusal while a sleep sequence drains the LINK domain ends the sequence (R437). -/
theorem parkRefused_drain {d : Dev} (ha : d.link.parkAsked = true) (hr : running d = true) (hs : d.pwr.sleep.active = true)
    (hk : d.pwr.sleep.toAsk.head? = some 2) : parkRefused d = sleepRefuse { d with link := { d.link with parkAsked := false } } 2 := by
  rw [parkRefused, if_pos ha]
  exact if_pos ⟨hr, hs, hk⟩

/-- Settles O36: each row's condition holds as the statement gives it, and a control flit acts on what its acknowledgement leaves. -/
theorem linkPowerStates : Obligations.LinkPowerStates := by
  intro s hon d
  refine ⟨?_, ?_, ?_, ?_, ?_, ?_⟩
  · intro hs hi hq
    exact makes_of_onDev (exec_coastIdleExpiry s) (if_pos ⟨hon, hs, hi, hq⟩)
  · intro hs hw
    exact makesTx_of_onDevTx (exec_coastExit s) (if_pos ⟨hon, hs, by simpa using hw⟩)
  · intro hs hi hq
    refine ⟨fun hr => ?_, fun hr => ?_⟩
    · exact makes_of_onDev (exec_parkIdleExpiry s) (if_pos ⟨hr, hon, hs, hi, hq⟩)
    · exact makes_of_onDev (exec_parkIdleExpiry s) (if_neg fun h => by rw [hr] at h; exact Bool.noConfusion h.1)
  · intro hs
    exact makesTx_of_onDevTx (exec_lParkExit s) (if_pos ⟨hon, hs⟩)
  · intro hs ha
    exact makes_of_onDev (exec_parkReqRetry s) (if_pos ⟨(linkLive_iff d).mpr ⟨hon, hs⟩, ha⟩)
  · intro h hl e he
    refine ⟨?_, fun hr ha => ?_, fun ha hs => ?_, fun ha hr hs hk => ?_, fun hr hq => ?_, fun hn => ?_⟩
    · exact makesTx_of_onDevTx (exec_coast h s) (ctlRow_live hl he coastIn)
    · exact makesTx_of_onDevTx (exec_parkAck h s) ((ctlRow_live hl he _).trans (parkAgreed_parks hr ha))
    · exact makesTx_of_onDevTx (exec_parkRefuse h s) ((ctlRow_live hl he _).trans (parkRefused_awake ha hs))
    · exact makesTx_of_onDevTx (exec_parkRefuse h s) ((ctlRow_live hl he _).trans (parkRefused_drain ha hr hs hk))
    · exact makesTx_of_onDevTx (exec_parkReq h s) ((ctlRow_live hl he _).trans (parkIn_agrees hr hq))
    · exact makesTx_of_onDevTx (exec_parkReq h s) ((ctlRow_live hl he _).trans (parkIn_refuses hn))

end Sys2Proof.Machine
end

section
namespace Sys2Proof.Machine

/-! ## Acknowledgement (R38, R40, R41) -/

/-- A header without ACK_VALID and without NAK says nothing. -/
theorem takeAck_silent {h : FlitAck} (d : Dev) (hv : h.ackValid = false) (hn : h.nak = false) : takeAck d h = d := by
  simp [takeAck, hv, hn]

/-- An acknowledgement of the k oldest flits of the replay buffer takes them out of it. -/
theorem takeAck_upTo {h : FlitAck} {d : Dev} {k : Nat} (hv : h.ackValid = true) (hn : h.nak = false) (h1 : 1 ≤ k) (hk : k ≤ d.link.replay.length)
    (h64 : d.link.replay.length ≤ 64) (hs : h.ackSeq = d.link.txSeq - BitVec.ofNat 8 d.link.replay.length + BitVec.ofNat 8 (k - 1)) :
    takeAck d h = { d with link := { d.link with replay := d.link.replay.drop k } } := by
  have hcount : (h.ackSeq - (d.link.txSeq - BitVec.ofNat 8 d.link.replay.length)).toNat + 1 = k := by
    rw [hs, BitVec.add_comm, BitVec.add_sub_cancel, BitVec.toNat_ofNat]
    omega
  unfold takeAck
  simp only [hcount, hv, hk, hn, and_self, if_true, Bool.false_eq_true, if_false]
  rfl

/-! ## The packets of a flit (R45, R46) -/

@[simp] theorem length_sliceB (bs : List Byte) (start len : Nat) : (sliceB bs start len).length = len := by
  simp only [sliceB, zeros, List.length_append, List.length_take, List.length_drop, List.length_replicate]
  omega

/-- A number read off the front of a list that goes on. -/
theorem leAt_append {p : List Byte} {n : Nat} (h : n ≤ p.length) (r : List Byte) : leAt (p ++ r) 0 n = leAt p 0 n := by
  simp only [leAt, sliceB, List.drop_zero, List.take_append_of_le_length h]

/-- A packet's size is that of its header, whatever follows (R46). -/
theorem pktSize_append {p : List Byte} (h : 8 ≤ p.length) (r : List Byte) : (parsePkt (p ++ r)).data.length = (parsePkt p).data.length := by
  simp only [parsePkt, length_sliceB, leAt_append h]

/-- Pad slots are skipped (R45). -/
theorem takeSlots_pads (k m : Nat) (d : Dev) : takeSlots k d (zeros (8 * m)) = d := by
  induction k generalizing m with
  | zero => rfl
  | succ k ih =>
    cases m with
    | zero => rfl
    | succ m =>
      have hz : zeros (8 * (m + 1)) = 0 :: zeros (8 * m + 7) := rfl
      have hd : (0 :: zeros (8 * m + 7)).drop 8 = zeros (8 * m) := by simp [zeros]
      rw [hz, takeSlots]
      dsimp only
      rw [if_pos rfl, hd, ih]

/-- A whole packet at the front is taken, and what follows it comes next (R45). -/
theorem takeSlots_pkt {p : List Byte} (h : WholePkt p) (k : Nat) (d : Dev) (r : List Byte) :
    takeSlots (k + 1) d (p ++ r) = takeSlots k (takePkt d p) r := by
  obtain ⟨⟨b, hb, h0⟩, hlen⟩ := h
  obtain ⟨q, rfl⟩ := List.head?_eq_some_iff.mp hb
  have hsize := pktSize_append (p := b :: q) (by omega) r
  rw [List.cons_append] at hsize ⊢
  have h16 : ¬ (b :: (q ++ r)).length < 16 := by
    simp only [List.length_cons, List.length_append] at hlen ⊢
    omega
  have hwhole : ¬ (b :: (q ++ r)).length < (b :: q).length := by simp
  have htake : (b :: (q ++ r)).take (b :: q).length = b :: q := List.take_left (l₁ := b :: q)
  have hdrop : (b :: (q ++ r)).drop (b :: q).length = r := List.drop_left (l₁ := b :: q)
  rw [takeSlots]
  dsimp only
  rw [if_neg h0, if_neg h16, hsize, ← hlen, if_neg hwhole, htake, hdrop]

/-- The whole packets of a flit are taken in order, and the pad slots behind them are skipped. -/
theorem takeSlots_pkts {pkts : List (List Byte)} (h : ∀ p ∈ pkts, WholePkt p) {k : Nat} (hk : pkts.length ≤ k) (m : Nat) (d : Dev) :
    takeSlots k d (pkts.flatten ++ zeros (8 * m)) = pkts.foldl takePkt d := by
  induction pkts generalizing k d with
  | nil => exact takeSlots_pads k m d
  | cons p ps ih =>
    obtain ⟨k, rfl⟩ : ∃ j, k = j + 1 := ⟨k - 1, by simp only [List.length_cons] at hk; omega⟩
    rw [List.flatten_cons, List.append_assoc, takeSlots_pkt (h p List.mem_cons_self), List.foldl_cons]
    exact ih (fun q hq => h q (List.mem_cons_of_mem _ hq)) (by simpa using hk) _

/-! ## A received packet (R43, R47, R49, R50) -/

theorem rxPart_useFar (l : LinkSt) (cls n : Nat) : rxPart (useFar l cls n) = rxPart l := by unfold useFar; split <;> rfl

theorem rxPart_owe (l : LinkSt) (cls n : Nat) : rxPart (owe l cls n) = rxPart l := by unfold owe; split <;> rfl

theorem txq_useFar (l : LinkSt) (cls n : Nat) : (useFar l cls n).txq = l.txq := by unfold useFar; split <;> rfl

theorem txq_owe (l : LinkSt) (cls n : Nat) : (owe l cls n).txq = l.txq := by unfold owe; split <;> rfl

/-- A packet that is dropped joins no queue of received packets. -/
theorem rxPart_dropPkt (d : Dev) (p : Packet) : rxPart (dropPkt d p).link = rxPart d.link := by
  have h := rxPart_owe d.link (pktClass p.ty) (pktCost p.data.length)
  unfold dropPkt
  dsimp only
  split
  · unfold queuePkt
    rw [bumpLink_link]
    exact h
  · rw [bumpLink_link]
    exact h

/-- A packet that is dropped is counted (R49). -/
theorem fld_dropPkt (d : Dev) (p : Packet) (h : fld d .linkErrCnt 3 31 0 < 0xFFFFFFFF) :
    fld (dropPkt d p) .linkErrCnt 3 31 0 = fld d .linkErrCnt 3 31 0 + 1 := by
  have hcount := fld_bumpLink (modLink d (fun l => owe l (pktClass p.ty) (pktCost p.data.length))) 3 h
  unfold dropPkt
  dsimp only
  split <;> exact hcount

/-- A packet of class NP that is dropped is answered (R49). -/
theorem txq_dropPkt (d : Dev) {p : Packet} (h : pktClass p.ty = 1) :
    (dropPkt d p).link.txq = d.link.txq ++ [{ ty := 3, status := 1, tag := p.tag }] := by
  unfold dropPkt queuePkt
  dsimp only
  rw [if_pos h]
  dsimp only
  rw [bumpLink_link, modLink_link, txq_owe]

/-- The device once a packet of size n and class cls has been counted. -/
def pktSeen (d : Dev) (cls n : Nat) : Dev := modLink d (fun l => { useFar l cls n with rxNum := l.rxNum + 1 })

theorem rxReg_pktSeen (d : Dev) (cls n : Nat) : (pktSeen d cls n).link.rxReg = d.link.rxReg :=
  (congrArg LinkSt.rxReg (rxPart_useFar d.link cls n) :)

theorem rxCpl_pktSeen (d : Dev) (cls n : Nat) : (pktSeen d cls n).link.rxCpl = d.link.rxCpl :=
  (congrArg LinkSt.rxCpl (rxPart_useFar d.link cls n) :)

theorem takePkt_malformed {d : Dev} {p : List Byte} (h : malformed p = true) : takePkt d p =
    dropPkt (pktSeen d (pktClass (parsePkt p).ty) (pktCost (parsePkt p).data.length)) { parsePkt p with num := d.link.rxNum } := by
  unfold takePkt
  exact if_pos h

end Sys2Proof.Machine
end

section
namespace Sys2Proof.Machine

/-! ## What becomes of a flit (R38, R40, R55) -/

/-- The device as a data flit finds it: it ends L-Coast (R55). -/
def flitWoken (d : Dev) : Dev := if linkState d = 3 then setLinkState d 2 else d

@[simp] theorem flitWoken_link (d : Dev) : (flitWoken d).link = d.link := by unfold flitWoken; split <;> rfl

@[simp] theorem flitWoken_mem (d : Dev) : (flitWoken d).mem = d.mem := by unfold flitWoken; split <;> rfl

theorem linkLive_flitWoken {d : Dev} (h : linkLive d = true) : linkLive (flitWoken d) = true := by
  obtain ⟨hon, hs⟩ := (linkLive_iff d).mp h
  unfold flitWoken
  split
  · exact (linkLive_iff _).mpr ⟨hon, .inl (linkState_setLinkState d (by omega))⟩
  · exact h

/-- A header whose KIND, ACK_VALID and NAK are 0. -/
theorem bits_of_plainHeader {h : Nat} (hk : bitsOf h 15 12 = 0) : bitsOf h 15 14 = 0 ∧ bitOf h 13 = 0 ∧ bitOf h 12 = 0 := by
  simp only [bitsOf, bitOf, Nat.shiftRight_eq_div_pow] at hk ⊢
  omega

/-- A flit with a bad CRC (R40, R41). -/
theorem flitIn_badCrc {f : List Byte} (h : leAt f 252 4 ≠ (crc32 (f.take 252)).toNat) (d : Dev) : flitIn f d = (sendNak (bumpLink d 0), false) := by
  rw [flitIn, if_pos h]

/-- How far a flit's SEQ is ahead of the one that is due, modulo 256 (R40). -/
def seqAhead (d : Dev) (h : Nat) : Nat := (BitVec.ofNat 8 (bitsOf h 31 24) - d.link.rxSeq).toNat

section
variable {f : List Byte} {d : Dev} (hc : leAt f 252 4 = (crc32 (f.take 252)).toNat) (hk : bitsOf (leAt f 0 4) 15 12 = 0) (hl : linkLive d = true)
include hc hk hl

/-- A good data flit that acknowledges nothing, by its place in the sequence (R40). -/
theorem flitIn_data : flitIn f d =
    if seqAhead d (leAt f 0 4) = 0 then (acceptFlit (flitWoken d) (leAt f 0 4) (sliceB f 4 248), true)
    else if 192 ≤ seqAhead d (leAt f 0 4) then (flitWoken d, true)
    else if d.link.discarding then (flitWoken d, false) else (sendNak (flitWoken d), false) := by
  obtain ⟨h14, h13, h12⟩ := bits_of_plainHeader hk
  rw [flitIn, if_neg (not_not_intro hc)]
  dsimp only
  rw [h14, h13, h12]
  rw [takeAck_silent _ rfl rfl, ← flitWoken, linkLive_flitWoken hl, flitWoken_link]
  rfl

theorem flitIn_due (ha : seqAhead d (leAt f 0 4) = 0) : flitIn f d = (acceptFlit (flitWoken d) (leAt f 0 4) (sliceB f 4 248), true) := by
  rw [flitIn_data hc hk hl, if_pos ha]

theorem flitIn_duplicate (ha : 192 ≤ seqAhead d (leAt f 0 4)) : flitIn f d = (flitWoken d, true) := by
  rw [flitIn_data hc hk hl, if_neg (by omega), if_pos ha]

/-- Flits ahead of their turn are answered with one NAK until the flit that is due arrives. -/
theorem flitIn_ahead (h0 : 0 < seqAhead d (leAt f 0 4)) (ha : seqAhead d (leAt f 0 4) < 192) :
    flitIn f d = if d.link.discarding then (flitWoken d, false) else (sendNak (flitWoken d), false) := by
  rw [flitIn_data hc hk hl, if_neg (by omega), if_neg (by omega)]

end

section
variable {line : List LaneRx} {d e : Dev} (hl : linkLive d = true) (hn : line.length = d.link.lanes.length)
include hl hn

/-- A flit to which an acknowledgement is owed. -/
theorem flitReceive_acked (h : flitIn (flitOf line) d = (e, true)) : flitReceive line d = Acked e := by
  rw [flitReceive, if_pos ⟨hl, hn⟩, h, Acked]
  simp only [Bool.true_and, decide_eq_true_eq]
  rfl

/-- A flit to which none is owed. -/
theorem flitReceive_unacked (h : flitIn (flitOf line) d = (e, false)) : flitReceive line d = pump e := by
  rw [flitReceive, if_pos ⟨hl, hn⟩, h]
  simp only [Bool.false_and, Bool.false_eq_true, if_false]

end

/-- The transmitter and an acknowledgement leave what has been received alone. -/
theorem rxPart_Acked (d : Dev) : rxPart (Acked d).link = rxPart d.link := by
  unfold Acked
  split
  · exact (rxPart_sendCtl ..).trans (rxPart_pump d)
  · exact rxPart_pump d

@[simp] theorem Acked_mem (d : Dev) : (Acked d).mem = d.mem := by
  unfold Acked
  split <;> exact pump_mem d

/-- The device once the flit that is due has brought its credits, before its packets are taken (R40, R43). -/
def flitTaken (d : Dev) (h : Nat) : Dev := { d with link := { d.link with
  rxSeq := d.link.rxSeq + 1, rxAny := true, discarding := false, partialPkt := [], credP := d.link.credP + bitsOf h 11 8
  credNP := d.link.credNP + bitsOf h 7 4, credCPL := d.link.credCPL + bitsOf h 3 0 } }

/-- The flit that is due, where its slots make whole packets with what the flit before left of one (R45). -/
theorem acceptFlit_pkts {d : Dev} {slots : List Byte} {pkts : List (List Byte)} {m : Nat} (h : Nat)
    (hs : d.link.partialPkt ++ slots = pkts.flatten ++ zeros (8 * m)) (hp : ∀ p ∈ pkts, WholePkt p) (hk : pkts.length ≤ 64) :
    acceptFlit d h slots = pkts.foldl takePkt (flitTaken d h) := by
  rw [acceptFlit, hs]
  exact takeSlots_pkts hp hk m _

/-- The header of a flit that is due and brings neither credits nor an acknowledgement. -/
theorem header_of_seq {h : Nat} {q : BitVec 8} (hh : h = q.toNat * 2 ^ 24) : bitsOf h 15 12 = 0 ∧ BitVec.ofNat 8 (bitsOf h 31 24) = q := by
  have hq := q.isLt
  refine ⟨?_, BitVec.eq_of_toNat_eq ?_⟩
  · simp only [bitsOf, Nat.shiftRight_eq_div_pow]; omega
  · simp only [bitsOf, Nat.shiftRight_eq_div_pow, BitVec.toNat_ofNat]; omega

/-! ## The arms of flits -/

theorem exec_ackTimeoutReplay (s : State) : exec .ackTimeoutReplay s = execAckTimeoutReplay s := rfl
theorem exec_flitReceive (line : List LaneRx) (s : State) : exec (.flitReceive line) s = onDev s (flitReceive line) := rfl

theorem ackTimeoutReplay_live {s : State} (h : linkLive s.dev = true) : MakesTx .ackTimeoutReplay s (replayAll s.dev) :=
  makesTx_of_onDevTx (exec_ackTimeoutReplay s) (if_pos h)

/-- A retrain starts where a flit has been replayed three times (R41). -/
theorem ackTimeoutReplay_retrains {s : State} (hl : linkLive s.dev = true) {f : SentFlit} (hf : f ∈ s.dev.link.replay) (h3 : 3 ≤ f.replays) :
    exec .ackTimeoutReplay s = .next { s with dev := startRetrain s.dev } := by
  have h := ackTimeoutReplay_live hl
  rwa [MakesTx, replayAll_retrains hf h3, pump_startRetrain] at h

/-- What the lanes bring, in the classes of R40 and R41. -/
theorem flitReceive_cases {s : State} (hl : linkLive s.dev = true) {line : List LaneRx} (hn : line.length = s.dev.link.lanes.length) {e : Dev} :
    (flitIn (flitOf line) s.dev = (e, true) → exec (.flitReceive line) s = .next { s with dev := Acked e }) ∧
    (flitIn (flitOf line) s.dev = (e, false) → MakesTx (.flitReceive line) s e) := by
  refine ⟨fun h => ?_, fun h => ?_⟩
  · rw [exec_flitReceive, onDev_next, flitReceive_acked hl hn h]
  · rw [MakesTx, exec_flitReceive, onDev_next, flitReceive_unacked hl hn h]

/-- Settles O37: a good data flit falls into one of four classes by its place in the sequence, and the slots of the one that is due are taken packet by
packet. -/
theorem flitRows : Obligations.FlitRows := by
  intro s hl d
  refine ⟨?_, ?_, ?_, ?_, ?_⟩
  · intro h k hv hnak h1 hk h64 hs
    have ht := takeAck_upTo hv hnak h1 hk h64 hs
    have he : linkLive (takeAck d h) = true := by rw [ht]; exact hl
    exact makesTx_of_onDevTx (exec_ack h s) ((ctlRow_live hl he id).trans ht)
  · intro h0 h3
    rw [← replayAll_sends h0 h3]
    exact ackTimeoutReplay_live hl
  · intro f hf h3
    exact ⟨_, ackTimeoutReplay_retrains hl hf h3, linkState_startRetrain _, by rw [startRetrain_link]⟩
  · intro line hn flit
    have hcase := fun e => flitReceive_cases (e := e) hl hn
    refine ⟨fun hc => ?_, fun hc hh hz hp => ?_, fun hc hk => ?_⟩
    · have h := (hcase _).2 (flitIn_badCrc hc d)
      rw [sendNak, modLink, bumpLink_link] at h
      exact h
    · obtain ⟨hk, hseq⟩ := header_of_seq hh
      have hahead : seqAhead d (leAt flit 0 4) = 0 := by rw [seqAhead, hseq, BitVec.sub_self]; rfl
      have hpads := acceptFlit_pkts (d := flitWoken d) (slots := sliceB flit 4 248) (pkts := []) (m := 31) (leAt flit 0 4)
        (by rw [flitWoken_link, hp, hz]; rfl) (by simp) (by simp)
      have hi := flitIn_due hc hk hl hahead
      rw [hpads, List.foldl_nil] at hi
      have hr := rxPart_Acked (flitTaken (flitWoken d) (leAt flit 0 4))
      have hw : (flitTaken (flitWoken d) (leAt flit 0 4)).link = (flitTaken d (leAt flit 0 4)).link := by
        rw [flitTaken, flitTaken, flitWoken_link]
      rw [hw] at hr
      refine ⟨_, (hcase _).1 hi, (congrArg LinkSt.rxSeq hr :), (congrArg LinkSt.discarding hr :), (congrArg LinkSt.rxReg hr :),
        (congrArg LinkSt.rxCpl hr :), ?_⟩
      exact (Acked_mem _).trans (flitWoken_mem d)
    · intro h e ahead
      refine ⟨fun pkts pads ha hs hp h64 => ?_, fun ha => ?_, fun h0 ha => ?_⟩
      · have hi := flitIn_due hc hk hl ha
        rw [acceptFlit_pkts h (by rw [flitWoken_link]; exact hs) hp (by omega)] at hi
        exact (hcase _).1 hi
      · exact (hcase _).1 (flitIn_duplicate hc hk hl ha)
      · have hi := flitIn_ahead hc hk hl h0 ha
        refine ⟨fun hd => (hcase _).2 (hi.trans (if_neg ?_)), fun hd => (hcase _).2 (hi.trans (if_pos hd))⟩
        exact fun h => Bool.noConfusion (hd.symm.trans h)
  · intro p q l
    refine ⟨fun hm hty => ?_, fun hm hty => ?_, fun hm => ?_⟩
    · have h34 : ¬ (q.ty = 3 ∨ q.ty = 4) := by omega
      rw [takePkt, hm, if_neg (by decide)]
      exact if_neg h34
    · rw [takePkt, hm, if_neg (by decide)]
      exact if_pos hty
    · rw [takePkt_malformed hm]
      refine ⟨?_, ?_, fun hlt => ?_, fun hty => ?_⟩
      · exact (congrArg LinkSt.rxReg (rxPart_dropPkt _ _) :).trans (rxReg_pktSeen ..)
      · exact (congrArg LinkSt.rxCpl (rxPart_dropPkt _ _) :).trans (rxCpl_pktSeen ..)
      · exact fld_dropPkt _ _ hlt
      · have hcls : pktClass q.ty = 1 := by rcases hty with h | h <;> rw [h] <;> rfl
        refine (txq_dropPkt _ hcls).trans ?_
        exact congrArg (· ++ _) (txq_useFar ..)

end Sys2Proof.Machine
end

section
namespace Sys2Proof.Machine

/-! ## One read among those of the device (R46, R52) -/

section
variable {d : Dev} {r : HostRead} {before after : List HostRead} (h : d.link.reads = before ++ r :: after)
include h

/-- The first read that passes a test. -/
theorem findIdx_read {p : HostRead → Bool} (hb : ∀ x ∈ before, p x = false) (hr : p r = true) : d.link.reads.findIdx? p = some before.length := by
  rw [h, List.findIdx?_append, List.findIdx?_eq_none_iff.mpr hb, List.findIdx?_cons, hr]
  simp

theorem getElem_read : d.link.reads[before.length]? = some r := by
  rw [h, List.getElem?_append_right (Nat.le_refl _), Nat.sub_self]
  rfl

theorem setRead_at (x : HostRead) : setRead d before.length x = { d with link := { d.link with reads := before ++ x :: after } } := by
  rw [setRead, modLink, h, List.set_append_right _ _ (Nat.le_refl _), Nat.sub_self]
  rfl

end

/-- A failed read of a command: the command notes it with its address, and issues no more (R52). -/
theorem readGone_command (d : Dev) {r : HostRead} {id off : Nat} (ho : r.owner = .command id off) :
    readGone d r = modCmd (unaskReads d id) id (fun c => { c with bad := c.bad ++ [(r.addr, if r.st = .timedOut then 0x0D else 4)] }) := by
  rw [readGone, ho]
  rfl

theorem failRead_refused (d : Dev) (i : Nat) {r : HostRead} (ho : r.owner ≠ .abandoned) :
    failRead d i r .refused = readGone (setRead d i { r with st := .refused }) { r with st := .refused } := by
  rw [failRead, if_neg ho]
  rfl

/-- A timed-out read holds its tag until its data has come and been discarded (R52). -/
theorem failRead_timedOut {d : Dev} {r : HostRead} {before after : List HostRead} (h : d.link.reads = before ++ r :: after) (ho : r.owner ≠ .abandoned) :
    failRead d before.length r .timedOut = readGone { d with link := { d.link with
      reads := before ++ { r with st := .timedOut } :: after ++ [{ r with st := .timedOut, owner := .abandoned }] } } { r with st := .timedOut } := by
  rw [failRead, if_neg ho]
  dsimp only
  rw [setRead_at h]
  rfl

/-- The failure of the read of a summary line is the ring engine's to learn (R105). -/
theorem readGone_summary (d : Dev) {r : HostRead} {p : Nat} (ho : r.owner = .summary p) : readGone d r = readFailure d r := by
  rw [readGone, ho]
  rfl

/-! ## COMPLETION_RECEIVE (R43, R47, R48, R52) -/

/-- The read that a completion is for. -/
theorem findIdx_completion {d : Dev} {r : HostRead} {before after : List HostRead} {q : Packet} (h : d.link.reads = before ++ r :: after)
    (hs : r.st = .sent) (hb : ∀ x ∈ before, ¬((x.st = .sent ∨ x.owner = .abandoned) ∧ x.tag = r.tag)) (hq : q.tag = r.tag) :
    d.link.reads.findIdx? (fun x => decide ((x.st = .sent ∨ x.owner = .abandoned) ∧ x.tag = q.tag)) = some before.length :=
  findIdx_read h (fun x hx => decide_eq_false (by rw [hq]; exact hb x hx)) (decide_eq_true ⟨.inl hs, hq.symm⟩)

section
variable {d : Dev} {r : HostRead} {before after : List HostRead} {q : Packet} (h : d.link.reads = before ++ r :: after) (hs : r.st = .sent)
  (ho : r.owner ≠ .abandoned) (hb : ∀ x ∈ before, ¬((x.st = .sent ∨ x.owner = .abandoned) ∧ x.tag = r.tag)) (hq : q.tag = r.tag)
include h hs ho hb hq

/-- The last data of a read (R47). -/
theorem takeCompletion_done (h4 : q.ty = 4) (hl : r.len ≤ (r.got ++ q.data).length) (hn : ∀ ch piece off, r.owner ≠ .shunt ch piece off) :
    takeCompletion d q = { d with link := { d.link with
      reads := before ++ { r with got := r.got ++ q.data.take (r.len - r.got.length), st := .done } :: after } } := by
  have hgot : ¬ (r.got ++ q.data.take (r.len - r.got.length)).length < r.len := by
    simp only [List.length_append, List.length_take] at hl ⊢
    omega
  unfold takeCompletion
  rw [findIdx_completion h hs hb hq]
  dsimp only
  rw [getElem_read h]
  dsimp only
  rw [if_neg (by omega), if_neg hgot, if_neg ho, setRead_at h]
  split
  · next ch piece off heq => exact absurd heq (hn ch piece off)
  · rfl

omit ho in
/-- Data of a read that is not complete with it (R47). -/
theorem takeCompletion_more (h4 : q.ty = 4) (hl : (r.got ++ q.data).length < r.len) :
    takeCompletion d q = { d with link := { d.link with reads := before ++ { r with got := r.got ++ q.data } :: after } } := by
  have hall : q.data.take (r.len - r.got.length) = q.data := by
    rw [List.take_of_length_le]
    simp only [List.length_append] at hl
    omega
  unfold takeCompletion
  rw [findIdx_completion h hs hb hq]
  dsimp only
  rw [getElem_read h]
  dsimp only
  rw [if_neg (by omega), hall, if_pos hl, setRead_at h]

/-- A completion of STATUS 1 or 2 ends the read (R52). -/
theorem takeCompletion_refused (h3 : q.ty = 3) (h12 : q.status = 1 ∨ q.status = 2) : takeCompletion d q =
    readGone { d with link := { d.link with reads := before ++ { r with st := .refused } :: after } } { r with st := .refused } := by
  unfold takeCompletion
  rw [findIdx_completion h hs hb hq]
  dsimp only
  rw [getElem_read h]
  dsimp only
  rw [if_pos h3, if_pos h12, failRead_refused _ _ ho, setRead_at h]

end

/-- The oldest completion is taken where no register write that came before it waits, and its credits are owed back (R43, R48). -/
theorem completionReceive_takes {d : Dev} {q : Packet} {qs : List Packet} (hc : d.link.rxCpl = q :: qs) (hw : writeAhead d q = false) :
    completionReceive d =
      takeCompletion { d with link := { d.link with rxCpl := qs, oweCPL := d.link.oweCPL + pktCost q.data.length } } q := by
  rw [completionReceive, hc]
  dsimp only
  rw [hw, if_neg (by decide)]
  rfl

/-! ## MEM_RD_TIMEOUT (R52) -/

theorem memRdTimeout_fails {d : Dev} {r : HostRead} {before after : List HostRead} (h : d.link.reads = before ++ r :: after) (hs : r.st = .sent)
    (ho : r.owner ≠ .abandoned) (hb : ∀ x ∈ before, ¬((x.st = .sent ∨ x.owner = .abandoned) ∧ x.tag = r.tag)) {tag : Nat} (ht : r.tag = tag) :
    memRdTimeout tag d = readGone { d with link := { d.link with
      reads := before ++ { r with st := .timedOut } :: after ++ [{ r with st := .timedOut, owner := .abandoned }] } } { r with st := .timedOut } := by
  have hfind : d.link.reads.findIdx? (fun x => decide (x.st = .sent ∧ x.tag = tag)) = some before.length := by
    refine findIdx_read h (fun x hx => decide_eq_false fun ⟨h1, h2⟩ => ?_) (decide_eq_true ⟨hs, ht⟩)
    exact hb x hx ⟨.inl h1, h2.trans ht.symm⟩
  unfold memRdTimeout
  rw [hfind]
  dsimp only
  rw [getElem_read h]
  exact failRead_timedOut h ho

/-- A read that does not wait to be sent stays while others are issued. -/
theorem mem_issueReads {x : HostRead} (hx : x.st ≠ .queued) (k : Nat) (l : LinkSt) (h : x ∈ l.reads) : x ∈ (issueReads k l).reads := by
  induction k generalizing l with
  | zero => exact h
  | succ k ih =>
    unfold issueReads
    split
    · next i t hi ht =>
      split
      · next r hr =>
        split
        · refine ih _ ?_
          obtain ⟨hlt, hq, -⟩ := List.findIdx?_eq_some_iff_getElem.mp hi
          obtain ⟨j, hj⟩ := List.mem_iff_getElem?.mp h
          have hij : i ≠ j := by
            rintro rfl
            rw [List.getElem?_eq_getElem hlt] at hj
            obtain rfl := Option.some.inj hj
            exact hx (of_decide_eq_true hq)
          exact List.mem_iff_getElem?.mpr ⟨j, by rw [List.getElem?_set_ne hij]; exact hj⟩
        · exact h
      · exact h
    · exact h

theorem reads_sendFlit (l : LinkSt) (slots : List Byte) : (sendFlit l slots).reads = l.reads := by unfold sendFlit onLanes; rfl

theorem reads_sendCtl (l : LinkSt) (nak sub : Nat) : (sendCtl l nak sub).reads = l.reads := by unfold sendCtl onLanes; rfl

theorem reads_sendBytes (k : Nat) (l : LinkSt) (bs : List Byte) : (sendBytes k l bs).reads = l.reads := by
  induction k generalizing l bs with
  | zero => rfl
  | succ k ih =>
    unfold sendBytes
    split
    · rfl
    · rw [ih, reads_sendFlit]

/-- A read that does not wait to be sent stays when the transmitter acts. -/
theorem mem_reads_pump {d : Dev} {x : HostRead} (hx : x.st ≠ .queued) (h : x ∈ d.link.reads) : x ∈ (pump d).link.reads := by
  have hp : x ∈ (pumpL d.link).reads := by
    have hi := mem_issueReads hx d.link.reads.length d.link h
    unfold pumpL
    dsimp only
    split
    · split
      · rw [reads_sendFlit]; exact hi
      · exact hi
    · rw [reads_sendBytes]; exact hi
  have hd (e : Dev) : (parkDrain e).link.reads = e.link.reads := by
    unfold parkDrain
    split
    · exact reads_sendCtl e.link 0 0x20
    · rfl
  by_cases h2 : linkState d = 2
  · rw [pump_inL0 h2, hd]; exact hp
  · rw [pump_outsideL0 h2, hd]; exact h

/-- A read that a test does not name stays when those that it names are given up. -/
theorem mem_dropReads {d : Dev} {f : Owner → Bool} {x : HostRead} (hf : f x.owner = false) (h : x ∈ d.link.reads) : x ∈ (dropReads d f).link.reads := by
  refine List.mem_map.mpr ⟨x, List.mem_filter.mpr ⟨h, by rw [hf]; rfl⟩, ?_⟩
  rw [hf]
  rfl

theorem recordErr_frame (d : Dev) (r : Reg) (i v : Nat) : recordErr d r i v = { d with regs := (recordErr d r i v).regs } := by
  unfold recordErr
  split <;> rfl

/-- A summary line that cannot be read ends its poll; beside the reports, the port and the reads change (R105). -/
theorem readFailure_summary (d : Dev) {r : HostRead} {p : Nat} (ho : r.owner = .summary p) :
    (port (readFailure d r) p).polling = false ∧ (readFailure d r).link = (dropReads d (fun o => decide (o = .summary p))).link := by
  unfold readFailure
  rw [ho]
  dsimp only
  rw [port, logBook_frame]
  dsimp only [sboxEvent, setFld, wr]
  rw [recordErr_frame]
  exact ⟨congrArg Port.polling (port_setPort_self ..), rfl⟩

/-! ## The arms of link-down and of completions -/

theorem exec_linkDown (s : State) : exec .linkDown s = onDev s (fun d => if 2 ≤ linkState d then linkDown d else d) := rfl
theorem exec_completionReceive (s : State) : exec .completionReceive s = onDevTx s completionReceive := rfl
theorem exec_memRdTimeout (tag : BitVec 10) (s : State) : exec (.memRdTimeout tag) s = onDevTx s (memRdTimeout tag.toNat) := rfl

/-- Settles O38: what the end of commands does to the link touches its reads alone, and a completion or a timeout finds the first read with its tag. -/
theorem linkDownAndReadCompletions : Obligations.LinkDownAndReadCompletions := by
  refine ⟨⟨fun s hs hc => ?_, fun s hs => ?_⟩, fun s r before after h hsent ho hb => ⟨?_, fun tag ht => ?_⟩⟩
  · have hl := readless_linkDown hc
    have hr : (linkDown s.dev).ring = _ := (linkDown_keeps hc).2.1
    refine ⟨{ s with dev := linkDown s.dev }, ?_, linkState_linkDown hc, downSeen_linkDown hc, (congrArg LinkSt.replay hl :),
      (congrArg LinkSt.rxReg hl :), congrArg RingSt.ctx hr, congrArg RingSt.cached hr, polling_linkDown hc⟩
    rw [exec_linkDown, onDev_next, if_pos hs]
  · exact makes_of_onDev (exec_linkDown s) (if_neg (by omega))
  · intro q qs hq htag hw l
    have hc := fun {e} (he : takeCompletion { s.dev with link := l } q = e) =>
      makesTx_of_onDevTx (exec_completionReceive s) ((completionReceive_takes hq hw).trans he)
    refine ⟨fun h4 hlen hn => ?_, fun h4 hlen => ?_, fun id off h3 h12 hown => ?_⟩
    · exact hc (takeCompletion_done (d := { s.dev with link := l }) h hsent ho hb htag h4 hlen hn)
    · exact hc (takeCompletion_more (d := { s.dev with link := l }) h hsent hb htag h4 hlen)
    · refine hc ((takeCompletion_refused (d := { s.dev with link := l }) h hsent ho hb htag h3 h12).trans ?_)
      exact readGone_command _ (r := { r with st := .refused }) hown
  · have hf := memRdTimeout_fails h hsent ho hb ht
    refine ⟨fun id off hown => ?_, fun p hown => ?_⟩
    · exact makesTx_of_onDevTx (exec_memRdTimeout tag s) (hf.trans (readGone_command _ (r := { r with st := .timedOut }) hown))
    · refine ⟨_, (exec_memRdTimeout tag s).trans (onDevTx_next s _), ?_⟩
      dsimp only
      rw [hf, readGone_summary _ (r := { r with st := .timedOut }) hown]
      obtain ⟨hpoll, hlink⟩ := readFailure_summary _ (r := { r with st := .timedOut }) hown
      refine ⟨by rw [port, pump_ports]; exact hpoll, { r with st := .timedOut, owner := .abandoned }, mem_reads_pump (by simp) ?_, ht, rfl⟩
      rw [hlink]
      exact mem_dropReads rfl (by simp)

end Sys2Proof.Machine
end

section
namespace Sys2Proof.Machine

/-! ## Commands in flight (R73, R89) -/

@[simp] theorem noteFence_cmds (d : Dev) (c : Cmd) : (noteFence d c).ring.cmds = d.ring.cmds := by
  unfold noteFence; split <;> rfl

/-- A command in flight is found by its fetch number. -/
theorem cmdOf_id {d : Dev} {id : Nat} {c : Cmd} (h : cmdOf d id = some c) : c.id = id := by
  simpa using List.find?_some h

theorem cmdOf_congr {d e : Dev} (h : e.ring.cmds = d.ring.cmds) (id : Nat) : cmdOf e id = cmdOf d id := by rw [cmdOf, cmdOf, h]

/-- A change that keeps a command's number is what is found under it. -/
theorem cmdOf_modCmd_self {d : Dev} {id : Nat} {c : Cmd} (h : cmdOf d id = some c) {f : Cmd → Cmd} (hf : (f c).id = c.id) :
    cmdOf (modCmd d id f) id = some (f c) := by
  have hc := cmdOf_id h
  unfold cmdOf modCmd at *
  generalize d.ring.cmds = l at h
  dsimp only
  induction l with
  | nil => cases h
  | cons x l ih =>
    rw [List.map_cons]
    by_cases hx : x.id = id
    · rw [List.find?_cons_of_pos (by simpa using hx), Option.some.injEq] at h
      subst h
      rw [if_pos hx, List.find?_cons_of_pos (by simpa [hf] using hx)]
    · rw [List.find?_cons_of_neg (by simpa using hx)] at h
      rw [if_neg hx, List.find?_cons_of_neg (by simpa using hx)]
      exact ih h

/-- A command that ends has its status and its RESULT. -/
theorem cmdOf_finish {d : Dev} {id : Nat} {c : Cmd} (h : cmdOf d id = some c) (st r : Nat) :
    cmdOf (finish d id st r) id = some { c with st := .done st r } := cmdOf_modCmd_self h rfl

/-- The command that has just begun is in flight and runs. -/
theorem cmdOf_begun {d : Dev} {c : Cmd} (h : cmdOf d c.id = some c) : cmdOf (begun d c) c.id = some { c with st := .running } :=
  cmdOf_modCmd_self (d := bump (noteFence d c) .ringCnt 2) ((cmdOf_congr (noteFence_cmds d c) _).trans h) rfl

/-! ## The check that every command passes (R74, R89 to R92, R425) -/

/-- A command that begins is given to its row's own rule, counted and running. -/
theorem checked_begins {d : Dev} {c : Cmd} {op : Nat} (h : Begins d c op) (body : Cmd → Dev → Dev) :
    checked op c.id body d = body c (begun d c) := by
  obtain ⟨hc, hop, hs, hh, hsp, hon, hup⟩ := h
  have hg : ¬(23 ∈ neededDoms d c ∧ gddrUp d = false) := fun ⟨hm, hd⟩ => by simp [hup (by simpa using hm)] at hd
  simp [checked, hc, hop, hs, hh, hsp, hon, hg, begun]

/-- An entry that HALT stops ends ABORTED (R92). -/
theorem checked_halted {d : Dev} {c : Cmd} {op : Nat} (hc : cmdOf d c.id = some c) (hop : c.opcode = op) (hs : mayStart d c = true)
    (hh : haltHit d c = true) (body : Cmd → Dev → Dev) : checked op c.id body d = finish (noteFence d c) c.id 8 0 := by
  simp [checked, hc, hop, hs, hh]

/-! ## NOP, FENCE, UNKNOWN_OPCODE (R84, R85, R93) -/

theorem exec_nop (id : Nat) (s : State) : exec (.nop id) s = onDevTx s (checked 1 id (fun _ d => finish d id 0 0)) := rfl
theorem exec_fence (id : Nat) (s : State) : exec (.fence id) s = onDevTx s (fence id) := rfl
theorem exec_unknownOpcode (id : Nat) (s : State) : exec (.unknownOpcode id) s = onDevTx s (unknownOpcode id) := rfl

/-- A FENCE that begins ends where nothing that it waits for is open, and runs on otherwise. -/
theorem fence_begins {d : Dev} {c : Cmd} (h : Begins d c 0x02) : fence c.id d =
    if fenceOpen (begun d c) { c with st := .running } then begun d c else finish (begun d c) c.id 0 0 := by
  have hop : c.opcode = 2 := h.2.1
  unfold fence
  dsimp only
  rw [checked_begins h, cmdOf_begun h.1]
  by_cases ho : fenceOpen (begun d c) { c with st := .running } = true
  · exact (if_neg fun h' => by simp [ho] at h').trans (if_pos ho).symm
  · exact (if_pos ⟨hop, rfl, by simp [ho]⟩).trans (if_neg ho).symm

theorem unknownOpcode_ends {d : Dev} {c : Cmd} (hc : cmdOf d c.id = some c) (hs : mayStart d c = true) (hh : haltHit d c = false)
    (hk : knownOpcode c.port c.opcode = false) : unknownOpcode c.id d = finish (bump (noteFence d c) .ringCnt 2) c.id 3 c.opcode := by
  simp [unknownOpcode, hc, hs, hh, hk]

/-- Settles O31: each row passes the check of every command, and FENCE then looks at what is open. -/
theorem nopFenceAndUnknownOpcode : Obligations.NopFenceAndUnknownOpcode := fun s _ =>
  ⟨fun h => makesTx_of_onDevTx (exec_nop _ s) (checked_begins h _),
    fun h => makesTx_of_onDevTx (exec_fence _ s) (fence_begins h),
    fun hc hs hh hk => makesTx_of_onDevTx (exec_unknownOpcode _ s) (unknownOpcode_ends hc hs hh hk),
    fun hc hop hs hh => makesTx_of_onDevTx (exec_nop _ s) (checked_halted hc hop hs hh _)⟩

end Sys2Proof.Machine
end

section
namespace Sys2Proof.Machine

/-! ## The check of port 0's own commands (R80) -/

theorem checked0_begins {d : Dev} {c : Cmd} {op : Nat} (h : Begins d c op) (h0 : c.port = 0) (body : Cmd → Dev → Dev) :
    checked0 op c.id body d = body c (begun d c) := by
  unfold checked0
  rw [h.1]
  dsimp only
  rw [if_pos h0, checked_begins h]
  exact if_pos h0

@[simp] theorem noteFence_ports (d : Dev) (c : Cmd) : (noteFence d c).ports = d.ports := by
  unfold noteFence; split <;> rfl

@[simp] theorem begun_ports (d : Dev) (c : Cmd) : (begun d c).ports = d.ports := noteFence_ports d c

/-! ## PORT_CREATE, PORT_WINDOW and PORT_QUOTA (R104, R106, R110) -/

section
variable {d : Dev} {c : Cmd}

theorem portCreate_creates (h : Begins d c 0xE0) (h0 : c.port = 0) (hp : pf c 1 7 0 ≠ 0) (he : portExists (begun d c) (pf c 1 7 0) = false) :
    portCreate c.id d = finish (setPort (begun d c) (pf c 1 7 0)
      { exists_ := true, summary := pw c 2 / 64 * 64, roster := pw c 3 / 64 * 64 }) c.id 0 0 :=
  (checked0_begins h h0 _).trans (if_neg (by simp [hp, he]))

theorem portCreate_refused (h : Begins d c 0xE0) (h0 : c.port = 0) (hp : pf c 1 7 0 = 0 ∨ portExists (begun d c) (pf c 1 7 0) = true) :
    portCreate c.id d = finish (begun d c) c.id 2 0x0B :=
  (checked0_begins h h0 _).trans (if_pos hp)

/-- PORT_WINDOW of a data port that exists sets the window of the space that its SPACE bit names. -/
theorem portWindow_sets (h : Begins d c 0xE2) (h0 : c.port = 0) (hp : pf c 1 7 0 ≠ 0) (he : portExists (begun d c) (pf c 1 7 0) = true) :
    portWindow c.id d =
      (let p := pf c 1 7 0
       let v := port (begun d c) p
       let en := decide (pf c 1 17 17 = 1)
       if pf c 1 16 16 = 1 then finish (setPort (begun d c) p { v with
         hwin := mset {} v.hwin (pf c 1 10 8) { en := en, base := pw c 2 / 4096 * 4096, size := pw c 3 / 4096 * 4096 } }) c.id 0 0
       else finish (setPort (begun d c) p { v with
         gwin := mset {} v.gwin (pf c 1 10 8) { en := en, base := pf c 2 39 12 * 4096, size := pf c 3 39 12 * 4096 } }) c.id 0 0) :=
  (checked0_begins h h0 _).trans (if_neg (by simp [hp, he]))

theorem portQuota_sets (h : Begins d c 0xE3) (h0 : c.port = 0) (hp : pf c 1 7 0 ≠ 0) (he : portExists (begun d c) (pf c 1 7 0) = true)
    (hr : activeRings (begun d c) (pf c 1 7 0) ≤ min 512 (pf c 2 9 0)) (hk : coresUse (begun d c) (pf c 1 7 0) ≤ min 32 (pf c 3 5 0))
    (hj : junctionUse (begun d c) (pf c 1 7 0) ≤ min 65536 (pf c 4 16 0)) (hy : yardUse (begun d c) (pf c 1 7 0) ≤ min 4096 (pf c 5 12 0)) :
    portQuota c.id d = finish (setPort (begun d c) (pf c 1 7 0) { port (begun d c) (pf c 1 7 0) with
      rings := min 512 (pf c 2 9 0), cores := min 32 (pf c 3 5 0), junction := min 65536 (pf c 4 16 0), yard := min 4096 (pf c 5 12 0) }) c.id 0 0 := by
  rw [Nat.min_comm 4096] at hy ⊢
  refine (checked0_begins h h0 _).trans ((if_neg (by simp [hp, he])).trans (if_neg ?_))
  rintro (h | h | h | h)
  · exact Nat.not_lt.mpr hr h
  · exact Nat.not_lt.mpr hk h
  · exact Nat.not_lt.mpr hj h
  · exact Nat.not_lt.mpr hy h

end

/-! ## PORT_DESTROY (R114) -/

/-- An entry that a write of an array lists is one of before, or the written one. -/
theorem mem_of_mem_mset {α : Type} [DecidableEq α] {d : α} {m : SMap α} {k : Nat} {v : α} {e : Nat × α} (h : e ∈ mset d m k v) :
    e ∈ m ∨ e = (k, v) := by
  have hskip : ∀ m : SMap α, ∀ x ∈ mskip k m, x ∈ m := by
    intro m
    induction m with
    | nil => simp [mskip]
    | cons y m ih =>
      obtain ⟨k', v'⟩ := y
      unfold mskip
      split
      · exact fun x hx => List.mem_cons_of_mem _ (ih x hx)
      · exact fun x hx => hx
  induction m with
  | nil =>
    unfold mset at h
    split at h
    · exact .inl h
    · exact .inr (by simpa using h)
  | cons y m ih =>
    obtain ⟨k', v'⟩ := y
    unfold mset at h
    split at h
    · split at h
      · exact .inl h
      · rcases List.mem_cons.mp h with h | h
        · exact .inr h
        · exact .inl h
    · split at h
      · split at h
        · exact .inl (List.mem_cons_of_mem _ (hskip m e h))
        · rcases List.mem_cons.mp h with h | h
          · exact .inr h
          · exact .inl (List.mem_cons_of_mem _ h)
      · rcases List.mem_cons.mp h with h | h
        · exact .inl (h ▸ List.mem_cons_self)
        · exact (ih h).imp (List.mem_cons_of_mem _) id

/-- What an array reads at a key is the default or a value that it lists under the key. -/
theorem mget_of_key {α : Type} {P : α → Prop} {d : α} {m : SMap α} {k : Nat} (hd : P d) (h : ∀ v, (k, v) ∈ m → P v) : P (mget d m k) := by
  induction m with
  | nil => exact hd
  | cons e m ih =>
    obtain ⟨k', v⟩ := e
    unfold mget
    split
    · next hk => exact h v (hk ▸ List.mem_cons_self)
    · split
      · exact hd
      · exact ih fun v hv => h v (List.mem_cons_of_mem _ hv)

/-- A command that starts opens no fetch: what the contexts fetch stays. -/
theorem fetching_begun {d : Dev} {c : Cmd} {p : Nat} (h : ∀ e ∈ d.ring.ctx, e.1 / 512 = p → e.2.fetching = 0) :
    ∀ e ∈ (begun d c).ring.ctx, e.1 / 512 = p → e.2.fetching = 0 := by
  intro e he hp
  change e ∈ (noteFence d c).ring.ctx at he
  unfold noteFence at he
  split at he
  · rcases mem_of_mem_mset he with he | rfl
    · exact h e he hp
    · exact mget_of_key (P := fun x : RingCtx => x.fetching = 0) rfl (fun v hv => h _ hv hp)
  · exact h e he hp

/-- The check of a PORT_DESTROY, and the first step of one that passes it. -/
def destroyCheck (id : Nat) (c : Cmd) (d : Dev) : Dev :=
  let p := pf c 1 7 0
  if p = 0 ∨ !portExists d p ∨ (port d p).destroying then finish d id 2 0x0B
  else if 0 < activeRings d p ∨ (portConsists d p) ≠ [] then finish d id 2 0x0C
  else stopPolling d p

/-- Nothing of a port is in flight or being fetched. -/
def portDrained (d : Dev) (p : Nat) : Bool :=
  d.ring.cmds.all (fun e => decide (e.port ≠ p)) && d.ring.ctx.all (fun e => decide (e.1 / 512 = p → e.2.fetching = 0))

/-- A PORT_DESTROY that runs releases its port once nothing of it is in flight. -/
def destroyRest (id : Nat) (d : Dev) : Dev :=
  match cmdOf d id with
  | some c => if c.opcode = 0xE1 ∧ c.st = .running ∧ portDrained d (pf c 1 7 0) then finish (releasePort d (pf c 1 7 0)) id 0 0 else d
  | none => d

theorem portDestroy_eq (id : Nat) (d : Dev) : portDestroy id d = destroyRest id (checked0 0xE1 id (destroyCheck id) d) := by
  unfold portDestroy destroyRest portDrained
  simp only [Bool.and_eq_true]
  rfl

section
variable {d : Dev} {c : Cmd}

theorem portDestroy_begins (h : Begins d c 0xE1) (h0 : c.port = 0) : portDestroy c.id d = destroyRest c.id (destroyCheck c.id c (begun d c)) := by
  rw [portDestroy_eq, checked0_begins h h0]

/-- A PORT_DESTROY that its check ends releases nothing. -/
theorem portDestroy_ended (h : Begins d c 0xE1) (h0 : c.port = 0) {r : Nat} (hr : destroyCheck c.id c (begun d c) = finish (begun d c) c.id 2 r) :
    portDestroy c.id d = finish (begun d c) c.id 2 r := by
  rw [portDestroy_begins h h0, hr, destroyRest, cmdOf_finish (cmdOf_begun h.1)]
  exact if_neg fun hn => by simpa using hn.2.1

theorem portDestroy_destroying (h : Begins d c 0xE1) (h0 : c.port = 0) (hd : (port (begun d c) (pf c 1 7 0)).destroying = true) :
    portDestroy c.id d = finish (begun d c) c.id 2 0x0B :=
  portDestroy_ended h h0 (if_pos (.inr (.inr hd)))

theorem portDestroy_inUse (h : Begins d c 0xE1) (h0 : c.port = 0)
    (hu : 0 < activeRings (begun d c) (pf c 1 7 0) ∨ portConsists (begun d c) (pf c 1 7 0) ≠ []) :
    ∃ r, portDestroy c.id d = finish (begun d c) c.id 2 r := by
  by_cases hb : pf c 1 7 0 = 0 ∨ (!portExists (begun d c) (pf c 1 7 0)) = true ∨ (port (begun d c) (pf c 1 7 0)).destroying = true
  · exact ⟨0x0B, portDestroy_ended h h0 (if_pos hb)⟩
  · exact ⟨0x0C, portDestroy_ended h h0 ((if_neg hb).trans (if_pos hu))⟩

/-- A PORT_DESTROY that passes its check stops the port's polling, and releases the port at once where nothing of it is on the way. -/
theorem portDestroy_stops (h : Begins d c 0xE1) (h0 : c.port = 0) (hp : pf c 1 7 0 ≠ 0) (he : portExists (begun d c) (pf c 1 7 0) = true)
    (ha : activeRings (begun d c) (pf c 1 7 0) = 0) (hc : portConsists (begun d c) (pf c 1 7 0) = [])
    (hd : (port (begun d c) (pf c 1 7 0)).destroying = false) :
    portDestroy c.id d =
      (let e := stopPolling (begun d c) (pf c 1 7 0)
       if portDrained (begun d c) (pf c 1 7 0) then finish (releasePort e (pf c 1 7 0)) c.id 0 0 else e) := by
  have hs : destroyCheck c.id c (begun d c) = stopPolling (begun d c) (pf c 1 7 0) :=
    (if_neg (by simp [hp, he, hd])).trans (if_neg (by simp [ha, hc]))
  have hf : cmdOf (stopPolling (begun d c) (pf c 1 7 0)) c.id = some { c with st := .running } := cmdOf_begun h.1
  rw [portDestroy_begins h h0, hs, destroyRest, hf]
  by_cases hx : portDrained (begun d c) (pf c 1 7 0) = true
  · exact (if_pos ⟨h.2.1, rfl, hx⟩).trans (if_pos hx).symm
  · exact (if_neg fun hn => hx hn.2.2).trans (if_neg hx).symm

/-- The ports of the commands in flight do not change when one of them starts. -/
theorem ports_begun (p : Nat) : (begun d c).ring.cmds.all (fun y => decide (y.port ≠ p)) = d.ring.cmds.all (fun y => decide (y.port ≠ p)) := by
  change ((noteFence d c).ring.cmds.map _).all _ = _
  rw [noteFence_cmds, List.all_map]
  congr 1
  funext y
  dsimp only [Function.comp]
  split <;> rfl

end

theorem exec_portCreate (id : Nat) (s : State) : exec (.portCreate id) s = onDevTx s (portCreate id) := rfl
theorem exec_portDestroy (id : Nat) (s : State) : exec (.portDestroy id) s = onDevTx s (portDestroy id) := rfl
theorem exec_portWindow (id : Nat) (s : State) : exec (.portWindow id) s = onDevTx s (portWindow id) := rfl
theorem exec_portQuota (id : Nat) (s : State) : exec (.portQuota id) s = onDevTx s (portQuota id) := rfl

/-- Settles O32: each command passes the check of port 0's commands, and its row's conditions choose what it does with the port. -/
theorem portCommands : Obligations.PortCommands := by
  intro s c h0
  refine ⟨fun h hp he => makesTx_of_onDevTx (exec_portCreate _ s) (portCreate_creates h h0 hp he), fun h hp he ha hc hd => ⟨fun hcs hx => ?_, fun hcs => ?_⟩,
    fun h _ _ hd => makesTx_of_onDevTx (exec_portDestroy _ s) (portDestroy_destroying h h0 hd),
    fun h hp he hw => makesTx_of_onDevTx (exec_portWindow _ s) ((portWindow_sets h h0 hp he).trans (if_neg (by omega))),
    fun h hp he hw => makesTx_of_onDevTx (exec_portWindow _ s) ((portWindow_sets h h0 hp he).trans (if_pos hw)),
    fun h hp he hr hk hj hy => makesTx_of_onDevTx (exec_portQuota _ s) (portQuota_sets h h0 hp he hr hk hj hy),
    fun h hp => makesTx_of_onDevTx (exec_portCreate _ s) (portCreate_refused h h0 hp), fun h _ _ hu => ?_⟩
  · refine makesTx_of_onDevTx (exec_portDestroy _ s) ((portDestroy_stops h h0 hp he ha hc hd).trans (if_pos ?_))
    rw [portDrained, ports_begun, Bool.and_eq_true, List.all_eq_true, List.all_eq_true]
    exact ⟨fun e hm => decide_eq_true (hcs e hm), fun e hm => decide_eq_true (fetching_begun hx e hm)⟩
  · refine makesTx_of_onDevTx (exec_portDestroy _ s) ((portDestroy_stops h h0 hp he ha hc hd).trans (if_neg fun hn => ?_))
    rw [portDrained, ports_begun, Bool.and_eq_true, List.all_eq_true] at hn
    obtain ⟨e, hm, hport⟩ := hcs
    exact of_decide_eq_true (hn.1 e hm) hport
  · obtain ⟨r, hr⟩ := portDestroy_inUse h h0 hu
    refine ⟨_, (exec_portDestroy _ s).trans (onDevTx_next s _), ?_⟩
    dsimp only
    rw [hr, pump_ports]
    exact begun_ports s.dev c

end Sys2Proof.Machine
end

section
namespace Sys2Proof.Machine

/-! ## What an access of memory changes (R325 to R333, R378) -/

/-- The registers that accesses of memory count and record in. -/
def memRegs : List Reg := [.cacheCnt, .yardCnt, .memErr, .memErrAddr, .sboxEvent, .sboxLog]

/-- A device with memory, cache, channels, registers and the records of errors of another. -/
def memSide (d e : Dev) : Dev :=
  { d with mem := e.mem, cache := e.cache, mc := e.mc, badUnits := e.badUnits, softUnits := e.softUnits, nv := e.nv, sbox := e.sbox, regs := e.regs }

/-- A step of the memory paths: beside memory and its error records, only queues and fills grow, by at most r reads and w writes each. -/
structure MemStep (r w : Nat) (d e : Dev) : Prop where
  rest : e = memSide d e
  regs : SameRegs memRegs d e
  reads : ∀ ch b, bankReads e ch b ≤ bankReads d ch b + r
  writes : ∀ ch, writesHeld (mcChan e ch) ≤ writesHeld (mcChan d ch) + w
  fills : ∀ k, fillsIn e k ≤ fillsIn d k + r

theorem mcBank_of_global {d e : Dev} (h : rd e .mcGlobal 0 = rd d .mcGlobal 0) (line : Nat) : mcBank e line = mcBank d line := by
  unfold mcBank mcRow mcIndex dataLines fld
  rw [h, channels_congr h]

theorem bankReads_congr {d e : Dev} (hm : e.mc = d.mc) (h : rd e .mcGlobal 0 = rd d .mcGlobal 0) (ch b : Nat) : bankReads e ch b = bankReads d ch b := by
  simp only [bankReads, mcBank_of_global h, mcChan, hm]

namespace MemStep
variable {r w r' w' : Nat} {d e f : Dev}

theorem global (h : MemStep r w d e) : rd e .mcGlobal 0 = rd d .mcGlobal 0 := h.regs _ _ (by decide) (by omega)

/-- A step that leaves the channels, and opens no fill. -/
theorem plain (h : e = memSide d e) (hr : SameRegs memRegs d e) (hm : e.mc = d.mc) (hf : ∀ k, fillsIn e k ≤ fillsIn d k) : MemStep 0 0 d e where
  rest := h
  regs := hr
  reads ch b := Nat.le_of_eq (bankReads_congr hm (hr _ _ (by decide) (by omega)) ch b)
  writes ch := Nat.le_of_eq (by rw [mcChan, hm]; rfl)
  fills := hf

theorem refl : MemStep 0 0 d d := plain rfl .refl rfl fun _ => Nat.le_refl _

theorem trans (h1 : MemStep r w d e) (h2 : MemStep r' w' e f) : MemStep (r + r') (w + w') d f where
  rest := by rw [h2.rest, h1.rest]; rfl
  regs := h1.regs.trans h2.regs
  reads ch b := by have := h1.reads ch b; have := h2.reads ch b; omega
  writes ch := by have := h1.writes ch; have := h2.writes ch; omega
  fills k := by have := h1.fills k; have := h2.fills k; omega

theorem mono (h : MemStep r w d e) (hr : r ≤ r') (hw : w ≤ w') : MemStep r' w' d e where
  rest := h.rest
  regs := h.regs
  reads ch b := by have := h.reads ch b; omega
  writes ch := by have := h.writes ch; omega
  fills k := by have := h.fills k; omega

theorem foldl {α : Type} {g : Dev → α → Dev} (l : List α) (h : ∀ e, ∀ a ∈ l, MemStep r w e (g e a)) :
    MemStep (r * l.length) (w * l.length) d (l.foldl g d) := by
  induction l generalizing d with
  | nil => exact refl
  | cons a l ih =>
    refine ((h d a List.mem_cons_self).trans (ih fun e b hb => h e b (List.mem_cons_of_mem _ hb))).mono ?_ ?_ <;>
      simp only [List.length_cons, Nat.mul_succ] <;> omega

theorem ring (h : MemStep r w d e) : e.ring = d.ring := by rw [h.rest]; rfl
theorem ports (h : MemStep r w d e) : e.ports = d.ports := by rw [h.rest]; rfl
theorem link (h : MemStep r w d e) : e.link = d.link := by rw [h.rest]; rfl
theorem pwr (h : MemStep r w d e) : e.pwr = d.pwr := by rw [h.rest]; rfl
theorem consists (h : MemStep r w d e) : e.consists = d.consists := by rw [h.rest]; rfl
theorem disp (h : MemStep r w d e) : e.disp = d.disp := by rw [h.rest]; rfl
theorem junc (h : MemStep r w d e) : e.junc = d.junc := by rw [h.rest]; rfl
theorem cc (h : MemStep r w d e) : e.cc = d.cc := by rw [h.rest]; rfl

end MemStep

/-! ## Each operation of the memory paths -/

section
variable (d : Dev)

theorem cacheStep (c : CacheSt) (hf : c.fills = d.cache.fills) : MemStep 0 0 d { d with cache := c } :=
  .plain rfl (.of_regs rfl) rfl fun _ => Nat.le_of_eq (by simp only [fillsIn, hf])

theorem bumpStep {r : Reg} (hr : r ∈ memRegs) {i : Nat} (hi : i < 4096) (n : Nat) : MemStep 0 0 d (bumpN d r i n) :=
  .plain rfl (.bumpN _ hr hi) rfl fun _ => Nat.le_refl _

theorem wrStep {r : Reg} (hr : r ∈ memRegs) {i : Nat} (hi : i < 4096) (v : Word) : MemStep 0 0 d (wr d r i v) :=
  .plain rfl (.wr _ hr hi) rfl fun _ => Nat.le_refl _

theorem putSet_step (line : Nat) (ws : List CWay) : MemStep 0 0 d (putSet d line ws) := cacheStep d _ rfl

theorem dropStale_step (p : Nat → Bool) : MemStep 0 0 d (dropStale d p) := cacheStep d _ rfl

theorem meetErrors_step (line : Nat) (reads : Bool) : MemStep 0 0 d (meetErrors d line reads) := by
  unfold meetErrors
  dsimp only
  split
  · exact .refl
  · exact (((putSet_step _ _ _).trans (dropStale_step _ _)).trans (bumpStep _ (by decide) (by omega) _)).trans (bumpStep _ (by decide) (by omega) _)

theorem modFill_step (line : Nat) {f : CFill → CFill} (hf : ∀ x, (f x).line = x.line) : MemStep 0 0 d (modFill d line f) := by
  refine .plain rfl (.of_regs rfl) rfl fun k => Nat.le_of_eq ?_
  simp only [fillsIn, modFill, List.filter_map, List.length_map]
  congr 2
  funext x
  simp only [Function.comp_apply]
  split
  · rw [hf]
  · rfl

/-- One more request in a channel's queue: a read counts in its bank, a write in the write queue. -/
theorem queueReq_step (q : McReq) : MemStep (if q.write then 0 else 1) (if q.write then 1 else 0) d (queueReq d q) where
  rest := rfl
  regs := .of_regs rfl
  reads ch b := by
    have hg : ∀ line, mcBank (queueReq d q) line = mcBank d line := mcBank_congr rfl
    simp only [bankReads, hg]
    by_cases hc : ch = chanOf d q.line
    · subst hc
      rw [queueReq, mcChan_setMc_self, List.filter_append, List.length_append]
      refine Nat.add_le_add_left ?_ _
      cases hw : q.write
      · exact List.length_filter_le ..
      · simp [hw]
    · rw [queueReq, mcChan_setMc_ne _ _ hc]; omega
  writes ch := by
    by_cases hc : ch = chanOf d q.line
    · subst hc
      rw [queueReq, mcChan_setMc_self]
      simp only [writesHeld, List.filter_append, List.length_append]
      cases hw : q.write <;> simp [hw]; omega
    · rw [queueReq, mcChan_setMc_ne _ _ hc]; omega
  fills k := Nat.le_add_right _ _

theorem openFill_step (f : CFill) (by_ : Option Nat) : MemStep 1 0 d (openFill d f by_) := by
  have h : MemStep 1 0 d { d with cache := { d.cache with fills := d.cache.fills ++ [f] } } :=
    { rest := rfl, regs := .of_regs rfl, reads := fun ch b => Nat.le_add_right (bankReads d ch b) 1, writes := fun ch => Nat.le_refl _
      fills := fun k => by simp only [fillsIn, List.filter_append, List.length_append]; exact Nat.add_le_add_left (List.length_filter_le ..) _ }
  have hq := queueReq_step { d with cache := { d.cache with fills := d.cache.fills ++ [f] } } { line := f.line, fill := true, consist := by_ }
  exact { rest := (h.trans hq).rest, regs := (h.trans hq).regs, reads := hq.reads, writes := hq.writes, fills := h.fills }

/-- A requester above 50 trains no stream (R332). -/
theorem observe_looking {req : Nat} (h : 50 < req) (p a : Nat) : observe d req p a = d := if_neg fun hn => by omega

theorem lookupHit_step {g : GReq} (hg : 50 < g.req) (w : CWay) (corrected : Bool) : MemStep 0 0 d (lookupHit d g w corrected) := by
  have hb (e : Dev) {i : Nat} (hi : i < 8) : MemStep 0 0 e (bump e .cacheCnt i) := bumpStep e (by decide) (by omega) 1
  have h2 : MemStep 0 0 d (bump (putSet d g.line ({ w with pf := none } :: (setOf d g.line).filter (fun x => decide (x.way ≠ w.way)))) .cacheCnt 0) :=
    (putSet_step ..).trans (hb _ (by omega))
  have h3 := h2.trans (show MemStep 0 0 _ (if corrected then bump _ .cacheCnt 6 else _) by
    split
    · exact hb _ (by omega)
    · exact .refl)
  unfold lookupHit
  dsimp only
  cases hp : w.pf with
  | none => exact h3
  | some r =>
    have h4 := h3.trans (hb _ (i := 5) (by omega))
    dsimp only
    by_cases hr : r = g.req
    · rw [if_pos hr, observe_looking _ (hr ▸ hg)]; exact h4
    · rw [if_neg hr]; exact h4

/-- The lookup of one line asks for at most one read and one fill. -/
theorem lookLine_step {req : Nat} (hr : 50 < req) (line : Nat) : MemStep 1 0 d (lookLine req d line) := by
  have hm : MemStep 0 0 d (meetErrors d line true) := meetErrors_step ..
  unfold lookLine
  split
  · dsimp only
    split
    · exact (hm.trans (lookupHit_step _ hr _ _)).mono (by omega) (by omega)
    · have hb := hm.trans (bumpStep (meetErrors d line true) (r := .cacheCnt) (by decide) (i := 1) (by omega) 1)
      split
      · exact (hb.trans (modFill_step _ line (f := fun x => { x with prefetch := false }) fun _ => rfl)).mono (by omega) (by omega)
      · exact (hb.trans (openFill_step ..)).mono (by omega) (by omega)
  · exact queueReq_step d { line := line }

theorem bankAccess_step (u : Nat) : MemStep 0 0 d (bankAccess d u) := by
  unfold bankAccess
  dsimp only
  have h : MemStep 0 0 d (bump d .yardCnt 0) := bumpStep _ (by decide) (by omega) _
  split
  · exact h.trans (bumpStep _ (by decide) (by omega) _)
  · exact h.trans (cacheStep _ { (bump d .yardCnt 0).cache with banks := sins (bump d .yardCnt 0).cache.banks (u % 16) } rfl)

theorem yardTouch_step (a n : Nat) : MemStep 0 0 d (yardTouch d a n) := by
  unfold yardTouch
  split
  · exact .refl
  · exact (MemStep.foldl _ fun e u _ => bankAccess_step e u).mono (by omega) (by omega)

/-- The lookups of a run: at most one read and one fill for each line that it touches. -/
theorem lookLines_step {req : Nat} (hr : 50 < req) (a n : Nat) : MemStep ((a + n - 1) / 64 + 1 - a / 64) 0 d (lookLines req d a n) := by
  unfold lookLines
  split
  · exact (MemStep.foldl _ fun e l _ => lookLine_step e hr (64 * l)).mono (by simp) (by omega)
  · exact (yardTouch_step ..).mono (by omega) (by omega)

theorem memWrite_step (a : Nat) (bs : List Byte) : MemStep 0 0 d (memWrite d a bs) := .plain rfl (.of_regs rfl) rfl fun _ => Nat.le_refl _

theorem queueWrite_step (a n : Nat) (by_ : Option Nat) : MemStep 0 1 d (queueWrite d a n by_) :=
  queueReq_step d { line := a / 64 * 64, write := true, part := decide (n < 64), consist := by_, undo := if n < 64 then (List.range n).map (fun k => (a + k, rawByte d (a + k))) else [] }

/-- A slice that takes a write puts one into the write queue of its channel. -/
theorem acceptWrite_step (a : Nat) (bs : List Byte) (by_ : Option Nat) : MemStep 0 1 d (acceptWrite d a bs by_) := by
  have hw := ((queueWrite_step d a bs.length by_).trans (memWrite_step _ a bs)).trans (modFill_step _ (a / 64 * 64)
    (f := fun f => { f with wrong := f.wrong.filter (fun e => decide (f.line + e.1 < a ∨ a + bs.length ≤ f.line + e.1)) }) fun _ => rfl)
  unfold acceptWrite
  dsimp only
  split
  · split
    · exact ((hw.trans (meetErrors_step ..)).trans (putSet_step ..)).trans (bumpStep _ (by decide) (by omega) _)
    · exact (hw.trans (meetErrors_step ..)).trans (bumpStep _ (by decide) (by omega) _)
  · exact hw

theorem logBook_step (cls code : Nat) (data : List Nat) : MemStep 0 0 d (logBook d cls code data) :=
  .plain ((logBook_frame d cls code data).trans (by simp only [memSide, logBook_mc])) ((logBook_sameRegs d cls code data :).mono (by decide)) (logBook_mc ..) fun k => Nat.le_of_eq (by unfold logBook; split <;> rfl)

theorem recordErrAt_step {r ra : Reg} (hr : r ∈ memRegs) (hra : ra ∈ memRegs) (v a : Nat) : MemStep 0 0 d (recordErrAt d r ra 0 v a) := by
  unfold recordErrAt recordErr
  split
  · exact .refl
  · exact (wrStep _ hr (by omega) _).trans (wrStep _ hra (by omega) _)

theorem chipErr_step (line : Nat) : MemStep 0 0 d (chipErr d line) := by
  unfold chipErr
  dsimp only
  split
  · split
    · exact .refl
    · exact ((recordErrAt_step d (by decide) (by decide) _ _).trans (wrStep _ (r := .sboxEvent) (by decide) (by omega) _)).trans (logBook_step ..)
  · exact .refl

theorem storeWrite_step (a : Nat) (bs : List Byte) : MemStep 0 0 d (storeWrite d a bs).1 := by
  unfold storeWrite
  split
  · exact memWrite_step ..
  · refine MemStep.trans (r := 0) (w := 0) ?_ (chipErr_step _ _)
    exact (MemStep.foldl (r := 0) (w := 0) _ fun e x _ => by
      split
      · exact .refl
      · exact memWrite_step ..).mono (by omega) (by omega)

theorem length_lineParts (k a : Nat) (bs : List Byte) : (lineParts k a bs).length ≤ k := by
  induction k generalizing a bs with
  | zero => exact Nat.le_refl _
  | succ k ih =>
    unfold lineParts
    split
    · exact Nat.zero_le _
    · exact Nat.succ_le_succ (ih _ _)

/-- A write of a run puts at most one write more into a channel than the run has lines' lengths, and none where it lies on chip. -/
theorem devWriteFor_step (by_ : Option Nat) (a : Nat) (bs : List Byte) : MemStep 0 (bs.length / 64 + 2) d (devWriteFor by_ d a bs).1 := by
  unfold devWriteFor
  split
  · refine (MemStep.foldl _ fun e p _ => acceptWrite_step e p.1 p.2 by_).mono (by omega) ?_
    have := length_lineParts (bs.length / 64 + 2) a bs
    omega
  · exact ((yardTouch_step ..).trans (storeWrite_step ..)).mono (by omega) (by omega)

/-- A write on chip puts nothing into the channels. -/
theorem devWriteFor_chip (by_ : Option Nat) {a : Nat} (ha : 0x1000000000 ≤ a) (bs : List Byte) : MemStep 0 0 d (devWriteFor by_ d a bs).1 := by
  rw [devWriteFor, if_neg (by omega)]
  exact (yardTouch_step ..).trans (storeWrite_step ..)

end

/-- A step that finds the queues and fills empty need not wait where it puts no more into a channel than its write queue takes (R328, R329). -/
theorem overfills_free {d e : Dev} (hq : QueuesFree d) (he : ∀ ch, writesHeld (mcChan e ch) ≤ 32) : overfills d e = false := by
  obtain ⟨hc, hf⟩ := hq
  have hb : ∀ ch b, bankReads d ch b = 0 := fun ch => (hc ch).2
  simp only [overfills, hb, hf]
  simp
  intro k _ _ h
  exact absurd (he k) (by omega)

/-- The same for a step of the memory paths. -/
theorem MemStep.overfills {r w : Nat} {d e : Dev} (h : MemStep r w d e) (hq : QueuesFree d) (hw : w ≤ 32) : Machine.overfills d e = false :=
  overfills_free hq fun ch => by have := h.writes ch; rw [(hq.1 ch).1] at this; omega

end Sys2Proof.Machine
end

section
namespace Sys2Proof.Machine

/-! ## Contexts on chip and in the context area (R72) -/

/-- A device with what a use of a ring context may change of another: memory's side, the contexts, their places on chip and their copies. -/
def ctxSide (d e : Dev) : Dev :=
  { memSide d e with fresh := e.fresh, ring := { d.ring with ctx := e.ring.ctx, cached := e.ring.cached, copies := e.ring.copies } }

theorem ctxSide_trans {d e f : Dev} (h1 : e = ctxSide d e) (h2 : f = ctxSide e f) : f = ctxSide d f := by rw [h2, h1]; rfl

theorem devWrite_rest (d : Dev) (a : Nat) (bs : List Byte) : (devWrite d a bs).1 = memSide d (devWrite d a bs).1 := (devWriteFor_step d none a bs).rest

/-- A context that leaves the chip stays there where its copy stands; else its place is written and the copy is new. -/
theorem writeOut_cases (d : Dev) (k : Nat) : writeOut d k = d ∨ ∃ a bs m, writeOut d k =
    { (devWrite { d with fresh := d.fresh + 8 } a bs).1 with ring := { (devWrite { d with fresh := d.fresh + 8 } a bs).1.ring with copies := m } } := by
  by_cases h : (mget ({} : CtxCopy) d.ring.copies k).ctx = mget ({} : RingCtx) d.ring.ctx k
  · exact .inl (if_pos h)
  · exact .inr ⟨_, _, _, if_neg h⟩

theorem writeOut_rest (d : Dev) (k : Nat) : writeOut d k = ctxSide d (writeOut d k) := by
  obtain h | ⟨a, bs, m, h⟩ := writeOut_cases d k
  · rw [h]; rfl
  · rw [h, devWrite_rest]; rfl

@[simp] theorem writeOut_ctxs (d : Dev) (k : Nat) : (writeOut d k).ring.ctx = d.ring.ctx := by
  obtain h | ⟨a, bs, m, h⟩ := writeOut_cases d k
  · rw [h]
  · rw [h, devWrite_rest]; rfl

/-- A context that has no copy is not read; the read of one may find what stands there, or give a new context and copy. -/
theorem readIn_cases (d : Dev) (k : Nat) : readIn d k = d ∨ ∃ a, readIn d k = lookLines looker d a 64 ∨ ∃ f m c, readIn d k =
    { lookLines looker d a 64 with fresh := f, ring := { (lookLines looker d a 64).ring with ctx := m, copies := c } } := by
  by_cases h : (mget ({} : CtxCopy) d.ring.copies k).bytes = []
  · exact .inl (if_pos h)
  · refine .inr ⟨ctxAddr d (mget ({} : CtxCopy) d.ring.copies k).place, ?_⟩
    by_cases hb : memRead (lookLines looker d (ctxAddr d (mget ({} : CtxCopy) d.ring.copies k).place) 64) (ctxAddr d (mget ({} : CtxCopy) d.ring.copies k).place) 64 =
        (mget ({} : CtxCopy) d.ring.copies k).bytes ∧ !memBad d (ctxAddr d (mget ({} : CtxCopy) d.ring.copies k).place) 64
    · exact .inl ((if_neg h).trans (if_pos hb))
    · exact .inr ⟨_, _, _, (if_neg h).trans (if_neg hb)⟩

theorem readIn_rest (d : Dev) (k : Nat) : readIn d k = ctxSide d (readIn d k) := by
  have hl (a : Nat) := (lookLines_step d (req := looker) (by decide) a 64).rest
  obtain h | ⟨a, h | ⟨f, m, c, h⟩⟩ := readIn_cases d k
  · rw [h]; rfl
  · rw [h, hl]; rfl
  · rw [h, hl]; rfl

theorem cacheCtx_rest (d : Dev) (k : Nat) : cacheCtx d k = ctxSide d (cacheCtx d k) := by
  unfold cacheCtx
  dsimp only
  split
  · rfl
  · split
    · rw [writeOut_rest]; rfl
    · rfl

@[simp] theorem cacheCtx_ctxs (d : Dev) (k : Nat) : (cacheCtx d k).ring.ctx = d.ring.ctx := by
  unfold cacheCtx
  dsimp only
  split
  · rfl
  · split
    · exact writeOut_ctxs d _
    · rfl

theorem ctx_congr {d e : Dev} (h : e.ring.ctx = d.ring.ctx) (p r : Nat) : ctx e p r = ctx d p r := by rw [ctx, ctx, h]

theorem slot_congr {d e : Dev} (h : e.ring.slots = d.ring.slots) (p r : Nat) : slot e p r = slot d p r := by rw [slot, slot, h]

theorem port_congr {d e : Dev} (h : e.ports = d.ports) (p : Nat) : port e p = port d p := by rw [port, port, h]

/-- A use of a context leaves all but the contexts, memory's side and the ring counters. -/
theorem touchCtx_rest (d : Dev) (p r : Nat) : touchCtx d p r = { ctxSide d (touchCtx d p r) with regs := (touchCtx d p r).regs } := by
  unfold touchCtx
  dsimp only
  split
  · rw [cacheCtx_rest]; rfl
  · rw [ctxSide_trans (readIn_rest d _) (cacheCtx_rest (readIn d _) _)]; rfl

@[simp] theorem touchCtx_ports (d : Dev) (p r : Nat) : (touchCtx d p r).ports = d.ports := by rw [touchCtx_rest]; rfl

/-- A context that is on chip is used where it stands. -/
theorem touchCtx_cached {d : Dev} {p r : Nat} (h : ringKey p r ∈ d.ring.cached) : touchCtx d p r = bump (cacheCtx d (ringKey p r)) .ringCnt 0 :=
  if_pos (by simpa using h)

theorem ctxWaits_cached {d : Dev} {p r : Nat} (h : ringKey p r ∈ d.ring.cached) : ctxWaits d p r = false := by simp [ctxWaits, h]

/-- Taking out a member leaves room for it at the front. -/
theorem length_sdel_lt {xs : List Nat} {k : Nat} (h : k ∈ xs) : (sdel xs k).length < xs.length :=
  List.length_filter_lt_length_iff_exists.mpr ⟨k, h, by simp⟩

/-- A context that is on chip moves to the front of the at most 1,024 that are. -/
theorem cacheCtx_cached {d : Dev} {k : Nat} (h : k ∈ d.ring.cached) (hl : d.ring.cached.length ≤ 1024) :
    cacheCtx d k = { d with ring := { d.ring with cached := k :: sdel d.ring.cached k } } :=
  if_pos (Nat.lt_of_lt_of_le (length_sdel_lt h) hl)

/-! ## Reads that have been asked for (R44, R47) -/

/-- What a read asks for, whether it waits, has been sent or has ended. -/
def asked (r : HostRead) : Nat × Nat × Nat × Owner := (r.port, r.addr, r.len, r.owner)

/-- Issuing reads changes none of what they ask for. -/
theorem asked_issueReads (k : Nat) (l : LinkSt) : (issueReads k l).reads.map asked = l.reads.map asked := by
  induction k generalizing l with
  | zero => rfl
  | succ k ih =>
    unfold issueReads
    split
    · next i t hi ht =>
      split
      · next r hr =>
        split
        · obtain ⟨hlt, rfl⟩ := List.getElem?_eq_some_iff.mp hr
          rw [ih, List.map_set]
          refine (congrArg _ (?_ : _ = (l.reads.map asked)[i]'(by rwa [List.length_map]))).trans (List.set_getElem_self _)
          rw [List.getElem_map]; rfl
        · rfl
      · rfl
    · rfl

theorem asked_pump (d : Dev) : (pump d).link.reads.map asked = d.link.reads.map asked := by
  have hp : (pumpL d.link).reads = (issueReads d.link.reads.length d.link).reads := by
    unfold pumpL
    dsimp only
    split
    · split
      · rw [reads_sendFlit]
      · rfl
    · rw [reads_sendBytes]
  have hd (e : Dev) : (parkDrain e).link.reads = e.link.reads := by
    unfold parkDrain
    split
    · exact reads_sendCtl e.link 0 0x20
    · rfl
  by_cases h2 : linkState d = 2
  · rw [pump_inL0 h2, hd]; exact (congrArg _ hp).trans (asked_issueReads ..)
  · rw [pump_outsideL0 h2, hd]

/-- What is asked for before the transmitter acts is asked for after. -/
theorem exists_readsOf_pump {d : Dev} {f : Owner → Bool} {r : HostRead} (h : r ∈ readsOf d f) : ∃ x ∈ readsOf (pump d) f, asked x = asked r := by
  obtain ⟨hm, hf⟩ := List.mem_filter.mp h
  have ha : asked r ∈ (pump d).link.reads.map asked := asked_pump d ▸ List.mem_map_of_mem hm
  obtain ⟨x, hx, he⟩ := List.mem_map.mp ha
  have ho : x.owner = r.owner := congrArg (fun e => e.2.2.2) he
  exact ⟨x, List.mem_filter.mpr ⟨hx, by rw [ho]; exact hf⟩, he⟩

@[simp] theorem pump_ring (d : Dev) : (pump d).ring = d.ring := by rw [pump_frame]
@[simp] theorem pump_consists (d : Dev) : (pump d).consists = d.consists := by rw [pump_frame]
@[simp] theorem hostWrite_ring (d : Dev) (p a : Nat) (bs : List Byte) : (hostWrite d p a bs).ring = d.ring := by rw [hostWrite_frame]

end Sys2Proof.Machine
end

section
namespace Sys2Proof.Machine

/-! ## Terminating events (R98) -/

theorem abortInterrupts_frame (d : Dev) (c : Nat) : abortInterrupts d c = { d with cores := (abortInterrupts d c).cores } := by
  unfold abortInterrupts
  generalize d.disp.service.filter _ = l
  induction l generalizing d with
  | nil => rfl
  | cons s l ih => rw [List.foldl_cons, ih]; rfl

/-- An event leaves all but its Consist and the cores that serve it. -/
theorem recordEvent_frame (d : Dev) (c st r : Nat) :
    recordEvent d c st r = { d with consists := (recordEvent d c st r).consists, cores := (recordEvent d c st r).cores } := by
  unfold recordEvent
  dsimp only
  split
  · rw [abortInterrupts_frame]; rfl
  · split <;> rfl

/-- The first event of a Consist that is not in Completing governs. -/
theorem recordEvent_first {d : Dev} {k : Nat} (hv : (consist d k).valid = true) (he : (consist d k).event = 0) (hp : (consist d k).ph ≠ .completing)
    (st r : Nat) : consist (recordEvent d k st r) k = { consist d k with event := st, evResult := r, eventAt := d.cc } := by
  unfold recordEvent
  dsimp only
  rw [if_pos ⟨hv, he, hp⟩, consist, abortInterrupts_frame]
  exact consist_setConsist_self ..

/-! ## Polling (R67, R69) -/

theorem exec_summaryLinePoll (p : PortIx) (s : State) : exec (.summaryLinePoll p) s = onDevTx s (summaryLinePoll p.val) := rfl

theorem summaryLinePoll_starts {d : Dev} {p : Nat} (hu : engineUp d = true) (he : portExists d p = true) (hn : (port d p).polling = false)
    (hp : portPolled d p = true) :
    summaryLinePoll p d = hostRead (setPort d p { port d p with polling := true }) p ((port d p).summary / 64 * 64) 64 (.summary p) := by
  simp [summaryLinePoll, hu, he, hn, hp]

/-- Where no read of the poll is out, it asks for the flagged rings' doorbell words, or ends. -/
theorem summaryLinePoll_asks {d : Dev} {p : Nat} (hu : engineUp d = true) (he : portExists d p = true) (hn : (port d p).polling = true)
    (hr : readsOf d (pollOwner p) = []) :
    summaryLinePoll p d = (if (readsOf (askFlagged d p) (pollOwner p)).isEmpty ∧ (port (askFlagged d p) p).flagged = [] then
      setPort (askFlagged d p) p { port (askFlagged d p) p with polling := false } else askFlagged d p) := by
  simp [summaryLinePoll, hu, he, hn, hr]

/-- A flagged ring whose context is at hand is asked for its doorbell word, and is flagged no longer. -/
theorem pollRing_valid {d : Dev} {p r : Nat} (hw : ctxWaits d p r = false) (hv : (ctx d p r).valid = true) (hf : (port d p).flagged = [r]) :
    ∃ e a, pollRing d p r = hostRead e p (a / 8 * 8) 8 (.doorbell p r) ∧ (port e p).flagged = [] := by
  refine ⟨_, _, (if_neg (by simp [hw])).trans (if_pos hv), ?_⟩
  rw [port_congr (touchCtx_ports ..), port_setPort_self, hf]
  simp

/-- A read of an aligned doubleword is one packet. -/
theorem readsOf_hostRead_dword (d : Dev) (p a : Nat) {o : Owner} {f : Owner → Bool} (hf : f o = true) :
    ∃ h ∈ readsOf (hostRead d p (a / 8 * 8) 8 o) f, h.port = p ∧ h.len = 8 := by
  have hp : rdPieces (8 / 4096 + 2) p (a / 8 * 8) 8 o = [{ port := p, addr := a / 8 * 8, len := 8, owner := o }] := by
    have hm : min 8 (4096 - a / 8 * 8 % 4096) = 8 := by omega
    simp [rdPieces, hm]
  exact ⟨_, List.mem_filter.mpr ⟨List.mem_append_right _ (hp ▸ List.mem_singleton_self _), hf⟩, rfl, rfl⟩

/-! ## RESET of a ring (R66, R70) -/

theorem exec_ringDescriptorReread (p : PortIx) (r : RingIx) (s : State) :
    exec (.ringDescriptorReread p r) s = onDevTx s (ringDescriptorReread p.val r.val) := rfl

theorem ringDescriptorReread_waiting {d : Dev} {p r : Nat} (hu : engineUp d = true) (hw : (slot d p r).reset = .waiting)
    (hd : ringDrained d p r = true) :
    ringDescriptorReread p r d = hostRead (setSlot (freeCtx d p r) p r { slot d p r with reset := .reading }) p
      ((port d p).roster + 64 * r) 64 (.descriptor p r) := by
  simp [ringDescriptorReread, hu, hw, hd]; rfl

theorem ringDescriptorReread_returned {d : Dev} {p r : Nat} {h : HostRead} {hs : List HostRead} (hu : engineUp d = true)
    (hw : (slot d p r).reset = .reading) (hr : readsOf d (fun o => decide (o = .descriptor p r)) = h :: hs) (hd : h.st = .done)
    (hroom : ctxRoom d = true) :
    ringDescriptorReread p r d = activate (dropReads d (fun o => decide (o = .descriptor p r))) p r h.got := by
  simp only [ringDescriptorReread, hu, hw, hr, hd, hroom]; rfl

@[simp] theorem slot_setSlot_self (d : Dev) (p r : Nat) (v : RingSlot) : slot (setSlot d p r v) p r = v := mget_mset_self _ _ _ _

/-- A STATUS word counts its GEN and gives the ring's state. -/
theorem slot_writeStatus (d : Dev) (p r state reason : Nat) :
    slot (writeStatus d p r state reason) p r = { slot d p r with gen := ((slot d p r).gen + 1) % 65536, state := state } := by
  unfold writeStatus
  dsimp only
  rw [slot_congr (congrArg RingSt.slots (hostWrite_ring ..)), slot_setSlot_self]

theorem slot_holdRing (d : Dev) (p r : Nat) : slot (holdRing d p r) p r = { slot d p r with reset := .held } := slot_setSlot_self ..

@[simp] theorem holdRing_ctxs (d : Dev) (p r : Nat) : (holdRing d p r).ring.ctx = d.ring.ctx := rfl

@[simp] theorem writeStatus_ctxs (d : Dev) (p r state reason : Nat) : (writeStatus d p r state reason).ring.ctx = d.ring.ctx := by
  unfold writeStatus
  dsimp only
  rw [hostWrite_ring]
  rfl

/-- A RESET that ends INACTIVE with no SQ bound to the ring writes its STATUS and holds it. -/
theorem resetEnds_inactive {d : Dev} {p r : Nat} (hb : boundSqs d p r = []) : resetEnds d p r 0 0 = holdRing (writeStatus d p r 0 0) p r := by
  have h : boundSqs (holdRing (writeStatus d p r 0 0) p r) p r = [] := by
    rw [← hb, boundSqs, boundSqs, holdRing_ctxs, writeStatus_ctxs]
  simp [resetEnds, failBound, h]

/-- A descriptor that no reason refuses gives the ring its fresh context, ACTIVE and held. -/
theorem activate_accepts {d : Dev} {p r : Nat} {bs : List Byte} (hk : leAt bs 16 1 = 1 ∨ leAt bs 16 1 = 2) (he : portExists d p = true)
    (hd : (port d p).destroying = false) (hr : refuseReason d p (descCtx bs (decide (leAt bs 16 1 = 1))) = none) :
    activate d p r bs = holdRing (writeStatus (cacheCtx (setCtx d p r (descCtx bs (decide (leAt bs 16 1 = 1)))) (ringKey p r)) p r 1 0) p r := by
  unfold activate
  dsimp only
  rw [if_pos ⟨hk, he, by simp [hd]⟩, hr]

theorem activate_inactive {d : Dev} {p r : Nat} {bs : List Byte} (h1 : leAt bs 16 1 ≠ 1) (h2 : leAt bs 16 1 ≠ 2) :
    activate d p r bs = resetEnds d p r 0 0 := if_neg fun ⟨h, _⟩ => h.elim h1 h2

@[simp] theorem cacheCtx_slots (d : Dev) (k : Nat) : (cacheCtx d k).ring.slots = d.ring.slots := by rw [cacheCtx_rest]; rfl

end Sys2Proof.Machine
end

section
namespace Sys2Proof.Machine

/-! ## Fetching (R83, R90) -/

theorem exec_sqFetch (p : PortIx) (r : RingIx) (s : State) : exec (.sqFetch p r) s = onDevTx s (sqFetch p.val r.val) := rfl
theorem exec_submissionEntriesArrive (p : PortIx) (r : RingIx) (s : State) :
    exec (.submissionEntriesArrive p r) s = onDevTx s (submissionEntriesArrive p.val r.val) := rfl

theorem ringKey_ne (p : Nat) {q r : Nat} (h : q ≠ r) : ringKey p q ≠ ringKey p r := by unfold ringKey; omega

/-- A use of a context that is on chip leaves every context. -/
theorem touchCtx_cached_ctxs {d : Dev} {p r : Nat} (h : ringKey p r ∈ d.ring.cached) : (touchCtx d p r).ring.ctx = d.ring.ctx := by
  rw [touchCtx_cached h]; exact cacheCtx_ctxs ..

/-- What is on chip stays there when a context that is there too is used. -/
theorem mem_cached_touchCtx {d : Dev} {p r k : Nat} (h : ringKey p r ∈ d.ring.cached) (hl : d.ring.cached.length ≤ 1024) (hk : k ∈ d.ring.cached) :
    k ∈ (touchCtx d p r).ring.cached := by
  rw [touchCtx_cached h, bump_ring, cacheCtx_cached h hl]
  by_cases he : k = ringKey p r
  · exact he ▸ List.mem_cons_self
  · exact List.mem_cons_of_mem _ (List.mem_filter.mpr ⟨hk, by simpa using he⟩)

@[simp] theorem touchCtx_nextId (d : Dev) (p r : Nat) : (touchCtx d p r).ring.nextId = d.ring.nextId := by rw [touchCtx_rest]; rfl
@[simp] theorem touchCtx_rr (d : Dev) (p r : Nat) : (touchCtx d p r).ring.rr = d.ring.rr := by rw [touchCtx_rest]; rfl

/-- A fetch of n entries begins: the CQ's places are reserved, and the SQ fetches commands numbered from id on. -/
def fetchBegun (d : Dev) (p r n id : Nat) : Dev :=
  let c := ctx d p r
  let q := ctx d p c.target
  let d2 := setCtx d p c.target { q with reserved := q.reserved + n }
  let d3 := setCtx d2 p r { c with fetching := n, fetchId := id }
  setPort { d3 with ring := { d3.ring with nextId := d3.ring.nextId + n } } p { port d3 p with rr := r }

theorem fetchBegun_ctx (d : Dev) (p r n id : Nat) : ctx (fetchBegun d p r n id) p r = { ctx d p r with fetching := n, fetchId := id } :=
  ctx_setCtx_self ..

theorem fetchBegun_cq {d : Dev} {p r : Nat} (h : (ctx d p r).target ≠ r) (n id : Nat) :
    (ctx (fetchBegun d p r n id) p (ctx d p r).target).reserved = (ctx d p (ctx d p r).target).reserved + n := by
  have hc := (ctx_setCtx_ne (setCtx d p (ctx d p r).target { ctx d p (ctx d p r).target with reserved := (ctx d p (ctx d p r).target).reserved + n })
    { ctx d p r with fetching := n, fetchId := id } (ringKey_ne p h)).trans (ctx_setCtx_self ..)
  exact congrArg RingCtx.reserved hc

theorem fetchBegun_nextId (d : Dev) (p r n id : Nat) : (fetchBegun d p r n id).ring.nextId = d.ring.nextId + n := rfl

theorem fetchBegun_rr (d : Dev) (p r n id : Nat) : (fetchBegun d p r n id).ring.rr = d.ring.rr := rfl

/-- The contexts of the SQ and of its CQ are used, the CQ's first. -/
def fetchUses (d : Dev) (p r : Nat) : Dev := touchCtx (touchCtx { d with ring := { d.ring with rr := p } } p (ctx d p r).target) p r

theorem fetchUses_nextId (d : Dev) (p r : Nat) : (fetchUses d p r).ring.nextId = d.ring.nextId := by
  unfold fetchUses
  rw [touchCtx_nextId, touchCtx_nextId]

theorem fetchUses_rr (d : Dev) (p r : Nat) : (fetchUses d p r).ring.rr = p := by
  unfold fetchUses
  rw [touchCtx_rr, touchCtx_rr]

theorem fetchUses_ctxs {d : Dev} {p r : Nat} (hr : ringKey p r ∈ d.ring.cached) (hc : ringKey p (ctx d p r).target ∈ d.ring.cached)
    (hl : d.ring.cached.length ≤ 1024) : (fetchUses d p r).ring.ctx = d.ring.ctx :=
  (touchCtx_cached_ctxs (mem_cached_touchCtx (d := { d with ring := { d.ring with rr := p } }) hc hl hr)).trans
    (touchCtx_cached_ctxs (d := { d with ring := { d.ring with rr := p } }) hc)

/-- The ring whose turn it is has something to fetch. -/
theorem fetchCount_turnRing {d : Dev} {p r : Nat} (h : turnRing d p = some r) : 0 < fetchCount d p r := by
  simpa using List.find?_some h

/-- The SQ whose turn it is, with both contexts at hand, asks for the entries that it may take. -/
theorem sqFetch_fetches {d : Dev} {p r : Nat} (hu : engineUp d = true) (hp : turnPort d = some p) (hr : turnRing d p = some r)
    (h1 : ctxWaits d p r = false) (h2 : ctxWaits d p (ctx d p r).target = false) :
    sqFetch p r d = hostRead (fetchBegun (fetchUses d p r) p r (fetchCount d p r) d.ring.nextId) p
      ((ctx (fetchUses d p r) p r).base + 64 * (ctx (fetchUses d p r) p r).idx) (64 * fetchCount d p r) (.entries p r) :=
  if_pos ⟨hu, hp, hr, by simp [h1], by simp [h2]⟩

/-- A HALT scan changes states alone. -/
theorem haltScan_entries {α : Type} {f : Cmd → α} (hf : ∀ c st, f { c with st := st } = f c) (d : Dev) (p r : Nat) :
    (haltScan d p r).ring.cmds.map f = d.ring.cmds.map f := by
  unfold haltScan
  split
  · next c _ =>
    rw [finish, modCmd, List.map_map, noteFence_cmds]
    refine List.map_congr_left fun e _ => ?_
    rw [Function.comp_apply]
    split
    · exact hf ..
    · rfl
  · rfl

theorem submissionEntriesArrive_returned {d : Dev} {p r : Nat} {h : HostRead} {hs : List HostRead}
    (hr : readsOf d (fun o => decide (o = .entries p r)) = h :: hs) (hd : h.st = .done) :
    ∃ e, submissionEntriesArrive p r d = haltScan e p r ∧ e.ring.cmds = d.ring.cmds ++
      (List.range (ctx d p r).fetching).map (fun i => parseEntry p r ((ctx d p r).fetchId + i) (sliceB h.got (64 * i) 64)) := by
  unfold submissionEntriesArrive
  dsimp only
  rw [hr]
  dsimp only
  rw [if_pos hd]
  exact ⟨_, rfl, rfl⟩

/-! ## Completions and interrupts (R60, R81 to R83, R94, R412) -/

theorem exec_completionWrite (id : Nat) (s : State) : exec (.completionWrite id) s = onDevTx s (completionWrite id) := rfl
theorem exec_cqModerationTimer (p : PortIx) (r : RingIx) (s : State) :
    exec (.cqModerationTimer p r) s = onDevTx s (cqModerationTimer p.val r.val) := rfl

section
variable {d : Dev} {c : Cmd} {status result : Nat}

theorem completionWrite_dropped (hc : cmdOf d c.id = some c) (hs : c.st = .done status result) (hd : c.dropped = true) :
    completionWrite c.id d = completed d c := by
  simp [completionWrite, hc, hs, hd]

/-- A completion that may be written now: the engine reaches the host, R438 lets it go first, and the contexts are at hand. -/
theorem completionWrite_writes (hc : cmdOf d c.id = some c) (hs : c.st = .done status result) (hd : c.dropped = false) (hu : engineUp d = true)
    (hf : firstToWrite d c.id = true) (h1 : ctxWaits d c.port c.sq = false) (h2 : ctxWaits d c.port (ctx d c.port c.sq).target = false) :
    let d1 := haltScan (completed (writeEntry d c status result) c) c.port c.sq
    let d2 := { d1 with pwr := { d1.pwr with standingDone := none } }
    completionWrite c.id d = if c.opcode = 0xE5 ∧ status = 0 ∧ pf c 1 0 0 = 1 then resetDev (pump d2) 3 else d2 := by
  unfold completionWrite
  rw [hc]
  dsimp only
  rw [hs]
  dsimp only
  rw [hd, hu, hf, h1, h2]
  rfl

end

/-- A CQ without interrupts is not moderated. -/
theorem moderate_disabled {d : Dev} {p q : Nat} (h : (ctx d p q).ien = false) (urgent : Bool) : moderate d p q urgent = d := by
  simp [moderate, h]

/-- The entry of a CQ without interrupts, for a status that is no failure: the entry, its place and the CQ's next place (R81 to R83). -/
theorem writeEntry_plain (d0 : Dev) (c : Cmd) (status result : Nat) :
    let d := touchCtx (touchCtx d0 c.port (ctx d0 c.port c.sq).target) c.port c.sq
    let sq := ctx d c.port c.sq
    let cq := ctx d c.port sq.target
    cq.ien = false → status ≤ 1 →
      writeEntry d0 c status result =
        bump (setCtx (hostWrite d c.port (cq.base + 16 * cq.idx) (completionBytes cq.phase c.sq sq.idx status c.cid result)) c.port sq.target
          { cq with idx := if cq.idx + 1 = ringSize cq then 0 else cq.idx + 1, phase := if cq.idx + 1 = ringSize cq then !cq.phase else cq.phase,
                    reserved := cq.reserved - 1 }) .ringCnt 3 := by
  intro d sq cq hi hs
  unfold writeEntry
  dsimp only
  rw [if_pos (show status = 0 ∨ status = 1 by omega), moderate_disabled]
  rw [ctx_setCtx_self]
  exact hi

theorem cqModerationTimer_sends {d : Dev} {p q : Nat} (hu : engineUp d = true) (hv : (ctx d p q).valid = true) (hs : (ctx d p q).sq = false)
    (ht : (ctx d p q).timer = true) (hw : ctxWaits d p q = false) : cqModerationTimer p q d = sendInt (touchCtx d p q) p q :=
  if_pos ⟨hu, hv, by simp [hs], ht, by simp [hw]⟩

/-! ## Failed reads (R52) -/

theorem exec_commandReadFailure (id : Nat) (s : State) : exec (.commandReadFailure id) s = onDevTx s (commandReadFailure id) := rfl

/-- An FW_UPDATE_CHUNK that ends writes memory alone. -/
theorem chunkBelow_step (d : Dev) (c : Cmd) (a : Nat) : MemStep 0 0 d (chunkBelow d c a) := by
  unfold chunkBelow
  split
  · refine (MemStep.foldl (r := 0) (w := 0) _ fun e r _ => ?_).mono (by omega) (by omega)
    split
    · split
      · exact memWrite_step ..
      · exact .refl
    · exact .refl
  · exact .refl

/-- What is left of a command's reads when a failed one ends it: its data so far is written, its reads are gone and its failures forgotten. -/
def readsGone (d : Dev) (c : Cmd) (a : Nat) : Dev :=
  modCmd (dropReads (chunkBelow d c a) (fun o => decide (readCmd d o = some c.id))) c.id (fun c => { c with bad := [] })

section
variable {d : Dev} {c : Cmd} {b : Nat × Nat}

/-- While a read of the command is out, those that wait are given up. -/
theorem commandReadFailure_waits (hc : cmdOf d c.id = some c) (hb : lowestBad c.bad = some b)
    (ho : ∃ r ∈ readsOf d (fun o => decide (readCmd d o = some c.id)), r.st = .sent) : commandReadFailure c.id d = unaskReads d c.id := by
  obtain ⟨r, hr, hs⟩ := ho
  have hne : (readsOf d (fun o => decide (readCmd d o = some c.id))).filter (fun r => decide (r.st = .sent)) ≠ [] :=
    List.ne_nil_of_mem (List.mem_filter.mpr ⟨hr, decide_eq_true hs⟩)
  unfold commandReadFailure
  dsimp only
  rw [hc]
  dsimp only
  rw [hb]
  exact if_neg fun h => hne h.2

theorem commandReadFailure_ends (hc : cmdOf d c.id = some c) (hb : lowestBad c.bad = some b) (hr : c.st = .running)
    (ho : ∀ r ∈ readsOf d (fun o => decide (readCmd d o = some c.id)), r.st ≠ .sent) :
    commandReadFailure c.id d = readsEnd (readsGone d c b.1) c b.2 b.1 := by
  have hnil : (readsOf d (fun o => decide (readCmd d o = some c.id))).filter (fun r => decide (r.st = .sent)) = [] :=
    List.filter_eq_nil_iff.mpr fun r h => by simpa using ho r h
  unfold commandReadFailure
  dsimp only
  rw [hc]
  dsimp only
  rw [hb]
  exact if_pos ⟨hr, hnil⟩

theorem readsGone_rest (d : Dev) (c : Cmd) (a : Nat) :
    readsGone d c a = { memSide d (readsGone d c a) with link := (readsGone d c a).link, ring := (readsGone d c a).ring } := by
  unfold readsGone
  rw [(chunkBelow_step d c a).rest]
  rfl

theorem cmdOf_readsGone (hc : cmdOf d c.id = some c) (a : Nat) : cmdOf (readsGone d c a) c.id = some { c with bad := [] } := by
  refine cmdOf_modCmd_self ?_ rfl
  rw [← hc]
  exact cmdOf_congr (congrArg RingSt.cmds (chunkBelow_step d c a).ring) _

section
variable {status a : Nat} (hs : ∀ ch, ch < 16 → (chan d ch).ph = .idle) (hj : ∀ p ∈ d.junc.active, p.src ≠ .cmd c.id)
include hs hj

theorem no_failed_chan :
    firstIdx 16 (fun ch => decide ((chan d ch).ph ≠ .idle ∧ ((chan d ch).src = .dma c.id ∨ (chan d ch).src = .move c.id))) = none ∧
      d.junc.active.find? (fun p => decide (p.src = .cmd c.id)) = none := by
  refine ⟨?_, List.find?_eq_none.mpr fun p hp h => hj p hp (of_decide_eq_true h)⟩
  rw [firstIdx, List.find?_eq_none]
  intro ch hch h
  exact (of_decide_eq_true h).1 (hs ch (List.mem_range.mp hch))

/-- A command with neither a channel nor a Junction program nor a Consist ends itself. -/
theorem readsEnd_command (hk : consistOf d c.id = none) : readsEnd d c status a = finish (fwLaysDown d c) c.id status a := by
  obtain ⟨h1, h2⟩ := no_failed_chan hs hj
  simp only [readsEnd, h1, h2, hk]

/-- One that runs a Consist ends that. -/
theorem readsEnd_consist {k : Nat} (hk : consistOf d c.id = some k) : readsEnd d c status a = recordEvent d k status a := by
  obtain ⟨h1, h2⟩ := no_failed_chan hs hj
  simp only [readsEnd, h1, h2, hk]

end

end

theorem fwLaysDown_cmds (d : Dev) (c : Cmd) : (fwLaysDown d c).ring.cmds = d.ring.cmds := by
  unfold fwLaysDown
  dsimp only
  split <;> rfl

/-- A command of no Consist whose reads have failed ends with the failure that decides. -/
theorem commandReadFailure_completes {d : Dev} {c : Cmd} {b : Nat × Nat} (hc : cmdOf d c.id = some c) (hk : consistOf d c.id = none)
    (hs : ∀ ch, ch < 16 → (chan d ch).ph = .idle) (hj : ∀ p ∈ d.junc.active, p.src ≠ .cmd c.id) :
    cmdOf (readsEnd (readsGone d c b.1) c b.2 b.1) c.id = some { c with bad := [], st := .done b.2 b.1 } := by
  have hg := cmdOf_readsGone hc b.1
  have he := readsGone_rest d c b.1
  have hk' : consistOf (readsGone d c b.1) c.id = none := by rw [he]; exact hk
  rw [readsEnd_command (by rw [he]; exact hs) (by rw [he]; exact hj) hk']
  exact cmdOf_finish ((cmdOf_congr (fwLaysDown_cmds ..) _).trans hg) _ _

/-- The failed reads of a Consist's RUN_CONSIST are its event. -/
theorem commandReadFailure_event {d : Dev} {c : Cmd} {b : Nat × Nat} {k : Nat} (hk : consistOf d c.id = some k)
    (hv : (consist d k).valid = true) (hev : (consist d k).event = 0) (hp : (consist d k).ph ≠ .completing)
    (hs : ∀ ch, ch < 16 → (chan d ch).ph = .idle) (hj : ∀ p ∈ d.junc.active, p.src ≠ .cmd c.id) :
    (consist (readsEnd (readsGone d c b.1) c b.2 b.1) k).event = b.2 ∧ (consist (readsEnd (readsGone d c b.1) c b.2 b.1) k).evResult = b.1 := by
  have he := readsGone_rest d c b.1
  have hk' : consistOf (readsGone d c b.1) c.id = some k := by rw [he]; exact hk
  rw [readsEnd_consist (by rw [he]; exact hs) (by rw [he]; exact hj) hk']
  rw [recordEvent_first (by rw [he]; exact hv) (by rw [he]; exact hev) (by rw [he]; exact hp)]
  exact ⟨rfl, rfl⟩

theorem consist_congr {d e : Dev} (h : e.consists = d.consists) (k : Nat) : consist e k = consist d k := by rw [consist, consist, h]

/-- Settles O34, row by row; a poll and a fetch ask for reads, which the transmitter keeps. -/
theorem ringRows : Obligations.RingRows := by
  unfold Obligations.RingRows
  refine ⟨⟨fun s p hu he => ⟨fun hn hp => ?_, fun hn hr => ⟨fun hf => ?_, fun r hf => ⟨fun hw => ?_, fun hw hv => ?_⟩⟩⟩,
    fun s p r hu => ⟨fun hw hd => ?_, fun h hs hw hr hd hroom => ⟨fun h1 h2 hb => ?_, fun hk he hd' hrr => ?_⟩⟩,
    fun s p r hu hp hr hc1 hc2 hl => ?_, fun s p r h hs hr hd => ?_⟩,
    fun s c status result hc hs => ⟨fun hd => ?_, fun hd hu hf h1 h2 => ⟨fun ho => ?_, fun ho hs0 hp => ?_⟩⟩,
    fun d0 c status result => writeEntry_plain d0 c status result, fun s p r hu hv hsq ht hw => ?_,
    fun s c b hc hb => ⟨fun ho => ?_, fun hr ho hs hj => ⟨fun hk => ?_, fun k hk hv hev hp => ?_⟩⟩⟩
  · exact makesTx_of_onDevTx (exec_summaryLinePoll p s) (summaryLinePoll_starts hu he hn hp)
  · refine makesTx_of_onDevTx (exec_summaryLinePoll p s) ?_
    rw [summaryLinePoll_asks hu he hn hr, askFlagged, hf]
    exact if_pos ⟨by simpa using hr, hf⟩
  · refine makesTx_of_onDevTx (exec_summaryLinePoll p s) ?_
    have hask : askFlagged s.dev p.val = s.dev := by rw [askFlagged, hf]; exact if_pos hw
    rw [summaryLinePoll_asks hu he hn hr, hask]
    exact if_neg fun ⟨_, h⟩ => by rw [hf] at h; cases h
  · obtain ⟨e, a, hask, hflag⟩ := pollRing_valid hw hv hf
    have hask' : askFlagged s.dev p.val = hostRead e p.val (a / 8 * 8) 8 (.doorbell p.val r) := by rw [askFlagged, hf]; exact hask
    obtain ⟨h, hm, -⟩ := readsOf_hostRead_dword e p.val a (o := .doorbell p.val r) (f := pollOwner p.val) (by simp [pollOwner])
    obtain ⟨h', hm', hport, hlen⟩ := readsOf_hostRead_dword e p.val a (o := .doorbell p.val r) (f := fun o => decide (o = .doorbell p.val r)) (by simp)
    have hpoll : summaryLinePoll p.val s.dev = hostRead e p.val (a / 8 * 8) 8 (.doorbell p.val r) := by
      rw [summaryLinePoll_asks hu he hn hr, hask']
      exact if_neg fun ⟨h0, _⟩ => List.ne_nil_of_mem hm (List.isEmpty_iff.mp h0)
    obtain ⟨x, hx, hxa⟩ := exists_readsOf_pump hm'
    refine ⟨_, exec_summaryLinePoll p s, ⟨x, by rw [← hpoll] at hx; exact hx, ?_, ?_⟩, ?_⟩
    · exact (congrArg Prod.fst hxa).trans hport
    · exact (congrArg (fun e => e.2.2.1) hxa).trans hlen
    · rw [port_congr (pump_ports _), hpoll]; exact hflag
  · exact makesTx_of_onDevTx (exec_ringDescriptorReread p r s) (ringDescriptorReread_waiting hu hw hd)
  · refine ⟨_, exec_ringDescriptorReread p r s, ?_⟩
    dsimp only
    rw [slot_congr (congrArg RingSt.slots (pump_ring _)), ringDescriptorReread_returned hu hw hr hd hroom, activate_inactive h1 h2,
      resetEnds_inactive (d := dropReads s.dev _) hb, slot_holdRing, slot_writeStatus]
    exact ⟨rfl, rfl, rfl⟩
  · refine ⟨_, exec_ringDescriptorReread p r s, ?_⟩
    dsimp only
    rw [slot_congr (congrArg RingSt.slots (pump_ring _)), ctx_congr (congrArg RingSt.ctx (pump_ring _)),
      ringDescriptorReread_returned hu hw hr hd hroom, activate_accepts (d := dropReads s.dev _) hk he hd' hrr, slot_holdRing, slot_writeStatus,
      slot_congr (cacheCtx_slots ..), ctx_congr (holdRing_ctxs ..), ctx_congr (writeStatus_ctxs ..), ctx_congr (cacheCtx_ctxs ..), ctx_setCtx_self]
    exact ⟨rfl, rfl, rfl, rfl⟩
  · have hctx := fetchUses_ctxs hc1 hc2 hl
    refine ⟨fetchBegun (fetchUses s.dev p.val r.val) p.val r.val (fetchCount s.dev p.val r.val) s.dev.ring.nextId, ?_, fetchCount_turnRing hr, ?_, ?_, ?_, ?_, ?_, fun ht => ?_⟩
    · refine makesTx_of_onDevTx (exec_sqFetch p r s) ?_
      rw [sqFetch_fetches hu hp hr (ctxWaits_cached hc1) (ctxWaits_cached hc2), ctx_congr hctx]
    · rw [fetchBegun_ctx]
    · rw [fetchBegun_ctx]
    · rw [fetchBegun_nextId, fetchUses_nextId]
    · exact congrArg Port.rr (port_setPort_self ..)
    · rw [fetchBegun_rr, fetchUses_rr]
    · have h := fetchBegun_cq (d := fetchUses s.dev p.val r.val) (p := p.val) (r := r.val) (by rw [ctx_congr hctx]; exact ht)
        (fetchCount s.dev p.val r.val) s.dev.ring.nextId
      rw [ctx_congr hctx, ctx_congr hctx] at h
      exact h
  · obtain ⟨e, he, hcmds⟩ := submissionEntriesArrive_returned hr hd
    refine ⟨_, exec_submissionEntriesArrive p r s, ?_⟩
    dsimp only
    rw [pump_ring, he, haltScan_entries fun _ _ => rfl, hcmds]
  · exact makesTx_of_onDevTx (exec_completionWrite _ s) (completionWrite_dropped hc hs hd)
  · exact makesTx_of_onDevTx (exec_completionWrite _ s) ((completionWrite_writes hc hs hd hu hf h1 h2).trans (if_neg ho))
  · exact makesTx_of_onDevTx (exec_completionWrite _ s) ((completionWrite_writes hc hs hd hu hf h1 h2).trans (if_pos ⟨ho, hs0, hp⟩))
  · exact makesTx_of_onDevTx (exec_cqModerationTimer p r s) (cqModerationTimer_sends hu hv hsq ht hw)
  · exact makesTx_of_onDevTx (exec_commandReadFailure _ s) (commandReadFailure_waits hc hb ho)
  · refine ⟨_, exec_commandReadFailure _ s, ?_⟩
    dsimp only
    rw [cmdOf_congr (congrArg RingSt.cmds (pump_ring _)), commandReadFailure_ends hc hb hr ho, commandReadFailure_completes hc hk hs hj]
    rfl
  · refine ⟨_, exec_commandReadFailure _ s, ?_⟩
    dsimp only
    rw [consist_congr (pump_consists _), commandReadFailure_ends hc hb hr ho]
    exact commandReadFailure_event hk hv hev hp hs hj

end Sys2Proof.Machine
end

section
namespace Sys2Proof.Machine

/-! ## Steps of units that need not wait (R328, R329) -/

/-- A step puts at most w writes more into a channel. -/
structure HeldWithin (w : Nat) (d e : Dev) : Prop where
  held : ∀ ch, writesHeld (mcChan e ch) ≤ writesHeld (mcChan d ch) + w

namespace HeldWithin
variable {w w' : Nat} {d e f : Dev}

theorem of_mc (h : e.mc = d.mc) : HeldWithin 0 d e := ⟨fun ch => Nat.le_of_eq (by rw [mcChan, mcChan, h]; rfl)⟩

theorem trans (h1 : HeldWithin w d e) (h2 : HeldWithin w' e f) : HeldWithin (w + w') d f :=
  ⟨fun ch => by have := h1.held ch; have := h2.held ch; omega⟩

theorem mono (h : HeldWithin w d e) (hw : w ≤ w') : HeldWithin w' d e := ⟨fun ch => by have := h.held ch; omega⟩

/-- A step of the memory paths, and of others that leave the channels. -/
theorem of_step {r : Nat} (h : MemStep r w d e) (hf : f.mc = e.mc) : HeldWithin w d f := ⟨fun ch => by rw [mcChan, hf]; exact h.writes ch⟩

theorem overfills (h : HeldWithin w d e) (hq : QueuesFree d) (hw : w ≤ 32) : Machine.overfills d e = false :=
  overfills_free hq fun ch => by have := h.held ch; rw [(hq.1 ch).1] at this; omega

end HeldWithin

/-- Where the queues are free, a row that puts few writes into them does what its function gives. -/
theorem makesTx_of_onUnitTx {i : Instr} {s : State} {f : Dev → Dev} {d : Dev} {w : Nat} (h : exec i s = onUnitTx s f) (hf : f s.dev = d)
    (hq : QueuesFree s.dev) (hd : HeldWithin w s.dev d) (hw : w ≤ 32) : MakesTx i s d := by
  subst hf
  rw [MakesTx, h, onUnitTx, hd.overfills hq hw]
  rfl

/-! ## What leaves the channels alone -/

@[simp] theorem recordEvent_mc (d : Dev) (c st r : Nat) : (recordEvent d c st r).mc = d.mc := by rw [recordEvent_frame]

@[simp] theorem workLess_mc (d : Dev) (r : Ring) : (workLess d r).mc = d.mc := by rw [workLess_frame]

theorem recordErrAt_frame (d : Dev) (r ra : Reg) (i v a : Nat) : recordErrAt d r ra i v a = { d with regs := (recordErrAt d r ra i v a).regs } := by
  unfold recordErrAt
  split
  · rfl
  · rw [recordErr_frame]; rfl

@[simp] theorem juncErrOf_mc (d : Dev) (reason : Nat) (src : Option JobSrc) (e a : Nat) : (juncErrOf d reason src e a).mc = d.mc := by
  unfold juncErrOf
  rw [recordErrAt_frame]

@[simp] theorem jFail_mc (d : Dev) (p : JProg) (status result : Nat) : (jFail d p status result).mc = d.mc := by
  unfold jFail
  dsimp only
  split
  · rw [workLess_mc, recordEvent_mc]; rfl
  · rfl

@[simp] theorem jFault_mc (d : Dev) (p : JProg) (reason a : Nat) : (jFault d p reason a).mc = d.mc := by
  rw [jFault, jFail_mc, juncErrOf_mc]

@[simp] theorem jAskDev_mc (d : Dev) (p : JProg) : (jAsk.askDev d p).mc = d.mc := by
  unfold jAsk.askDev
  dsimp only
  split <;> rfl

/-- Asking for a program's next line leaves the channels. -/
@[simp] theorem jAsk_mc (d : Dev) (p : JProg) : (jAsk d p).mc = d.mc := by
  unfold jAsk
  split
  · split
    · dsimp only
      split
      · exact jFault_mc ..
      · rfl
    · split
      · rfl
      · exact jAskDev_mc d p
  · exact jAskDev_mc d p

/-! ## Results and lines of programs (R284 to R287) -/

@[simp] theorem hostWrite_mc (d : Dev) (p a : Nat) (bs : List Byte) : (hostWrite d p a bs).mc = d.mc := by rw [hostWrite_frame]

theorem length_nativeLine (seq : Nat) (es : List (Nat × Bool)) : (nativeLine seq es).length = 64 := by
  rw [nativeLine, List.length_append, length_sliceB, length_toLE]

theorem devWriteFor_line_held (d : Dev) (c : Option Nat) (a : Nat) {bs : List Byte} (h : bs.length = 64) : HeldWithin 3 d (devWriteFor c d a bs).1 :=
  (HeldWithin.of_step (devWriteFor_step d c a bs) rfl).mono (by omega)

/-- A result line puts at most three writes into the channels. -/
theorem jWriteLine_held (d : Dev) (p : JProg) : HeldWithin 3 d (jWriteLine d p) := by
  have hset {e : Dev} (q : JProg) (h : HeldWithin 3 d e) : HeldWithin 3 d (setJProg e q) := ⟨h.held⟩
  unfold jWriteLine
  dsimp only
  split
  · split
    · exact (HeldWithin.of_mc (jFault_mc ..)).mono (by omega)
    · refine HeldWithin.trans (w := 3) (w' := 0) (hset _ ?_) (.of_mc (jAsk_mc ..))
      split
      · exact (HeldWithin.of_mc (hostWrite_mc ..)).mono (by omega)
      · exact devWriteFor_line_held _ _ _ (length_nativeLine ..)
  · exact (HeldWithin.of_mc rfl).mono (by omega)

theorem jAnswer_held (d : Dev) (p : JProg) (idx : Nat) (r : JResult) : HeldWithin 3 d (jAnswer d p idx r) := by
  unfold jAnswer
  dsimp only
  refine HeldWithin.trans (w := 0) (.of_mc ?_) (jWriteLine_held ..)
  rfl

theorem jTakeKeys_held (d : Dev) (p : JProg) (bs : List Byte) : HeldWithin 3 d (jTakeKeys d p bs) := by
  unfold jTakeKeys
  dsimp only
  refine HeldWithin.trans (w := 0) (.of_mc ?_) (jWriteLine_held ..)
  rfl

theorem jTakeRecord_held (d : Dev) (p : JProg) (bs : List Byte) : HeldWithin 0 d (jTakeRecord d p bs) := by
  unfold jTakeRecord
  dsimp only
  split
  · exact .of_mc (jAsk_mc ..)
  · exact .of_mc rfl

/-- What a line gives a program: its record, or its keys. -/
def jTake (p : JProg) (d : Dev) (bs : List Byte) : Dev := if p.upd then jTakeRecord d p bs else jTakeKeys d p bs

theorem jTake_held (p : JProg) (d : Dev) (bs : List Byte) : HeldWithin 3 d (jTake p d bs) := by
  unfold jTake
  split
  · exact (jTakeRecord_held ..).mono (by omega)
  · exact jTakeKeys_held ..

/-- A unit that gets its lines has put nothing into the channels. -/
theorem fetchLines_got_held {d e : Dev} {own : GOwner} {req port : Nat} {consist : Option Nat} {spans : List (Nat × Nat)} {bs : List Byte}
    (h : fetchLines d own req port consist spans = .got e bs) : HeldWithin 0 d e := by
  unfold fetchLines at h
  dsimp only at h
  split at h
  · cases h
  · split at h
    · cases h
    · split at h
      · cases h
      · cases h
        have hy := MemStep.foldl (d := dropReqs d (fun o => decide (o = own))) spans fun e x _ => yardTouch_step e x.1 x.2
        have h0 : HeldWithin 0 d (dropReqs d (fun o => decide (o = own))) := .of_mc rfl
        exact (h0.trans (.of_step hy rfl)).mono (by omega)

end Sys2Proof.Machine
end

section
namespace Sys2Proof.Machine

/-! ## The arms of the Junction -/

theorem exec_junctionRingCapture (s : State) : exec .junctionRingCapture s = onDev s junctionRingCapture := rfl
theorem exec_junctionQueueEntry (s : State) : exec .junctionQueueEntry s = onDev s junctionQueueEntry := rfl
theorem exec_junctionProgramStart (s : State) : exec .junctionProgramStart s = onDevTx s junctionProgramStart := rfl
theorem exec_junctionLineArrival (i : Nat) (s : State) : exec (.junctionLineArrival i) s = onUnitTx s (junctionLineArrival i) := rfl
theorem exec_junctionSlot (s : State) : exec .junctionSlot s = onDevTx s junctionSlot := rfl
theorem exec_junctionSearchResult (i : Nat) (s : State) : exec (.junctionSearchResult i) s = onUnitTx s (junctionSearchResult i) := rfl
theorem exec_junctionProgramComplete (i : Nat) (s : State) : exec (.junctionProgramComplete i) s = onDevTx s (junctionProgramComplete i) := rfl

@[simp] theorem pump_junc (d : Dev) : (pump d).junc = d.junc := by rw [pump_frame]

/-! ## Rings, the program queue and starts (R288, R289, R292, R293) -/

section
variable {d : Dev}

theorem junctionRingCapture_captures {r : Ring} (hu : juncUp d = true) (hn : nextRing d.junc.arriving = some r) (hd : dropReason d r = 0) :
    junctionRingCapture d = { d with junc := { d.junc with arriving := d.junc.arriving.erase r, rings := d.junc.rings ++ [r] } } := by
  simp only [junctionRingCapture, hn, hu, if_true, hd]

theorem junctionQueueEntry_command {id : Nat} {ids : List Nat} {c : Cmd} (hu : juncUp d = true) (hq : d.junc.queue.length < 64)
    (hc : d.junc.cmds = id :: ids) (ho : cmdOf d id = some c) :
    junctionQueueEntry d = { d with junc := { d.junc with
      cmds := ids, queue := d.junc.queue ++ [cmdProg c d.junc.nextNum], nextNum := d.junc.nextNum + 1 } } := by
  unfold junctionQueueEntry
  dsimp only
  rw [if_pos ⟨hu, hq⟩, hc]
  dsimp only
  rw [ho]

theorem junctionQueueEntry_ring {r : Ring} {line : Nat} (hl : line = storeBase r.core + 64 * r.line) (hu : juncUp d = true)
    (hq : d.junc.queue.length < 64) (hc : d.junc.cmds = []) (hr : d.junc.rings = [r]) (ha : allOn d (needDoms d line) = true)
    (hm : memUp d line = true) (hb : firstBadLine d line 64 = none) :
    junctionQueueEntry d = { d with junc := { d.junc with
      rings := [], queue := d.junc.queue ++ [ringProg d r d.junc.nextNum], nextNum := d.junc.nextNum + 1 } } := by
  subst hl
  have hlow : lowestCoreRing [r] = some r := by simp [lowestCoreRing]
  have herase : [r].erase r = [] := by simp
  unfold junctionQueueEntry
  dsimp only
  rw [if_pos ⟨hu, hq⟩, hc, hr]
  dsimp only
  rw [hlow]
  dsimp only
  rw [whenUp_up ha hm, hb, herase]

theorem junctionProgramStart_starts {p : JProg} (hu : juncUp d = true) (ha : d.junc.active.length < 8) (hw : wagonStalled d .junction = false)
    (hf : d.junc.queue.find? (freeToStart d) = some p) :
    junctionProgramStart d = jAsk { d with junc := { d.junc with
      queue := d.junc.queue.filter (fun q => decide (q.num ≠ p.num)), active := d.junc.active ++ [withTable d p] } } (withTable d p) := by
  unfold junctionProgramStart
  rw [if_pos ⟨hu, ha, by rw [hw]; rfl⟩, hf]

/-! ## Lines (R284, R286, R287) -/

/-- A line of device memory that its slice has served is taken. -/
theorem junctionLineArrival_served {i : Nat} {p : JProg} {e : Dev} {bs : List Byte} (hu : juncUp d = true) (hp : d.junc.active[i]? = some p)
    (hr : jReadyForLine d p = true) (hs : p.srcHost = false) (ho : jOut d p false (jLine p p.src_ (jNextLine p)) 64 = none)
    (ha : allOn d (needDoms d (jLine p p.src_ (jNextLine p))) = true) (hm : memUp d (jLine p p.src_ (jNextLine p)) = true)
    (hf : fetchLines d (.junc p.num) 48 p.port (jConsist p) [(jLine p p.src_ (jNextLine p), 64)] = .got e bs) :
    junctionLineArrival i d = jTake p e bs := by
  have hi : issuedOr d (.junc p.num) none = none := ite_self none
  unfold junctionLineArrival
  rw [hp]
  dsimp only
  rw [if_pos ⟨hu, hr⟩, hs, if_neg Bool.false_ne_true, ho, hi]
  dsimp only
  rw [whenUp_up ha hm, hf]
  rfl

/-- A line of host memory that has returned is taken. -/
theorem junctionLineArrival_returned {i : Nat} {p : JProg} {r : HostRead} {rs : List HostRead} (hu : juncUp d = true)
    (hp : d.junc.active[i]? = some p) (hr : jReadyForLine d p = true) (hs : p.srcHost = true) (hrs : readsOf d (jReads p) = r :: rs)
    (hd : r.st = .done) : junctionLineArrival i d = jTake p (dropReads d (jReads p)) r.got := by
  unfold junctionLineArrival
  rw [hp]
  dsimp only
  rw [if_pos ⟨hu, hr⟩, hs, if_pos rfl, hrs]
  dsimp only
  rw [if_pos hd]
  rfl

/-! ## Search results (R281, R294, R296) -/

section
variable {i : Nat} {f : JFlight} {p : JProg} (hu : juncUp d = true) (hf : d.junc.flights[i]? = some f)
  (hp : d.junc.active.find? (fun p => decide (p.num = f.prog)) = some p)
include hu hf hp

/-- A search that counts answers with its count. -/
theorem junctionSearchResult_counts (hc : p.counts = true) : junctionSearchResult i d =
    jAnswer { d with junc := { d.junc with flights := d.junc.flights.eraseIdx i } } p f.idx (if f.matches_ = 0 then .miss else .count f.matches_) := by
  simp only [junctionSearchResult, hf, hp, hu, hc, if_true]

theorem junctionSearchResult_misses (hc : p.counts = false) (hw : f.winner = none) : junctionSearchResult i d =
    jAnswer { d with junc := { d.junc with flights := d.junc.flights.eraseIdx i } } p f.idx .miss := by
  simp [junctionSearchResult, hf, hp, hu, hc, hw]

/-- A winner whose copy agrees with what its slot saw is the answer. -/
theorem junctionSearchResult_hits {e : Nat} {seen : JEntry} (hc : p.counts = false) (hw : f.winner = some (e, seen)) (hb : e ∉ d.junc.badCopy)
    (hh : entryHit p.global p.gmask f.key f.copy = true) (hs : sameFields f.copy seen = true) : junctionSearchResult i d =
    jAnswer { d with junc := { d.junc with flights := d.junc.flights.eraseIdx i } } p f.idx (.hit (e - p.base) f.copy.prio f.copy.payload) := by
  simp [junctionSearchResult, hf, hp, hu, hc, hw, hb, hh, hs]

/-- One whose copy does not agree is counted and goes to its repair, the first time. -/
theorem junctionSearchResult_repairs {e : Nat} {seen : JEntry} (hc : p.counts = false) (hw : f.winner = some (e, seen)) (hb : e ∉ d.junc.badCopy)
    (hn : entryHit p.global p.gmask f.key f.copy = false ∨ sameFields f.copy seen = false) (ha : f.again = false) : junctionSearchResult i d =
    bump { d with junc := { d.junc with
      flights := d.junc.flights.eraseIdx i, fixes := d.junc.fixes ++ [(e, { f with again := true })] } } .juncCnt 3 := by
  have hno : ¬(entryHit p.global p.gmask f.key f.copy = true ∧ sameFields f.copy seen = true) := fun ⟨h1, h2⟩ => by
    rcases hn with h | h
    · rw [h1] at h; cases h
    · rw [h2] at h; cases h
  simp [junctionSearchResult, hf, hp, hu, hc, hw, hb, hno, ha]

end

/-! ## Slots (R294, R295) -/

/-- The slot of one more bank goes to an update, or stays free. -/
def updateStep (a : Dev × List Nat) (b : Nat) : Dev × List Nat :=
  let x := serveUpdate a.1 b
  (x.1, if x.2 then a.2 else a.2 ++ [b])

/-- What the slots of a window serve where no repair waits: the updates of the banks, then the searches. -/
def slotsServed (d : Dev) : Dev :=
  let u := [0, 1, 2, 3].foldl updateStep (d, [])
  serveSearches (waitingSearches u.1) u.1 u.2

/-- The device within a window of slots, with the share of updates and what each bank has had of it. -/
def slotWindow (d : Dev) (sh : Nat) (up : List Nat) : Dev := { d with junc := { d.junc with share := sh, updates := up } }

/-- The slot of a cc passes. -/
def slotPasses (u : Dev) (again : List JFlight) : Dev :=
  { u with junc := { u.junc with slotNo := u.junc.slotNo + 1, retries := u.junc.retries ++ again } }

theorem rd_slotPasses (u : Dev) (again : List JFlight) (r : Reg) (i : Nat) : rd (slotPasses u again) r i = rd u r i := rfl

/-- A slot without scrub and repairs serves updates and searches, with the shares of its window, and passes. -/
theorem junctionSlot_serves (hu : juncUp d = true) (hs : scrubDue d = false) (hf : d.junc.fixes = []) : ∃ sh up,
    junctionSlot d = slotPasses (slotsServed (slotWindow d sh up)) [] := by
  unfold junctionSlot
  rw [if_pos hu]
  extract_lets share j e due next d1 j1 r u d2 j2
  have he : ∃ sh up, e = slotWindow d sh up := by
    by_cases h8 : d.junc.slotNo % 8 = 0
    · exact ⟨share, [0, 0, 0, 0], if_pos h8⟩
    · exact ⟨d.junc.share, d.junc.updates, if_neg h8⟩
  obtain ⟨sh, up, he⟩ := he
  have hdue : ¬due = true := fun h => by
    have h' : scrubDue e = true := h
    rw [he, show scrubDue (slotWindow d sh up) = scrubDue d from rfl, hs] at h'
    cases h'
  have hr : r = (e, [0, 1, 2, 3], []) := by
    change serveFixes e.junc.fixes e [0, 1, 2, 3] [] = _
    rw [he, show (slotWindow d sh up).junc.fixes = [] from hf]
    rfl
  refine ⟨sh, up, ?_⟩
  clear_value r
  subst hr
  have hserved : d2 = slotsServed e := rfl
  rw [if_neg hdue, ← he, ← hserved]
  clear_value d2
  rfl

end

section
variable {d : Dev} {p : JProg}

/-- Where no record waits, every bank's slot stays free. -/
theorem updates_none (h : ∀ b, bankUpdate d b = none) (l free : List Nat) : l.foldl updateStep (d, free) = (d, free ++ l) := by
  have hn (b : Nat) : serveUpdate d b = (d, false) := by rw [serveUpdate, h]
  induction l generalizing free with
  | nil => rw [List.append_nil]; rfl
  | cons b l ih =>
    have hstep : updateStep (d, free) b = (d, free ++ [b]) := by simp [updateStep, hn]
    rw [List.foldl_cons, hstep, ih, List.append_assoc, List.singleton_append]

/-- One record that waits is written in the slot of its bank. -/
theorem updates_one {e : Dev} {b0 : Nat} (h : ∀ b, b ≠ b0 → bankUpdate d b = none) (hs : serveUpdate d b0 = (e, true))
    (he : ∀ b, bankUpdate e b = none) {l : List Nat} (hb : b0 ∈ l) (free : List Nat) : (l.foldl updateStep (d, free)).1 = e := by
  induction l generalizing free with
  | nil => cases hb
  | cons b l ih =>
    rw [List.foldl_cons]
    by_cases hbb : b = b0
    · have hstep : updateStep (d, free) b = (e, free) := by simp [updateStep, hbb, hs]
      rw [hstep, updates_none he]
    · have hstep : updateStep (d, free) b = (d, free ++ [b]) := by simp [updateStep, serveUpdate, h b hbb]
      rw [hstep]
      exact ih ((List.mem_cons.mp hb).resolve_left (Ne.symm hbb)) _

/-- Without a record, a bank has no update. -/
theorem bankUpdate_none (ha : d.junc.active = [p]) (hr : p.record = none) (b : Nat) : bankUpdate d b = none := by
  simp [bankUpdate, ha, hr]

/-- A record waits for the slot of its entry's bank. -/
theorem bankUpdate_record {op e : Nat} {v : JEntry} (ha : d.junc.active = [p]) (hr : p.record = some (op, e, v)) (b : Nat) :
    bankUpdate d b = if e / 16384 = b then some p else none := by
  simp only [bankUpdate, ha, List.find?_cons, hr, List.find?_nil]
  by_cases h : e / 16384 = b
  · simp [h]
  · simp [h]

theorem waitingSearches_none (ha : d.junc.active = [p]) (hr : d.junc.retries = []) (hk : p.keys = []) : waitingSearches d = [] := by
  simp [waitingSearches, ha, hr, hk, bySince]

/-- The only program's first key is the only search that waits, where none is searched again. -/
theorem waitingSearches_key {k : JKey} {ks : List JKey} (ha : d.junc.active = [p]) (hr : d.junc.retries = []) (hk : p.keys = k :: ks) :
    waitingSearches d = [(p, { prog := p.num, idx := k.idx, key := k.key.getD 0 })] := by
  simp [waitingSearches, ha, hr, hk, bySince]

theorem setJProg_active {q : JProg} (ha : d.junc.active = [p]) (hn : q.num = p.num) : (setJProg d q).junc.active = [q] := by
  simp [setJProg, ha, hn]

/-- A program of device memory asks the slices alone. -/
theorem jAsk_device (h : p.srcHost = false) : ∃ rs, jAsk d p = { d with cache := { d.cache with reqs := rs } } := by
  have hdev : ∃ rs, jAsk.askDev d p = { d with cache := { d.cache with reqs := rs } } := by
    unfold jAsk.askDev
    dsimp only
    split
    · exact ⟨_, rfl⟩
    · exact ⟨d.cache.reqs, rfl⟩
  unfold jAsk
  split
  · rw [if_neg (by simp [h]), if_neg (by simp [h])]; exact hdev
  · exact hdev

/-- What an update slot leaves: the entry and its copy hold the record, and the program has counted it and asked for its next line. -/
structure UpdateServed (d t : Dev) (p : JProg) (e : Nat) (v : JEntry) : Prop where
  array : mget {} t.junc.array e = v
  copy : mget {} t.junc.copy e = v
  slotNo : t.junc.slotNo = d.junc.slotNo
  active : t.junc.active = [{ p with record := none, tally := p.tally + 1 }]
  retries : t.junc.retries = d.junc.retries
  count : rd t .juncCnt 2 = satAdd (rd d .juncCnt 2) 1

/-- What the program asks for then changes none of it. -/
theorem UpdateServed.jAsk {t : Dev} {e : Nat} {v : JEntry} {q : JProg} (h : UpdateServed d t p e v) (hq : q.srcHost = false) :
    UpdateServed d (jAsk t q) p e v := by
  obtain ⟨rs, hask⟩ := jAsk_device (d := t) hq
  rw [hask]
  exact ⟨h.array, h.copy, h.slotNo, h.active, h.retries, h.count⟩

/-- With no search waiting, the only program's record is written in its bank's slot (R286, R294, R295). -/
theorem serveUpdate_record {e : Nat} {v : JEntry} (ha : d.junc.active = [p]) (hr : p.record = some (0, e, v)) (hk : p.keys = [])
    (hret : d.junc.retries = []) (hs : p.srcHost = false) : ∃ t, serveUpdate d (e / 16384) = (t, true) ∧ UpdateServed d t p e v := by
  have hw : searchWaits d (e / 16384) = false := by simp [searchWaits, waitingSearches_none ha hret hk]
  have hset : (setJProg (putEntry d e v) { p with record := none, tally := p.tally + 1 }).junc.active = [{ p with record := none, tally := p.tally + 1 }] :=
    setJProg_active ha rfl
  have hb := bankUpdate_record ha hr (e / 16384)
  rw [if_pos rfl] at hb
  unfold serveUpdate
  simp only [hb, hw, hr, Bool.not_false, true_or, if_true, applyRecord]
  refine ⟨_, rfl, UpdateServed.jAsk ?_ hs⟩
  exact {
    array := mget_mset_self ..
    copy := mget_mset_self ..
    slotNo := rfl
    active := hset
    retries := rfl
    count := (rd_bumpN_ne _ _ (key_ne_of_index _ (by omega))).trans (rd_bumpN_self ..) }

theorem slotsServed_update {e : Nat} {v : JEntry} (ha : d.junc.active = [p]) (hr : p.record = some (0, e, v)) (he : e < 65536) (hk : p.keys = [])
    (hret : d.junc.retries = []) (hs : p.srcHost = false) : UpdateServed d (slotsServed d) p e v := by
  obtain ⟨t, ht, hu⟩ := serveUpdate_record ha hr hk hret hs
  have hother (b : Nat) (hb : b ≠ e / 16384) : bankUpdate d b = none := (bankUpdate_record ha hr b).trans (if_neg (Ne.symm hb))
  have hbank : e / 16384 ∈ [0, 1, 2, 3] := by
    have h4 : e / 16384 < 4 := by omega
    exact (show ∀ b, b < 4 → b ∈ [0, 1, 2, 3] by decide) _ h4
  have hfold : ([0, 1, 2, 3].foldl updateStep (d, [])).1 = t := updates_one hother ht (bankUpdate_none hu.active rfl) hbank []
  have hserved : slotsServed d = t := by
    unfold slotsServed
    dsimp only
    rw [hfold, waitingSearches_none hu.active (hu.retries.trans hret) hk]
    rfl
  rw [hserved]
  exact hu

/-- The only search that waits has the slots of its banks, where no record waits (R294, R295). -/
theorem slotsServed_search {k : JKey} {ks : List JKey} {key : Nat} (ha : d.junc.active = [p]) (hr : p.record = none) (hk : p.keys = k :: ks)
    (hkey : k.key = some key) (hret : d.junc.retries = []) :
    slotsServed d = issueSearch d p { prog := p.num, idx := k.idx, key := key } := by
  have hbanks : (tableBanks p).all (fun b => [0, 1, 2, 3].contains b) = true := by
    refine List.all_eq_true.mpr fun b hb => ?_
    have h4 : b < 4 := List.mem_range.mp (List.mem_filter.mp hb).1
    exact (show ∀ b, b < 4 → [0, 1, 2, 3].contains b = true by decide) b h4
  unfold slotsServed
  dsimp only
  rw [updates_none (bankUpdate_none ha hr), waitingSearches_key ha hret hk, hkey]
  dsimp only [List.nil_append, serveSearches, Option.getD_some]
  rw [if_pos hbanks]

/-- A search takes the array's winner and that entry's copy as the slot sees them, and the program goes on to its next key (R281, R294, R302). -/
theorem issueSearch_first {k : JKey} {ks : List JKey} {key : Nat} (ha : d.junc.active = [p]) (hk : p.keys = k :: ks) (hret : d.junc.retries = [])
    (hc : p.counts = false) : ∃ e, issueSearch d p { prog := p.num, idx := k.idx, key := key } = bump e .juncCnt 0 ∧ e.regs = d.regs ∧
      e.junc.slotNo = d.junc.slotNo ∧ e.junc.active = [{ p with keys := ks }] ∧
      e.junc.flights = d.junc.flights ++ [{ prog := p.num, idx := k.idx, key := key, winner := winnerOf (matchesOf d p key), matches_ := 0
                                            copy := match winnerOf (matchesOf d p key) with | some w => mget {} d.junc.copy w.1 | none => {} }] := by
  unfold issueSearch
  simp only [hret, hc, hk, List.contains_nil, Bool.false_eq_true, if_false, List.drop_succ_cons, List.drop_zero]
  refine ⟨_, rfl, rfl, rfl, setJProg_active ha rfl, ?_⟩
  cases winnerOf (matchesOf d p key) with
  | none => rfl
  | some w => rfl

end

/-! ## The end of a program (R287, R292) -/

section
variable {d : Dev} {i : Nat} {p : JProg}

theorem junctionProgramComplete_command {id : Nat} (hu : juncUp d = true) (hp : d.junc.active[i]? = some p) (hn : p.count ≤ p.next)
    (hr : jReadyForLine d { p with count := p.next + 1 } = true) (hs : p.src = .cmd id) :
    junctionProgramComplete i d = finish (dropJProg d p) id 0 (if p.upd then p.tally % 2 ^ 17 else p.done % 2 ^ 40) := by
  unfold junctionProgramComplete
  rw [hp]
  dsimp only
  rw [if_pos ⟨hu, hn, hr⟩, hs]

theorem firstBadLine_none (h : d.badUnits = []) (a n : Nat) : firstBadLine d a n = none := by
  simp [firstBadLine, badIn, rawBadIn, h, lowLine]

/-- The line of a finished kernel program holds TALLY, then DONE, and its Wagon is offered. -/
theorem junctionProgramComplete_ring {r : Ring} {line : Nat} (hl : line = storeBase r.core + 64 * r.line) (hu : juncUp d = true)
    (hp : d.junc.active[i]? = some p) (hn : p.count ≤ p.next) (hr : jReadyForLine d { p with count := p.next + 1 } = true) (hs : p.src = .ring r)
    (ha : allOn d (needDoms d line) = true) (hm : PlainMemory d) : ∃ disp cs, junctionProgramComplete i d =
      { memWrite (memWrite (dropJProg d p) (line + 55) (toLE 5 p.tally)) (line + 50) (toLE 5 1) with disp := disp, consists := cs } := by
  subst hl
  have hchip := storeBase_chip r.core
  have hup : memUp d (storeBase r.core + 64 * r.line) = true := if_neg (by omega)
  have h0 : PlainMemory (dropJProg d p) := ⟨hm.sets, hm.stale, hm.badUnits⟩
  have h1 := h0.memWrite (storeBase r.core + 64 * r.line + 55) (toLE 5 p.tally)
  unfold junctionProgramComplete
  rw [hp]
  dsimp only
  rw [if_pos ⟨hu, hn, hr⟩, hs]
  dsimp only
  rw [whenUp_up ha hup, firstBadLine_none hm.badUnits]
  dsimp only
  rw [h0.unitWrite_store _ (by omega), h1.unitWrite_store _ (by omega), workLess_frame]
  split
  · exact ⟨_, _, rfl⟩
  · exact ⟨_, _, rfl⟩

theorem memNat_pump (a n : Nat) : memNat (pump d) a n = memNat d a n := by rw [pump_frame]; rfl

end

theorem jAnswer_flight_held (d : Dev) (i : Nat) (p : JProg) (idx : Nat) (r : JResult) :
    HeldWithin 3 d (jAnswer { d with junc := { d.junc with flights := d.junc.flights.eraseIdx i } } p idx r) := ⟨(jAnswer_held ..).held⟩

/-- Settles O52, row by row; a unit's row that puts at most a result line into free queues need not wait. -/
theorem junctionRows : Obligations.JunctionRows := by
  intro s d j
  refine ⟨fun r hu hn hd => ?_, fun id ids c hu hq hc ho => ?_, fun r line hl hu hq hc hr ha hm hb => ?_, fun p hu ha hw hf => ?_,
    fun i p hu hp hr hq => ⟨fun e bs hs ho ha hm hf => ?_, fun r rs hs hrs hd => ?_⟩, fun p e v hu hs hf hret ha hk hsrc hr he => ?_,
    fun p k ks key hu hs hf hret ha hk hkey hr hc => ?_, fun i f p hu hf hp hq hc => ?_,
    fun i f p hu hf hp hq hc => ⟨fun hw => ?_, fun e seen hw hb => ⟨fun hh hs => ?_, fun hn ha => ?_⟩⟩, fun i p id hu hp hn hr hs => ?_,
    fun i p r line hl hu hp hn hr hs ha hbad hstale hsets => ?_⟩
  · exact makes_of_onDev (exec_junctionRingCapture s) (junctionRingCapture_captures hu hn hd)
  · exact makes_of_onDev (exec_junctionQueueEntry s) (junctionQueueEntry_command hu hq hc ho)
  · exact makes_of_onDev (exec_junctionQueueEntry s) (junctionQueueEntry_ring hl hu hq hc hr ha hm hb)
  · exact makesTx_of_onDevTx (exec_junctionProgramStart s) (junctionProgramStart_starts hu ha hw hf)
  · exact makesTx_of_onUnitTx (exec_junctionLineArrival i s) (junctionLineArrival_served hu hp hr hs ho ha hm hf) hq
      ((fetchLines_got_held hf).trans (jTake_held ..)) (by omega)
  · have hdrop : HeldWithin 0 s.dev (dropReads s.dev (jReads p)) := .of_mc rfl
    exact makesTx_of_onUnitTx (exec_junctionLineArrival i s) (junctionLineArrival_returned hu hp hr hs hrs hd) hq
      (hdrop.trans (jTake_held ..)) (by omega)
  · obtain ⟨sh, up, hslot⟩ := junctionSlot_serves hu hs hf
    have hserved := slotsServed_update (d := slotWindow s.dev sh up) ha hr he hk hret hsrc
    refine ⟨_, exec_junctionSlot s, ?_⟩
    dsimp only
    rw [pump_junc, rd_congr (pump_regs _), hslot, rd_slotPasses]
    generalize slotsServed (slotWindow s.dev sh up) = u at hserved
    exact ⟨hserved.array, hserved.copy, congrArg (· + 1) hserved.slotNo, hserved.active, hserved.count⟩
  · obtain ⟨sh, up, hslot⟩ := junctionSlot_serves hu hs hf
    obtain ⟨e, hissue, hregs, hno, hact, hfl⟩ := issueSearch_first (d := slotWindow s.dev sh up) (key := key) ha hk hret hc
    refine ⟨_, exec_junctionSlot s, ?_⟩
    dsimp only
    rw [pump_junc, rd_congr (pump_regs _), hslot, rd_slotPasses, slotsServed_search (d := slotWindow s.dev sh up) ha hr hk hkey hret, hissue]
    exact ⟨congrArg (· + 1) hno, hact, hfl, (rd_bumpN_self ..).trans (by rw [rd_congr hregs]; rfl)⟩
  · exact makesTx_of_onUnitTx (exec_junctionSearchResult i s) (junctionSearchResult_counts hu hf hp hc) hq
      (jAnswer_flight_held ..) (by omega)
  · exact makesTx_of_onUnitTx (exec_junctionSearchResult i s) (junctionSearchResult_misses hu hf hp hc hw) hq
      (jAnswer_flight_held ..) (by omega)
  · exact makesTx_of_onUnitTx (exec_junctionSearchResult i s) (junctionSearchResult_hits hu hf hp hc hw hb hh hs) hq
      (jAnswer_flight_held ..) (by omega)
  · exact makesTx_of_onUnitTx (exec_junctionSearchResult i s) (junctionSearchResult_repairs hu hf hp hc hw hb hn ha) hq (.of_mc rfl) (Nat.zero_le 32)
  · exact makesTx_of_onDevTx (exec_junctionProgramComplete i s) (junctionProgramComplete_command hu hp hn hr hs)
  · have hm : PlainMemory s.dev := ⟨hsets, hstale, hbad⟩
    obtain ⟨disp, cs, hdone⟩ := junctionProgramComplete_ring hl hu hp hn hr hs ha hm
    have h0 : PlainMemory (dropJProg s.dev p) := ⟨hm.sets, hm.stale, hm.badUnits⟩
    have h1 := h0.memWrite (line + 55) (toLE 5 p.tally)
    have htally := (h1.memNat_memWrite_above (bs := toLE 5 1) (a := line + 50) (b := line + 55) 5 (by rw [length_toLE])).trans (h0.memNat_memWrite_self _ _ _)
    refine ⟨_, exec_junctionProgramComplete i s, ?_⟩
    dsimp only
    rw [memNat_pump, memNat_pump, pump_junc, hdone]
    exact ⟨htally, h1.memNat_memWrite_self _ _ _, rfl⟩

end Sys2Proof.Machine
end

section
namespace Sys2Proof.Machine

/-! ## What reads of canonical memory find (R337) -/

/-- A run of cells by rising keys gives the bytes that a lookup gives. -/
theorem readRun_eq_mget (n a : Nat) {m : List Host.Cell} (hs : m.Pairwise (fun x y => x.1 < y.1)) (h : ∀ e ∈ m.head?, a ≤ e.1) :
    readRun n a m = (List.range n).map (fun k => mget 0 m (a + k)) := by
  induction n generalizing a m with
  | zero => rfl
  | succ n ih =>
    have hsucc : (List.range (n + 1)).map (fun k => mget 0 m (a + k)) = mget 0 m a :: (List.range n).map (fun k => mget 0 m (a + 1 + k)) := by
      rw [List.range_succ_eq_map, List.map_cons, List.map_map]
      refine congrArg (mget 0 m a :: ·) (List.map_congr_left fun k _ => ?_)
      rw [Function.comp_apply, Nat.succ_eq_add_one, Nat.add_assoc, Nat.add_comm 1 k]
    rw [hsucc]
    cases m with
    | nil => rw [readRun, ih (a + 1) .nil (by simp)]; rfl
    | cons e m =>
      obtain ⟨k, v⟩ := e
      obtain ⟨hlt, hs'⟩ := List.pairwise_cons.mp hs
      have hk : a ≤ k := h (k, v) rfl
      by_cases hka : k = a
      · subst hka
        have hm : ∀ e ∈ m.head?, k + 1 ≤ e.1 := fun e he => hlt e (List.mem_of_mem_head? he)
        rw [readRun, if_pos rfl, ih (k + 1) hs' hm, mget, if_pos rfl]
        refine congrArg (v :: ·) (List.map_congr_left fun j _ => ?_)
        rw [mget, if_neg (by omega), if_neg (by omega)]
      · have hm : ∀ e ∈ ((k, v) :: m).head?, a + 1 ≤ e.1 := fun e he => by
          obtain rfl : (k, v) = e := Option.some.inj he
          simp only
          omega
        have hz : mget 0 ((k, v) :: m) a = 0 := by rw [mget, if_neg (Ne.symm hka), if_pos (by omega)]
        rw [readRun, if_neg hka, ih (a + 1) hs hm, hz]

/-- In canonical memory a read gives the bytes at its addresses. -/
theorem memRead_eq {d : Dev} (h : Memory.wf d.mem = true) (a n : Nat) : memRead d a n = (List.range n).map (fun k => memByte d (a + k)) := by
  unfold memRead
  split
  · next he =>
    have hp := ((mwf_iff _ _).mp h).1
    rw [rawRead, readRun_eq_mget n a (hp.sublist (List.dropWhile_sublist _)) (head_dropWhile_ge d.mem a)]
    refine List.map_congr_left fun k _ => ?_
    rw [memByte, if_pos he, rawByte, mget_dropWhile 0 d.mem (Nat.le_add_right a k)]
  · rfl

/-! ## Memory without errors -/

/-- No way of the cache and no unit of memory is in error, and memory is canonical. -/
structure SoundMemory (d : Dev) : Prop where
  cache : CacheSound d
  units : d.badUnits = []
  wf : Memory.wf d.mem = true

/-- What a step leaves of memory and of the cache's error marks. -/
structure BytesKept (d e : Dev) : Prop where
  mem : e.mem = d.mem
  stale : e.cache.stale = d.cache.stale
  units : e.badUnits = d.badUnits
  sound : CacheSound d → CacheSound e

namespace BytesKept
variable {d e f : Dev}

theorem refl : BytesKept d d := ⟨rfl, rfl, rfl, id⟩

theorem trans (h1 : BytesKept d e) (h2 : BytesKept e f) : BytesKept d f where
  mem := h2.mem.trans h1.mem
  stale := h2.stale.trans h1.stale
  units := h2.units.trans h1.units
  sound h := h2.sound (h1.sound h)

theorem memory (h : BytesKept d e) (hd : SoundMemory d) : SoundMemory e where
  cache := h.sound hd.cache
  units := h.units.trans hd.units
  wf := by rw [h.mem]; exact hd.wf

end BytesKept

theorem setOf_putSet (d : Dev) (line k : Nat) (ws : List CWay) :
    setOf (putSet d line ws) k = if cacheSetKey k = cacheSetKey line then ws else setOf d k := mget_mset ..

/-- A set replaced by ways without errors. -/
theorem putSet_kept {d : Dev} {line : Nat} {ws : List CWay} (h : CacheSound d → ∀ w ∈ ws, w.flaw = .sound) : BytesKept d (putSet d line ws) where
  mem := rfl
  stale := rfl
  units := rfl
  sound hc k w hw := by
    rw [setOf_putSet] at hw
    split at hw
    · exact h hc w hw
    · exact hc k w hw

theorem bumpN_kept (d : Dev) (r : Reg) (i n : Nat) : BytesKept d (bumpN d r i n) := ⟨rfl, rfl, rfl, id⟩

theorem modFill_kept (d : Dev) (line : Nat) (f : CFill → CFill) : BytesKept d (modFill d line f) := ⟨rfl, rfl, rfl, id⟩

theorem wayOf_mem {d : Dev} {line : Nat} {w : CWay} (h : wayOf d line = some w) : w ∈ setOf d line := List.mem_of_find?_eq_some h

theorem lookupHit_kept {d : Dev} {g : GReq} {w : CWay} (hg : 50 < g.req) (hw : w ∈ setOf d g.line) (corrected : Bool) :
    BytesKept d (lookupHit d g w corrected) := by
  have hset : BytesKept d (putSet d g.line ({ w with pf := none } :: (setOf d g.line).filter (fun x => decide (x.way ≠ w.way)))) := by
    refine putSet_kept fun hc x hx => ?_
    rcases List.mem_cons.mp hx with rfl | hx
    · exact hc g.line w hw
    · exact hc g.line x (List.mem_filter.mp hx).1
  have hb (e : Dev) (i : Nat) : BytesKept e (bump e .cacheCnt i) := bumpN_kept ..
  have h3 := (hset.trans (hb _ 0)).trans (show BytesKept _ (if corrected then bump _ .cacheCnt 6 else _) by
    split
    · exact hb ..
    · exact .refl)
  unfold lookupHit
  dsimp only
  cases hp : w.pf with
  | none => exact h3
  | some r =>
    dsimp only
    by_cases hr : r = g.req
    · rw [if_pos hr, observe_looking _ (hr ▸ hg)]; exact h3.trans (hb ..)
    · rw [if_neg hr]; exact h3.trans (hb ..)

/-- A lookup of the looking class in a cache without errors changes no byte. -/
theorem lookLine_kept {d : Dev} (hc : CacheSound d) {req : Nat} (hr : 50 < req) (l : Nat) : BytesKept d (lookLine req d (64 * l)) := by
  unfold lookLine
  split
  · dsimp only
    rw [meetErrors_sound d (64 * l) true (hc _)]
    have hb := bumpN_kept d .cacheCnt 1 1
    split
    · next w hw =>
      have hline : ({ req := req, addr := 64 * l, len := 64 } : GReq).line = 64 * l := Nat.div_mul_cancel (Nat.dvd_mul_right 64 l)
      exact lookupHit_kept hr (by rw [hline]; exact wayOf_mem hw) false
    · split
      · exact hb.trans (modFill_kept ..)
      · exact hb.trans ⟨rfl, rfl, rfl, id⟩
  · exact ⟨rfl, rfl, rfl, id⟩

theorem lookFold_kept {req : Nat} (hr : 50 < req) (ls : List Nat) {d : Dev} (hc : CacheSound d) :
    BytesKept d (ls.foldl (fun d l => lookLine req d (64 * l)) d) := by
  induction ls generalizing d with
  | nil => exact .refl
  | cons l ls ih =>
    have h := lookLine_kept hc hr l
    exact h.trans (ih (h.sound hc))

/-- The lookups of a run change no byte. -/
theorem lookLines_kept {d : Dev} (hc : CacheSound d) {req : Nat} (hr : 50 < req) (a n : Nat) : BytesKept d (lookLines req d a n) := by
  unfold lookLines
  split
  · exact lookFold_kept hr _ hc
  · have hb (e : Dev) (u : Nat) : BytesKept e (bankAccess e u) := by
      unfold bankAccess
      dsimp only
      split <;> exact ⟨rfl, rfl, rfl, id⟩
    unfold yardTouch
    split
    · exact .refl
    · generalize List.range' _ _ = us
      induction us generalizing d with
      | nil => exact .refl
      | cons u us ih => exact (hb d u).trans (ih ((hb d u).sound hc))

/-! ## Bytes as a function of their addresses -/

/-- Bytes with the doubleword at an address replaced. -/
def putDword (m : Nat → Byte) (a v : Nat) : Nat → Byte := fun x => if a ≤ x ∧ x < a + 8 then ((toLE 8 v)[x - a]?).getD 0 else m x

/-- The doubleword at an address. -/
def dwordOf (m : Nat → Byte) (a : Nat) : Nat := ofLE ((List.range 8).map (fun k => m (a + k)))

theorem dwordOf_putDword_self (m : Nat → Byte) (a v : Nat) : dwordOf (putDword m a v) a = v % 2 ^ 64 := by
  have h : (List.range 8).map (fun k => putDword m a v (a + k)) = toLE 8 v := by
    refine List.ext_getElem (by rw [List.length_map, List.length_range, length_toLE]) fun k h1 h2 => ?_
    rw [length_toLE] at h2
    rw [List.getElem_map, List.getElem_range, putDword, if_pos (by omega), Nat.add_sub_cancel_left, List.getElem?_eq_getElem (by rw [length_toLE]; exact h2)]
    rfl
  rw [dwordOf, h, ofLE_toLE]
  norm_num

theorem dwordOf_putDword_apart (m : Nat → Byte) {a b : Nat} (v : Nat) (h : a + 8 ≤ b ∨ b + 8 ≤ a) : dwordOf (putDword m a v) b = dwordOf m b := by
  refine congrArg ofLE (List.map_congr_left fun k hk => ?_)
  have := List.mem_range.mp hk
  exact if_neg (by omega)

theorem dwordOf_lt (m : Nat → Byte) (a : Nat) : dwordOf m a < 2 ^ 64 := by
  have h (bs : List Byte) : ofLE bs < 256 ^ bs.length := by
    induction bs with
    | nil => exact Nat.one_pos
    | cons b bs ih =>
      have := b.isLt
      rw [ofLE, List.length_cons, Nat.pow_succ]
      omega
  have := h ((List.range 8).map (fun k => m (a + k)))
  rwa [List.length_map, List.length_range] at this

/-- A doubleword that is read. -/
theorem memNat_dword {d : Dev} (h : SoundMemory d) (a : Nat) : memNat d a 8 = dwordOf (memByte d) a := by
  rw [memNat, memRead_eq h.wf]; rfl

theorem BytesKept.memByte {d e : Dev} (h : BytesKept d e) (hr : rd e .cacheCtrl 0 = rd d .cacheCtrl 0) : memByte e = memByte d :=
  funext fun x => memByte_congr h.mem h.stale hr x

/-! ## Writes of doublewords (R328) -/

theorem memWrite_sound {d : Dev} (h : SoundMemory d) (a : Nat) (bs : List Byte) : SoundMemory (memWrite d a bs) where
  cache := h.cache
  units := by simp [memWrite, h.units]
  wf := putBytes_wf _ _ _ h.wf

theorem memByte_memWrite_dword (d : Dev) (a v : Nat) : memByte (memWrite d a (toLE 8 v)) = putDword (memByte d) a v := by
  funext x
  unfold putDword
  split
  · next h =>
    have hlt : x - a < (toLE 8 v).length := by rw [length_toLE]; omega
    rw [memByte_memWrite_at d h.1 (List.getElem?_eq_getElem hlt), List.getElem?_eq_getElem hlt]
    rfl
  · exact memByte_memWrite_outside d (by rw [length_toLE]; omega)

/-- What a slice does with a write that it accepts changes no byte beside those written, where the cache has no errors. -/
theorem acceptWrite_kept {d : Dev} (h : CacheSound d) (a : Nat) (bs : List Byte) (by_ : Option Nat) : BytesKept (memWrite d a bs) (acceptWrite d a bs by_) := by
  have h2 : BytesKept (memWrite d a bs) (modFill (memWrite (queueWrite d a bs.length by_) a bs) (a / 64 * 64) (fun f => { f with
      wrong := f.wrong.filter (fun e => decide (f.line + e.1 < a ∨ a + bs.length ≤ f.line + e.1)) })) := ⟨rfl, rfl, rfl, id⟩
  have hc := h2.sound h
  unfold acceptWrite
  dsimp only
  split
  · rw [meetErrors_sound _ _ _ (hc _)]
    refine h2.trans ?_
    split
    · next w hw =>
      refine (putSet_kept fun hs x hx => ?_).trans (bumpN_kept ..)
      rcases List.mem_cons.mp hx with rfl | hx
      · simp only
        split
        · rfl
        · exact hs _ w (wayOf_mem hw)
      · exact hs _ x (List.mem_filter.mp hx).1
    · exact bumpN_kept ..
  · exact h2

theorem cacheCtrl_of_step {r w : Nat} {d e : Dev} (h : MemStep r w d e) : rd e .cacheCtrl 0 = rd d .cacheCtrl 0 := h.regs _ _ (by decide) (by omega)

/-- A write of a doubleword of GDDR6 is one write of a slice. -/
theorem devWrite_dword {a : Nat} (ha : a < 0x1000000000) (hl : a % 64 + 8 ≤ 64) (d : Dev) (v : Nat) :
    (devWrite d a (toLE 8 v)).1 = acceptWrite d a (toLE 8 v) none := by
  have hparts : lineParts ((toLE 8 v).length / 64 + 2) a (toLE 8 v) = [(a, toLE 8 v)] := by
    have hne : toLE 8 v ≠ [] := List.ne_nil_of_length_pos (by rw [length_toLE]; omega)
    rw [length_toLE, lineParts, if_neg hne, List.take_of_length_le (by rw [length_toLE]; omega), List.drop_of_length_le (by rw [length_toLE]; omega),
      lineParts, if_pos rfl]
  rw [devWrite, devWriteFor, if_pos ha, hparts]
  rfl

/-! ## Walks of memory (R139, R142) -/

/-- With free queues a walk of few accesses finds room for a read and for five writes (R328). -/
theorem MemStep.room {d e : Dev} {r w : Nat} (h : MemStep r w d e) (hq : QueuesFree d) (hr : r < 16) (hw : w + 5 ≤ 32) (line : Nat) {n : Nat} (hn : n ≤ 5) :
    lookRoom e line = true ∧ roomOf e line n = true := by
  have hread : readRoom e line = true := decide_eq_true (by have := h.reads (chanOf e line) (mcBank e line); rw [(hq.1 _).2] at this; omega)
  have hfill : fillsIn e (sliceOf line) < 32 := by have := h.fills (sliceOf line); rw [hq.2] at this; omega
  have hheld : writesHeld (mcChan e (chanOf e line)) + n ≤ 32 := by have := h.writes (chanOf e line); rw [(hq.1 _).1] at this; omega
  refine ⟨?_, decide_eq_true hheld⟩
  unfold lookRoom
  split
  · simp [hfill, hread]
  · exact hread

/-- A device that reads and writes of a walk have reached: at most r reads and w writes, in memory that holds the bytes m and no error. -/
structure Walked (d : Dev) (r w : Nat) (m : Nat → Byte) (e : Dev) : Prop where
  step : MemStep r w d e
  sound : SoundMemory e
  bytes : memByte e = m

namespace Walked
variable {d e : Dev} {r w r' w' : Nat} {m : Nat → Byte}

theorem start (h : SoundMemory d) : Walked d 0 0 (memByte d) d := ⟨.refl, h, rfl⟩

theorem mono (h : Walked d r w m e) (hr : r ≤ r') (hw : w ≤ w') : Walked d r' w' m e := ⟨h.step.mono hr hw, h.sound, h.bytes⟩

theorem dword (h : Walked d r w m e) (a : Nat) : memNat e a 8 = dwordOf m a := by rw [memNat_dword h.sound, h.bytes]

/-- A lookup within one line. -/
theorem look (h : Walked d r w m e) (a n : Nat) (hl : a % 64 + n ≤ 64) : Walked d (r + 1) w m (lookLines looker e a n) := by
  have hstep := lookLines_step e (req := looker) (by decide) a n
  have hk := lookLines_kept h.sound.cache (req := looker) (by decide) a n
  exact ⟨(h.step.trans hstep).mono (by omega) (by omega), hk.memory h.sound, (hk.memByte (cacheCtrl_of_step hstep)).trans h.bytes⟩

/-- The write of a doubleword. -/
theorem write (h : Walked d r w m e) {a : Nat} (ha : a < 0x1000000000) (hl : a % 64 + 8 ≤ 64) (v : Nat) :
    Walked d r (w + 1) (putDword m a v) (devWrite e a (toLE 8 v)).1 := by
  rw [devWrite_dword ha hl]
  have hstep := acceptWrite_step e a (toLE 8 v) none
  have hk := acceptWrite_kept h.sound.cache a (toLE 8 v) none
  have hb : memByte (acceptWrite e a (toLE 8 v) none) = memByte (memWrite e a (toLE 8 v)) := hk.memByte ((cacheCtrl_of_step hstep).trans rfl)
  exact ⟨h.step.trans hstep, hk.memory (memWrite_sound h.sound ..), by rw [hb, memByte_memWrite_dword, h.bytes]⟩

theorem room (h : Walked d r w m e) (hq : QueuesFree d) (hr : r < 16) (hw : w + 5 ≤ 32) (line : Nat) {n : Nat} (hn : n ≤ 5) :
    lookRoom e line = true ∧ roomOf e line n = true := h.step.room hq hr hw line hn

theorem firstBadLine (h : Walked d r w m e) (a n : Nat) : Machine.firstBadLine e a n = none :=
  firstBadLine_none h.sound.units a n

end Walked

end Sys2Proof.Machine
end

section
namespace Sys2Proof.Machine

/-! ## The address map and the table directory (R16, R135, R372) -/

theorem regionOf_gddr {d : Dev} {a : Nat} (h : regionOf d a = .gddr) : a < usable d ∧ a < 0x1000000000 := by
  by_contra hg
  revert h
  unfold regionOf
  rw [if_neg hg]
  dsimp only
  split_ifs <;> exact fun h => nomatch h

/-- The capacity is a whole number of lines. -/
theorem usable_mod (d : Dev) : usable d % 64 = 0 :=
  Nat.mod_eq_zero_of_dvd ⟨(channels d).length * dataLines d * 16 * rowsPerBank d, by unfold usable; ring⟩

theorem dirAt_mod (d : Dev) (t : Nat) : dirAt d t % 32 = 0 := by unfold dirAt; omega

section
variable {d e : Dev} {r w : Nat}

theorem usable_of_step (h : MemStep r w d e) : usable e = usable d := by
  have hg := h.global
  unfold usable dataLines rowsPerBank fld
  rw [channels_congr hg, hg]

theorem regionOf_of_step (h : MemStep r w d e) (a : Nat) : regionOf e a = regionOf d a := by
  unfold regionOf
  rw [usable_of_step h]

theorem dirAt_of_step (h : MemStep r w d e) (t : Nat) : dirAt e t = dirAt d t := by
  unfold dirAt fld
  rw [h.regs _ _ (by decide) (by omega)]

/-- What can be read of GDDR6 is met without a fault in memory without errors. -/
theorem dirFault_none {a n : Nat} (hb : d.badUnits = []) (hg : gddrOut d 0 a n = none) : dirFault d a n = none := by
  unfold dirFault
  dsimp only
  rw [hg, firstBadLine_none hb]

theorem gddrOut_of_step (h : MemStep r w d e) (a n : Nat) : gddrOut e 0 a n = gddrOut d 0 a n := by
  unfold gddrOut
  rw [usable_of_step h]
  rfl

/-- A directory word is written as any doubleword is. -/
theorem setDir_eq : setDir = fun d t j v => (devWrite d (dirAt d t + 8 * j) (toLE 8 (v % 2 ^ 64))).1 := rfl

theorem setDir_step (d : Dev) (t j v : Nat) : MemStep 0 2 d (setDir d t j v) := by
  have h := devWriteFor_step d none (dirAt d t + 8 * j) (toLE 8 (v % 2 ^ 64))
  rw [length_toLE] at h
  rw [setDir_eq]
  exact h

end

/-! ## Doublewords of walked memory -/

namespace Walked
variable {d e : Dev} {r w : Nat} {m : Nat → Byte}

theorem dirWord (h : Walked d r w m e) (t j : Nat) : Machine.dirWord e t j = dwordOf m (dirAt d t + 8 * j) := by
  rw [Machine.dirWord, dirAt_of_step h.step, h.dword]

theorem headWord (h : Walked d r w m e) (a o : Nat) : Machine.headWord e a o = dwordOf m (a + o) := h.dword _

theorem setDir (h : Walked d r w m e) {t j : Nat} (ha : dirAt d t < 0x1000000000) (hj : j < 4) (v : Nat) :
    Walked d r (w + 1) (putDword m (dirAt d t + 8 * j) (v % 2 ^ 64)) (Machine.setDir e t j v) := by
  have := dirAt_mod d t
  rw [setDir_eq]
  dsimp only
  rw [dirAt_of_step h.step]
  exact h.write (by omega) (by omega) _

/-- A directory word that is raised to at least an epoch. -/
theorem raiseDir (h : Walked d r w m e) {t j : Nat} (ha : dirAt d t < 0x1000000000) (hj : j < 4) (x : Nat) :
    Walked d r (w + 1) (putDword m (dirAt d t + 8 * j) (max (dwordOf m (dirAt d t + 8 * j) % 2 ^ 40) x % 2 ^ 64))
      (Machine.setDir e t j (max (Machine.dirWord e t j % 2 ^ 40) x)) := by
  rw [h.dirWord]
  exact h.setDir ha hj _

theorem setHead (h : Walked d r w m e) {a o : Nat} (ha : a < 0x1000000000) (hl : a % 64 = 0) (ho : o + 8 ≤ 64) (v : Nat) :
    Walked d r (w + 1) (putDword m (a + o) (v % 2 ^ 64)) (Machine.setHead e a o v) := h.write (by omega) (by omega) _

theorem lookHead (h : Walked d r w m e) {a : Nat} (hl : a % 64 = 0) : Walked d (r + 1) w m (lookLines looker e a 64) := h.look a 64 (by omega)

theorem lookDir (h : Walked d r w m e) (t : Nat) : Walked d (r + 1) w m (lookLines looker e (dirAt e t) 32) := by
  have := dirAt_mod e t
  exact h.look _ 32 (by omega)

end Walked

/-! ## The walk of an INGEST (R139) -/

/-- The bytes of memory once a frame's head is stamped with EPOCH and TABLE, and its old marks and link are cleared. -/
def frameStamped (m : Nat → Byte) (a epoch t : Nat) : Nat → Byte :=
  let z2 := dwordOf m (a + 16)
  let flags := if bitOf z2 53 = 1 then z2 - 2 ^ 53 else z2
  let m1 := putDword m (a + 16) ((flags / 2 ^ 40 * 2 ^ 40 + epoch) % 2 ^ 64)
  let m2 := putDword m1 (a + 24) (dwordOf m (a + 24) / 2 ^ 40 * 2 ^ 40 % 2 ^ 64)
  putDword (putDword m2 (a + 56) (t % 2 ^ 64)) (a + 32) (0 % 2 ^ 64)

/-- An output of one frame is stamped, and the walk ends behind it. -/
theorem ingestFrames_one {d : Dev} {a pos : Nat} (h : SoundMemory d) (hq : QueuesFree d) (ha : a < 0x1000000000) (hl : a % 64 = 0)
    (hp : pos ≠ 0) (hp64 : pos % 64 = 0) (hn : bitsOf (headWord d a 48) 39 16 = pos) (epoch t : Nat) :
    ∃ e, ingestFrames epoch t (a + pos) (pos / 64 + 1) d a 0 0 = (e, .ok a a) ∧ Walked d 1 4 (frameStamped (memByte d) a epoch t) e := by
  obtain ⟨k, hk⟩ : ∃ k, pos / 64 + 1 = k + 2 := ⟨pos / 64 - 1, by omega⟩
  have h0 := Walked.start h
  have hroom (line : Nat) {n : Nat} (hn : n ≤ 5) := h0.step.room hq (by omega) (by omega) line hn
  have h1 := h0.lookHead hl
  have hw16 : headWord (lookLines looker d a 64) a 16 = dwordOf (memByte d) (a + 16) := h1.headWord ..
  have hw24 : headWord (lookLines looker d a 64) a 24 = dwordOf (memByte d) (a + 24) := h1.headWord ..
  have hw48 : headWord (lookLines looker d a 64) a 48 = headWord d a 48 := (h1.headWord ..).trans (h0.headWord ..).symm
  have h2 := (((h1.setHead ha hl (o := 16) (by omega) ((if bitOf (dwordOf (memByte d) (a + 16)) 53 = 1 then dwordOf (memByte d) (a + 16) - 2 ^ 53
      else dwordOf (memByte d) (a + 16)) / 2 ^ 40 * 2 ^ 40 + epoch)).setHead ha hl (o := 24) (by omega)
      (dwordOf (memByte d) (a + 24) / 2 ^ 40 * 2 ^ 40)).setHead ha hl (o := 56) (by omega) t).setHead ha hl (o := 32) (by omega) 0
  refine ⟨_, ?_, h2⟩
  rw [hk, ingestFrames, if_neg (by omega), (hroom a (Nat.le_refl 5)).1, (hroom a (Nat.le_refl 5)).2, (hroom 0 (Nat.le_refl 5)).2]
  dsimp only
  rw [if_neg (by decide), h1.firstBadLine]
  dsimp only
  rw [hw48, hn, if_neg (by omega), hw16, hw24, if_pos rfl, ingestFrames, if_pos (by omega)]

/-- The bytes of memory once frames are linked behind the last frame of a table's chain, or begin it, and HIGH_EPOCH is raised. -/
def chainLinked (m : Nat → Byte) (dir epoch first last : Nat) : Nat → Byte :=
  let m1 := if bitOf (dwordOf m (dir + 8 * 0)) 40 = 1 then putDword m (dwordOf m (dir + 8 * 1) % 2 ^ 40 + 32) (first % 2 ^ 64)
    else putDword m (dir + 8 * 0) (dirD0 (dwordOf m (dir + 8 * 0)) first true % 2 ^ 64)
  let m2 := putDword m1 (dir + 8 * 1) (last % 2 ^ 64)
  putDword m2 (dir + 8 * 2) (max (dwordOf m2 (dir + 8 * 2) % 2 ^ 40) epoch % 2 ^ 64)

section
variable {d e : Dev} {r w : Nat} {m : Nat → Byte}

/-- A head's line lies in GDDR6 with every part of it. -/
theorem regionOf_inLine {a o : Nat} (h : HeadAt d a) (ho : o < 64) : regionOf d (a + o) = .gddr := by
  obtain ⟨-, hl, hg⟩ := h
  obtain ⟨hu, ha⟩ := regionOf_gddr hg
  have := usable_mod d
  rw [regionOf, if_pos ⟨by omega, by omega⟩]

theorem linkChain_links (h : Walked d r w m e) {t first : Nat} (hd : DirReadable d t) (hf : first ≠ 0)
    (hold : bitOf (dwordOf m (dirAt d t + 8 * 0)) 40 = 1 → HeadAt d (dwordOf m (dirAt d t + 8 * 1) % 2 ^ 40)) (epoch last : Nat) :
    ∃ e', linkChain e t epoch first last = (e', none) ∧ Walked d (r + 1) (w + 3) (chainLinked m (dirAt d t) epoch first last) e' := by
  obtain ⟨hreg, hout⟩ := hd
  have hdir := (regionOf_gddr hreg).2
  have h1 := h.lookDir t
  have hfault : dirFault (lookLines looker e (dirAt e t) 32) (dirAt (lookLines looker e (dirAt e t) 32) t) 32 = none := by
    refine dirFault_none h1.sound.units ?_
    rw [gddrOut_of_step h1.step, dirAt_of_step h1.step]
    exact hout
  have hw0 := h1.dirWord t 0
  have hw1 := h1.dirWord t 1
  have hfun : linkChain = linkChain := rfl
  conv_rhs at hfun => delta linkChain
  simp only [hfun, hfault, if_neg hf, hw0, hw1]
  have hreg' : bitOf (dwordOf m (dirAt d t + 8 * 0)) 40 = 1 →
      regionOf (lookLines looker e (dirAt e t) 32) (dwordOf m (dirAt d t + 8 * 1) % 2 ^ 40 + 32) = .gddr := fun hb => by
    rw [regionOf_of_step h1.step]
    exact regionOf_inLine (hold hb) (by omega)
  rw [if_neg (fun ⟨hb, hne⟩ => hne (hreg' (of_decide_eq_true hb)))]
  by_cases hb : bitOf (dwordOf m (dirAt d t + 8 * 0)) 40 = 1
  · obtain ⟨-, hl, hg⟩ := hold hb
    have h2 := (h1.setHead (regionOf_gddr hg).2 hl (o := 32) (by omega) first).setDir hdir (j := 1) (by omega) last
    refine ⟨_, rfl, ?_⟩
    rw [if_pos (decide_eq_true hb), chainLinked, if_pos hb]
    exact h2.raiseDir hdir (by omega) epoch
  · have h2 := (h1.setDir hdir (j := 0) (by omega) (dirD0 (dwordOf m (dirAt d t + 8 * 0)) first true)).setDir hdir (j := 1) (by omega) last
    refine ⟨_, rfl, ?_⟩
    rw [if_neg (by simpa using hb), chainLinked, if_neg hb]
    exact h2.raiseDir hdir (by omega) epoch

/-- An INGEST of no table, whose data has moved, ends at once; of a table it walks its output from its head on (R139). -/
theorem ingestWalk_start {c : Cmd} (hc : cmdOf d c.id = some c) (hr : running d = true) (hop : c.opcode = 0x20) (hs : c.st = .running)
    (h0 : c.aux[0]? = some 1) (he : ∀ x ∈ d.ring.cmds, x.opcode = 0x20 → x.id = c.id) :
    (pf c 5 15 0 = 0xFFFF → ingestWalk c.id d = placeSeed d c) ∧
      (pf c 5 15 0 ≠ 0xFFFF → allOn d (needDoms d 0) = true → memUp d 0 = true → c.walk = .start →
        ingestWalk c.id d = ingestHeads d c (pf c 2 39 0) 0 0) := by
  have hearly : d.ring.cmds.any (fun x => decide (x.opcode = 0x20 ∧ x.st = .running ∧ x.id ≠ c.id ∧ pf x 5 15 0 = pf c 5 15 0 ∧ x.aux[0]? = some 1 ∧
      (x.aux[2]?).getD 0 < (c.aux[2]?).getD 0)) = false :=
    List.any_eq_false.mpr fun x hx h => by
      obtain ⟨h1, -, h3, -⟩ := of_decide_eq_true h
      exact h3 (he x hx h1)
  have hcond : running d = true ∧ c.opcode = 0x20 ∧ c.st = .running ∧ c.aux[0]? = some 1 ∧ (!d.ring.cmds.any (fun x => decide (x.opcode = 0x20 ∧
      x.st = .running ∧ x.id ≠ c.id ∧ pf x 5 15 0 = pf c 5 15 0 ∧ x.aux[0]? = some 1 ∧ (x.aux[2]?).getD 0 < (c.aux[2]?).getD 0))) = true :=
    ⟨hr, hop, hs, h0, by rw [hearly]; rfl⟩
  unfold ingestWalk
  rw [hc]
  dsimp only
  rw [if_pos hcond]
  refine ⟨fun ht => if_pos ht, fun ht ha hm hw => ?_⟩
  rw [if_neg ht, whenUp_up ha hm, hw]

theorem placeSeed_none {c : Cmd} (h : c.aux[1]? = some 0) : placeSeed d c = finish d c.id 0 (c.pos % 2 ^ 40) := by
  unfold placeSeed
  rw [h]
  rfl

/-- An INGEST whose output is one frame stamps it, links it to its table's chain, and ends (R139). -/
theorem ingestHeads_one {c : Cmd} (h : SoundMemory d) (hq : QueuesFree d) (hd : DirReadable d (pf c 5 15 0)) (ha : HeadAt d (pf c 2 39 0))
    (hp : c.pos ≠ 0) (hp64 : c.pos % 64 = 0) (hn : bitsOf (headWord d (pf c 2 39 0) 48) 39 16 = c.pos) (hseed : c.aux[1]? = some 0)
    (hold : bitOf (dwordOf (frameStamped (memByte d) (pf c 2 39 0) (pf c 4 39 0) (pf c 5 15 0)) (dirAt d (pf c 5 15 0) + 8 * 0)) 40 = 1 →
      HeadAt d (dwordOf (frameStamped (memByte d) (pf c 2 39 0) (pf c 4 39 0) (pf c 5 15 0)) (dirAt d (pf c 5 15 0) + 8 * 1) % 2 ^ 40)) :
    ∃ e, ingestHeads d c (pf c 2 39 0) 0 0 = finish e c.id 0 (c.pos % 2 ^ 40) ∧ Walked d 2 7 (chainLinked
      (frameStamped (memByte d) (pf c 2 39 0) (pf c 4 39 0) (pf c 5 15 0)) (dirAt d (pf c 5 15 0)) (pf c 4 39 0) (pf c 2 39 0) (pf c 2 39 0)) e := by
  obtain ⟨ha0, hl, hg⟩ := ha
  obtain ⟨e1, hframes, h1⟩ := ingestFrames_one h hq (regionOf_gddr hg).2 hl hp hp64 hn (pf c 4 39 0) (pf c 5 15 0)
  obtain ⟨e2, hlink, h2⟩ := linkChain_links h1 hd ha0 hold (pf c 4 39 0) (pf c 2 39 0)
  have hroom : linkRoom e1 (pf c 5 15 0) = true := by
    have hr (line : Nat) := h1.room hq (by omega) (by omega) line (n := 4) (by omega)
    rw [linkRoom, (hr _).1, (hr _).2, (hr _).2]
    rfl
  refine ⟨e2, ?_, h2⟩
  rw [ingestHeads, hframes]
  dsimp only
  rw [ingestLink, if_pos hroom, hlink]
  exact placeSeed_none hseed

end


/-! ## The doublewords that a walk leaves -/

theorem bitOf_le_one (n i : Nat) : bitOf n i ≤ 1 := by unfold bitOf; omega

theorem pf_lt (c : Cmd) (n hi lo : Nat) : pf c n hi lo < 2 ^ (hi + 1 - lo) := Nat.mod_lt _ (Nat.two_pow_pos _)

section
variable (m : Nat → Byte) {a epoch t : Nat}

theorem frameStamped_apart {x : Nat} (h : x + 8 ≤ a ∨ a + 64 ≤ x) : dwordOf (frameStamped m a epoch t) x = dwordOf m x := by
  unfold frameStamped
  dsimp only
  rw [dwordOf_putDword_apart _ _ (by omega), dwordOf_putDword_apart _ _ (by omega), dwordOf_putDword_apart _ _ (by omega),
    dwordOf_putDword_apart _ _ (by omega)]

theorem frameStamped_epoch (he : epoch < 2 ^ 40) : dwordOf (frameStamped m a epoch t) (a + 16) =
    (dwordOf m (a + 16) - bitOf (dwordOf m (a + 16)) 53 * 2 ^ 53) / 2 ^ 40 * 2 ^ 40 + epoch := by
  have hlt := dwordOf_lt m (a + 16)
  have hb := bitOf_le_one (dwordOf m (a + 16)) 53
  unfold frameStamped
  dsimp only
  rw [dwordOf_putDword_apart _ _ (by omega), dwordOf_putDword_apart _ _ (by omega), dwordOf_putDword_apart _ _ (by omega), dwordOf_putDword_self]
  split
  · next h1 => rw [h1, Nat.one_mul]; omega
  · next h1 => rw [show bitOf (dwordOf m (a + 16)) 53 = 0 by omega, Nat.zero_mul]; omega

theorem frameStamped_retired : dwordOf (frameStamped m a epoch t) (a + 24) = dwordOf m (a + 24) / 2 ^ 40 * 2 ^ 40 := by
  have hlt := dwordOf_lt m (a + 24)
  unfold frameStamped
  dsimp only
  rw [dwordOf_putDword_apart _ _ (by omega), dwordOf_putDword_apart _ _ (by omega), dwordOf_putDword_self]
  omega

theorem frameStamped_next : dwordOf (frameStamped m a epoch t) (a + 32) = 0 := by
  unfold frameStamped
  dsimp only
  rw [dwordOf_putDword_self, Nat.zero_mod, Nat.zero_mod]

theorem frameStamped_table (ht : t < 2 ^ 16) : dwordOf (frameStamped m a epoch t) (a + 56) = t := by
  unfold frameStamped
  dsimp only
  rw [dwordOf_putDword_apart _ _ (by omega), dwordOf_putDword_self]
  omega

end

section
variable (m : Nat → Byte) {dir epoch first last : Nat}

theorem chainLinked_apart {x : Nat} (h : x + 8 ≤ dir ∨ dir + 32 ≤ x) (hold : bitOf (dwordOf m (dir + 8 * 0)) 40 = 1 →
    x + 8 ≤ dwordOf m (dir + 8 * 1) % 2 ^ 40 + 32 ∨ dwordOf m (dir + 8 * 1) % 2 ^ 40 + 40 ≤ x) :
    dwordOf (chainLinked m dir epoch first last) x = dwordOf m x := by
  unfold chainLinked
  dsimp only
  rw [dwordOf_putDword_apart _ _ (by omega), dwordOf_putDword_apart _ _ (by omega)]
  split
  · next hb =>
    have := hold hb
    rw [dwordOf_putDword_apart _ _ (by omega)]
  · rw [dwordOf_putDword_apart _ _ (by omega)]

theorem chainLinked_last : dwordOf (chainLinked m dir epoch first last) (dir + 8 * 1) = last % 2 ^ 64 := by
  unfold chainLinked
  dsimp only
  rw [dwordOf_putDword_apart _ _ (by omega), dwordOf_putDword_self, Nat.mod_mod]

/-- HIGH_EPOCH is raised over what it was, where the old last frame's link lies apart from it. -/
theorem chainLinked_high (he : epoch < 2 ^ 40) (hold : bitOf (dwordOf m (dir + 8 * 0)) 40 = 1 →
    dir + 32 ≤ dwordOf m (dir + 8 * 1) % 2 ^ 40 + 32 ∨ dwordOf m (dir + 8 * 1) % 2 ^ 40 + 40 ≤ dir) :
    dwordOf (chainLinked m dir epoch first last) (dir + 8 * 2) = max (dwordOf m (dir + 8 * 2) % 2 ^ 40) epoch := by
  unfold chainLinked
  dsimp only
  rw [dwordOf_putDword_self, dwordOf_putDword_apart _ _ (by omega)]
  split
  · next hb =>
    have := hold hb
    rw [dwordOf_putDword_apart _ _ (by omega)]
    omega
  · rw [dwordOf_putDword_apart _ _ (by omega)]
    omega

/-- An empty chain begins with the frames. -/
theorem chainLinked_begins (hb : bitOf (dwordOf m (dir + 8 * 0)) 40 = 0) :
    dwordOf (chainLinked m dir epoch first last) (dir + 8 * 0) = dirD0 (dwordOf m (dir + 8 * 0)) first true := by
  have := bitOf_le_one (dwordOf m (dir + 8 * 0)) 41
  unfold chainLinked
  dsimp only
  rw [dwordOf_putDword_apart _ _ (by omega), dwordOf_putDword_apart _ _ (by omega), if_neg (by omega), dwordOf_putDword_self]
  simp only [dirD0, b2n, if_true]
  omega

/-- A chain with frames keeps its first, and its old last links to the new ones. -/
theorem chainLinked_appends (hb : bitOf (dwordOf m (dir + 8 * 0)) 40 = 1)
    (hold : dir + 32 ≤ dwordOf m (dir + 8 * 1) % 2 ^ 40 + 32 ∨ dwordOf m (dir + 8 * 1) % 2 ^ 40 + 40 ≤ dir) (hf : first < 2 ^ 40) :
    dwordOf (chainLinked m dir epoch first last) (dir + 8 * 0) = dwordOf m (dir + 8 * 0) ∧
      dwordOf (chainLinked m dir epoch first last) (dwordOf m (dir + 8 * 1) % 2 ^ 40 + 32) = first := by
  unfold chainLinked
  dsimp only
  rw [if_pos hb]
  refine ⟨?_, ?_⟩
  · rw [dwordOf_putDword_apart _ _ (by omega), dwordOf_putDword_apart _ _ (by omega), dwordOf_putDword_apart _ _ (by omega)]
  · rw [dwordOf_putDword_apart _ _ (by omega), dwordOf_putDword_apart _ _ (by omega), dwordOf_putDword_self]
    omega

end

namespace Walked
variable {d e : Dev} {r w : Nat} {m : Nat → Byte}

theorem headWord_ended (h : Walked d r w m e) (id st x a o : Nat) : Machine.headWord (pump (finish e id st x)) a o = dwordOf m (a + o) :=
  (memNat_pump ..).trans (h.dword _)

theorem dirWord_ended (h : Walked d r w m e) (id st x t j : Nat) :
    Machine.dirWord (pump (finish e id st x)) t j = dwordOf m (dirAt d t + 8 * j) := by
  have hat : dirAt (pump (finish e id st x)) t = dirAt d t := by
    rw [← dirAt_of_step h.step]
    unfold dirAt fld rd
    rw [pump_regs]
    rfl
  rw [Machine.dirWord, hat]
  exact h.headWord_ended id st x (dirAt d t) (8 * j)

theorem cmdOf_ended (h : Walked d r w m e) {c : Cmd} (hc : cmdOf d c.id = some c) (st x : Nat) :
    cmdOf (pump (finish e c.id st x)) c.id = some { c with st := .done st x } := by
  have he : e.ring.cmds = d.ring.cmds := congrArg (·.cmds) h.step.ring
  rw [cmdOf_congr (congrArg (·.cmds) (pump_ring _))]
  exact cmdOf_finish ((cmdOf_congr he _).trans hc) st x

end Walked


/-! ## INGEST_WALK (R137, R139) -/

theorem exec_ingestWalk (id : Nat) (s : State) : exec (.ingestWalk id) s = onUnitTx s (ingestWalk id) := rfl

/-- A row that a walk makes end its command, with free queues. -/
theorem makesTx_of_walk {i : Instr} {s : State} {f : Dev → Dev} {r w : Nat} {m : Nat → Byte} {e : Dev} (hx : exec i s = onUnitTx s f)
    (hq : QueuesFree s.dev) (h : Walked s.dev r w m e) (hw : w ≤ 32) {id st x : Nat} (hf : f s.dev = finish e id st x) :
    MakesTx i s (finish e id st x) := makesTx_of_onUnitTx hx hf hq (.of_step h.step rfl) hw

theorem soundMemory_of_walksFree {s : State} (h : WalksFree s) : SoundMemory s.dev := by
  obtain ⟨-, -, -, hcache, hunits, hwf⟩ := h
  exact ⟨hcache, hunits, hwf⟩

/-- A step that leaves the channels, the fills and the map of memory has nothing to wait for. -/
theorem overfills_of_same {d e : Dev} (hm : e.mc = d.mc) (hf : e.cache.fills = d.cache.fills) (hr : rd e .mcGlobal 0 = rd d .mcGlobal 0) :
    overfills d e = false := by
  have hw (ch : Nat) : writesHeld (mcChan e ch) = writesHeld (mcChan d ch) := by rw [mcChan, mcChan, hm]
  have hb (ch b : Nat) : bankReads e ch b = bankReads d ch b := bankReads_congr hm hr ch b
  have hk (k : Nat) : fillsIn e k = fillsIn d k := by rw [fillsIn, fillsIn, hf]
  simp [overfills, hw, hb, hk]

theorem makesTx_of_same {i : Instr} {s : State} {f : Dev → Dev} {d : Dev} (hx : exec i s = onUnitTx s f) (hf : f s.dev = d)
    (hm : d.mc = s.dev.mc) (hc : d.cache.fills = s.dev.cache.fills) (hr : rd d .mcGlobal 0 = rd s.dev .mcGlobal 0) : MakesTx i s d := by
  subst hf
  rw [MakesTx, hx, onUnitTx, overfills_of_same hm hc hr]
  rfl

section
variable {s : State} {c : Cmd}

/-- An INGEST of no table and no seed ends at once. -/
theorem ingestWalk_noTable (hc : cmdOf s.dev c.id = some c) (hr : running s.dev = true) (hop : c.opcode = 0x20) (hs : c.st = .running)
    (ht : pf c 5 15 0 = 0xFFFF) (h0 : c.aux[0]? = some 1) (h1 : c.aux[1]? = some 0) (he : ∀ x ∈ s.dev.ring.cmds, x.opcode = 0x20 → x.id = c.id) :
    MakesTx (.ingestWalk c.id) s (finish s.dev c.id 0 (c.pos % 2 ^ 40)) :=
  makesTx_of_same (exec_ingestWalk ..) (((ingestWalk_start hc hr hop hs h0 he).1 ht).trans (placeSeed_none h1)) rfl rfl rfl

/-- An INGEST of one frame leaves it stamped, and last of its table's chain. -/
theorem ingestWalk_oneFrame {tab a b : Nat} (htab : pf c 5 15 0 = tab) (haa : pf c 2 39 0 = a) (hbb : dirWord s.dev tab 1 % 2 ^ 40 = b)
    (hc : cmdOf s.dev c.id = some c) (hr : running s.dev = true) (hop : c.opcode = 0x20) (hs : c.st = .running)
    (ht : tab ≠ 0xFFFF) (h0 : c.aux[0]? = some 1) (h1 : c.aux[1]? = some 0) (hwalk : c.walk = .start)
    (he : ∀ x ∈ s.dev.ring.cmds, x.opcode = 0x20 → x.id = c.id) (hfree : WalksFree s) (hd : DirReadable s.dev tab) (ha : HeadAt s.dev a)
    (hp : c.pos ≠ 0) (hn : bitsOf (headWord s.dev a 48) 39 16 = c.pos) (hp64 : c.pos % 64 = 0) (hap : Apart a 64 (dirAt s.dev tab) 32)
    (hold : bitOf (dirWord s.dev tab 0) 40 = 1 → HeadAt s.dev b ∧ Apart b 64 a 64 ∧ Apart b 64 (dirAt s.dev tab) 32) :
    ∃ u, exec (.ingestWalk c.id) s = .next u ∧ cmdOf u.dev c.id = some { c with st := .done 0 (c.pos % 2 ^ 40) } ∧
      headWord u.dev a 16 = (headWord s.dev a 16 - bitOf (headWord s.dev a 16) 53 * 2 ^ 53) / 2 ^ 40 * 2 ^ 40 + pf c 4 39 0 ∧
      headWord u.dev a 24 = headWord s.dev a 24 / 2 ^ 40 * 2 ^ 40 ∧ headWord u.dev a 32 = 0 ∧ headWord u.dev a 56 = tab ∧
      dirWord u.dev tab 1 = a ∧ dirWord u.dev tab 2 = max (dirWord s.dev tab 2 % 2 ^ 40) (pf c 4 39 0) ∧
      (bitOf (dirWord s.dev tab 0) 40 = 0 → dirWord u.dev tab 0 = dirD0 (dirWord s.dev tab 0) a true) ∧
      (bitOf (dirWord s.dev tab 0) 40 = 1 → dirWord u.dev tab 0 = dirWord s.dev tab 0 ∧ headWord u.dev b 32 = a) := by
  have hm := soundMemory_of_walksFree hfree
  obtain ⟨hon, hup, hq, -⟩ := hfree
  have w0 := Walked.start hm
  have hep : pf c 4 39 0 < 2 ^ 40 := pf_lt c 4 39 0
  have htl : tab < 2 ^ 16 := htab ▸ pf_lt c 5 15 0
  have hal : a < 2 ^ 40 := haa ▸ pf_lt c 2 39 0
  have hdir (j : Nat) : dirWord s.dev tab j = dwordOf (memByte s.dev) (dirAt s.dev tab + 8 * j) := w0.dirWord tab j
  have hhead (o : Nat) : headWord s.dev a o = dwordOf (memByte s.dev) (a + o) := w0.headWord a o
  obtain ⟨-, hal64, -⟩ := id ha
  have hdm := dirAt_mod s.dev tab
  have hkeep (j : Nat) (hj : j < 4) : dwordOf (frameStamped (memByte s.dev) a (pf c 4 39 0) tab) (dirAt s.dev tab + 8 * j) = dirWord s.dev tab j := by
    rw [frameStamped_apart _ (by omega), hdir]
  obtain ⟨e, hwe, hwk⟩ := ingestHeads_one (c := c) hm hq (htab.symm ▸ hd) (haa.symm ▸ ha) hp hp64 (haa.symm ▸ hn) h1 (by
    rw [htab, haa, hkeep 0 (by omega), hkeep 1 (by omega), hbb]
    exact fun h => (hold h).1)
  rw [htab, haa] at hwk
  have hx := makesTx_of_walk (exec_ingestWalk c.id s) hq hwk (by omega)
    (((ingestWalk_start hc hr hop hs h0 he).2 (htab.symm ▸ ht) hon hup hwalk).trans hwe)
  have hlast : bitOf (dwordOf (frameStamped (memByte s.dev) a (pf c 4 39 0) tab) (dirAt s.dev tab + 8 * 0)) 40 = 1 →
      dwordOf (frameStamped (memByte s.dev) a (pf c 4 39 0) tab) (dirAt s.dev tab + 8 * 1) % 2 ^ 40 = b ∧ Apart b 64 a 64 ∧
        Apart b 64 (dirAt s.dev tab) 32 := by
    rw [hkeep 0 (by omega), hkeep 1 (by omega), hbb]
    exact fun h => ⟨rfl, (hold h).2⟩
  have hfar (o : Nat) (ho : o + 8 ≤ 64) : headWord (pump (finish e c.id 0 (c.pos % 2 ^ 40))) a o =
      dwordOf (frameStamped (memByte s.dev) a (pf c 4 39 0) tab) (a + o) := by
    rw [hwk.headWord_ended, chainLinked_apart _ (by omega) fun h => by obtain ⟨h1, h2, h3⟩ := hlast h; rw [h1]; omega]
  have hlink (h : bitOf (dwordOf (frameStamped (memByte s.dev) a (pf c 4 39 0) tab) (dirAt s.dev tab + 8 * 0)) 40 = 1) :
      dirAt s.dev tab + 32 ≤ dwordOf (frameStamped (memByte s.dev) a (pf c 4 39 0) tab) (dirAt s.dev tab + 8 * 1) % 2 ^ 40 + 32 ∨
        dwordOf (frameStamped (memByte s.dev) a (pf c 4 39 0) tab) (dirAt s.dev tab + 8 * 1) % 2 ^ 40 + 40 ≤ dirAt s.dev tab := by
    obtain ⟨h1, h2, h3⟩ := hlast h
    rw [h1]
    omega
  refine ⟨_, hx, hwk.cmdOf_ended hc _ _, ?_, ?_, ?_, ?_, ?_, ?_, fun hb => ?_, fun hb => ?_⟩
  · rw [hfar 16 (by omega), frameStamped_epoch _ hep, hhead]
  · rw [hfar 24 (by omega), frameStamped_retired, hhead]
  · rw [hfar 32 (by omega), frameStamped_next]
  · rw [hfar 56 (by omega), frameStamped_table _ htl]
  · rw [hwk.dirWord_ended, chainLinked_last]
    omega
  · rw [hwk.dirWord_ended, chainLinked_high _ hep hlink, hkeep 2 (by omega)]
  · rw [hwk.dirWord_ended, chainLinked_begins _ (by rw [hkeep 0 (by omega)]; exact hb), hkeep 0 (by omega)]
  · have hb' := hb
    rw [← hkeep 0 (by omega)] at hb'
    have h := chainLinked_appends _ (epoch := pf c 4 39 0) (last := a) hb' (hlink hb') hal
    rw [hkeep 0 (by omega), (hlast hb').1] at h
    rw [hwk.dirWord_ended, hwk.headWord_ended]
    exact h

end

end Sys2Proof.Machine
end

section
namespace Sys2Proof.Machine

/-! ## The walk of a RETIRE_EPOCH, access by access (R142, R488) -/

/-- A retirement comes from one place of its walk to another in n accesses, whatever is left of its limit. -/
def Goes (epoch : Nat) (ts : List Nat) (n : Nat) (d : Dev) (w : Walk) (e : Dev) (v : Walk) : Prop :=
  ∀ k, retireGo epoch ts (k + n) d w = retireGo epoch ts k e v

section
variable {epoch n m : Nat} {ts : List Nat} {d e f : Dev} {w v x : Walk}

theorem Goes.one (h : retireStep epoch ts d w = some (e, v)) : Goes epoch ts 1 d w e v := fun k => by rw [retireGo, h]

theorem Goes.trans (h1 : Goes epoch ts n d w e v) (h2 : Goes epoch ts m e v f x) : Goes epoch ts (m + n) d w f x := fun k => by
  rw [← Nat.add_assoc, h1, h2]

/-- A walk that comes to an end within its limit ends there. -/
theorem Goes.ends (h : Goes epoch ts n d w e v) (hstop : retireStep epoch ts e v = none) {limit : Nat} (hl : n ≤ limit) :
    retireGo epoch ts limit d w = (e, v) := by
  obtain ⟨k, rfl⟩ := Nat.exists_eq_add_of_le' hl
  rw [h]
  cases k with
  | zero => rfl
  | succ k => rw [retireGo, hstop]

end

theorem exec_retireWalk (id : Nat) (s : State) : exec (.retireWalk id) s = onUnitTx s (retireWalk id) := rfl

/-- A retirement of one table whose walk ends in order ends its command. -/
theorem retireWalk_ends {s : State} {c : Cmd} {t n : Nat} {ids : List Nat} {e : Dev} (h : Retires s c t ids)
    (hgo : Goes (pf c 2 39 0) [t] n s.dev (.table 0) e (.clear 1 0 0)) (hn : n ≤ 16) : retireWalk c.id s.dev = finish e c.id 0 0 := by
  obtain ⟨hc, hr, hop, hs, haux, hw, hids, hon, hup⟩ := h
  have hend : retireGo (pf c 2 39 0) [t] (retireLimit s.dev 1) s.dev (.table 0) = (e, .clear 1 0 0) := hgo.ends rfl (by unfold retireLimit; omega)
  unfold retireWalk
  rw [hc]
  dsimp only
  rw [if_pos ⟨hr, hop, hs⟩, whenUp_up hon hup, haux, hw]
  simp only [List.headD_cons, List.drop_succ_cons, List.drop_zero, List.take_succ_cons, List.take_zero, Nat.reduceAdd, hids, and_self, if_true, hend,
    Nat.le_refl]

section
variable {epoch i t : Nat} {ts : List Nat} {d : Dev}

theorem retireStep_mark (hi : ts[i]? = some t) (hr : roomOf d (dirAt d t) 1 = true) :
    retireStep epoch ts d (.mark i) = some (setDir d t 3 (max (dirWord d t 3 % 2 ^ 40) epoch), .mark (i + 1)) := by
  rw [retireStep, hi]
  exact if_pos hr

theorem retireStep_marked (hi : ts[i]? = none) : retireStep epoch ts d (.mark i) = some (d, .clear 0 0 0) := by rw [retireStep, hi]

theorem retireStep_clear (hi : ts[i]? = some t) (hr : roomOf d (dirAt d t) 1 = true) (st x : Nat) :
    retireStep epoch ts d (.clear i st x) = some (setRetiring d t false, .clear (i + 1) st x) := by
  rw [retireStep, hi]
  exact if_pos hr

theorem retireStep_tables (hi : ts[i]? = none) : retireStep epoch ts d (.table i) = some (d, .mark 0) := by rw [retireStep, hi]

theorem retireStep_table (hi : ts[i]? = some t) : retireStep epoch ts d (.table i) = retireTable d t i := by rw [retireStep, hi]

theorem retireStep_frame (hi : ts[i]? = some t) (a prev left : Nat) :
    retireStep epoch ts d (.frame i a prev left) = retireFrame d epoch t i a prev left := by rw [retireStep, hi]; rfl

end

section
variable {d e : Dev} {r w epoch t : Nat}

/-- RETIRING of a table is a word of its directory entry, and a mark on chip. -/
theorem setRetiring_eq : setRetiring = fun d t on =>
    let d1 := setDir d t 0 (if on then (if bitOf (dirWord d t 0) 41 = 1 then dirWord d t 0 else dirWord d t 0 + 2 ^ 41)
      else (if bitOf (dirWord d t 0) 41 = 1 then dirWord d t 0 - 2 ^ 41 else dirWord d t 0))
    { d1 with ring := { d1.ring with retiring := if on then sins d1.ring.retiring t else sdel d1.ring.retiring t } } := rfl

/-- The word of a directory entry with RETIRING cleared. -/
def retiringOff (w : Nat) : Nat := if bitOf w 41 = 1 then w - 2 ^ 41 else w

/-- A table's mark on chip that it retires is taken away. -/
def unmark (d : Dev) (t : Nat) : Dev := { d with ring := { d.ring with retiring := sdel d.ring.retiring t } }

theorem setRetiring_off (d : Dev) (t : Nat) : setRetiring d t false = unmark (setDir d t 0 (retiringOff (dirWord d t 0))) t := by
  rw [setRetiring_eq]
  simp only [Bool.false_eq_true, if_false, unmark, retiringOff]

/-- RETIRE_MARK is raised, and RETIRING cleared, of the one table of a walk that has passed its chain. -/
theorem goes_marks (h : MemStep r w d e) (hq : QueuesFree d) (hr : r < 16) (hw : w ≤ 16) :
    Goes epoch [t] 4 e (.table 1) (setRetiring (setDir e t 3 (max (dirWord e t 3 % 2 ^ 40) epoch)) t false) (.clear 1 0 0) := by
  have hroom := (h.room hq hr (by omega) (dirAt e t) (n := 1) (by omega)).2
  have h2 := h.trans (setDir_step e t 3 (max (dirWord e t 3 % 2 ^ 40) epoch))
  have s1 : Goes epoch [t] 1 e (.table 1) e (.mark 0) := .one (retireStep_tables rfl)
  have s2 := Goes.one (retireStep_mark (epoch := epoch) (ts := [t]) (i := 0) rfl hroom)
  generalize setDir e t 3 (max (dirWord e t 3 % 2 ^ 40) epoch) = g at h2 s2 ⊢
  have hroom2 := (h2.room hq (by omega) (by omega) (dirAt g t) (n := 1) (by omega)).2
  have s3 : Goes epoch [t] 1 g (.mark 1) g (.clear 0 0 0) := .one (retireStep_marked rfl)
  have s4 := Goes.one (retireStep_clear (epoch := epoch) (ts := [t]) (i := 0) rfl hroom2 0 0)
  exact ((s1.trans s2).trans s3).trans s4

/-- The entry of a table is read, and its chain entered or, where it has none, passed over. -/
theorem retireTable_reads (i : Nat) (hl : lookRoom d (dirAt d t) = true) (he : lookLines looker d (dirAt d t) 32 = e)
    (hf : dirFault e (dirAt e t) 32 = none) : retireTable d t i =
      some (e, if bitOf (dirWord e t 0) 40 = 0 then .table (i + 1) else .frame i (dirWord e t 0 % 2 ^ 40) 0 (usable e / 64 + 1)) := by
  delta retireTable
  rw [if_pos hl, he]
  simp only [hf]

/-- At the end of a chain LAST is written. -/
theorem retireFrame_last (i prev : Nat) {left : Nat} (hn : left ≠ 0) (hr : roomOf d (dirAt d t) 1 = true) :
    retireFrame d epoch t i 0 prev left = some (setDir d t 1 prev, .table (i + 1)) := by
  delta retireFrame
  extract_lets before
  rw [if_neg hn, if_pos rfl, if_pos hr]

/-- A frame at or before EPOCH that no retirement has marked is marked and unlinked; another one stays. -/
theorem retireFrame_meets (i : Nat) {a prev left : Nat} (ha : a ≠ 0) (hg : regionOf d a = .gddr) (hl : lookRoom d a = true)
    (hr : roomOf d a 3 = true) (hb : roomOf d (if prev = 0 then dirAt d t else prev) 3 = true) (he : lookLines looker d a 64 = e)
    (hu : firstBadLine e a 64 = none) :
    (headWord e a 16 % 2 ^ 40 ≤ epoch → bitOf (headWord e a 16) 53 = 0 → retireFrame d epoch t i a prev (left + 1) =
      some (relink (setHead (setHead e a 16 (headWord e a 16 + 2 ^ 53)) a 24 (headWord e a 24 / 2 ^ 40 * 2 ^ 40 + epoch)) t prev
        (headWord e a 32 % 2 ^ 40), .frame i (headWord e a 32 % 2 ^ 40) prev left)) ∧
    (¬(headWord e a 16 % 2 ^ 40 ≤ epoch ∧ bitOf (headWord e a 16) 53 = 0) →
      retireFrame d epoch t i a prev (left + 1) = some (e, .frame i (headWord e a 32 % 2 ^ 40) a left)) := by
  have hroom : ¬(!(lookRoom d a && roomOf d a 3 && roomOf d (if prev = 0 then dirAt d t else prev) 3)) = true := by rw [hl, hr, hb]; decide
  refine ⟨fun h1 h2 => ?_, fun h => ?_⟩
  · delta retireFrame
    simp only [if_neg (Nat.succ_ne_zero left), if_neg ha, if_neg (not_not_intro hg), if_neg hroom, he, hu, Nat.add_sub_cancel, if_pos (And.intro h1 h2)]
  · delta retireFrame
    simp only [if_neg (Nat.succ_ne_zero left), if_neg ha, if_neg (not_not_intro hg), if_neg hroom, he, hu, Nat.add_sub_cancel, if_neg h]

theorem relink_empties (d : Dev) (t : Nat) : relink d t 0 0 = setDir d t 0 (dirD0 (dirWord d t 0) 0 false) := if_pos rfl

end

/-! ## The walk of a chain of one frame -/

/-- The bytes of memory once the one frame of a chain is marked and unlinked, or kept, and LAST is written. -/
def chainWalked (m : Nat → Byte) (dir f epoch : Nat) : Nat → Byte :=
  let z2 := dwordOf m (f + 16)
  if z2 % 2 ^ 40 ≤ epoch ∧ bitOf z2 53 = 0 then
    let m1 := putDword (putDword m (f + 16) ((z2 + 2 ^ 53) % 2 ^ 64)) (f + 24) ((dwordOf m (f + 24) / 2 ^ 40 * 2 ^ 40 + epoch) % 2 ^ 64)
    putDword (putDword m1 (dir + 8 * 0) (dirD0 (dwordOf m1 (dir + 8 * 0)) 0 false % 2 ^ 64)) (dir + 8 * 1) (0 % 2 ^ 64)
  else putDword m (dir + 8 * 1) (f % 2 ^ 64)

/-- The bytes of memory once a retirement's mark is raised in a directory entry, and RETIRING is cleared. -/
def walkEnded (m : Nat → Byte) (dir epoch : Nat) : Nat → Byte :=
  let m1 := putDword m (dir + 8 * 3) (max (dwordOf m (dir + 8 * 3) % 2 ^ 40) epoch % 2 ^ 64)
  let w := dwordOf m1 (dir + 8 * 0)
  putDword m1 (dir + 8 * 0) (retiringOff w % 2 ^ 64)

/-- A directory word whose chain becomes empty. -/
theorem Walked.emptyDir {d e : Dev} {r w t : Nat} {m : Nat → Byte} (h : Walked d r w m e) (ha : dirAt d t < 0x1000000000) :
    Walked d r (w + 1) (putDword m (dirAt d t + 8 * 0) (dirD0 (dwordOf m (dirAt d t + 8 * 0)) 0 false % 2 ^ 64))
      (Machine.setDir e t 0 (dirD0 (Machine.dirWord e t 0) 0 false)) := by
  rw [h.dirWord]
  exact h.setDir ha (by omega) _

/-- A directory word whose RETIRING is cleared. -/
theorem Walked.clearRetiring {d e : Dev} {r w t : Nat} {m : Nat → Byte} (h : Walked d r w m e) (ha : dirAt d t < 0x1000000000) :
    Walked d r (w + 1) (putDword m (dirAt d t + 8 * 0) (retiringOff (dwordOf m (dirAt d t + 8 * 0)) % 2 ^ 64))
      (Machine.setDir e t 0 (retiringOff (Machine.dirWord e t 0))) := by
  rw [h.dirWord]
  exact h.setDir ha (by omega) _

section
variable {d : Dev} {epoch t : Nat}

/-- A chain of one frame is walked: its table's entry, the frame, and the chain's end. -/
theorem goes_oneFrame (h : SoundMemory d) (hq : QueuesFree d) (hd : DirReadable d t) (hv : bitOf (dirWord d t 0) 40 = 1)
    (ha : HeadAt d (dirWord d t 0 % 2 ^ 40)) (hnext : headWord d (dirWord d t 0 % 2 ^ 40) 32 % 2 ^ 40 = 0) :
    ∃ e, Goes epoch [t] 3 d (.table 0) e (.table 1) ∧
      Walked d 2 4 (chainWalked (memByte d) (dirAt d t) (dirWord d t 0 % 2 ^ 40) epoch) e := by
  generalize hf : dirWord d t 0 % 2 ^ 40 = f at ha hnext ⊢
  obtain ⟨ha0, hal, hag⟩ := ha
  obtain ⟨hreg, hout⟩ := hd
  have hdir := (regionOf_gddr hreg).2
  obtain ⟨hfu, hf36⟩ := regionOf_gddr hag
  have w0 := Walked.start h
  have w1 := w0.lookDir t
  generalize he1 : lookLines looker d (dirAt d t) 32 = e1 at w1
  have hword : dirWord e1 t 0 = dirWord d t 0 := (w1.dirWord ..).trans (w0.dirWord ..).symm
  have hfault : dirFault e1 (dirAt e1 t) 32 = none := dirFault_none w1.sound.units (by rw [gddrOut_of_step w1.step, dirAt_of_step w1.step]; exact hout)
  have s1 : Goes epoch [t] 1 d (.table 0) e1 (.frame 0 f 0 (usable d / 64 + 1)) := by
    refine .one ((retireStep_table rfl).trans ?_)
    rw [retireTable_reads 0 (w0.room hq (by omega) (by omega) _ (n := 1) (by omega)).1 he1 hfault, hword, if_neg (by omega), hf, usable_of_step w1.step]
  have w2 := w1.lookHead hal
  generalize he2 : lookLines looker e1 f 64 = e2 at w2
  have hroom (line : Nat) := w1.room hq (by omega) (by omega) line (n := 3) (by omega)
  have hmeet := retireFrame_meets (epoch := epoch) (t := t) (left := usable d / 64) 0 ha0 ((regionOf_of_step w1.step f).trans hag) (hroom f).1 (hroom f).2
    (hroom (if 0 = 0 then dirAt e1 t else 0)).2 he2 (w2.firstBadLine ..)
  have hnx : headWord e2 f 32 % 2 ^ 40 = 0 := by rw [w2.headWord, ← w0.headWord]; exact hnext
  have hleft : usable d / 64 ≠ 0 := by omega
  have hlast {g : Dev} {w : Nat} {m : Nat → Byte} (hg : Walked d 2 w m g) (hw : w ≤ 4) (prev : Nat) :
      Goes epoch [t] 1 g (.frame 0 0 prev (usable d / 64)) (setDir g t 1 prev) (.table 1) :=
    .one ((retireStep_frame rfl ..).trans (retireFrame_last 0 prev hleft (hg.room hq (by omega) (by omega) _ (n := 1) (by omega)).2))
  rw [hnx, relink_empties, w2.headWord, w2.headWord] at hmeet
  by_cases hm : dwordOf (memByte d) (f + 16) % 2 ^ 40 ≤ epoch ∧ bitOf (dwordOf (memByte d) (f + 16)) 53 = 0
  · have w3 := (w2.setHead hf36 hal (o := 16) (by omega) (dwordOf (memByte d) (f + 16) + 2 ^ 53)).setHead hf36 hal (o := 24) (by omega)
      (dwordOf (memByte d) (f + 24) / 2 ^ 40 * 2 ^ 40 + epoch)
    have s2 := Goes.one ((retireStep_frame (epoch := epoch) (ts := [t]) (i := 0) rfl f 0 (usable d / 64 + 1)).trans (hmeet.1 hm.1 hm.2))
    have w4 := w3.emptyDir hdir
    refine ⟨_, (s1.trans s2).trans (hlast w4 (by omega) 0), ?_⟩
    rw [chainWalked, if_pos hm]
    exact w4.setDir hdir (j := 1) (by omega) 0
  · have s2 := Goes.one ((retireStep_frame (epoch := epoch) (ts := [t]) (i := 0) rfl f 0 (usable d / 64 + 1)).trans (hmeet.2 hm))
    refine ⟨_, (s1.trans s2).trans (hlast w2 (Nat.zero_le 4) f), ?_⟩
    rw [chainWalked, if_neg hm]
    exact (w2.setDir hdir (j := 1) (by omega) f).mono (by omega) (by omega)

/-- The marks of a walk that ends: a device that its bytes describe, with the table's mark on chip taken away. -/
theorem setRetiring_ended {e : Dev} {r w : Nat} {m : Nat → Byte} (h : Walked d r w m e) (ha : dirAt d t < 0x1000000000) :
    ∃ g, Walked d r (w + 2) (walkEnded m (dirAt d t) epoch) g ∧ setRetiring (setDir e t 3 (max (dirWord e t 3 % 2 ^ 40) epoch)) t false =
      unmark g t := by
  have h1 := h.raiseDir ha (j := 3) (by omega) epoch
  generalize setDir e t 3 (max (dirWord e t 3 % 2 ^ 40) epoch) = e1 at h1 ⊢
  exact ⟨_, h1.clearRetiring ha, setRetiring_off e1 t⟩

end

section
variable {s : State} {c : Cmd} {t : Nat} {ids : List Nat}

theorem heldWithin_unmarked {d e : Dev} {r w : Nat} (h : MemStep r w d e) (t id st x : Nat) : HeldWithin w d (finish (unmark e t) id st x) :=
  .of_step h rfl

/-- A retirement of a table without frames only raises its mark. -/
theorem retireWalk_empty {e : Dev} (h : Retires s c t ids) (he : lookLines looker s.dev (dirAt s.dev t) 32 = e) (hf : dirFault e (dirAt e t) 32 = none)
    (hv : bitOf (dirWord e t 0) 40 = 0) (hq : QueuesFree s.dev) :
    MakesTx (.retireWalk c.id) s (finish (setRetiring (setDir e t 3 (max (dirWord e t 3 % 2 ^ 40) (pf c 2 39 0))) t false) c.id 0 0) := by
  have hdm := dirAt_mod s.dev t
  have h1 : MemStep 1 0 s.dev e := he ▸ (lookLines_step s.dev (by decide) (dirAt s.dev t) 32).mono (by omega) (by omega)
  have hroom := (MemStep.refl.room hq (by omega) (by omega) (dirAt s.dev t) (n := 1) (by omega)).1
  have s1 : Goes (pf c 2 39 0) [t] 1 s.dev (.table 0) e (.table 1) :=
    .one ((retireStep_table rfl).trans ((retireTable_reads 0 hroom he hf).trans (by rw [if_pos hv])))
  have hgo := s1.trans (goes_marks (epoch := pf c 2 39 0) (t := t) h1 hq (by omega) (by omega))
  have h2 := h1.trans (setDir_step e t 3 (max (dirWord e t 3 % 2 ^ 40) (pf c 2 39 0)))
  refine makesTx_of_onUnitTx (exec_retireWalk ..) (retireWalk_ends h hgo (by omega)) hq ?_ (Nat.le_add_left 4 28)
  rw [setRetiring_off]
  exact heldWithin_unmarked (h2.trans (setDir_step ..)) t c.id 0 0

/-! ## The doublewords that a retirement leaves -/

section
variable (m : Nat → Byte) {dir f epoch : Nat}

theorem retiringOff_eq (w : Nat) : retiringOff w = w - bitOf w 41 * 2 ^ 41 := by
  have := bitOf_le_one w 41
  unfold retiringOff
  split
  · next h => rw [h, Nat.one_mul]
  · next h => rw [show bitOf w 41 = 0 by omega]; omega

theorem dirD0_empty (w : Nat) : dirD0 w 0 false = bitOf w 41 * 2 ^ 41 := by simp [dirD0, b2n]

theorem retiringOff_dirD0 (w : Nat) : retiringOff (dirD0 w 0 false) = 0 := by
  have := bitOf_le_one w 41
  rw [retiringOff_eq, dirD0_empty]
  unfold bitOf at *
  omega

theorem walkEnded_apart {x : Nat} (h : x + 8 ≤ dir ∨ dir + 32 ≤ x) : dwordOf (walkEnded m dir epoch) x = dwordOf m x := by
  unfold walkEnded
  dsimp only
  rw [dwordOf_putDword_apart _ _ (by omega), dwordOf_putDword_apart _ _ (by omega)]

theorem walkEnded_first : dwordOf (walkEnded m dir epoch) (dir + 8 * 0) = retiringOff (dwordOf m (dir + 8 * 0)) := by
  have := dwordOf_lt m (dir + 8 * 0)
  unfold walkEnded
  dsimp only
  rw [dwordOf_putDword_self, dwordOf_putDword_apart _ _ (by omega), retiringOff_eq]
  omega

theorem walkEnded_last : dwordOf (walkEnded m dir epoch) (dir + 8 * 1) = dwordOf m (dir + 8 * 1) := by
  unfold walkEnded
  dsimp only
  rw [dwordOf_putDword_apart _ _ (by omega), dwordOf_putDword_apart _ _ (by omega)]

theorem walkEnded_mark (he : epoch < 2 ^ 40) : dwordOf (walkEnded m dir epoch) (dir + 8 * 3) = max (dwordOf m (dir + 8 * 3) % 2 ^ 40) epoch := by
  unfold walkEnded
  dsimp only
  rw [dwordOf_putDword_apart _ _ (by omega), dwordOf_putDword_self]
  omega

theorem chainWalked_mark (h : Apart f 64 dir 32) : dwordOf (chainWalked m dir f epoch) (dir + 8 * 3) = dwordOf m (dir + 8 * 3) := by
  unfold chainWalked
  dsimp only
  split
  · rw [dwordOf_putDword_apart _ _ (by omega), dwordOf_putDword_apart _ _ (by omega), dwordOf_putDword_apart _ _ (by omega),
      dwordOf_putDword_apart _ _ (by omega)]
  · rw [dwordOf_putDword_apart _ _ (by omega)]

/-- A frame at or before EPOCH is marked with it, and its chain is empty. -/
theorem chainWalked_marked (h : Apart f 64 dir 32) (he : epoch < 2 ^ 40) (h1 : dwordOf m (f + 16) % 2 ^ 40 ≤ epoch)
    (h2 : bitOf (dwordOf m (f + 16)) 53 = 0) :
    dwordOf (chainWalked m dir f epoch) (f + 16) = dwordOf m (f + 16) + 2 ^ 53 ∧
      dwordOf (chainWalked m dir f epoch) (f + 24) = dwordOf m (f + 24) / 2 ^ 40 * 2 ^ 40 + epoch ∧
      retiringOff (dwordOf (chainWalked m dir f epoch) (dir + 8 * 0)) = 0 ∧ dwordOf (chainWalked m dir f epoch) (dir + 8 * 1) = 0 := by
  have hlt := dwordOf_lt m (f + 16)
  have hlt' := dwordOf_lt m (f + 24)
  unfold chainWalked
  dsimp only
  rw [if_pos ⟨h1, h2⟩]
  refine ⟨?_, ?_, ?_, ?_⟩
  · rw [dwordOf_putDword_apart _ _ (by omega), dwordOf_putDword_apart _ _ (by omega), dwordOf_putDword_apart _ _ (by omega), dwordOf_putDword_self]
    unfold bitOf at h2
    omega
  · rw [dwordOf_putDword_apart _ _ (by omega), dwordOf_putDword_apart _ _ (by omega), dwordOf_putDword_self]
    omega
  · have hb := bitOf_le_one (dwordOf m (dir + 8 * 0)) 41
    rw [dwordOf_putDword_apart _ _ (by omega), dwordOf_putDword_self, dwordOf_putDword_apart _ _ (by omega), dwordOf_putDword_apart _ _ (by omega)]
    have hd : dirD0 (dwordOf m (dir + 8 * 0)) 0 false % 2 ^ 64 % 2 ^ 64 = dirD0 (dwordOf m (dir + 8 * 0)) 0 false := by
      rw [dirD0_empty]
      omega
    rw [hd, retiringOff_dirD0]
  · rw [dwordOf_putDword_self, Nat.zero_mod, Nat.zero_mod]

/-- A later frame stays as it is, first and last of its chain. -/
theorem chainWalked_kept (h : Apart f 64 dir 32) (hf : f < 2 ^ 40) (h1 : epoch < dwordOf m (f + 16) % 2 ^ 40) :
    dwordOf (chainWalked m dir f epoch) (f + 16) = dwordOf m (f + 16) ∧ dwordOf (chainWalked m dir f epoch) (f + 24) = dwordOf m (f + 24) ∧
      dwordOf (chainWalked m dir f epoch) (dir + 8 * 0) = dwordOf m (dir + 8 * 0) ∧ dwordOf (chainWalked m dir f epoch) (dir + 8 * 1) = f := by
  unfold chainWalked
  dsimp only
  rw [if_neg (by omega)]
  refine ⟨dwordOf_putDword_apart _ _ (by omega), dwordOf_putDword_apart _ _ (by omega), dwordOf_putDword_apart _ _ (by omega), ?_⟩
  rw [dwordOf_putDword_self]
  omega

end

namespace Walked
variable {d e : Dev} {r w : Nat} {m : Nat → Byte}

theorem headWord_retired (h : Walked d r w m e) (t id st x a o : Nat) :
    Machine.headWord (pump (finish (unmark e t) id st x)) a o = dwordOf m (a + o) := (memNat_pump ..).trans (h.dword _)

theorem dirWord_retired (h : Walked d r w m e) (u id st x t j : Nat) :
    Machine.dirWord (pump (finish (unmark e u) id st x)) t j = dwordOf m (dirAt d t + 8 * j) := by
  have hat : dirAt (pump (finish (unmark e u) id st x)) t = dirAt d t := by
    rw [← dirAt_of_step h.step]
    unfold dirAt fld rd
    rw [pump_regs]
    rfl
  rw [Machine.dirWord, hat]
  exact h.headWord_retired u id st x (dirAt d t) (8 * j)

theorem cmdOf_retired (h : Walked d r w m e) {c : Cmd} (hc : cmdOf d c.id = some c) (t st x : Nat) :
    cmdOf (pump (finish (unmark e t) c.id st x)) c.id = some { c with st := .done st x } := by
  have he : (unmark e t).ring.cmds = d.ring.cmds := congrArg (·.cmds) h.step.ring
  rw [cmdOf_congr (congrArg (·.cmds) (pump_ring _))]
  exact cmdOf_finish ((cmdOf_congr he _).trans hc) st x

end Walked

theorem not_mem_retiring_unmark (e : Dev) (t id st x : Nat) : t ∉ (pump (finish (unmark e t) id st x)).ring.retiring := by
  rw [pump_ring]
  intro h
  exact of_decide_eq_true (List.mem_filter.mp h).2 rfl

/-- A retirement of a table of one frame marks and unlinks it, or keeps it as a later one. -/
theorem retireWalk_oneFrame {f : Nat} (h : Retires s c t ids) (hfree : WalksFree s) (hd : DirReadable s.dev t) (hv : bitOf (dirWord s.dev t 0) 40 = 1)
    (hf : dirWord s.dev t 0 % 2 ^ 40 = f) (ha : HeadAt s.dev f) (hnext : headWord s.dev f 32 % 2 ^ 40 = 0) (hap : Apart f 64 (dirAt s.dev t) 32) :
    ∃ u, exec (.retireWalk c.id) s = .next u ∧ cmdOf u.dev c.id = some { c with st := .done 0 0 } ∧ t ∉ u.dev.ring.retiring ∧
      dirWord u.dev t 3 = max (dirWord s.dev t 3 % 2 ^ 40) (pf c 2 39 0) ∧
      (headWord s.dev f 16 % 2 ^ 40 ≤ pf c 2 39 0 → bitOf (headWord s.dev f 16) 53 = 0 → headWord u.dev f 16 = headWord s.dev f 16 + 2 ^ 53 ∧
        headWord u.dev f 24 = headWord s.dev f 24 / 2 ^ 40 * 2 ^ 40 + pf c 2 39 0 ∧ dirWord u.dev t 0 = 0 ∧ dirWord u.dev t 1 = 0) ∧
      (pf c 2 39 0 < headWord s.dev f 16 % 2 ^ 40 → headWord u.dev f 16 = headWord s.dev f 16 ∧ headWord u.dev f 24 = headWord s.dev f 24 ∧
        dirWord u.dev t 0 = dirWord s.dev t 0 - bitOf (dirWord s.dev t 0) 41 * 2 ^ 41 ∧ dirWord u.dev t 1 = f) := by
  have hm := soundMemory_of_walksFree hfree
  obtain ⟨-, -, hq, -⟩ := hfree
  have w0 := Walked.start hm
  have hep : pf c 2 39 0 < 2 ^ 40 := pf_lt c 2 39 0
  have hf40 : f < 2 ^ 40 := by omega
  obtain ⟨e, hgo, hwk⟩ := goes_oneFrame (epoch := pf c 2 39 0) hm hq hd hv (hf.symm ▸ ha) (hf.symm ▸ hnext)
  rw [hf] at hwk
  have hends := retireWalk_ends h (hgo.trans (goes_marks (epoch := pf c 2 39 0) (t := t) hwk.step hq (by omega) (by omega))) (by omega)
  obtain ⟨g, hg, heq⟩ := setRetiring_ended (epoch := pf c 2 39 0) hwk (regionOf_gddr hd.1).2
  rw [heq] at hends
  have hx : MakesTx (.retireWalk c.id) s (finish (unmark g t) c.id 0 0) :=
    makesTx_of_onUnitTx (exec_retireWalk ..) hends hq (heldWithin_unmarked hg.step ..) (by omega)
  have hdir (j : Nat) : dirWord s.dev t j = dwordOf (memByte s.dev) (dirAt s.dev t + 8 * j) := w0.dirWord t j
  have hhead (o : Nat) : headWord s.dev f o = dwordOf (memByte s.dev) (f + o) := w0.headWord f o
  have hfar (o : Nat) (ho : o + 8 ≤ 64) : headWord (pump (finish (unmark g t) c.id 0 0)) f o =
      dwordOf (chainWalked (memByte s.dev) (dirAt s.dev t) f (pf c 2 39 0)) (f + o) := by
    rw [hg.headWord_retired, walkEnded_apart _ (by omega)]
  refine ⟨_, hx, hg.cmdOf_retired h.1 t 0 0, not_mem_retiring_unmark g t c.id 0 0, ?_, fun h1 h2 => ?_, fun h1 => ?_⟩
  · rw [hg.dirWord_retired, walkEnded_mark _ hep, chainWalked_mark _ hap, hdir]
  · rw [hhead] at h1 h2
    obtain ⟨k1, k2, k3, k4⟩ := chainWalked_marked _ hap hep h1 h2
    rw [hfar 16 (by omega), hfar 24 (by omega), hg.dirWord_retired, hg.dirWord_retired, walkEnded_first, walkEnded_last, hhead, hhead]
    exact ⟨k1, k2, k3, k4⟩
  · rw [hhead] at h1
    obtain ⟨k1, k2, k3, k4⟩ := chainWalked_kept _ hap hf40 h1
    rw [hfar 16 (by omega), hfar 24 (by omega), hg.dirWord_retired, hg.dirWord_retired, walkEnded_first, walkEnded_last, hhead, hhead, hdir, k3, retiringOff_eq]
    exact ⟨k1, k2, rfl, k4⟩

end

end Sys2Proof.Machine
end

section
namespace Sys2Proof.Machine

/-! ## A command that has begun -/

/-- The start of a command changes the ring engine and its count alone. -/
theorem begun_frame (d : Dev) (c : Cmd) : begun d c = { d with ring := (begun d c).ring, regs := (begun d c).regs } := by
  unfold begun noteFence
  split <;> rfl

theorem begun_retiring (d : Dev) (c : Cmd) : (begun d c).ring.retiring = d.ring.retiring := by
  unfold begun noteFence
  split <;> rfl

theorem begun_sameRegs (d : Dev) (c : Cmd) : SameRegs [.ringCnt] d (begun d c) := by
  have h : SameRegs [.ringCnt] d (bump (noteFence d c) .ringCnt 2) :=
    .trans (e := noteFence d c) (.of_regs (by unfold noteFence; split <;> rfl)) (.bumpN _ (by decide) (by omega))
  exact h.trans (.of_regs rfl)

section
variable (d : Dev) (c : Cmd)

theorem begun_mc : (begun d c).mc = d.mc := by rw [begun_frame]
theorem begun_cache : (begun d c).cache = d.cache := by rw [begun_frame]
theorem begun_shunt : (begun d c).shunt = d.shunt := by rw [begun_frame]
theorem begun_mcGlobal : rd (begun d c) .mcGlobal 0 = rd d .mcGlobal 0 := begun_sameRegs d c _ _ (by decide) (by omega)

end

theorem queuesFree_begun {d : Dev} (h : QueuesFree d) (c : Cmd) : QueuesFree (begun d c) := by
  refine ⟨fun ch => ⟨?_, fun b => ?_⟩, fun k => ?_⟩
  · rw [mcChan, begun_mc]; exact (h.1 ch).1
  · rw [bankReads_congr (begun_mc d c) (begun_mcGlobal d c)]; exact (h.1 ch).2 b
  · rw [fillsIn, begun_cache]; exact h.2 k

/-- A refusal at the check asks nothing of memory. -/
theorem makesTx_of_refusal {i : Instr} {s : State} {f : Dev → Dev} {c : Cmd} (hx : exec i s = onUnitTx s f) {st x : Nat}
    (hf : f s.dev = finish (begun s.dev c) c.id st x) : MakesTx i s (finish (begun s.dev c) c.id st x) :=
  makesTx_of_same hx hf (begun_mc ..) (congrArg CacheSt.fills (begun_cache ..)) (begun_mcGlobal ..)

/-! ## RETIRE_EPOCH (R87, R142, R488) -/

theorem exec_retireEpoch (id : Nat) (s : State) : exec (.retireEpoch id) s = onUnitTx s (retireEpoch id) := rfl

theorem setRetiring_on (d : Dev) (t : Nat) : ∃ w r, setRetiring d t true = { setDir d t 0 w with ring := r } := by
  rw [setRetiring_eq]
  exact ⟨_, _, rfl⟩

theorem markTables_one {d : Dev} {t : Nat} (h : roomOf d (dirAt d t) 1 = true) : markTables [t] 0 d = (setRetiring d t true, 1) := by
  rw [markTables, if_pos h, markTables]

theorem heldWithin_marked {d e : Dev} {r w : Nat} (h : MemStep r w d e) (x : RingSt) (id : Nat) (f : Cmd → Cmd) :
    HeldWithin w d (modCmd { e with ring := x } id f) := .of_step h rfl

section
variable {s : State} {c : Cmd} {t : Nat}

/-- A RETIRE_EPOCH of one table, past its check: refused, or the table's entry is looked at and its bit set. -/
theorem retireEpoch_begins (h : Begins s.dev c 0x22) (ht : pf c 1 15 0 = t) (hall : t ≠ 0xFFFF) :
    (t ∈ s.dev.ring.retiring → retireEpoch c.id s.dev = finish (begun s.dev c) c.id 2 5) ∧
    (t ∉ s.dev.ring.retiring → snapshotsFrom (begun s.dev c) (pf c 2 39 0) = true → retireEpoch c.id s.dev = finish (begun s.dev c) c.id 2 6) ∧
    (∀ e, t ∉ s.dev.ring.retiring → snapshotsFrom (begun s.dev c) (pf c 2 39 0) = false →
      lookLines looker (begun s.dev c) (dirAt (begun s.dev c) t) 32 = e → gddrOut e 0 (dirAt e t) 32 = none → roomOf e (dirAt e t) 1 = true →
        retireEpoch c.id s.dev = modCmd (setRetiring e t true) c.id (fun k => { k with
          aux := 1 :: t :: openIngests e (fun u => [t].contains u), walk := .start })) := by
  have hbusy : (begun s.dev c).ring.retiring.contains t = true ↔ t ∈ s.dev.ring.retiring := by rw [begun_retiring, List.contains_iff_mem]
  refine ⟨fun hin => ?_, fun hin hsnap => ?_, fun e hin hsnap he hout hroom => ?_⟩
  · unfold retireEpoch
    rw [checked_begins h]
    simp only [ht, if_neg hall, if_pos (hbusy.mpr hin)]
  · unfold retireEpoch
    rw [checked_begins h]
    simp only [ht, if_neg hall, if_neg (hbusy.not.mpr hin), if_pos hsnap]
  · have hone : tablesOf t = [t] := if_neg hall
    unfold retireEpoch
    rw [checked_begins h]
    simp only [ht, if_neg hall, if_neg (hbusy.not.mpr hin), hsnap, Bool.false_eq_true, if_false, hone, List.length_singleton, Nat.mul_one, he, hout, Option.map_none,
      markTables_one hroom, if_true, List.singleton_append]

/-- A RETIRE_EPOCH that no reason refuses sets its table's bit and waits for the INGESTs of the table. -/
theorem retireEpoch_marks {e : Dev} (h : Begins s.dev c 0x22) (ht : pf c 1 15 0 = t) (hall : t ≠ 0xFFFF) (hin : t ∉ s.dev.ring.retiring)
    (hsnap : snapshotsFrom (begun s.dev c) (pf c 2 39 0) = false) (he : lookLines looker (begun s.dev c) (dirAt (begun s.dev c) t) 32 = e)
    (hout : gddrOut e 0 (dirAt e t) 32 = none) (hq : QueuesFree s.dev) :
    MakesTx (.retireEpoch c.id) s (modCmd (setRetiring e t true) c.id (fun k => { k with
      aux := 1 :: t :: openIngests e (fun u => [t].contains u), walk := .start })) := by
  have hdm := dirAt_mod (begun s.dev c) t
  have h1 : MemStep 1 0 (begun s.dev c) e := he ▸ (lookLines_step _ (by decide) (dirAt (begun s.dev c) t) 32).mono (by omega) (by omega)
  have hroom := (h1.room (queuesFree_begun hq c) (by omega) (by omega) (dirAt e t) (n := 1) (by omega)).2
  refine makesTx_of_onUnitTx (w := 0 + 2) (exec_retireEpoch ..) ((retireEpoch_begins h ht hall).2.2 e hin hsnap he hout hroom) hq ?_ (by omega)
  obtain ⟨w, r, hset⟩ := setRetiring_on e t
  rw [hset]
  exact (HeldWithin.of_mc (begun_mc ..)).trans (heldWithin_marked ((h1.trans (setDir_step e t 0 w)).mono (r' := 1) (by omega) (by omega)) r c.id _)

/-! ## SNAPSHOT_RESULT (R141) -/

theorem exec_snapshotResult (id : Nat) (s : State) : exec (.snapshotResult id) s = onUnitTx s (snapshotResult id) := rfl

/-- A SNAPSHOT of one table whose entry is read without a fault is answered with its HIGH_EPOCH. -/
theorem snapshotResult_answers {e : Dev} (hc : cmdOf s.dev c.id = some c) (hr : running s.dev = true) (hop : c.opcode = 0x21) (hs : c.st = .running)
    (ht : pf c 1 15 0 = t) (hall : t ≠ 0xFFFF) (hids : ingestsDone s.dev c.aux = true) (hon : allOn s.dev (needDoms s.dev 0) = true)
    (hup : memUp s.dev 0 = true) (hq : QueuesFree s.dev) (he : lookLines looker s.dev (dirAt s.dev t) 32 = e) (hf : dirFault e (dirAt e t) 32 = none) :
    MakesTx (.snapshotResult c.id) s (finish e c.id 0 (dirWord e t 2 % 2 ^ 40)) := by
  have hone : tablesOf t = [t] := if_neg hall
  have hrow : snapshotResult c.id s.dev = finish e c.id 0 (dirWord e t 2 % 2 ^ 40) := by
    have hcond : running s.dev = true ∧ c.opcode = 0x21 ∧ c.st = .running ∧ ingestsDone s.dev c.aux = true := ⟨hr, hop, hs, hids⟩
    delta snapshotResult
    rw [hc]
    refine (if_pos hcond).trans ?_
    rw [whenUp_up hon hup, ht, hone]
    simp only [List.headD_cons, List.length_singleton, Nat.mul_one, he, hf]
    rw [List.foldl_cons, List.foldl_nil, Nat.zero_max]
  have hlook := lookLines_step s.dev (req := looker) (by decide) (dirAt s.dev t) 32
  rw [he] at hlook
  exact makesTx_of_onUnitTx (exec_snapshotResult ..) hrow hq (.of_step hlook rfl) (Nat.zero_le 32)

/-! ## Commands that wait for a unit (R76, R77, R87, R95) -/

theorem exec_ingest (id : Nat) (s : State) : exec (.ingest id) s = onDevTx s (ingest id) := rfl
theorem exec_snapshot (id : Nat) (s : State) : exec (.snapshot id) s = onDevTx s (checked 0x21 id (fun c d =>
    modCmd d id (fun k => { k with aux := openIngests d (fun t => decide (pf c 1 15 0 = 0xFFFF ∨ t = pf c 1 15 0)) }))) := rfl
theorem exec_dmaRun (id : Nat) (s : State) : exec (.dmaRun id) s = onDevTx s (dmaRun id) := rfl
theorem exec_readBack (id : Nat) (s : State) : exec (.readBack id) s = onDevTx s (copyCommand 0x60 id) := rfl
theorem exec_writeDown (id : Nat) (s : State) : exec (.writeDown id) s = onDevTx s (copyCommand 0x61 id) := rfl
theorem exec_junctionUpdate (id : Nat) (s : State) : exec (.junctionUpdate id) s = onDevTx s (junctionCommand 0x40 id) := rfl
theorem exec_junctionSearchBatch (id : Nat) (s : State) : exec (.junctionSearchBatch id) s = onDevTx s (junctionCommand 0x41 id) := rfl
theorem exec_sort (id : Nat) (s : State) : exec (.sort id) s = onDevTx s (checked 0x50 id (fun c d =>
    if pf c 3 39 0 = 0 then finish d id 0 0 else humpFill 16 { d with hump := { d.hump with cmds := d.hump.cmds ++ [id] } })) := rfl

section
variable {d : Dev}

/-- An INGEST without a seed that has data to move waits for a channel. -/
theorem ingest_queues (h : Begins d c 0x20) (ht : pf c 5 15 0 = 0xFFFF ∨ pf c 5 15 0 ∉ d.ring.retiring) (hseed : pf c 7 12 0 = 0) (hn : pf c 3 39 0 ≠ 0) :
    ingest c.id d = modCmd { begun d c with shunt := { (begun d c).shunt with cmds := (begun d c).shunt.cmds ++ [c.id] } } c.id
      (fun k => { k with aux := [0, 0] }) := by
  have hret : ¬(pf c 5 15 0 ≠ 0xFFFF ∧ (begun d c).ring.retiring.contains (pf c 5 15 0) = true) := by
    rw [begun_retiring, List.contains_iff_mem]
    exact fun ⟨h1, h2⟩ => ht.elim h1 fun h3 => h3 h2
  have hsat : sat4096 (pf c 7 12 0) = 0 := by rw [hseed]; rfl
  unfold ingest
  rw [checked_begins h]
  simp only [if_neg hret, hsat, ne_eq, not_true_eq_false, false_and, if_false, hn, and_false, if_true]

theorem ingest_refused (h : Begins d c 0x20) (ht : pf c 5 15 0 ≠ 0xFFFF) (hin : pf c 5 15 0 ∈ d.ring.retiring) :
    ingest c.id d = finish (begun d c) c.id 2 5 := by
  have hret : pf c 5 15 0 ≠ 0xFFFF ∧ (begun d c).ring.retiring.contains (pf c 5 15 0) = true := by
    rw [begun_retiring, List.contains_iff_mem]
    exact ⟨ht, hin⟩
  unfold ingest
  rw [checked_begins h]
  exact if_pos hret

theorem chan_begun (d : Dev) (c : Cmd) (ch : Nat) : chan (begun d c) ch = chan d ch := by rw [chan, begun_shunt]; rfl

/-- A DMA_RUN starts on its channel where that is idle, and is refused where it is not. -/
theorem dmaRun_begins (h : Begins d c 0x30) :
    (arbHeld d = false → (chan d (pf c 2 3 0)).ph = .idle → dmaRun c.id d =
      startChan (begun d c) (pf c 2 3 0) { src := .dma c.id, port := c.port, prog := some (pw c 1 / 64 * 64) }) ∧
    ((chan d (pf c 2 3 0)).ph ≠ .idle → dmaRun c.id d = finish (begun d c) c.id 2 8) := by
  obtain ⟨hc, -⟩ := id h
  refine ⟨fun ha hi => ?_, fun hi => ?_⟩
  · unfold dmaRun
    simp only [hc, ha, Bool.false_eq_true, false_and, if_false, checked_begins h, chan_begun, hi, ne_eq, not_true_eq_false]
  · unfold dmaRun
    simp only [hc, hi, and_false, if_false, checked_begins h, chan_begun, ne_eq, not_false_eq_true, if_true]

theorem copyCommand_begins {op : Nat} (h : Begins d c op) :
    (pf c 3 39 0 = 0 → copyCommand op c.id d = finish (begun d c) c.id 0 0) ∧
    (pf c 3 39 0 ≠ 0 → copyCommand op c.id d =
      { begun d c with shunt := { (begun d c).shunt with cmds := (begun d c).shunt.cmds ++ [c.id] } }) := by
  unfold copyCommand
  rw [checked_begins h]
  exact ⟨fun h0 => if_pos h0, fun h0 => if_neg h0⟩

/-- A command of the Junction that names n entries or keys ends at once where n is 0, and waits for the program queue otherwise. -/
theorem junctionCommand_begins {op n : Nat} (h : Begins d c op) (hn : (if op = 0x40 then pf c 3 16 0 else pf c 4 39 0) = n) :
    (n = 0 → junctionCommand op c.id d = finish (begun d c) c.id 0 0) ∧
    (n ≠ 0 → junctionCommand op c.id d =
      { begun d c with junc := { (begun d c).junc with cmds := (begun d c).junc.cmds ++ [c.id] } }) := by
  unfold junctionCommand
  rw [checked_begins h, ← hn]
  exact ⟨fun h0 => if_pos h0, fun h0 => if_neg h0⟩

/-- A command that alone waits for the job queue takes a free place of it. -/
theorem humpFill_one (id : Nat) (hc : d.hump.cmds = []) (hr : d.hump.rings = []) (hq : d.hump.queue.length < 16) :
    humpFill 16 { d with hump := { d.hump with cmds := d.hump.cmds ++ [id] } } =
      { d with hump := { d.hump with queue := d.hump.queue ++ [.cmd id] } } := by
  have hnone : humpRing [] = none := rfl
  have hstop (k : Nat) (e : Dev) (h1 : e.hump.cmds = []) (h2 : e.hump.rings = []) : humpFill (k + 1) e = e := by
    simp only [humpFill, h1, h2, hnone, ite_self]
  rw [humpFill]
  simp only [hc, List.nil_append, if_neg (show ¬16 ≤ d.hump.queue.length by omega)]
  exact hstop 14 _ rfl hr

end

end

/-- Settles O39, row by row: a command past its check is queued, answered or refused, and the walks are those of a chain of one frame. -/
theorem unitCommands : Obligations.UnitCommands := by
  intro s c f d tab a b z2 f2 t e e0
  refine ⟨fun h h1 h2 h3 => ?_, fun h h1 h2 => ?_, fun h => ?_, fun h h1 h2 h3 h4 h5 => ?_, fun h h1 h2 => ?_, fun h h1 h2 h3 => ?_,
    fun h h1 h2 => ?_, fun h h1 => ?_, fun x hx => ?_, fun x hx => ?_, fun h h1 => ?_, fun h h1 h2 h3 h4 => ?_,
    fun hc hr hop hs hall hids hon hup hq hf => ?_, fun hc hr hop hs ht h0 h1 he => ?_, ?_, fun ids h hf hv hq => ?_, fun ids h hw hd hv hf ha hn hap => ?_⟩
  · exact makesTx_of_onDevTx (exec_ingest ..) (ingest_queues h h1 h2 h3)
  · exact makesTx_of_onDevTx (exec_ingest ..) (ingest_refused h h1 h2)
  · exact makesTx_of_onDevTx (exec_snapshot ..) (checked_begins h _)
  · exact retireEpoch_marks h rfl h1 h2 h3 rfl h4 h5
  · exact makesTx_of_refusal (exec_retireEpoch ..) ((retireEpoch_begins h rfl h1).1 h2)
  · exact makesTx_of_refusal (exec_retireEpoch ..) ((retireEpoch_begins h rfl h1).2.1 h2 h3)
  · obtain ⟨ph, hph, hch⟩ := chan_startChan_self (begun s.dev c) (pf c 2 3 0) { src := .dma c.id, port := c.port, prog := some (pw c 1 / 64 * 64) }
    have hx := makesTx_of_onDevTx (exec_dmaRun c.id s) ((dmaRun_begins h).1 h1 h2)
    generalize startChan (begun s.dev c) (pf c 2 3 0) _ = g at hch hx
    refine ⟨_, hx, ?_⟩
    have hp : chan (pump g) (pf c 2 3 0) = chan g (pf c 2 3 0) := by rw [pump_frame]; rfl
    rw [hp, hch]
    exact ⟨rfl, by rcases hph with rfl | rfl <;> simp, rfl, rfl, rfl⟩
  · exact makesTx_of_onDevTx (exec_dmaRun ..) ((dmaRun_begins h).2 h1)
  · have hrow {i : Instr} {op : Nat} (hx : exec i s = onDevTx s (copyCommand op c.id)) :
        (Begins s.dev c op → pf c 3 39 0 = 0 → MakesTx i s (finish d c.id 0 0)) ∧
          (Begins s.dev c op → pf c 3 39 0 ≠ 0 → MakesTx i s { d with shunt := { d.shunt with cmds := d.shunt.cmds ++ [c.id] } }) :=
      ⟨fun h h0 => makesTx_of_onDevTx hx ((copyCommand_begins h).1 h0), fun h h0 => makesTx_of_onDevTx hx ((copyCommand_begins h).2 h0)⟩
    rcases List.mem_pair.mp hx with rfl | rfl
    · exact hrow (exec_readBack ..)
    · exact hrow (exec_writeDown ..)
  · have hrow {i : Instr} {op n : Nat} (hx : exec i s = onDevTx s (junctionCommand op c.id)) (hn : (if op = 0x40 then pf c 3 16 0 else pf c 4 39 0) = n) :
        (Begins s.dev c op → n = 0 → MakesTx i s (finish d c.id 0 0)) ∧
          (Begins s.dev c op → n ≠ 0 → MakesTx i s { d with junc := { d.junc with cmds := d.junc.cmds ++ [c.id] } }) :=
      ⟨fun h h0 => makesTx_of_onDevTx hx ((junctionCommand_begins h hn).1 h0), fun h h0 => makesTx_of_onDevTx hx ((junctionCommand_begins h hn).2 h0)⟩
    rcases List.mem_pair.mp hx with rfl | rfl
    · exact hrow (exec_junctionUpdate ..) rfl
    · exact hrow (exec_junctionSearchBatch ..) rfl
  · exact makesTx_of_onDevTx (exec_sort ..) ((checked_begins h _).trans (if_pos h1))
  · exact makesTx_of_onDevTx (exec_sort ..) ((checked_begins h _).trans ((if_neg h1).trans (humpFill_one c.id h2 h3 h4)))
  · exact snapshotResult_answers hc hr hop hs rfl hall hids hon hup hq rfl hf
  · exact ingestWalk_noTable hc hr hop hs ht h0 h1 he
  · exact ingestWalk_oneFrame rfl rfl rfl
  · exact retireWalk_empty h rfl hf hv hq
  · exact retireWalk_oneFrame h hw hd hv hf ha hn hap

end Sys2Proof.Machine
end

section
namespace Sys2Proof.Machine

/-! ## Reads of a Consist's image (R145, R489) -/

section
variable {d : Dev} {m : Image} {off n : Nat}

theorem imageLook_step (d : Dev) (m : Image) (off n : Nat) : ∃ r, MemStep r 0 d (imageLook d m off n) := ⟨_, lookLines_step d (by decide) ..⟩

theorem imageLook_kept (h : CacheSound d) (m : Image) (off n : Nat) : BytesKept d (imageLook d m off n) := lookLines_kept h (by decide) ..

theorem heldWithin_imageLook (d : Dev) (m : Image) (off n : Nat) : HeldWithin 0 d (imageLook d m off n) := by
  obtain ⟨r, h⟩ := imageLook_step d m off n
  exact .of_step h rfl

theorem consist_imageLook (d : Dev) (m : Image) (off n c : Nat) : consist (imageLook d m off n) c = consist d c := by
  obtain ⟨r, h⟩ := imageLook_step d m off n
  exact consist_congr h.consists c

/-- A read of no image bytes meets nothing. -/
theorem imageFault_empty (d : Dev) (m : Image) (off : Nat) : imageFault d m off 0 = none := by
  have hs : imageSpan m.bytes off 0 = 0 := Nat.zero_min _
  have hb (a : Nat) : firstBadLine d a 0 = none := by simp [firstBadLine, badIn, rawBadIn, lowLine]
  rw [imageFault, hs, spanFault, hb, gddrOut, if_pos rfl]

end

/-! ## The rows of a Consist's life (R169 to R172) -/

theorem exec_consistRakeReady (c : ConsistIx) (r : Fin 8) (s : State) : exec (.consistRakeReady c r) s = onUnitTx s (consistRakeReady c.val r.val) := rfl
theorem exec_consistDomainsReady (c : ConsistIx) (s : State) : exec (.consistDomainsReady c) s = onDev s (consistDomainsReady c.val) := rfl
theorem exec_startDigestDone (c : ConsistIx) (s : State) : exec (.startDigestDone c) s = onUnit s (startDigestDone c.val) := rfl
theorem exec_consistSeedPlacement (c : ConsistIx) (s : State) : exec (.consistSeedPlacement c) s = onUnit s (consistSeedPlacement c.val) := rfl
theorem exec_consistFinish (c : ConsistIx) (s : State) : exec (.consistFinish c) s = onDev s (consistFinish c.val) := rfl
theorem exec_consistWatchdog (c : ConsistIx) (s : State) : exec (.consistWatchdog c) s = onDev s (consistWatchdog c.val) := rfl
theorem exec_terminatingEvent (c : ConsistIx) (s : State) : exec (.terminatingEvent c) s = onDev s (terminatingEvent c.val) := rfl

theorem makes_of_onUnit {i : Instr} {s : State} {f : Dev → Dev} {d : Dev} {w : Nat} (h : exec i s = onUnit s f) (hf : f s.dev = d)
    (hq : QueuesFree s.dev) (hd : HeldWithin w s.dev d) (hw : w ≤ 32) : Makes i s d := by
  subst hf
  rw [Makes, h, onUnit_acts s f (hd.overfills hq hw)]

section
variable {d : Dev} {c : Nat} {k : Consist}

theorem takeParams_none (h : readsOf d (fun o => decide (o = .params c)) = []) : takeParams d c = d := by
  unfold takeParams
  simp [h]

/-- A Timetable without claims needs no carve and no mask. -/
theorem consistDomainsReady_noClaims (hk : k = consist d c) (hv : k.valid = true) (hr : running d = true) (hp : k.ph = .starting) (hc : k.carved = false)
    (hn : k.claimCount = 0) (hcv : k.carving = none) (ha : allOn d (consistDoms d k.domains) = true) :
    consistDomainsReady c d = setConsist d c { k with carved := true } := by
  subst hk
  have hcond : running d = true ∧ (consist d c).valid = true ∧ (consist d c).ph = .starting ∧ (!(consist d c).carved) = true := ⟨hr, hv, hp, by rw [hc]; rfl⟩
  unfold consistDomainsReady
  simp only [if_pos hcond, if_pos ha, hn, Nat.mul_zero, imageFault_empty, hcv, List.range_zero, List.map_nil, List.any_nil, Bool.false_and,
    Bool.false_eq_true, if_false, List.filter_nil, List.foldl_nil, modConsist]

theorem startDigestDone_takes (hk : k = consist d c) (hv : k.valid = true) (hp : k.ph = .starting) (ha : k.attest = true) (hn : k.startDigest = none)
    (hf : imageFault d (imageOf k) 0 k.bytes = none) : startDigestDone c d = setConsist (imageLook d (imageOf k) 0 k.bytes) c
      { k with startDigest := some (imageDigest (imageRead (imageLook d (imageOf k) 0 k.bytes) (imageOf k) 0 k.bytes)) } := by
  subst hk
  have hcond : (consist d c).valid = true ∧ (consist d c).ph = .starting ∧ (consist d c).attest = true ∧ (consist d c).startDigest.isNone = true :=
    ⟨hv, hp, ha, by rw [hn]; rfl⟩
  unfold startDigestDone
  simp only [if_pos hcond, hf, modConsist, consist_imageLook]

/-- A Consist without seeds runs once its start is done. -/
theorem consistSeedPlacement_none (hk : k = consist d c) (hv : k.valid = true) (hp : k.ph = .starting) (he : k.event = 0) (hd : startDone d c k = true)
    (hs : k.seedsOut = false) (hr : readsOf d (fun o => decide (o = .params c)) = []) (h0 : k.seedCount = 0) (hh : k.held = []) :
    consistSeedPlacement c d = setConsist d c { k with seedsOut := true, ph := .running } := by
  subst hk
  have hcond : (consist d c).valid = true ∧ (consist d c).ph = .starting ∧ (consist d c).event = 0 ∧ startDone d c (consist d c) = true := ⟨hv, hp, he, hd⟩
  unfold consistSeedPlacement
  simp only [takeParams_none hr, if_pos hcond, hs, Bool.false_eq_true, if_false, h0, if_true, List.range_zero, List.map_nil, List.foldl_nil, hh,
    and_self, modConsist]

/-- Offers in a row join the offers in their order, in the present cc. -/
theorem foldl_offer {α : Type} (l : List α) (f : α → Offer) (d : Dev) :
    l.foldl (fun d x => offer d (f x)) d = { d with disp := { d.disp with offers := d.disp.offers ++ l.map (fun x => { f x with time := d.cc }) } } := by
  induction l generalizing d with
  | nil => simp
  | cons x l ih => rw [List.foldl_cons, ih]; simp [offer]

/-- A Consist with seeds offers those of its list, then the held ones of INGESTs. -/
theorem consistSeedPlacement_offers {u : Dev} (hk : k = consist d c) (hv : k.valid = true) (hp : k.ph = .starting) (he : k.event = 0)
    (hd : startDone d c k = true) (hs : k.seedsOut = false) (hr : readsOf d (fun o => decide (o = .params c)) = []) (hn : k.seedCount ≠ 0)
    (hf : imageFault d (imageOf k) k.seedOff (64 * ceilDiv k.seedCount 3) = none)
    (hu : imageLook d (imageOf k) k.seedOff (64 * ceilDiv k.seedCount 3) = u) :
    consistSeedPlacement c d = setConsist { u with disp := { u.disp with offers := u.disp.offers ++
      ((List.range k.seedCount).map (fun i => { prod := .seed c, w := seedAt u c k i, time := u.cc }) ++
        k.held.map (fun h => { prod := .ingest h.1, w := h.2, time := u.cc })) } } c { k with seedsOut := true, ph := .starting } := by
  subst hk
  have hcond : (consist d c).valid = true ∧ (consist d c).ph = .starting ∧ (consist d c).event = 0 ∧ startDone d c (consist d c) = true := ⟨hv, hp, he, hd⟩
  have hself (x : DispSt) : consist { u with disp := x } c = consist d c := by
    rw [← hu]
    exact consist_imageLook ..
  unfold consistSeedPlacement
  simp only [takeParams_none hr, if_pos hcond, hs, Bool.false_eq_true, if_false, hn, hf, hu, foldl_offer, List.map_map, Function.comp_def, false_and,
    modConsist, hself, List.append_assoc]

theorem consistFinish_completes (hk : k = consist d c) (hv : k.valid = true) (hp : k.ph = .running) (he : k.event = 0) (hi : consistIdle d c k = true)
    (ha : k.attest = false) : consistFinish c d =
      finish (setConsist d c { k with ph := .completing }) k.cmd (b2n k.truncated) (consistResult c k false) := by
  subst hk
  have hcond : (consist d c).valid = true ∧ (consist d c).ph = .running ∧ (consist d c).event = 0 ∧ consistIdle d c (consist d c) = true := ⟨hv, hp, he, hi⟩
  exact (if_pos hcond).trans (if_neg (by rw [ha]; exact Bool.false_ne_true))

theorem consistFinish_signs (hk : k = consist d c) (hv : k.valid = true) (hp : k.ph = .running) (he : k.event = 0) (hi : consistIdle d c k = true)
    (ha : k.attest = true) : consistFinish c d =
      { setConsist d c { k with ph := .signing } with sbox := { d.sbox with signQ := d.sbox.signQ ++ [.attest c] } } := by
  subst hk
  have hcond : (consist d c).valid = true ∧ (consist d c).ph = .running ∧ (consist d c).event = 0 ∧ consistIdle d c (consist d c) = true := ⟨hv, hp, he, hi⟩
  exact (if_pos hcond).trans (if_pos ha)

theorem consistWatchdog_records (hk : k = consist d c) (hv : k.valid = true) (hw : k.watchdog ≠ 0) (hm : k.watchdog < k.ms)
    (hp : k.ph = .starting ∨ k.ph = .running) : consistWatchdog c d = recordEvent d c 0x0D 0 := by
  subst hk
  exact if_pos ⟨hv, hw, hm, hp⟩

end

/-! ## A Rake takes its kernels (R161, R169) -/

/-- A step of the copies to a Rake: nothing waits in the channels for it, and its Consist keeps its phase and the Rakes that are done. -/
structure CopyStep (c : Nat) (d e : Dev) : Prop where
  held : HeldWithin 0 d e
  rakes : (consist e c).rakes = (consist d c).rakes
  ph : (consist e c).ph = (consist d c).ph

namespace CopyStep
variable {c : Nat} {d e f : Dev}

theorem refl : CopyStep c d d := ⟨.of_mc rfl, rfl, rfl⟩

theorem trans (h1 : CopyStep c d e) (h2 : CopyStep c e f) : CopyStep c d f := ⟨h1.held.trans h2.held, h2.rakes.trans h1.rakes, h2.ph.trans h1.ph⟩

theorem foldl {α : Type} {g : Dev → α → Dev} (l : List α) (h : ∀ e a, CopyStep c e (g e a)) : CopyStep c d (l.foldl g d) := by
  induction l generalizing d with
  | nil => exact refl
  | cons a l ih => exact (h d a).trans ih

theorem ite {p : Prop} [Decidable p] (h1 : CopyStep c d e) (h2 : CopyStep c d f) : CopyStep c d (if p then e else f) := by
  split
  · exact h1
  · exact h2

theorem of_step {r : Nat} (h : MemStep r 0 d e) : CopyStep c d e :=
  ⟨.of_step h rfl, congrArg Consist.rakes (consist_congr h.consists c), congrArg Consist.ph (consist_congr h.consists c)⟩

end CopyStep

section
variable (d : Dev) (c : Nat)

theorem consist_abortInterrupts (n : Nat) : consist (abortInterrupts d n) c = consist d c := consist_congr (by rw [abortInterrupts_frame]) c

theorem recordEvent_copyStep (st r : Nat) : CopyStep c d (recordEvent d c st r) := by
  refine ⟨.of_mc (recordEvent_mc ..), ?_, ?_⟩ <;>
  · unfold recordEvent
    dsimp only
    split
    · rw [consist_abortInterrupts, consist_setConsist_self]
    · split
      · rw [consist_setConsist_self]
      · rfl

/-- What a unit writes on chip for a Consist. -/
theorem unitWrite_copyStep {a : Nat} (ha : 0x1000000000 ≤ a) (bs : List Byte) : CopyStep c d (unitWrite d (some c) a bs) := by
  have h := devWriteFor_chip d (some c) ha bs
  unfold unitWrite
  generalize devWriteFor (some c) d a bs = x at h
  obtain ⟨e, l⟩ := x
  cases l with
  | none => exact .of_step h
  | some l => exact (CopyStep.of_step h).trans (recordEvent_copyStep e c 7 l)

theorem imageLook_copyStep (m : Image) (off n : Nat) : CopyStep c d (imageLook d m off n) := by
  obtain ⟨r, h⟩ := imageLook_step d m off n
  exact .of_step h

theorem copyKernel_copyStep (m : Image) (cores : List Nat) (at_ off n : Nat) : CopyStep c d (copyKernel d c m cores at_ off n) := by
  have hput (e : Dev) (k : Nat) : CopyStep c e (cores.foldl (fun d i => unitWrite d (some c) (imemBase i + at_) (imageRead d m off k)) e) :=
    .foldl _ fun f i => unitWrite_copyStep f c (by unfold imemBase; omega) _
  have hlook := imageLook_copyStep d c m off n
  unfold copyKernel
  dsimp only
  split
  · exact (hlook.trans (hput ..)).trans (recordEvent_copyStep ..)
  · exact hlook.trans (hput ..)

theorem copyStage_copyStep (r : Nat) (k : Consist) (st : Nat) : CopyStep c d (copyStage d c r k st) := by
  have hlook := imageLook_copyStep d c (imageOf k) (256 + 128 * st) 64
  unfold copyStage
  dsimp only
  split
  · exact recordEvent_copyStep ..
  · exact .ite (.trans (.ite hlook (hlook.trans (copyKernel_copyStep ..))) (.foldl _ fun f i => unitWrite_copyStep f c (by unfold storeBase; omega) _))
      (.ite hlook (hlook.trans (copyKernel_copyStep ..)))

end

/-- A Rake that is ON and still to be copied to takes its stages' kernels, and is done. -/
theorem consistRakeReady_copies {d : Dev} {c r : Nat} {k : Consist} (hk : k = consist d c) (hv : k.valid = true) (hp : k.ph = .starting)
    (hparams : k.params.isSome = true) (hr : readsOf d (fun o => decide (o = .params c)) = []) (hnew : r ∉ k.rakes) (hin : r ∈ copyRakes d c k)
    (hon : domOn d (4 + r) = true) : ∃ e, CopyStep c d e ∧ consistRakeReady c r d = modConsist e c (fun k => { k with rakes := sins k.rakes r }) := by
  subst hk
  refine ⟨_, .foldl (kernelStages (consist d c).stages (consist d c).resultStage) fun f st => copyStage_copyStep f c r (consist d c) st, ?_⟩
  unfold consistRakeReady
  rw [takeParams_none hr]
  simp only [hv, hp, hparams, List.contains_eq_mem, hnew, hin, hon, decide_false, decide_true, Bool.not_false, and_self, if_true]

end Sys2Proof.Machine
end

section
namespace Sys2Proof.Machine

/-! ## Wagons that are discarded (R98, R99) -/

/-- A step of a discard: every command stays in flight, and a Consist its command's. -/
structure Discarding (c : Nat) (d e : Dev) : Prop where
  ids : e.ring.cmds.map (fun x => x.id) = d.ring.cmds.map (fun x => x.id)
  cmd : (consist e c).cmd = (consist d c).cmd

namespace Discarding
variable {c : Nat} {d e f : Dev}

theorem of_same (hr : e.ring = d.ring) (hc : e.consists = d.consists) : Discarding c d e :=
  ⟨by rw [hr], congrArg Consist.cmd (consist_congr hc c)⟩

theorem refl : Discarding c d d := of_same rfl rfl

theorem trans (h1 : Discarding c d e) (h2 : Discarding c e f) : Discarding c d f := ⟨h2.ids.trans h1.ids, h2.cmd.trans h1.cmd⟩

theorem foldl {α : Type} {g : Dev → α → Dev} (l : List α) (h : ∀ e a, Discarding c e (g e a)) : Discarding c d (l.foldl g d) := by
  induction l generalizing d with
  | nil => exact refl
  | cons a l ih => exact (h d a).trans ih

end Discarding

section
variable (d : Dev)

theorem recordDiscard_frame (reason c s : Nat) : recordDiscard d reason c s = { d with regs := (recordDiscard d reason c s).regs } := by
  unfold recordDiscard
  rw [recordErr_frame]
  rfl

theorem recordDiscard_disp (reason c s : Nat) : (recordDiscard d reason c s).disp = d.disp := by rw [recordDiscard_frame]

theorem recordDiscard_discarding (c reason k s : Nat) : Discarding c d (recordDiscard d reason k s) :=
  .of_same (by rw [recordDiscard_frame]) (by rw [recordDiscard_frame])

/-- A channel that goes on changes the Shunting Engine and its gates alone. -/
theorem shuntAccepted_frame (ch : Nat) : shuntAccepted d ch = { d with shunt := (shuntAccepted d ch).shunt, regs := (shuntAccepted d ch).regs } := by
  unfold shuntAccepted
  dsimp only
  split
  · split <;> rfl
  · rfl
  · rfl

theorem ids_modCmd (id : Nat) {f : Cmd → Cmd} (hf : ∀ x, (f x).id = x.id) : (modCmd d id f).ring.cmds.map (fun x => x.id) = d.ring.cmds.map (fun x => x.id) := by
  unfold modCmd
  dsimp only
  rw [List.map_map]
  refine List.map_congr_left fun x _ => ?_
  rw [Function.comp_apply]
  split
  · exact hf x
  · rfl

/-- A producer that goes on leaves the Dispatcher. -/
theorem produced_disp (p : Producer) : (produced d p).disp = d.disp := by
  unfold produced
  split
  · dsimp only
    split
    · rw [retire_frame]
    · rfl
  · rfl
  · rfl
  · rw [shuntAccepted_frame]
  · rfl

theorem produced_discarding (c : Nat) (p : Producer) : Discarding c d (produced d p) := by
  unfold produced
  split
  · dsimp only
    split
    · exact .of_same (by rw [retire_frame]) (by rw [retire_frame])
    · exact .refl
  · next k =>
    refine ⟨rfl, ?_⟩
    by_cases h : c = k
    · subst h
      rw [modConsist, consist_setConsist_self]
    · rw [modConsist, consist_setConsist_ne _ _ h]
  · exact ⟨ids_modCmd d _ fun _ => rfl, rfl⟩
  · exact .of_same (by rw [shuntAccepted_frame]) (by rw [shuntAccepted_frame])
  · exact .refl

end

/-- Of a list without the members that satisfy a test none satisfies it. -/
theorem not_mem_erase_filter {α : Type} [DecidableEq α] {l : List α} {p : α → Bool} {x : α} (h : x ∈ (l.filter p).foldl List.erase l) : p x = false := by
  rw [← List.diff_eq_foldl] at h
  by_contra hp
  have hc := List.count_pos_iff.mpr h
  rw [List.count_diff, List.count_filter (by simpa using hp)] at hc
  omega

/-- The offers that are discarded are taken away one by one. -/
theorem foldl_discard_offers (c : Nat) (os : List Offer) (d : Dev) :
    (os.foldl (fun d o => produced (recordDiscard (dropOffer d o) 2 c (wStage o.w)) o.prod) d).disp.offers = os.foldl List.erase d.disp.offers := by
  induction os generalizing d with
  | nil => rfl
  | cons o os ih => rw [List.foldl_cons, ih, produced_disp, recordDiscard_disp]; rfl

theorem foldl_disp {α : Type} {g : Dev → α → Dev} (l : List α) (h : ∀ e a, (g e a).disp = e.disp) (d : Dev) : (l.foldl g d).disp = d.disp := by
  induction l generalizing d with
  | nil => rfl
  | cons a l ih => rw [List.foldl_cons, ih, h]

/-- A list that has lost its Wagons on chip. -/
def emptied (c : Nat) (e : Nat × ReadyList) : Nat × ReadyList :=
  if e.1 / 64 = c then (e.1, { e.2 with chip := [], spilled := false, moved := e.2.written }) else e

theorem emptied_chip {c k : Nat} (h : k / 64 = c) (m : SMap ReadyList) : (mget {} (m.map (emptied c)) k).chip = [] := by
  induction m with
  | nil => rfl
  | cons e m ih =>
    obtain ⟨j, v⟩ := e
    by_cases hj : j / 64 = c
    · rw [List.map_cons, emptied, if_pos hj, mget]
      split
      · rfl
      · split
        · rfl
        · exact ih
    · rw [List.map_cons, emptied, if_neg hj, mget, if_neg (by rintro rfl; exact hj h)]
      split
      · rfl
      · exact ih

/-- A discarded Consist has nothing offered, on its lists or on the result path. -/
structure Discarded (c : Nat) (d e : Dev) : Prop where
  keeps : Discarding c d e
  offers : ∀ o ∈ e.disp.offers, wConsist o.w ≠ c
  lists : ∀ st, st < 64 → (rlist e (listKey c st)).chip = []
  results : ∀ h ∈ e.disp.resultQ, wConsist h.w ≠ c

/-- The last step of a discard empties the lists, windows and result path. -/
theorem discarded_of_offers {c : Nat} {d e : Dev} (h : Discarding c d e) (ho : ∀ o ∈ e.disp.offers, wConsist o.w ≠ c)
    (ws : SMap (List WinEntry)) (f : Consist → Consist) (hf : ∀ k, (f k).cmd = k.cmd) : Discarded c d (modConsist { e with disp := { e.disp with
      lists := e.disp.lists.map (emptied c), windows := ws, resultQ := e.disp.resultQ.filter (fun h => !decide (wConsist h.w = c)) } } c f) where
  keeps := ⟨h.ids, by rw [modConsist, consist_setConsist_self, hf]; exact h.cmd⟩
  offers := ho
  lists st hst := emptied_chip (by unfold listKey; omega) _
  results x hx := by
    have := (List.mem_filter.mp hx).2
    simpa using this

/-- The steps of a discard on the offers, the waiting cores and the held seeds of a Consist. -/
def discardSteps (d : Dev) (c : Nat) (os : List Offer) (waits : List Nat) (out : Bool) (held : List (Nat × Wagon)) : Dev :=
  held.foldl (fun d e => if out then d else recordDiscard d 2 c (wStage e.2)) (waits.foldl (fun d n => produced d (.core n))
    (os.foldl (fun d o => produced (recordDiscard (dropOffer d o) 2 c (wStage o.w)) o.prod) d))

theorem discardSteps_discarding (d : Dev) (c : Nat) (os : List Offer) (waits : List Nat) (out : Bool) (held : List (Nat × Wagon)) :
    Discarding c d (discardSteps d c os waits out held) := by
  refine .trans (.trans (.foldl os fun e o => ?_) (.foldl waits fun e n => produced_discarding e c _)) (.foldl held fun e x => ?_)
  · exact ((Discarding.of_same (d := e) (e := dropOffer e o) rfl rfl).trans (recordDiscard_discarding _ c 2 c (wStage o.w))).trans
      (produced_discarding _ c o.prod)
  · split
    · exact .refl
    · exact recordDiscard_discarding ..

theorem discardSteps_offers (d : Dev) (c : Nat) (os : List Offer) (waits : List Nat) (out : Bool) (held : List (Nat × Wagon)) :
    (discardSteps d c os waits out held).disp.offers = os.foldl List.erase d.disp.offers := by
  have hheld (e : Dev) (x : Nat × Wagon) : (if out then e else recordDiscard e 2 c (wStage x.2)).disp = e.disp := by
    split
    · rfl
    · exact recordDiscard_disp ..
  rw [discardSteps, foldl_disp held hheld, foldl_disp waits (fun e n => produced_disp ..), foldl_discard_offers]

theorem discardWagons_eq (d : Dev) (c : Nat) : ∃ d0 waits ws, Discarding c d d0 ∧ d0.disp = d.disp ∧ ∃ e,
    e = discardSteps d0 c (d.disp.offers.filter (fun o => decide (wConsist o.w = c))) waits (consist d c).seedsOut (consist d c).held ∧
    discardWagons d c = modConsist { e with disp := { e.disp with
      lists := e.disp.lists.map (emptied c), windows := ws, resultQ := e.disp.resultQ.filter (fun h => !decide (wConsist h.w = c)) } } c
      (fun k => { k with held := [] }) := by
  unfold discardWagons
  extract_lets k mine waits os d0
  have h0 : Discarding c d d0 ∧ d0.disp = d.disp := by
    dsimp only [d0]
    split
    · split
      · exact ⟨.of_same rfl rfl, rfl⟩
      · exact ⟨.refl, rfl⟩
    · exact ⟨.refl, rfl⟩
  exact ⟨d0, waits, _, h0.1, h0.2, _, rfl, rfl⟩

theorem discardWagons_discards (d : Dev) (c : Nat) : Discarded c d (discardWagons d c) := by
  obtain ⟨d0, waits, ws, h0, hdisp, e, he, heq⟩ := discardWagons_eq d c
  have hkeep : Discarding c d e := by
    rw [he]
    exact h0.trans (discardSteps_discarding ..)
  have hoffers : e.disp.offers = (d.disp.offers.filter (fun o => decide (wConsist o.w = c))).foldl List.erase d.disp.offers := by
    rw [he, discardSteps_offers, hdisp]
  rw [heq]
  refine discarded_of_offers hkeep (fun o hmem => ?_) ws _ fun _ => rfl
  rw [hoffers] at hmem
  have hno := not_mem_erase_filter hmem
  simpa using hno

theorem cmdOf_isSome_of_ids {d e : Dev} (h : e.ring.cmds.map (fun x => x.id) = d.ring.cmds.map (fun x => x.id)) (id : Nat) :
    (cmdOf e id).isSome = (cmdOf d id).isSome := by
  have hany (f : Dev) : (cmdOf f id).isSome = (f.ring.cmds.map (fun x => x.id)).any (fun i => decide (i = id)) := by
    rw [Bool.eq_iff_iff, cmdOf, List.find?_isSome, List.any_map, List.any_eq_true]
    rfl
  rw [hany, hany, h]

/-- A terminating event of a Consist without work left discards its Wagons and ends its command with the event's status. -/
theorem terminatingEvent_ends {d : Dev} {c : Nat} {k : Consist} (hk : k = consist d c) (hv : k.valid = true) (he : k.event ≠ 0) (hp : k.ph ≠ .completing)
    (hw : k.work = 0) : terminatingEvent c d =
      endConsist (discardWagons d c) c k.event (if k.event = 8 ∨ k.event = 0x0D then consistResult c k false else k.evResult) := by
  subst hk
  exact (if_pos ⟨hv, he, hp⟩).trans (if_pos hw)

theorem endConsist_ends {d : Dev} {c : Nat} {x : Cmd} (h : cmdOf d (consist d c).cmd = some x) (st r : Nat) :
    (consist (endConsist d c st r) c).ph = .completing ∧ cmdOf (endConsist d c st r) (consist d c).cmd = some { x with st := .done st r } :=
  ⟨congrArg Consist.ph (consist_setConsist_self ..), cmdOf_finish (d := modConsist d c _) h st r⟩

end Sys2Proof.Machine
end

section
namespace Sys2Proof.Machine

/-! ## What a kernel's copy reads (R145, R372, R489) -/

/-- GDDR6 lies below every on-chip memory. -/
theorem usable_le (d : Dev) : usable d ≤ 0x1000000000 := by
  have hch : (channels d).length ≤ 16 := by
    unfold channels idxWhere
    exact (List.length_filter_le ..).trans (by rw [List.length_range])
  have hlines : dataLines d ≤ 32 := by
    unfold dataLines
    split <;> omega
  have hrows : rowsPerBank d ≤ 131072 := by
    unfold rowsPerBank
    dsimp only
    split <;> split <;> omega
  calc usable d = (channels d).length * 64 * dataLines d * 16 * rowsPerBank d := rfl
    _ ≤ 16 * 64 * 32 * 16 * 131072 := by gcongr
    _ = 0x1000000000 := by norm_num

section
variable {d e : Dev} {m : Image} {p a off n : Nat}

theorem le_usable_of_gddrOut (h : gddrOut d p a n = none) (hn : n ≠ 0) : a + n ≤ usable d := by
  unfold gddrOut at h
  by_contra hout
  rw [if_neg hn, if_neg fun hle => hout (hle.trans (Nat.min_le_left ..))] at h
  cases h

/-- A read that meets nothing lies in GDDR6. -/
theorem le_usable_of_imageFault (h : imageFault d m off n = none) (hn : imageSpan m.bytes off n ≠ 0) :
    m.home + off + imageSpan m.bytes off n ≤ usable d := by
  refine le_usable_of_gddrOut (p := m.port) ?_ hn
  unfold imageFault spanFault at h
  split at h
  · assumption
  · cases h
  · cases h
  · split at h <;> cases h

theorem gddrOut_congr_step {r w : Nat} (h : MemStep r w d e) (p a n : Nat) : gddrOut e p a n = gddrOut d p a n := by
  unfold gddrOut
  rw [usable_of_step h, port_congr h.ports]

/-- A read meets what it met before, in memory without errors. -/
theorem imageFault_of_step {r w : Nat} (h : MemStep r w d e) (hd : d.badUnits = []) (he : e.badUnits = []) (m : Image) (off n : Nat) :
    imageFault e m off n = imageFault d m off n := by
  rw [imageFault, imageFault, spanFault, spanFault, gddrOut_congr_step h, firstBadLine_none he, firstBadLine_none hd]

end

/-- A step of a copy in memory without errors: memory below the Yard stays. -/
structure Copying (d e : Dev) : Prop where
  step : ∃ r, MemStep r 0 d e
  sound : SoundMemory e
  low : ∀ x, x < 0x8000000000 → memByte e x = memByte d x

namespace Copying
variable {d e : Dev} {m : Image} {off n : Nat}

theorem start (h : SoundMemory d) : Copying d d := ⟨⟨0, .refl⟩, h, fun _ _ => rfl⟩

theorem look (h : Copying d e) (m : Image) (off n : Nat) : Copying d (imageLook e m off n) := by
  obtain ⟨⟨r, hr⟩, hs, hlow⟩ := h
  obtain ⟨r', hr'⟩ := imageLook_step e m off n
  have hk := imageLook_kept hs.cache m off n
  exact ⟨⟨_, hr.trans hr'⟩, hk.memory hs, fun x hx => (congrFun (hk.memByte (cacheCtrl_of_step hr')) x).trans (hlow x hx)⟩

theorem write (h : Copying d e) {a : Nat} (ha : 0x8000000000 ≤ a) (bs : List Byte) : Copying d (memWrite e a bs) := by
  obtain ⟨⟨r, hr⟩, hs, hlow⟩ := h
  exact ⟨⟨_, hr.trans (memWrite_step e a bs)⟩, memWrite_sound hs a bs, fun x hx => (memByte_memWrite_outside e (.inl (by omega))).trans (hlow x hx)⟩

/-- The image's bytes are read as before. -/
theorem imageRead (h : Copying d e) (hd : SoundMemory d) (hf : imageFault d m off n = none) : imageRead e m off n = imageRead d m off n := by
  have hread : memRead e (m.home + off) (imageSpan m.bytes off n) = memRead d (m.home + off) (imageSpan m.bytes off n) := by
    rw [memRead_eq h.sound.wf, memRead_eq hd.wf]
    refine List.map_congr_left fun k hk => h.low _ ?_
    have hlt := List.mem_range.mp hk
    have := le_usable_of_imageFault hf (by omega)
    have := usable_le d
    omega
  rw [Machine.imageRead, Machine.imageRead, hread]

end Copying

theorem length_imageRead {d : Dev} (h : SoundMemory d) (m : Image) (off n : Nat) : (imageRead d m off n).length = n := by
  have hs : imageSpan m.bytes off n ≤ n := Nat.min_le_left ..
  rw [imageRead, memRead_eq h.wf, List.length_append, List.length_map, List.length_range, zeros, List.length_replicate]
  omega

/-! ## The copy to the cores' instruction memories (R16, R161) -/

/-- A unit's write of a store on chip other than the Yard, in memory without errors. -/
theorem unitWrite_chip {d : Dev} (h : d.badUnits = []) (c : Option Nat) {a : Nat} (ha : 0x8001000000 ≤ a) (bs : List Byte) :
    unitWrite d c a bs = memWrite d a bs := by
  have htouch : yardTouch d a bs.length = d := if_pos (.inr (.inr ha))
  have hstore : storeWrite d a bs = (memWrite d a bs, none) := by simp [storeWrite, spoiled, h, lowLine]
  have hdev : devWriteFor c d a bs = (memWrite d a bs, none) := by
    rw [devWriteFor, if_neg (by omega), htouch, hstore]
  simp only [unitWrite, hdev]

section
variable {d e : Dev} {m : Image} {off n at_ c j i : Nat}

/-- After the copy each core's instruction memory holds the kernel's bytes, and another's is as it was. -/
theorem memByte_copied (hd : SoundMemory d) (hf : imageFault d m off n = none) (hat : at_ + n ≤ 65536) (hi : i < n) (cores : List Nat) (h : Copying d e) :
    memByte (cores.foldl (fun d i => unitWrite d (some c) (imemBase i + at_) (imageRead d m off n)) e) (imemBase j + at_ + i) =
      if j ∈ cores then ((imageRead d m off n)[i]?).getD 0 else memByte e (imemBase j + at_ + i) := by
  induction cores generalizing e with
  | nil => rfl
  | cons a cores ih =>
    have hlen := length_imageRead hd m off n
    have hwrite : unitWrite e (some c) (imemBase a + at_) (imageRead e m off n) = memWrite e (imemBase a + at_) (imageRead d m off n) := by
      rw [unitWrite_chip h.sound.units _ (by unfold imemBase; omega), h.imageRead hd hf]
    rw [List.foldl_cons, hwrite, ih (h.write (by unfold imemBase; omega) _)]
    by_cases hj : j ∈ cores
    · rw [if_pos hj, if_pos (List.mem_cons_of_mem _ hj)]
    · rw [if_neg hj]
      by_cases hja : j = a
      · subst hja
        have hget : (imageRead d m off n)[imemBase j + at_ + i - (imemBase j + at_)]? = some ((imageRead d m off n)[i]'(by omega)) := by
          rw [Nat.add_sub_cancel_left, List.getElem?_eq_getElem]
        rw [if_pos List.mem_cons_self, memByte_memWrite_at e (by omega) hget, List.getElem?_eq_getElem (by omega), Option.getD_some]
      · rw [if_neg (by simp [hja, hj]), memByte_memWrite_outside e (by rw [hlen]; unfold imemBase; omega)]

end

/-- A stage's kernel stands in the instruction memory of each of its cores of the Rake. -/
theorem memByte_copyStage {d : Dev} {c r st j i n at_ off : Nat} {k : Consist} {cores : List Nat} (hd : SoundMemory d)
    (hat : bitsOf (descWord d (imageOf k) st 2) 15 0 = at_) (hoff : bitsOf (descWord d (imageOf k) st 1) 39 0 = off)
    (hn : min (min 65536 (bitsOf (descWord d (imageOf k) st 1) 56 40)) (65536 - at_) = n)
    (hcores : rakeCores (bitsOf (descWord d (imageOf k) st 0) 63 32) r = cores) (hdesc : descFault d (imageOf k) st = none)
    (hf : imageFault d (imageOf k) off n = none) (hparam : bitsOf (descWord d (imageOf k) st 3) 44 44 = 0) (hj : j ∈ cores) (hi : i < n) :
    memByte (copyStage d c r k st) (imemBase j + at_ + i) = ((imageRead d (imageOf k) off n)[i]?).getD 0 := by
  have hlook := (Copying.start hd).look (imageOf k) (256 + 128 * st) 64
  generalize he : imageLook d (imageOf k) (256 + 128 * st) 64 = e at hlook
  obtain ⟨⟨r1, hr1⟩, hs, -⟩ := id hlook
  have hstage : copyStage d c r k st = copyKernel e c (imageOf k) cores at_ off n := by
    unfold copyStage
    simp only [hat, hoff, hn, hcores, hdesc, he, hparam, Nat.zero_ne_one, if_false, if_neg (show ¬(n = 0 ∨ cores = []) by
      rintro (h | h)
      · omega
      · rw [h] at hj; cases hj)]
  have hkernel : copyKernel e c (imageOf k) cores at_ off n = cores.foldl (fun d i => unitWrite d (some c) (imemBase i + at_) (imageRead d (imageOf k) off n))
      (imageLook e (imageOf k) off n) := by
    unfold copyKernel
    rw [imageFault_of_step hr1 hd.units hs.units, hf]
  rw [hstage, hkernel, memByte_copied hd hf (by omega) hi cores (hlook.look ..), if_pos hj]

/-- Settles O46, row by row; the copy's bytes follow by induction on the cores that it writes. -/
theorem consistRows : Obligations.ConsistRows := by
  refine ⟨fun s c k hk hv => ⟨fun r hp hparams hr hnew hin hon hq => ?_, fun hr hp hc hn hcv ha => ?_, fun hp ha hn hf hq => ?_,
    fun hp he hd hs hr => ⟨fun h0 hh => ?_, fun hn hf hq => ?_⟩, fun hp he hi => ⟨fun ha => ?_, fun ha => ?_⟩, fun hw hm hp he => ?_,
    fun x he hp hw hx => ?_⟩, fun d c r k st j i hb hc hwf hdesc hf hparam hj _ hi => ?_⟩
  · obtain ⟨e, hcopy, hready⟩ := consistRakeReady_copies hk hv hp hparams hr hnew hin hon
    have hx : MakesTx (.consistRakeReady c r) s (modConsist e c.val (fun k => { k with rakes := sins k.rakes r.val })) :=
      makesTx_of_onUnitTx (exec_consistRakeReady c r s) hready hq ⟨hcopy.held.held⟩ (by omega)
    refine ⟨_, hx, ?_, ?_⟩
    · rw [consist_congr (pump_consists _), modConsist, consist_setConsist_self, hcopy.rakes, ← hk]
    · rw [consist_congr (pump_consists _), modConsist, consist_setConsist_self, hcopy.ph, ← hk]
      exact hp
  · exact makes_of_onDev (exec_consistDomainsReady c s) (consistDomainsReady_noClaims hk hv hr hp hc hn hcv ha)
  · exact makes_of_onUnit (exec_startDigestDone c s) (startDigestDone_takes hk hv hp ha hn hf) hq ⟨(heldWithin_imageLook s.dev (imageOf k) 0 k.bytes).held⟩
      (by omega)
  · have hrow := consistSeedPlacement_none hk hv hp he hd hs hr h0 hh
    rw [Makes, exec_consistSeedPlacement, onUnit_acts s _ (by rw [hrow]; exact overfills_of_same rfl rfl rfl), hrow]
  · have hrow := consistSeedPlacement_offers hk hv hp he hd hs hr hn hf rfl
    have hheld := heldWithin_imageLook s.dev (imageOf k) k.seedOff (64 * ceilDiv k.seedCount 3)
    obtain ⟨w, hstep⟩ := imageLook_step s.dev (imageOf k) k.seedOff (64 * ceilDiv k.seedCount 3)
    generalize imageLook s.dev (imageOf k) k.seedOff (64 * ceilDiv k.seedCount 3) = u at hrow hheld hstep ⊢
    have hx := makes_of_onUnit (exec_consistSeedPlacement c s) hrow hq ⟨hheld.held⟩ (by omega)
    rw [hstep.cc, hstep.disp] at hx
    exact ⟨_, hx, congrArg Consist.seedsOut (consist_setConsist_self ..), congrArg Consist.ph (consist_setConsist_self ..), rfl⟩
  · exact makes_of_onDev (exec_consistFinish c s) (consistFinish_completes hk hv hp he hi ha)
  · exact makes_of_onDev (exec_consistFinish c s) (consistFinish_signs hk hv hp he hi ha)
  · have hph : k.ph ≠ .completing := by rcases hp with h | h <;> simp [h]
    refine ⟨_, makes_of_onDev (exec_consistWatchdog c s) (consistWatchdog_records hk hv hw hm hp), ?_⟩
    subst hk
    exact recordEvent_first hv he hph 0x0D 0
  · obtain ⟨hkeeps, hoffers, hlists, hresults⟩ := discardWagons_discards s.dev c.val
    have hcmd : (consist (discardWagons s.dev c.val) c.val).cmd = k.cmd := by rw [hkeeps.cmd, hk]
    obtain ⟨y, hy⟩ := Option.isSome_iff_exists.mp ((cmdOf_isSome_of_ids hkeeps.ids k.cmd).trans (by rw [hx]; rfl))
    have hend := endConsist_ends (hcmd.symm ▸ hy) k.event (if k.event = 8 ∨ k.event = 0x0D then consistResult c.val k false else k.evResult)
    rw [hcmd] at hend
    exact ⟨_, _, makes_of_onDev (exec_terminatingEvent c s) (terminatingEvent_ends hk hv he hp hw), hend.1, hend.2, rfl, hoffers, hlists, hresults⟩
  · exact memByte_copyStage ⟨hc, hb, hwf⟩ rfl rfl rfl rfl hdesc hf hparam hj hi

end Sys2Proof.Machine
end

section
namespace Sys2Proof.Machine

/-! ## What a retirement leaves (R205, R226, R234) -/

/-- An instruction that retires leaves its core's registers as `retireTo` says, whether it retires now or with a load in flight. -/
theorem toCoreRegs_retire (d : Dev) (n : Nat) (c : Core) (pc : Nat) :
    (core (retire d n c pc) n).toCoreRegs = (retireTo c pc).toCoreRegs := by
  have h := countIssue_registers d n c
  rw [retire_core_self]
  simp only [retireTo, csrSet, csrGet, h]

/-- A retirement leaves the store buffer that its instruction made. -/
theorem stores_retire (d : Dev) (n : Nat) (c : Core) (pc : Nat) : (core (retire d n c pc) n).stores = c.stores := by
  have h : (countIssue d n c).2.stores = c.stores := by
    unfold countIssue
    dsimp only
    split <;> rfl
  rw [retire_core_self]
  exact h

/-- INSTRET counts an instruction that retires. -/
theorem instret_retire (d : Dev) (n : Nat) (c : Core) (pc : Nat) : csrGet (core (retire d n c pc) n) 0x029 = csrGet c 0x029 + 1 :=
  (congrArg (fun r : CoreRegs => mget (csrReset 0x029) r.csr 0x029) (toCoreRegs_retire d n c pc)).trans (csrGet_csrSet_self c 0x029 _)

/-- The Signal Box has no counters among the registers: its instructions retire without a write of one. -/
theorem retire_sbox_regs (d : Dev) (c : Core) (pc : Nat) : (retire d 32 c pc).regs = d.regs := by
  rw [retire, setCore_regs, countIssue]
  dsimp only
  split <;> rfl

/-- A retirement writes at most the core's own counter of issues among the registers. -/
theorem rd_retire_ne (d : Dev) (n : Nat) (c : Core) (pc : Nat) {r : Reg} {i : Nat} (h : r.key i ≠ Reg.coreCnt.key (n * 4)) :
    rd (retire d n c pc) r i = rd d r i := by
  rw [retire, rd_congr (setCore_regs ..), countIssue]
  dsimp only
  split
  · split
    · rfl
    · exact rd_bumpN_ne d 1 h
  · rfl

/-- No byte of memory reads otherwise after a retirement. -/
theorem memByte_retire (d : Dev) (n : CoreIx) (c : Core) (pc a : Nat) : memByte (retire d n.val c pc) a = memByte d a :=
  memByte_congr (retire_mem ..) (by rw [retire_frame]) (rd_retire_ne d n.val c pc (key_ne (by decide) (by omega) (by omega))) a

/-! ## The store buffer (R204, R216) -/

/-- From d to e core n has issued store b: it joins the store buffer after the loads that issued before it, the instruction is done, and the core's other
registers, the other cores and every byte of memory stay (R204, R205). -/
structure StoreJoins (d e : Dev) (n : CoreIx) (b : StoreBuf) : Prop where
  stores : (core e n.val).stores = (core d n.val).stores ++ [{ b with num := (core d n.val).nextLoad }]
  pc : (core e n.val).pc = ((core d n.val).pc + 4) % 2 ^ 40
  x : (core e n.val).x = (core d n.val).x
  cells : (core e n.val).cells = (core d n.val).cells
  q : (core e n.val).q = (core d n.val).q
  instret : csrGet (core e n.val) 0x029 = csrGet (core d n.val) 0x029 + 1
  mem : ∀ a, memByte e a = memByte d a
  others : ∀ m : CoreIx, m ≠ n → core e m.val = core d m.val

theorem buffer_joins (d : Dev) (n : CoreIx) (b : StoreBuf) : StoreJoins d (buffer d n.val b) n b where
  stores := stores_retire ..
  pc := congrArg CoreRegs.pc (toCoreRegs_retire ..)
  x := (congrArg CoreRegs.x (toCoreRegs_retire ..)).trans rfl
  cells := (congrArg CoreRegs.cells (toCoreRegs_retire ..)).trans rfl
  q := (congrArg CoreRegs.q (toCoreRegs_retire ..)).trans rfl
  instret := instret_retire ..
  mem := memByte_retire d n _ _
  others := fun _ hm => retire_core_ne d _ _ (Fin.val_ne_of_ne hm)

/-- The unit behind a bell that rings needs no wake and refuses nothing while its domain is ON (R288). -/
theorem bell_of_domOn {d : Dev} {n ea : Nat} (h : ∀ k, bellSlot d n ea = some k → domOn d (bellDom n k) = true) :
    bellRefused d n ea = false ∧ bellWake d n ea = d := by
  unfold bellRefused bellWake
  cases hb : bellSlot d n ea with
  | none => exact ⟨rfl, rfl⟩
  | some k => simp [h k hb]

/-- A store that reaches its bytes, finds their domains and its bell's ON and the buffer with room joins the buffer (R204, R215, R425). -/
theorem storeAt_buffers {d : Dev} {n ea : Nat} {bs : List Byte} {aligned native : Bool}
    (hc : accessCause d n ea bs.length aligned true = none) (hg : memGate d [ea] = .open_)
    (hb : native = true → ∀ k, bellSlot d n ea = some k → domOn d (bellDom n k) = true) (hl : (core d n).stores.length < 8) :
    storeAt d n ea bs aligned native = buffer d n { parts := [(ea, bs)], isNat := native } := by
  have hfull : ¬8 ≤ (core d n).stores.length := Nat.not_le.mpr hl
  cases native with
  | false => simp [storeAt, hc, hg, hfull]
  | true =>
    obtain ⟨hrefused, hwake⟩ := bell_of_domOn (hb rfl)
    simp [storeAt, hc, hg, hfull, hrefused, hwake]

/-! ## The rows of the stores (R210, R244, R252) -/

/-- A command that is a row of the core, where its word acts, has the row's effect. -/
theorem exec_of_acts {i : Instr} {s : State} {n : CoreIx} {w : BitVec 32} {mine : Nat → Bool} {uses : Nat → Uses} {body : Nat → Nat → Dev → Dev}
    (he : exec i s = onDev s (instr n w mine uses body)) (hm : mine w.toNat = true) (ha : Acts s n w (uses w.toNat)) :
    exec i s = .next { s with dev := body n.val w.toNat s.dev } := by
  rw [he, onDev_next, instr_of_acts ha hm]

section
variable {n w : Nat} {d : Dev} {ea : Nat} (hea : effAddr (core d n) (raOf w) (immS w) = ea)
include hea

/-- SN stores to memory, but for the Signal Box at an aligned register address. -/
theorem snRow_memory (h : ¬(n = 32 ∧ regionOf d ea = .regs ∧ ea % 8 = 0)) :
    snRow n w d = storeAt d n ea (toLE 5 (xget (core d n) (rdOf w)).toNat) (nativeOk ea) true := by
  subst hea
  exact if_neg h

/-- SN of the Signal Box to an aligned register address joins the store buffer as it is (R122, R483). -/
theorem snRow_register (hn : n = 32) (hr : regionOf d ea = .regs) (ha : ea % 8 = 0) (hl : (core d n).stores.length < 8) :
    snRow n w d = buffer d n { parts := [(ea, toLE 5 (xget (core d n) (rdOf w)).toNat)], isNat := true } := by
  subst hea
  exact (if_pos ⟨hn, hr, ha⟩).trans (if_neg (Nat.not_le.mpr hl))

end

/-- Each scalar store that acts, but for SN of the Signal Box to an aligned register address, is a store to memory of its row's bytes. -/
theorem exec_scalarStore {e : (CoreIx → BitVec 32 → Instr) × (Nat → Bool) × (Nat → Uses) × (Core → Nat → Nat) × (Core → Nat → List Byte) ×
      (Nat → Bool) × Bool} (he : e ∈ scalarStores) {n : CoreIx} {w : BitVec 32} {s : State} (hw : e.2.1 w.toNat = true)
    (ha : Acts s n w (e.2.2.1 w.toNat)) :
    let c := core s.dev n.val
    let a := e.2.2.2.1 c w.toNat
    ¬(n.val = 32 ∧ opOf w.toNat = 0x1B ∧ regionOf s.dev a = .regs ∧ a % 8 = 0) →
      exec (e.1 n w) s = .next { s with dev := storeAt s.dev n.val a (e.2.2.2.2.1 c w.toNat) (e.2.2.2.2.2.1 a) e.2.2.2.2.2.2 } := by
  intro c a hr
  simp only [scalarStores, List.mem_cons, List.not_mem_nil, or_false] at he
  obtain rfl | rfl | rfl | rfl | rfl | rfl | rfl := he
  · exact exec_of_acts (mine := isOp 0x18) (uses := usesAb) (body := storeRow 1) rfl hw ha
  · exact exec_of_acts (mine := isOp 0x19) (uses := usesAb) (body := storeRow 2) rfl hw ha
  · exact exec_of_acts (mine := isOp 0x1A) (uses := usesAb) (body := storeRow 4) rfl hw ha
  · have hmem := snRow_memory rfl (fun ⟨hn, hregs, h8⟩ => hr ⟨hn, of_decide_eq_true hw, hregs, h8⟩)
    have hexec := exec_of_acts (i := .sn n w) (mine := isOp 0x1B) (uses := usesAb) (body := snRow) rfl hw ha
    rw [hmem] at hexec
    exact hexec
  · exact exec_of_acts (mine := isOp 0x3D) (uses := usesF) (body := fstoreRow 4) rfl hw ha
  · exact exec_of_acts (mine := isOp 0x3F) (uses := usesF) (body := fstoreRow 8) rfl hw ha
  · exact exec_of_acts (mine := isQMem 1) (uses := usesQMem) (body := qstRow) rfl hw ha

/-- Settles O20: each row's store joins the buffer, whose retirement touches no memory, and the Signal Box's writes no register. -/
theorem scalarStoresIssue : Obligations.ScalarStoresIssue := by
  refine ⟨fun e he n w s hw ha hr hc hg hb hl => ?_, fun w s hop ha hr h8 hl => ?_⟩
  · have hexec := exec_scalarStore he hw ha (fun ⟨_, _, hregs, _⟩ => hr hregs)
    rw [storeAt_buffers hc hg hb hl] at hexec
    have hj := buffer_joins s.dev n { parts := [(e.2.2.2.1 (core s.dev n.val) w.toNat, e.2.2.2.2.1 (core s.dev n.val) w.toNat)], isNat := e.2.2.2.2.2.2 }
    exact ⟨_, hexec, hj.stores, hj.pc, hj.x, hj.cells, hj.q, hj.instret, hj.mem, hj.others⟩
  · have hexec := exec_of_acts (i := .sn 32 w) (mine := isOp 0x1B) (uses := usesAb) (body := snRow) rfl (decide_eq_true hop) ha
    rw [snRow_register (n := (32 : CoreIx).val) rfl rfl hr h8 hl] at hexec
    have hj := buffer_joins s.dev 32 { parts := [((xget (core s.dev 32) (raOf w.toNat) + immS w.toNat).toNat,
      toLE 5 (xget (core s.dev 32) (rdOf w.toNat)).toNat)], isNat := true }
    exact ⟨_, hexec, hj.stores, hj.pc, hj.x, hj.instret, retire_sbox_regs .., hj.mem⟩

end Sys2Proof.Machine
end

section
namespace Sys2Proof.Machine

/-! ## The functions of the integer rows (R210, R211) -/

theorem bitOf_eq_toNat_testBit (v k : Nat) : bitOf v k = (v.testBit k).toNat := by
  rw [bitOf, Nat.toNat_testBit, Nat.shiftRight_eq_div_pow]

theorem slt_eq (a b : Word) : slt a b = if a.slt b then 1 else 0 := by simp only [slt, BitVec.slt_iff_toInt_lt]

theorem sltu_eq (a b : Word) : sltu a b = if a.ult b then 1 else 0 := by simp only [sltu, BitVec.ult_iff_toNat_lt]

theorem smin_eq (a b : Word) : smin a b = if a.slt b then a else b := by simp only [smin, BitVec.slt_iff_toInt_lt]

theorem smax_eq (a b : Word) : smax a b = if a.slt b then b else a := by simp only [smax, BitVec.slt_iff_toInt_lt]

theorem umin_eq (a b : Word) : umin a b = if a.ult b then a else b := by simp only [umin, BitVec.ult_iff_toNat_lt]

theorem umax_eq (a b : Word) : umax a b = if a.ult b then b else a := by simp only [umax, BitVec.ult_iff_toNat_lt]

/-- The 80-bit product of two sign-extended words is that of their integers. -/
theorem signExtend_mul (a b : Word) : a.signExtend 80 * b.signExtend 80 = BitVec.ofInt 80 (a.toInt * b.toInt) := by
  rw [BitVec.signExtend, BitVec.signExtend, BitVec.ofInt_mul]

theorem mulh_eq (a b : Word) : mulh a b = (a.signExtend 80 * b.signExtend 80).extractLsb' 40 40 := by
  rw [signExtend_mul, mulh]
  generalize a.toInt * b.toInt = x
  apply BitVec.eq_of_toNat_eq
  simp only [BitVec.toNat_ofInt, BitVec.extractLsb'_toNat, Nat.shiftRight_eq_div_pow]
  omega

theorem mulhu_eq (a b : Word) : mulhu a b = (a.setWidth 80 * b.setWidth 80).extractLsb' 40 40 := by
  have h : a.toNat * b.toNat < 2 ^ 40 * 2 ^ 40 := Nat.mul_lt_mul'' a.isLt b.isLt
  have ha := a.isLt
  have hb := b.isLt
  apply BitVec.eq_of_toNat_eq
  simp only [mulhu, BitVec.toNat_ofNat, BitVec.extractLsb'_toNat, BitVec.toNat_mul, BitVec.toNat_setWidth, Nat.shiftRight_eq_div_pow]
  rw [Nat.mod_eq_of_lt (a := a.toNat) (by omega), Nat.mod_eq_of_lt (a := b.toNat) (by omega), Nat.mod_eq_of_lt (b := 2 ^ 80) h]

/-- The count of leading zeros below bit n. -/
theorem clzAuxRec_eq {w : Nat} (x : BitVec w) {n : Nat} (h : n < w) : x.clzAuxRec n = BitVec.ofNat w (w - 1 - n + clzN (n + 1) x.toNat) := by
  induction n with
  | zero =>
    rw [BitVec.clzAuxRec, clzN, bitOf_eq_toNat_testBit, BitVec.getLsbD]
    cases x.toNat.testBit 0
    · simp [clzN, show w - 1 + 1 = w by omega]
    · simp
  | succ n ih =>
    rw [BitVec.clzAuxRec, clzN, bitOf_eq_toNat_testBit, BitVec.getLsbD]
    cases x.toNat.testBit (n + 1)
    · simp only [ih (by omega), Bool.toNat_false, Bool.false_eq_true, if_false, Nat.zero_ne_one]
      congr 1
      omega
    · simp

theorem clz_eq (a : Word) : a.clz = BitVec.ofNat 40 (clzN 40 a.toNat) := by
  rw [BitVec.clz, clzAuxRec_eq a (by decide)]
  simp

theorem ctzN_eq (k v : Nat) : ctzN k v = (firstIdx k (fun i => v.testBit i)).getD k := by
  induction k generalizing v with
  | zero => rfl
  | succ k ih =>
    rw [ctzN, firstIdx, List.range_succ_eq_map, List.find?_cons, Nat.testBit_zero]
    by_cases h : v % 2 = 1
    · simp [h]
    · simp only [h, if_false, decide_false, List.find?_map, ih, firstIdx]
      have hp : ((fun i => v.testBit i) ∘ Nat.succ) = fun i => (v / 2).testBit i := funext fun i => Nat.testBit_succ v i
      rw [hp]
      cases (List.range k).find? (fun i => (v / 2).testBit i) <;> simp <;> omega

theorem popcN_eq (k v : Nat) : popcN k v = (idxWhere k (fun i => v.testBit i)).length := by
  induction k generalizing v with
  | zero => rfl
  | succ k ih =>
    have hp : ((fun i => v.testBit i) ∘ Nat.succ) = fun i => (v / 2).testBit i := funext fun i => Nat.testBit_succ v i
    rw [popcN, idxWhere, List.range_succ_eq_map, List.filter_cons, List.filter_map, hp, ih, Nat.testBit_zero]
    by_cases h : v % 2 = 1
    · simp [h, idxWhere]; omega
    · simp [h, idxWhere]; omega

/-! ## The immediates (R210) -/

theorem immZ_eq (w : Nat) : immZ w = (BitVec.ofNat 16 w).setWidth 40 :=
  BitVec.eq_of_toNat_eq (by simp [immZ, bitsOf])

theorem imm6_eq (w : Nat) : imm6 w = (BitVec.ofNat 6 w).setWidth 40 :=
  BitVec.eq_of_toNat_eq (by simp [imm6, bitsOf])

theorem immS_eq (w : Nat) : immS w = (BitVec.ofNat 16 w).signExtend 40 := by
  have hw : (BitVec.ofNat 16 w).toNat = bitsOf w 15 0 := by simp [bitsOf]
  have hlt : bitsOf w 15 0 < 2 ^ 16 := Nat.mod_lt _ (by decide)
  have hbit : bitOf (bitsOf w 15 0) (16 - 1) = bitsOf w 15 0 / 2 ^ 15 % 2 := by rw [bitOf, Nat.shiftRight_eq_div_pow]
  rw [immS, sextW, BitVec.signExtend, BitVec.toInt_eq_toNat_cond, hw, hbit, Nat.mod_eq_of_lt hlt]
  by_cases hneg : bitsOf w 15 0 / 2 ^ 15 % 2 = 1
  · rw [if_pos hneg, if_neg (by omega)]
  · rw [if_neg hneg, if_pos (by omega), BitVec.ofInt_natCast]

theorem luiImm_eq (w : Nat) : BitVec.ofNat 40 (bitsOf w 20 0 * 2 ^ 19) = (BitVec.ofNat 21 w).setWidth 40 <<< 19 := by
  apply BitVec.eq_of_toNat_eq
  simp [bitsOf, Nat.shiftLeft_eq]

theorem orlImm_eq (w : Nat) : BitVec.ofNat 40 (bitsOf w 18 0) = (BitVec.ofNat 19 w).setWidth 40 :=
  BitVec.eq_of_toNat_eq (by simp [bitsOf])

/-! ## The rows complete -/

section
variable {cmd : CoreIx → BitVec 32 → Instr}

theorem aluRowOf_completes {fn : Nat} {f g : Word → Word → Word}
    (he : ∀ n w s, exec (cmd n w) s = onDev s (instr n w (isAlu fn) usesAbc (aluRow f))) (h : ∀ a b, f a b = g a b := by exact fun _ _ => rfl) :
    (aluRowOf cmd fn g).Completes := fun n w s hw ha => by
  obtain rfl : f = g := funext₂ h
  exact exec_of_acts (he n w s) hw ha

theorem unaryRowOf_completes {fn : Nat} {f g : Word → Word}
    (he : ∀ n w s, exec (cmd n w) s = onDev s (instr n w (isAlu fn) usesAb (unaryRow f))) (h : ∀ a, f a = g a) :
    (unaryRowOf cmd fn g).Completes := fun n w s hw ha => by
  obtain rfl : f = g := funext h
  exact exec_of_acts (he n w s) hw ha

theorem immRowOf_completes {op : Nat} {im im' : Nat → Word} {f g : Word → Word → Word}
    (he : ∀ n w s, exec (cmd n w) s = onDev s (instr n w (isOp op) usesAb (immRow im f))) (hi : ∀ w, im w = im' w)
    (h : ∀ a b, f a b = g a b := by exact fun _ _ => rfl) : (immRowOf cmd op im' g).Completes := fun n w s hw ha => by
  obtain rfl : f = g := funext₂ h
  obtain rfl : im = im' := funext hi
  exact exec_of_acts (he n w s) hw ha

end

theorem aluRows_complete : ∀ r ∈ aluRows, r.Completes := by
  intro r hr
  simp only [aluRows, List.mem_cons, List.not_mem_nil, or_false] at hr
  obtain rfl | rfl | rfl | rfl | rfl | rfl | rfl | rfl | rfl | rfl | rfl | rfl | rfl | rfl | rfl | rfl | rfl | rfl | rfl | rfl | rfl := hr
  · exact aluRowOf_completes (fun _ _ _ => rfl)
  · exact aluRowOf_completes (fun _ _ _ => rfl)
  · exact aluRowOf_completes (fun _ _ _ => rfl)
  · exact aluRowOf_completes (fun _ _ _ => rfl)
  · exact aluRowOf_completes (fun _ _ _ => rfl)
  · exact aluRowOf_completes (fun _ _ _ => rfl)
  · exact aluRowOf_completes (fun _ _ _ => rfl)
  · exact aluRowOf_completes (fun _ _ _ => rfl)
  · exact aluRowOf_completes (fun _ _ _ => rfl) slt_eq
  · exact aluRowOf_completes (fun _ _ _ => rfl) sltu_eq
  · exact aluRowOf_completes (fun _ _ _ => rfl) smin_eq
  · exact aluRowOf_completes (fun _ _ _ => rfl) smax_eq
  · exact aluRowOf_completes (fun _ _ _ => rfl) umin_eq
  · exact aluRowOf_completes (fun _ _ _ => rfl) umax_eq
  · exact aluRowOf_completes (fun _ _ _ => rfl)
  · exact aluRowOf_completes (fun _ _ _ => rfl) mulh_eq
  · exact aluRowOf_completes (fun _ _ _ => rfl) mulhu_eq
  · exact unaryRowOf_completes (fun _ _ _ => rfl) (fun a => by rw [← clz_eq, BitVec.ofNat_toNat, BitVec.setWidth_eq])
  · exact unaryRowOf_completes (fun _ _ _ => rfl) (fun a => by rw [ctzN_eq]; rfl)
  · exact unaryRowOf_completes (fun _ _ _ => rfl) (fun a => by rw [popcN_eq]; rfl)
  · exact unaryRowOf_completes (fun _ _ _ => rfl) (fun _ => rfl)

theorem immRows_complete : ∀ r ∈ immRows, r.Completes := by
  intro r hr
  simp only [immRows, List.mem_cons, List.not_mem_nil, or_false] at hr
  obtain rfl | rfl | rfl | rfl | rfl | rfl | rfl | rfl | rfl | rfl | rfl := hr
  · exact immRowOf_completes (fun _ _ _ => rfl) immS_eq
  · exact immRowOf_completes (fun _ _ _ => rfl) immZ_eq
  · exact immRowOf_completes (fun _ _ _ => rfl) immZ_eq
  · exact immRowOf_completes (fun _ _ _ => rfl) immZ_eq
  · exact immRowOf_completes (fun _ _ _ => rfl) immS_eq slt_eq
  · exact immRowOf_completes (fun _ _ _ => rfl) immS_eq sltu_eq
  · exact immRowOf_completes (fun _ _ _ => rfl) imm6_eq
  · exact immRowOf_completes (fun _ _ _ => rfl) imm6_eq
  · exact immRowOf_completes (fun _ _ _ => rfl) imm6_eq
  · intro n w s hw ha
    dsimp only at ha ⊢
    rw [← luiImm_eq]
    exact exec_of_acts (mine := isOp 0x0A) (uses := fun w => { xs := [rdOf w] }) (body := luiRow) rfl hw ha
  · intro n w s hw ha
    dsimp only at ha ⊢
    rw [← orlImm_eq]
    exact exec_of_acts (mine := isOp 0x0B) (uses := fun w => { xs := [rdOf w] }) (body := orlRow) rfl hw ha

/-- Settles O8: each row's command is its class of instruction with the function of R210 or R211, and an instruction that acts retires with it. -/
theorem scalarResults : Obligations.ScalarResults := List.forall_mem_append.mpr ⟨aluRows_complete, immRows_complete⟩

end Sys2Proof.Machine
end

section
namespace Sys2Proof.Machine

/-! ## LOAD_TIMETABLE (R155, R156) -/

theorem exec_loadTimetable (id : Nat) (s : State) : exec (.loadTimetable id) s = onUnitTx s (loadTimetable id) := rfl
theorem exec_dropTimetable (id : Nat) (s : State) : exec (.dropTimetable id) s = onDevTx s (dropTimetable id) := rfl
theorem exec_runConsist (id : Nat) (s : State) : exec (.runConsist id) s = onUnitTx s (runConsist id) := rfl
theorem exec_abortConsist (id : Nat) (s : State) : exec (.abortConsist id) s = onDevTx s (abortConsist id) := rfl

theorem handle_congr {d e : Dev} (h : e.handles = d.handles) (k : Nat) : handle e k = handle d k := by rw [handle, handle, h]

theorem handle_pump (d : Dev) (k : Nat) : handle (pump d) k = handle d k := handle_congr (by rw [pump_frame]) k

theorem cmdOf_pump (d : Dev) (id : Nat) : cmdOf (pump d) id = cmdOf d id := cmdOf_congr (by rw [pump_ring]) id

/-- Bytes are read from memory, the cache's lines and CACHE_CTRL. -/
theorem memRead_congr {d e : Dev} (h : BytesKept d e) (hr : rd e .cacheCtrl 0 = rd d .cacheCtrl 0) (a n : Nat) : memRead e a n = memRead d a n := by
  have hb := h.memByte hr
  unfold memRead rawRead
  rw [h.stale, h.mem, hb]

theorem memRead_lookLines {d : Dev} (hc : CacheSound d) (a n b m : Nat) : memRead (lookLines looker d a n) b m = memRead d b m :=
  memRead_congr (lookLines_kept hc (by decide) a n) (cacheCtrl_of_step (lookLines_step d (by decide) a n)) b m

theorem begun_kept (d : Dev) (c : Cmd) : BytesKept d (begun d c) := by
  rw [begun_frame]
  exact ⟨rfl, rfl, rfl, id⟩

theorem memRead_begun (d : Dev) (c : Cmd) (a n : Nat) : memRead (begun d c) a n = memRead d a n :=
  memRead_congr (begun_kept d c) (begun_sameRegs d c _ _ (by decide) (by omega)) a n

theorem handle_begun (d : Dev) (c : Cmd) (k : Nat) : handle (begun d c) k = handle d k := handle_congr (by rw [begun_frame]) k

/-- The command c ends DONE with handle h, which holds its port, HOME, BYTES and a digest; the other handles are those of d (R155, R158). -/
def HandleTaken (d : Dev) (c : Cmd) (h : Nat) (digest : List Byte) (e : Dev) : Prop :=
  handle e h = { handle e h with valid := true, port := c.port, home := pw c 2, bytes := pf c 3 39 0, digest := digest } ∧
    (∀ k, k ≠ h → handle e k = handle d k) ∧ (cmdOf e c.id).map (fun e => e.st) = some (.done 0 h)

/-- The handle that a load whose image stands at HOME leaves. -/
theorem loadEnds_handle {d : Dev} {c : Cmd} {h : Nat} (hh : firstIdx 1024 (fun h => !(handle d h).valid) = some h) :
    ∃ v : Handle, v = { v with valid := true, port := c.port, home := pw c 2, bytes := pf c 3 39 0, digest := imageDigest (memRead d (pw c 2) (pf c 3 39 0)) } ∧
      loadEnds d c (pw c 2) (pf c 3 39 0) = finish { d with handles := mset {} d.handles h v } c.id 0 h := by
  unfold loadEnds
  rw [hh]
  exact ⟨_, rfl, rfl⟩

/-- A load whose image stands at HOME takes the lowest free handle. -/
theorem loadEnds_takes {d e : Dev} {c x : Cmd} {h : Nat} (hx : cmdOf e c.id = some x) (hh : ∀ k, handle e k = handle d k)
    (hi : firstIdx 1024 (fun h => !(handle d h).valid) = some h) :
    HandleTaken d c h (imageDigest (memRead e (pw c 2) (pf c 3 39 0))) (pump (loadEnds e c (pw c 2) (pf c 3 39 0))) := by
  obtain ⟨v, hv, he⟩ := loadEnds_handle (d := e) (c := c) (by simpa only [hh] using hi)
  have hend : cmdOf (finish { e with handles := mset {} e.handles h v } c.id 0 h) c.id = some { x with st := .done 0 h } :=
    cmdOf_finish ((cmdOf_congr rfl _).trans hx) 0 h
  have hself : handle (finish { e with handles := mset {} e.handles h v } c.id 0 h) h = v := mget_mset_self ..
  unfold HandleTaken
  simp only [handle_pump, cmdOf_pump, he, hend, hself]
  exact ⟨hv, fun k hk => (mget_mset_ne _ _ _ _ hk).trans (hh k), rfl⟩

theorem loadEnds_mc (d : Dev) (c : Cmd) (home bytes : Nat) : (loadEnds d c home bytes).mc = d.mc := by
  unfold loadEnds
  split <;> rfl

section
variable {d : Dev} {c : Cmd}

/-- A load whose SRC is HOME has its image there: it is looked up, and the load ends. -/
theorem loadStep_own (hb : c.bad = []) (hh : isHost c 1 = false) (hsrc : pw c 1 = pw c 2)
    (hs : spanFault d c.port (pw c 2) (pf c 3 39 0) = none) :
    loadStep d c = loadEnds (lookLines looker d (pw c 2) (pf c 3 39 0)) c (pw c 2) (pf c 3 39 0) := by
  simp [loadStep, hb, hh, hsrc, hs]

/-- A load from another place whose copy has reached its end ends. -/
theorem loadStep_copied (hb : c.bad = []) (hown : ¬(isHost c 1 = false ∧ pw c 1 = pw c 2)) (hsrc : isHost c 1 = true ∨ pw c 1 < 2 ^ 40)
    (hp : pf c 3 39 0 ≤ c.pos) (hs : spanFault d c.port (pw c 2) (pf c 3 39 0) = none) :
    loadStep d c = loadEnds d c (pw c 2) (pf c 3 39 0) := by
  have h1 : (!isHost c 1 && decide (pw c 1 = pw c 2)) = false := by simpa using hown
  have h2 : ¬((!isHost c 1) = true ∧ 2 ^ 40 ≤ pw c 1) := fun ⟨ha, hb⟩ => by
    rcases hsrc with hsrc | hsrc
    · simp [hsrc] at ha
    · omega
  have hcopy : copyIn d c (isHost c 1) (pw c 1) (pw c 2) (pf c 3 39 0) = (d, some (0, 0)) := if_pos hp
  unfold loadStep
  simp only [hb, h1, ne_eq, not_true_eq_false, if_false, Bool.false_eq_true, if_neg h2, hcopy, hs]

theorem loadTimetable_begins (h : Begins d c 0x10) : loadTimetable c.id d =
    if pf c 3 39 0 = 0 then finish (begun d c) c.id 0 0 else if 1024 < handlesHeld (begun d c) then finish (begun d c) c.id 5 1
      else loadStep (begun d c) c := by
  have hst : c.st ≠ .running := fun hr => by simpa [mayStart, hr] using h.2.2.1
  unfold loadTimetable
  rw [h.1]
  exact (if_neg fun hr => hst hr.1).trans (checked_begins h _)

theorem loadTimetable_running (hc : cmdOf d c.id = some c) (hs : c.st = .running) (hop : c.opcode = 0x10) : loadTimetable c.id d = loadStep d c := by
  unfold loadTimetable
  rw [hc]
  exact if_pos ⟨hs, hop⟩

end

/-- A load that ends from a device with the bytes and the handles of the state's, and no write more in its channels, takes the handle. -/
theorem loadTimetable_takes {s : State} {c x : Cmd} {e : Dev} {h : Nat} (hf : loadTimetable c.id s.dev = loadEnds e c (pw c 2) (pf c 3 39 0))
    (hx : cmdOf e c.id = some x) (hw : HeldWithin 0 s.dev e) (hq : QueuesFree s.dev) (hh : ∀ k, handle e k = handle s.dev k)
    (hm : memRead e (pw c 2) (pf c 3 39 0) = memRead s.dev (pw c 2) (pf c 3 39 0))
    (hi : firstIdx 1024 (fun h => !(handle s.dev h).valid) = some h) :
    ∃ t, exec (.loadTimetable c.id) s = .next t ∧ HandleTaken s.dev c h (imageDigest (memRead s.dev (pw c 2) (pf c 3 39 0))) t.dev := by
  have hheld := hw.trans (HeldWithin.of_mc (loadEnds_mc e c (pw c 2) (pf c 3 39 0)))
  have htake := loadEnds_takes hx hh hi
  rw [hm] at htake
  have hx := makesTx_of_onUnitTx (exec_loadTimetable ..) hf hq hheld (Nat.zero_le 32)
  exact ⟨_, hx, by dsimp only; exact htake⟩

theorem heldWithin_begun (d : Dev) (c : Cmd) : HeldWithin 0 d (begun d c) := .of_mc (begun_mc d c)

/-- A load whose SRC is HOME ends in its first step. -/
theorem loadTimetable_own {s : State} {c : Cmd} {h : Nat} (hb : Begins s.dev c 0x10) (hh : isHost c 1 = false) (hsrc : pw c 1 = pw c 2)
    (hn : pf c 3 39 0 ≠ 0) (hroom : handlesHeld (begun s.dev c) ≤ 1024) (hbad : c.bad = [])
    (hs : spanFault (begun s.dev c) c.port (pw c 2) (pf c 3 39 0) = none)
    (hi : firstIdx 1024 (fun h => !(handle (begun s.dev c) h).valid) = some h) (hq : QueuesFree s.dev) (hc : CacheSound s.dev) :
    ∃ t, exec (.loadTimetable c.id) s = .next t ∧ HandleTaken s.dev c h (imageDigest (memRead s.dev (pw c 2) (pf c 3 39 0))) t.dev := by
  have hlook := lookLines_step (begun s.dev c) (req := looker) (by decide) (pw c 2) (pf c 3 39 0)
  have hf : loadTimetable c.id s.dev = loadEnds (lookLines looker (begun s.dev c) (pw c 2) (pf c 3 39 0)) c (pw c 2) (pf c 3 39 0) := by
    rw [loadTimetable_begins hb, if_neg hn, if_neg (Nat.not_lt.mpr hroom), loadStep_own hbad hh hsrc hs]
  refine loadTimetable_takes hf ((cmdOf_congr (congrArg (·.cmds) hlook.ring) _).trans (cmdOf_begun hb.1))
    ((heldWithin_begun s.dev c).trans (.of_step hlook rfl)) hq (fun k => ?_) ?_ (by simpa only [handle_begun] using hi)
  · exact (handle_congr (congrArg Dev.handles hlook.rest) k).trans (handle_begun ..)
  · rw [memRead_lookLines ((begun_kept s.dev c).sound hc), memRead_begun]

/-! ## DROP_TIMETABLE (R87, R157, R158) -/

section
variable {d : Dev} {c : Cmd}

theorem dropTimetable_begins (h : Begins d c 0x11) :
    ((handle (begun d c) (pf c 1 9 0)).valid = true → (handle (begun d c) (pf c 1 9 0)).port = c.port → handleBusy (begun d c) (pf c 1 9 0) = false →
      dropTimetable c.id d = finish { begun d c with handles := mset {} (begun d c).handles (pf c 1 9 0) {} } c.id 0 0) ∧
    ((handle (begun d c) (pf c 1 9 0)).valid = false ∨ (handle (begun d c) (pf c 1 9 0)).port ≠ c.port →
      dropTimetable c.id d = finish (begun d c) c.id 2 1) := by
  unfold dropTimetable
  rw [checked_begins h]
  refine ⟨fun hv hp hb => ?_, fun h => ?_⟩
  · simp [hv, hp, hb]
  · exact if_pos (by simpa using h)

end

/-! ## RUN_CONSIST (R163, R168, R169) -/

/-- What the start of a Consist keeps of it: its command, port, handle, frame and phase. -/
def startedAs (k : Consist) : Bool × Nat × Nat × Nat × List Byte × ConsistPh := (k.valid, k.cmd, k.port, k.handle, k.frame, k.ph)

/-- A step of the start of Consist i: it stays started as it is, and no write joins a channel. -/
structure StartStep (i : Nat) (d e : Dev) : Prop where
  held : HeldWithin 0 d e
  same : startedAs (consist e i) = startedAs (consist d i)

namespace StartStep
variable {i : Nat} {d e f : Dev}

theorem refl : StartStep i d d := ⟨.of_mc rfl, rfl⟩

theorem trans (h1 : StartStep i d e) (h2 : StartStep i e f) : StartStep i d f := ⟨h1.held.trans h2.held, h2.same.trans h1.same⟩

theorem foldl {α : Type} {g : Dev → α → Dev} (l : List α) (h : ∀ e a, StartStep i e (g e a)) : StartStep i d (l.foldl g d) := by
  induction l generalizing d with
  | nil => exact refl
  | cons a l ih => exact (h d a).trans ih

/-- A step that leaves the channels and the Consists. -/
theorem of_rest (hm : e.mc = d.mc) (hc : e.consists = d.consists) : StartStep i d e := ⟨.of_mc hm, by rw [consist_congr hc]⟩

theorem of_step {r : Nat} (h : MemStep r 0 d e) : StartStep i d e := ⟨.of_step h rfl, by rw [consist_congr h.consists]⟩

end StartStep

section
variable (d : Dev) (i : Nat)

theorem imageEvent_startStep (x : Nat × Nat) : StartStep i d (imageEvent d i x) := by
  refine ⟨.of_mc (recordEvent_mc ..), ?_⟩
  unfold imageEvent recordEvent
  dsimp only
  split
  · rw [consist_abortInterrupts, consist_setConsist_self]; rfl
  · split
    · rw [consist_setConsist_self]; rfl
    · rfl

theorem imageLook_startStep (m : Image) (off n : Nat) : StartStep i d (imageLook d m off n) := by
  obtain ⟨r, h⟩ := imageLook_step d m off n
  exact .of_step h

theorem makeLists_startStep (m : Image) (stages res : Nat) : StartStep i d (makeLists d i m stages res) := by
  refine .foldl _ fun e st => ?_
  split
  · exact imageEvent_startStep ..
  · exact (imageLook_startStep ..).trans (.of_rest rfl rfl)

theorem wakeDom_startStep (k : Nat) : StartStep i d (wakeDom d k) := by
  unfold wakeDom
  dsimp only
  split
  · split <;> exact .of_rest rfl rfl
  · split
    · exact .refl
    · exact .refl
    · exact .of_rest rfl rfl
    · split <;> exact .of_rest rfl rfl

theorem wakeAll_startStep (ks : List Nat) : StartStep i d (wakeAll d ks) := by
  refine .foldl _ fun e k => ?_
  split
  · exact .refl
  · exact wakeDom_startStep ..

end

/-- The claims of an image are looked up for Consist i, and read or met with an event. -/
def claimsRead (d : Dev) (i : Nat) (m : Image) (cl : Nat × Nat) : Dev :=
  match imageFault d m cl.1 (16 * cl.2) with
  | some e => imageEvent d i e
  | none => imageLook d m cl.1 (16 * cl.2)

/-- The parameters of a RUN_CONSIST are read, or asked for, for its Consist i. -/
def paramsTaken (d : Dev) (c : Cmd) (i : Nat) : Dev :=
  if min 48 (pf c 1 21 16) = 0 then d
  else if isHost c 2 then hostRead d c.port (pw c 2) 256 (.params i)
  else match spanFault d c.port (pw c 2) 256 with
    | some e => imageEvent d i e
    | none => modConsist (lookLines looker d (pw c 2) 256) i (fun k => { k with
        params := some (paramBlock (min 48 (pf c 1 21 16)) (memRead d (pw c 2) 256)) })

theorem claimsRead_startStep (d : Dev) (i : Nat) (m : Image) (cl : Nat × Nat) : StartStep i d (claimsRead d i m cl) := by
  unfold claimsRead
  split
  · exact imageEvent_startStep ..
  · exact imageLook_startStep ..

theorem paramsTaken_startStep (d : Dev) (c : Cmd) (i : Nat) : StartStep i d (paramsTaken d c i) := by
  unfold paramsTaken
  split
  · exact .refl
  · split
    · exact .of_rest rfl rfl
    · split
      · exact imageEvent_startStep ..
      · exact (StartStep.of_step (lookLines_step d (by decide) (pw c 2) 256)).trans ⟨.of_mc rfl, by rw [modConsist, consist_setConsist_self]; rfl⟩

section
variable {d : Dev} {c : Cmd} {hn i : Nat} {h : Handle} {frame : List Byte}

/-- The start of a Consist in the order of its reads. -/
theorem startConsist_eq (hi : firstIdx 1024 (fun i => !(consist d i).valid) = some i) :
    ∃ k d1, startedAs k = (true, c.id, c.port, hn, frame, .starting) ∧ d1 = makeLists (setConsist d i k) i (imageOfHandle h) h.stages h.resultStage ∧
      startConsist d c hn h frame = paramsTaken (claimsRead (wakeAll d1 (consistDoms d1 h.domains)) i (imageOfHandle h)
        (claimList d (imageOfHandle h))) c i := by
  unfold startConsist
  rw [hi]
  exact ⟨_, _, rfl, rfl, rfl⟩

/-- A RUN_CONSIST past its check takes the lowest free id, and its Consist is Starting. -/
theorem startConsist_starts (hi : firstIdx 1024 (fun i => !(consist d i).valid) = some i) :
    HeldWithin 0 d (startConsist d c hn h frame) ∧
      startedAs (consist (startConsist d c hn h frame) i) = (true, c.id, c.port, hn, frame, .starting) := by
  obtain ⟨k, d1, hk, rfl, he⟩ := startConsist_eq (c := c) (hn := hn) (h := h) (frame := frame) hi
  have hs : StartStep i (setConsist d i k) (startConsist d c hn h frame) := by
    rw [he]
    exact (((makeLists_startStep ..).trans (wakeAll_startStep ..)).trans (claimsRead_startStep ..)).trans (paramsTaken_startStep ..)
  exact ⟨(HeldWithin.of_mc (d := d) (e := setConsist d i k) rfl).trans hs.held, by rw [hs.same, consist_setConsist_self, hk]⟩

end

/-- The reads of the check put no write into a channel, and leave the Consists. -/
theorem checkLooks_step (d : Dev) (c : Cmd) (h : Handle) : ∃ r, MemStep r 0 d (checkLooks d c h) := by
  unfold checkLooks
  obtain ⟨r1, h1⟩ := imageLook_step d (imageOfHandle h) 0 256
  dsimp only
  split
  · exact ⟨0, .refl⟩
  · split
    · exact ⟨r1, h1⟩
    · obtain ⟨r2, h2⟩ := imageLook_step (imageLook d (imageOfHandle h) 0 256) (imageOfHandle h) (frameOff d (imageOfHandle h) / 64 * 64) 512
      exact ⟨r1 + r2, h1.trans h2⟩

section
variable {s : State} {c : Cmd}

theorem runConsist_passes {frame : List Byte} {i : Nat} (h : Begins s.dev c 0x12)
    (hc : consistCheck (begun s.dev c) c (handle (begun s.dev c) (pf c 1 9 0)) = .ok frame)
    (hi : firstIdx 1024 (fun i => !(consist (begun s.dev c) i).valid) = some i) (hq : QueuesFree s.dev) :
    ∃ t, exec (.runConsist c.id) s = .next t ∧ startedAs (consist t.dev i) = (true, c.id, c.port, pf c 1 9 0, frame, .starting) := by
  obtain ⟨r, hlook⟩ := checkLooks_step (begun s.dev c) c (handle (begun s.dev c) (pf c 1 9 0))
  obtain ⟨hheld, hsame⟩ := startConsist_starts (d := checkLooks (begun s.dev c) c (handle (begun s.dev c) (pf c 1 9 0))) (c := c) (hn := pf c 1 9 0)
    (h := handle (begun s.dev c) (pf c 1 9 0)) (frame := frame) (i := i) (by simpa only [consist_congr hlook.consists] using hi)
  have hf : runConsist c.id s.dev = startConsist (checkLooks (begun s.dev c) c (handle (begun s.dev c) (pf c 1 9 0))) c (pf c 1 9 0)
      (handle (begun s.dev c) (pf c 1 9 0)) frame := by
    unfold runConsist
    rw [checked_begins h]
    simp only [hc]
  refine ⟨_, makesTx_of_onUnitTx (exec_runConsist ..) hf hq (((heldWithin_begun s.dev c).trans (.of_step hlook rfl)).trans hheld) (Nat.zero_le 32), ?_⟩
  rw [consist_congr (pump_consists _), hsame]

theorem runConsist_fails {st r : Nat} (h : Begins s.dev c 0x12)
    (hc : consistCheck (begun s.dev c) c (handle (begun s.dev c) (pf c 1 9 0)) = .error (st, r)) (hq : QueuesFree s.dev) :
    ∃ t, exec (.runConsist c.id) s = .next t ∧ (cmdOf t.dev c.id).map (fun e => e.st) = some (.done st r) ∧ t.dev.consists = s.dev.consists := by
  obtain ⟨n, hlook⟩ := checkLooks_step (begun s.dev c) c (handle (begun s.dev c) (pf c 1 9 0))
  have hf : runConsist c.id s.dev = finish (checkLooks (begun s.dev c) c (handle (begun s.dev c) (pf c 1 9 0))) c.id st r := by
    unfold runConsist
    rw [checked_begins h]
    simp only [hc]
  have hheld := (heldWithin_begun s.dev c).trans (HeldWithin.of_step (f := finish _ c.id st r) hlook rfl)
  refine ⟨_, makesTx_of_onUnitTx (exec_runConsist ..) hf hq hheld (Nat.zero_le 32), ?_, ?_⟩
  · have hcmd := (cmdOf_congr (congrArg (·.cmds) hlook.ring) c.id).trans (cmdOf_begun h.1)
    rw [cmdOf_pump, cmdOf_finish hcmd]
    rfl
  · have hbegun : (begun s.dev c).consists = s.dev.consists := by rw [begun_frame]
    exact (pump_consists _).trans (hlook.consists.trans hbegun)

/-! ## ABORT_CONSIST (R87, R99) -/

/-- The command waits for the completion of the command with a number. -/
def waitsFor (d : Dev) (c : Cmd) (id : Nat) : Dev := modCmd d c.id (fun c => { c with aux := [id] })

/-- What an ABORT_CONSIST past its check does, by what its target is. -/
theorem abortConsist_begins (h : Begins s.dev c 0x13) {m : Option Cmd} (hm : matchRun (begun s.dev c) c.port (pf c 1 8 0) (pf c 1 31 16) = m) :
    (m = none → abortConsist c.id s.dev = finish (begun s.dev c) c.id 2 7) ∧
    (∀ r, m = some r → (r.st = .fetched → abortConsist c.id s.dev = finish (waitsFor (begun s.dev c) c r.id) r.id 8 0) ∧
      (∀ st x, r.st = .done st x → abortConsist c.id s.dev = waitsFor (begun s.dev c) c r.id) ∧
      (∀ k, r.st = .running → consistOf (waitsFor (begun s.dev c) c r.id) r.id = some k →
        abortConsist c.id s.dev = recordEvent (waitsFor (begun s.dev c) c r.id) k 8 0)) := by
  unfold abortConsist waitsFor
  rw [checked_begins h]
  refine ⟨fun h0 => ?_, fun r hr => ⟨fun hst => ?_, fun st x hst => ?_, fun k hst hk => ?_⟩⟩
  · simp only [hm, h0]
  · simp only [hm, hr, hst]
  · simp only [hm, hr, hst]
  · simp only [hm, hr, hst, hk]

theorem abortConsist_running {r : Cmd} {k : Nat} (h : Begins s.dev c 0x13)
    (hm : matchRun (begun s.dev c) c.port (pf c 1 8 0) (pf c 1 31 16) = some r) (hr : r.st = .running) (hk : consistOf (begun s.dev c) r.id = some k)
    (hv : (consist (begun s.dev c) k).valid = true) (he : (consist (begun s.dev c) k).event = 0) (hp : (consist (begun s.dev c) k).ph ≠ .completing) :
    ∃ t, exec (.abortConsist c.id) s = .next t ∧ (consist t.dev k).event = 8 ∧
      (cmdOf t.dev c.id).map (fun e => (e.st, e.aux)) = some (.running, [r.id]) := by
  have hf := ((abortConsist_begins h hm).2 r rfl).2.2 k hr hk
  have hcmd : cmdOf (waitsFor (begun s.dev c) c r.id) c.id = some { c with st := .running, aux := [r.id] } := cmdOf_modCmd_self (cmdOf_begun h.1) rfl
  have hfirst := recordEvent_first (d := waitsFor (begun s.dev c) c r.id) (k := k) hv he hp 8 0
  refine ⟨_, makesTx_of_onDevTx (exec_abortConsist ..) hf, ?_, ?_⟩
  · rw [consist_congr (pump_consists _), hfirst]
  · have hring : (recordEvent (waitsFor (begun s.dev c) c r.id) k 8 0).ring.cmds = (waitsFor (begun s.dev c) c r.id).ring.cmds := by rw [recordEvent_frame]
    rw [cmdOf_pump, cmdOf_congr hring, hcmd]
    rfl

end

/-- Settles O33, row by row: a load ends where its bytes stand, and the start of a Consist keeps it as it was made through all its reads. -/
theorem timetableAndConsistCommands : Obligations.TimetableAndConsistCommands := by
  intro s c hc d ends
  refine ⟨fun h hb hh hsrc hn hroom hbad hs hi hq hcs => loadTimetable_own hb hh hsrc hn hroom hbad hs hi hq hcs,
    fun h hop hst hbad hsrc hp hs hi hq hcs => ?_, fun hb h0 => ?_, fun hb hv hp hbusy => ?_, fun hb hv => ?_,
    fun frame i hb hok hi hq => ?_, fun st r hb herr hq => runConsist_fails hb herr hq, fun hb => ⟨fun hm => ?_, fun r hm => ⟨fun hr => ?_,
      fun st x hr => ?_, fun k hr hk hv he hp => abortConsist_running hb hm hr hk hv he hp⟩⟩⟩
  · have hrun := loadTimetable_running hc hst hop
    by_cases hown : isHost c 1 = false ∧ pw c 1 = pw c 2
    · have hlook := lookLines_step s.dev (req := looker) (by decide) (pw c 2) (pf c 3 39 0)
      exact loadTimetable_takes (hrun.trans (loadStep_own hbad hown.1 hown.2 hs)) ((cmdOf_congr (congrArg (·.cmds) hlook.ring) _).trans hc)
        (.of_step hlook rfl) hq (fun k => handle_congr (congrArg Dev.handles hlook.rest) k) (memRead_lookLines hcs ..) hi
    · exact loadTimetable_takes (hrun.trans (loadStep_copied hbad hown hsrc hp hs)) hc (.of_mc rfl) hq (fun _ => rfl) rfl hi
  · exact makesTx_of_refusal (exec_loadTimetable ..) ((loadTimetable_begins hb).trans (if_pos h0))
  · exact makesTx_of_onDevTx (exec_dropTimetable ..) ((dropTimetable_begins hb).1 hv hp hbusy)
  · exact makesTx_of_onDevTx (exec_dropTimetable ..) ((dropTimetable_begins hb).2 hv)
  · obtain ⟨t, hx, hk⟩ := runConsist_passes hb hok hi hq
    simp only [startedAs, Prod.mk.injEq] at hk
    obtain ⟨hvalid, hcmd, hport, hhandle, hframe, hph⟩ := hk
    exact ⟨t, hx, hvalid, hcmd, hport, hhandle, hframe, hph⟩
  · exact makesTx_of_onDevTx (exec_abortConsist ..) ((abortConsist_begins hb hm).1 rfl)
  · exact makesTx_of_onDevTx (exec_abortConsist ..) (((abortConsist_begins hb hm).2 r rfl).1 hr)
  · exact makesTx_of_onDevTx (exec_abortConsist ..) (((abortConsist_begins hb hm).2 r rfl).2.1 st x hr)

end Sys2Proof.Machine
end

section
namespace Sys2Proof.Machine

/-! ## AO time and its alarm (R413, R439) -/

theorem startWake_frame (d : Dev) (bit : Nat) : startWake d bit = { d with regs := (startWake d bit).regs, pwr := (startWake d bit).pwr } := by
  unfold startWake
  dsimp only
  split
  · rfl
  · rfl
  · split <;> rfl
  · rfl

theorem wakeSource_frame (d : Dev) (bit : Nat) (edge standing : Bool) :
    wakeSource d bit edge standing = { d with regs := (wakeSource d bit edge standing).regs, pwr := (wakeSource d bit edge standing).pwr } := by
  unfold wakeSource
  split
  · split
    · exact startWake_frame d bit
    · rfl
  · split
    · rfl
    · exact startWake_frame d bit
  · split
    · rfl
    · exact startWake_frame d bit
  · split <;> rfl
  · rfl

/-- The alarm touches registers and power state alone. -/
theorem alarmWake_frame (d : Dev) : alarmWake d = { d with regs := (alarmWake d).regs, pwr := (alarmWake d).pwr } := by
  unfold alarmWake
  split
  · exact wakeSource_frame d 2 false true
  · rfl

theorem setAoTime_frame (d : Dev) (t : Nat) : setAoTime d t = { d with regs := (setAoTime d t).regs, pwr := (setAoTime d t).pwr } := by
  unfold setAoTime
  dsimp only
  split
  · rw [alarmWake_frame]; rfl
  · rfl

/-! ## The signing engine (R421, R491) -/

theorem exec_signOp {who : Requester} {v : Word} {e : (Requester → Word → Instr) × Nat}
    (he : e ∈ [((Instr.sign : Requester → Word → Instr), 1), (.verifySignature, 2), (.timeTokenCheck, 3)]) (s : State) :
    exec (e.1 who v) s = onDev (pathFirst s who) (signRow e.2 who v) := by
  simp only [List.mem_cons, List.not_mem_nil, or_false] at he
  obtain rfl | rfl | rfl := he
  · rfl
  · rfl
  · rfl

/-- A write of CIPHER_SIGN by the Signal Box starts an operation of the idle engine. -/
theorem signRow_starts {d : Dev} {who : Requester} {v : Word} {op : Nat} (hop : op ≠ 0) (hs : isSbox who = true) (hw : WriteOpen d who 0xD00010)
    (hr : d.sbox.run = none) (hv : bitsOf v.toNat 39 38 = op) :
    signRow op who v d = engineStart d (.direct op (bitsOf v.toNat 18 0)) [] := by
  subst hv
  rw [signRow, if_pos rfl, viaPath_open hw, cipherSignWrite]
  exact if_pos ⟨hs, hop, by rw [hr]; rfl⟩

theorem busy_engineStart (d : Dev) (req : SignReq) (bs : List Byte) : fld (engineStart d req bs) .cipherSignStatus 0 39 39 = 1 :=
  fld_setFld_self _ _ _ _ (by decide) (by decide)

/-- The engine gets no request where none waits. -/
theorem kickAll_empty {d : Dev} (h : d.sbox.signQ = []) : kickAll d = d := by
  unfold kickAll
  rw [h]
  simp only [kick, h, ite_self]

/-- A result of CIPHER_SIGN's own operations leaves the Signal Box's firmware as it was. -/
theorem signResult_direct_sbox (o : Otp) (d : Dev) (op arg : Nat) (bytes : List Byte) :
    (signResult o d { req := .direct op arg, bytes := bytes }).1.sbox = d.sbox := by
  unfold signResult
  dsimp only
  split
  · split <;> rfl
  · rfl
  · split
    · rw [trustTime, setFld_sbox, setAoTime_frame]
    · rfl
  · rfl

theorem exec_signDone (s : State) : exec .signDone s = onDevTx s (signDone s.otp) := rfl
theorem exec_journalSeal (s : State) : exec .journalSeal s = onDevTx s journalSeal := rfl
theorem exec_attestationSign (c : ConsistIx) (s : State) : exec (.attestationSign c) s = onUnitTx s (attestationSign c.val) := rfl
theorem exec_dbgToken (token : List Byte) (s : State) : exec (.dbgToken token) s = onDev s (dbgToken token) := rfl

/-- SIGN_DONE of an operation of CIPHER_SIGN shows the outcome and raises the device event. -/
theorem signDone_direct {o : Otp} {d : Dev} {op arg : Nat} {bytes : List Byte} (hr : running d = true)
    (hrun : d.sbox.run = some { req := .direct op arg, bytes := bytes }) (hq : d.sbox.signQ = []) {x : Dev × Bool × List Byte}
    (hx : signResult o d { req := .direct op arg, bytes := bytes } = x) :
    signDone o d = sboxEvent (setFld { x.1 with sbox := { x.1.sbox with run := none } } .cipherSignStatus 0 39 37 (2 + b2n x.2.1)) 10 := by
  have hsb : x.1.sbox = d.sbox := hx ▸ signResult_direct_sbox ..
  unfold signDone
  rw [hrun]
  dsimp only
  rw [if_pos hr, hx]
  exact kickAll_empty (by rw [← hq, ← hsb]; rfl)

/-! ## Results that firmware takes (R491) -/

/-- The device once firmware has taken the only result of the engine. -/
def outTaken (d : Dev) : Dev :=
  setFld (setFld { d with sbox := { d.sbox with outs := [] } } .cipherSignStatus 0 38 38 0) .sboxEvent 0 10 10 0

theorem takeOut_only {d : Dev} {x : SignOut} (h : d.sbox.outs = [x]) : takeOut d x.req = some (x, outTaken d) := by
  unfold takeOut outTaken modSbox
  simp [h]

theorem signDone_outTaken (d : Dev) : fld (outTaken d) .cipherSignStatus 0 38 38 = 0 := by
  have hevent (e : Dev) : SameRegs [.sboxEvent] e (setFld e .sboxEvent 0 10 10 0) := .setFld _ _ _ (by decide) (by omega)
  unfold outTaken
  rw [(hevent _).fld 38 38 (by decide) (by omega), fld_setFld_self _ _ _ _ (by decide) (by decide), Nat.zero_mod]

/-! ## JOURNAL_SEAL (R404 to R406) -/

/-- The device with a signed seal of block b in MRAM, and the block closed. -/
def sealStored (d : Dev) (b : Nat) (bytes : List Byte) : Dev :=
  wr (setJblock (memWrite d (recAddr (64 * b + 63)) (sliceB bytes 0 128)) b { jblock d b with sealed := true }) .sboxJournal 0
    (BitVec.ofNat 40 (64 * b + 64))

theorem journalSeal_stores {d : Dev} {b : Nat} {bytes : List Byte} (hf : fwUp d = true)
    (ho : d.sbox.outs = [{ req := .seal_ b, ok := true, bytes := bytes }]) (hq : d.sbox.signQ = []) (he : d.sbox.events = []) :
    journalSeal d = sealStored (outTaken d) b bytes := by
  have htake := takeOut_only ho
  have hev : (sealStored (outTaken d) b bytes).sbox.events = [] := he
  unfold journalSeal
  simp only [ho, List.findSome?_cons, hf, if_true, htake]
  change kickAll (flushEvents (sealStored (outTaken d) b bytes).sbox.events.length (sealStored (outTaken d) b bytes)) = _
  rw [hev]
  exact kickAll_empty hq

theorem nextSeq_sealStored (d : Dev) (b : Nat) (bytes : List Byte) : nextSeq (sealStored d b bytes) = (64 * b + 64) % 2 ^ 40 := by
  rw [nextSeq, sealStored, rd_wr_self, BitVec.toNat_ofNat]

theorem jblock_sealStored (d : Dev) (b : Nat) (bytes : List Byte) : jblock (sealStored d b bytes) b = { jblock d b with sealed := true } :=
  mget_mset_self ..

theorem getElem?_sliceB (bs : List Byte) (start : Nat) {len k : Nat} (h : k < len) : (sliceB bs start len)[k]? = some ((bs[start + k]?).getD 0) := by
  unfold sliceB
  dsimp only
  by_cases hk : k < ((bs.drop start).take len).length
  · have hin : start + k < bs.length := by
      rw [List.length_take, List.length_drop] at hk
      omega
    rw [List.getElem?_append_left hk, List.getElem?_take_of_lt h, List.getElem?_drop, List.getElem?_eq_getElem hin]
    rfl
  · have hout : bs.length ≤ start + k := by
      rw [List.length_take, List.length_drop] at hk
      omega
    rw [List.getElem?_append_right (Nat.not_lt.mp hk), List.getElem?_eq_none hout, zeros, List.getElem?_replicate, if_pos (by omega)]
    rfl

theorem sealStored_sameRegs (d : Dev) (b : Nat) (bytes : List Byte) :
    SameRegs [.sboxJournal] (memWrite d (recAddr (64 * b + 63)) (sliceB bytes 0 128)) (sealStored d b bytes) := .wr _ (by decide) (by omega)

theorem memByte_sealStored (d : Dev) (b : Nat) (bytes : List Byte) {k : Nat} (h : k < 128) :
    memByte (sealStored d b bytes) (recAddr (64 * b + 63) + k) = (bytes[k]?).getD 0 := by
  have hb := getElem?_sliceB bytes 0 h
  rw [Nat.zero_add] at hb
  have hmem (a : Nat) : memByte (sealStored d b bytes) a = memByte (memWrite d (recAddr (64 * b + 63)) (sliceB bytes 0 128)) a :=
    memByte_congr (d := memWrite d _ _) (e := sealStored d b bytes) rfl rfl ((sealStored_sameRegs d b bytes) _ _ (by decide) (by omega)) a
  rw [hmem]
  exact memByte_memWrite_at d (Nat.le_add_right ..) (by rw [Nat.add_sub_cancel_left, hb])

theorem signDone_sealStored (d : Dev) (b : Nat) (bytes : List Byte) :
    fld (sealStored d b bytes) .cipherSignStatus 0 38 38 = fld d .cipherSignStatus 0 38 38 :=
  (sealStored_sameRegs d b bytes).fld 38 38 (by decide) (by omega)

theorem memByte_pump (d : Dev) (a : Nat) : memByte (pump d) a = memByte d a := by rw [pump_frame]; rfl

theorem jblock_pump (d : Dev) (b : Nat) : jblock (pump d) b = jblock d b := by rw [pump_frame]; rfl

/-! ## ATTESTATION_SIGN (R172, R410) -/

/-- A signed attestation is delivered to the host, and its Consist ends. -/
theorem attestationSign_delivers {d : Dev} {c : Nat} {bytes : List Byte} {k : Consist} (hf : fwUp d = true)
    (ho : d.sbox.outs = [{ req := .attest c, ok := true, bytes := bytes }]) (hq : d.sbox.signQ = []) (hk : k = consist d c) (hp : k.ph = .signing)
    (he : k.event = 0) (hh : k.attestHost = true) (hout : hostOut d k.port k.attestAt 256 = none) :
    attestationSign c d = endConsist (hostWrite (outTaken d) k.port k.attestAt bytes) c (b2n k.truncated) (consistResult c k true) := by
  subst hk
  have htake := takeOut_only ho
  have hsame : consist (outTaken d) c = consist d c := rfl
  have hreach : hostOut (outTaken d) (consist d c).port (consist d c).attestAt 256 = none := hout
  unfold attestationSign attestDeliver
  simp only [hf, kickAll_empty hq, htake, hsame, hp, he, hh, hreach, if_true, ne_eq, not_true_eq_false, or_self, Bool.not_true, Bool.false_eq_true,
    if_false]

theorem attested_mc (d : Dev) (p a : Nat) (bs : List Byte) (c st r : Nat) : (endConsist (hostWrite (outTaken d) p a bs) c st r).mc = d.mc := by
  rw [hostWrite_frame]
  rfl

/-! ## DBG_TOKEN (R416, R461) -/

/-- The check of the debug token is handed to the idle engine where it is the one request. -/
theorem kickAll_debug {d : Dev} (hf : fwUp d = true) (hr : d.sbox.run = none) (hq : d.sbox.signQ = [.debug]) :
    kickAll d = engineStart (modSbox d (fun s => { s with signQ := [] })) .debug (d.tap.token.getD []) := by
  unfold kickAll
  simp only [hq, kick, hr, hf, Option.isSome_none, Bool.false_eq_true, Bool.not_true, or_self, if_false]

theorem askSign_debug {d : Dev} (hf : fwUp d = true) (hr : d.sbox.run = none) (hq : d.sbox.signQ = []) :
    askSign d .debug = engineStart d .debug (d.tap.token.getD []) := by
  have hback : modSbox (modSbox d (fun s => { s with signQ := s.signQ ++ [.debug] })) (fun s => { s with signQ := [] }) = d := by
    unfold modSbox
    rw [← hq]
  have hkick := kickAll_debug (d := modSbox d (fun s => { s with signQ := s.signQ ++ [.debug] })) hf hr
    (congrArg (· ++ [SignReq.debug]) hq)
  rwa [hback] at hkick

/-- The device with a debug token to be checked. -/
def tokenIn (d : Dev) (token : List Byte) : Dev := { d with tap := { (setIr d .dbgToken).tap with token := some (sliceB token 0 112), valid := false } }

/-- A debug token goes to the idle engine. -/
theorem dbgToken_starts {d : Dev} (token : List Byte) (hf : fwUp d = true) (ht : d.tap.token = none) (hr : d.sbox.run = none) (hq : d.sbox.signQ = []) :
    dbgToken token d = engineStart (tokenIn d token) .debug (sliceB token 0 112) :=
  (if_pos ⟨hf, Option.isNone_iff_eq_none.mpr ht⟩).trans (askSign_debug (d := tokenIn d token) hf hr hq)

/-- Settles O42, row by row: the engine is idle or its queue empty, so that what follows a row's own effect changes nothing. -/
theorem signingRows : Obligations.SigningRows := by
  intro s d
  refine ⟨fun who v e he hs hw hr hv => ?_, fun op arg bytes hr hrun hq => ?_, fun b bytes hf ho hq hev => ?_,
    fun c bytes k hf ho hq hk hp he hh hout hfree => ?_, fun token hf ht hr hq => ?_⟩
  · have hop : e.2 ≠ 0 := by
      simp only [List.mem_cons, List.not_mem_nil, or_false] at he
      obtain rfl | rfl | rfl := he <;> decide
    rw [exec_signOp he, pathFirst_open hw, onDev_next, signRow_starts hop hs hw hr hv]
    exact ⟨_, rfl, rfl, busy_engineStart .., rfl⟩
  · exact makesTx_of_onDevTx (exec_signDone s) (signDone_direct hr hrun hq rfl)
  · refine ⟨_, makesTx_of_onDevTx (exec_journalSeal s) (journalSeal_stores hf ho hq hev), ?_, ?_, fun k hk => ?_, ?_⟩
    · rw [nextSeq, rd_congr (pump_regs _)]
      exact nextSeq_sealStored ..
    · rw [jblock_pump, jblock_sealStored]
    · rw [memByte_pump, memByte_sealStored _ _ _ hk]
    · rw [fld_congr (pump_regs _), signDone_sealStored, signDone_outTaken]
  · exact makesTx_of_onUnitTx (exec_attestationSign c s) (attestationSign_delivers hf ho hq hk hp he hh hout) hfree (.of_mc (attested_mc ..)) (Nat.zero_le 32)
  · rw [exec_dbgToken, onDev_next, dbgToken_starts token hf ht hr hq]
    exact ⟨_, rfl, rfl, rfl, rfl⟩

end Sys2Proof.Machine
end

section
/-! ## AO time, PPS and the crystal -/

namespace Sys2Proof.Machine

/-- A wake writes WAKE_CAUSE and RESET_CAUSE alone among the registers. -/
theorem startWake_sameRegs (d : Dev) (bit : Nat) : SameRegs [.wakeCause, .resetCause] d (startWake d bit) := by
  have hwake : SameRegs [.wakeCause, .resetCause] d (setFld d .wakeCause 0 bit bit 1) := .setFld _ _ _ (by decide) (by omega)
  unfold startWake
  dsimp only
  split
  · exact hwake.trans (.of_regs rfl)
  · exact hwake.trans (.of_regs rfl)
  · split
    · exact hwake.trans (.of_regs rfl)
    · exact (hwake.trans (.of_regs rfl)).trans (.setFld _ _ _ (by decide) (by omega))
  · exact .refl

/-- A wake leaves the divisor of the ms count. -/
theorem startWake_aoDiv (d : Dev) (bit : Nat) : (startWake d bit).pwr.aoDiv = d.pwr.aoDiv := by
  unfold startWake
  dsimp only
  split
  · rfl
  · rfl
  · split <;> rfl
  · rfl

/-- What a standing alarm does: nothing, or it starts a wake. -/
theorem alarmWake_cases (d : Dev) : alarmWake d = d ∨ alarmWake d = startWake d 2 := by
  unfold alarmWake wakeSource
  split
  · split
    · exact .inr rfl
    · split
      · exact .inl rfl
      · exact .inr rfl
    · split
      · exact .inl rfl
      · exact .inr rfl
    · exact .inl (if_neg fun h => Bool.false_ne_true h.1)
    · exact .inl rfl
  · exact .inl rfl

theorem alarmWake_sameRegs (d : Dev) : SameRegs [.wakeCause, .resetCause] d (alarmWake d) := by
  rcases alarmWake_cases d with h | h
  · rw [h]; exact .refl
  · rw [h]; exact startWake_sameRegs d 2

theorem alarmWake_aoDiv (d : Dev) : (alarmWake d).pwr.aoDiv = d.pwr.aoDiv := by
  rcases alarmWake_cases d with h | h
  · rw [h]
  · rw [h, startWake_aoDiv]

/-- An alarm that is not enabled wakes nothing. -/
theorem alarmWake_disabled {d : Dev} (h : fld d .wakeCtrl 0 4 4 = 0) : alarmWake d = d := if_neg fun hw => by omega

/-- What setting AO time does beside it: nothing, or the alarm fires. -/
theorem setAoTime_cases (d : Dev) (t : Nat) : setAoTime d t = wr d .aoTime 0 (BitVec.ofNat 40 t) ∨
    setAoTime d t = alarmWake (setFld (wr d .aoTime 0 (BitVec.ofNat 40 t)) .wakeCause 0 2 2 1) := by
  unfold setAoTime
  dsimp only
  split
  · exact .inr rfl
  · exact .inl rfl

/-- Once AO time is written, setting it may go on to wake. -/
theorem setAoTime_afterWrite (d : Dev) (t : Nat) :
    SameRegs [.wakeCause, .resetCause] (wr d .aoTime 0 (BitVec.ofNat 40 t)) (setAoTime d t) := by
  rcases setAoTime_cases d t with h | h
  · rw [h]; exact .refl
  · rw [h]
    exact .trans (.setFld _ _ _ (by decide) (by omega)) (alarmWake_sameRegs _)

theorem setAoTime_sameRegs (d : Dev) (t : Nat) : SameRegs [.aoTime, .wakeCause, .resetCause] d (setAoTime d t) :=
  .trans (.wr _ (by decide) (by omega)) (SameRegs.mono (setAoTime_afterWrite d t) (by decide))

theorem rd_aoTime_setAoTime (d : Dev) (t : Nat) : rd (setAoTime d t) .aoTime 0 = BitVec.ofNat 40 t := by
  rw [setAoTime_afterWrite d t .aoTime 0 (by decide) (by omega), rd_wr_self]

theorem setAoTime_aoDiv (d : Dev) (t : Nat) : (setAoTime d t).pwr.aoDiv = d.pwr.aoDiv := by
  rcases setAoTime_cases d t with h | h
  · rw [h]; rfl
  · rw [h, alarmWake_aoDiv]; rfl

theorem setAoTime_consists (d : Dev) (t : Nat) : (setAoTime d t).consists = d.consists := by rw [setAoTime_frame]

/-! ### AO_MS_TICK (R171, R413, R468) -/

/-- The next millisecond, as a word. -/
theorem aoTime_next (d : Dev) : BitVec.ofNat 40 ((aoTime d + 1) % 2 ^ 40) = rd d .aoTime 0 + 1 := by
  apply BitVec.eq_of_toNat_eq
  rw [BitVec.toNat_ofNat, Nat.mod_mod, BitVec.toNat_add]
  rfl

/-- The entry of a Consist after a millisecond: the watchdog of a valid one has counted it (R171). -/
def tickEntry (e : Nat × Consist) : Nat × Consist := if e.2.valid then (e.1, { e.2 with ms := e.2.ms + 1 }) else e

theorem tickEntry_key (e : Nat × Consist) : (tickEntry e).1 = e.1 := by
  unfold tickEntry
  split <;> rfl

/-- Every valid Consist counts the millisecond. -/
theorem mget_tickEntry (m : SMap Consist) {c : Nat} (h : (mget {} m c).valid = true) :
    (mget {} (m.map tickEntry) c).ms = (mget {} m c).ms + 1 := by
  induction m with
  | nil => exact absurd h Bool.false_ne_true
  | cons e m ih =>
    rw [List.map_cons]
    simp only [mget, tickEntry_key] at h ⊢
    split
    case isTrue hk =>
      rw [if_pos hk] at h
      rw [tickEntry, if_pos h]
    case isFalse hk =>
      rw [if_neg hk] at h
      split
      case isTrue hlt =>
        rw [if_pos hlt] at h
        exact absurd h Bool.false_ne_true
      case isFalse hlt =>
        rw [if_neg hlt] at h
        exact ih h

/-- The device after a millisecond, before AO time moves on. -/
def msCounted (d : Dev) : Dev :=
  modPwr { aoSample d with consists := (aoSample d).consists.map tickEntry }
    (fun p => { p with ppsMs := p.ppsMs + 1, ppsTicks := p.ppsTicks + p.aoDiv, ppsSkip := false })

theorem aoMsTick_eq (d : Dev) :
    aoMsTick d = if d.pwr.ppsSkip then msCounted d else setAoTime (msCounted d) ((aoTime (aoSample d) + 1) % 2 ^ 40) := rfl

/-- Until AO time moves on, a millisecond writes GPIO_IN alone. -/
theorem msCounted_sameRegs (d : Dev) : SameRegs [.gpioIn] d (msCounted d) :=
  .trans (.setFld 7 0 (gpioLevels d) (by decide) (by omega)) (.of_regs rfl)

theorem aoTime_aoSample (d : Dev) : aoTime (aoSample d) = aoTime d := by
  rw [aoTime, aoTime, ← msCounted_sameRegs d .aoTime 0 (by decide) (by omega)]
  rfl

theorem rd_aoTime_aoMsTick (d : Dev) : rd (aoMsTick d) .aoTime 0 = if d.pwr.ppsSkip then rd d .aoTime 0 else rd d .aoTime 0 + 1 := by
  rw [aoMsTick_eq, aoTime_aoSample]
  split
  · exact msCounted_sameRegs d .aoTime 0 (by decide) (by omega)
  · rw [rd_aoTime_setAoTime, aoTime_next]

theorem aoMsTick_consists (d : Dev) : (aoMsTick d).consists = d.consists.map tickEntry := by
  rw [aoMsTick_eq]
  split
  · rfl
  · rw [setAoTime_consists]; rfl

/-- A millisecond ends with GPIO_IN as it was sampled. -/
theorem fld_gpioIn_aoMsTick (d : Dev) : fld (aoMsTick d) .gpioIn 0 7 0 = gpioLevels d % 2 ^ 8 := by
  have hsampled : fld (msCounted d) .gpioIn 0 7 0 = gpioLevels d % 2 ^ 8 := fld_setFld_self d .gpioIn 0 (gpioLevels d) (by decide) (by decide)
  rw [aoMsTick_eq]
  split
  · exact hsampled
  · rw [(setAoTime_sameRegs _ _).fld 7 0 (by decide) (by omega), hsampled]

theorem bitOf_eq_testBit (n k : Nat) : bitOf n k = (n.testBit k).toNat := by rw [bitOf, Nat.toNat_testBit, Nat.shiftRight_eq_div_pow]

/-- Bit i of a mix of two bytes by an enable byte is that of the first where the enable has a one. -/
theorem testBit_mix {oe i : Nat} (out free : Nat) (hoe : oe < 2 ^ 8) (h : oe.testBit i = true) :
    ((out &&& oe) ||| (free &&& (255 - oe % 256))).testBit i = out.testBit i := by
  have hc : (255 - oe % 256).testBit i = false := by
    rw [show oe % 256 = oe from Nat.mod_eq_of_lt hoe, show 255 - oe = 2 ^ 8 - (oe + 1) by omega, Nat.testBit_two_pow_sub_succ hoe, h, Bool.not_true, Bool.and_false]
  rw [Nat.testBit_or, Nat.testBit_and, Nat.testBit_and, h, hc, Bool.and_true, Bool.and_false, Bool.or_false]

theorem fld_bit (d : Dev) (r : Reg) (j hi lo : Nat) {i : Nat} (h : lo + i ≤ hi) : fld d r j (lo + i) (lo + i) = ((fld d r j hi lo).testBit i).toNat := by
  rw [fld, fld, bitsOf_self, bitOf_of_bitsOf rfl h, bitOf_eq_testBit]

/-- GPIO_IN reads a driven pin as it is driven, where neither boundary scan nor the pad latch has taken it over (R444, R460, R468). -/
theorem gpioIn_driven {d : Dev} (hir : d.tap.ir ≠ .highz) (hscan : scanDrives d = false) (hheld : fld d .padHold 0 8 8 = 0) {i : Nat} (hi : i < 8)
    (hoe : fld d .gpioOe 0 i i = 1) : fld (aoMsTick d) .gpioIn 0 i i = fld d .gpioOut 0 i i := by
  have bit (e : Dev) (r : Reg) : fld e r 0 i i = ((fld e r 0 7 0).testBit i).toNat := by simpa using fld_bit e r 0 7 0 (i := i) (by omega)
  have hlevels : gpioLevels d = (fld d .gpioOut 0 7 0 &&& fld d .gpioOe 0 7 0) ||| (freeVal d % 256 &&& (255 - fld d .gpioOe 0 7 0 % 256)) := by
    simp [gpioLevels, hscan, hheld, hir]
  rw [bit] at hoe
  have hen : (fld d .gpioOe 0 7 0).testBit i = true := by simpa using hoe
  have hlt : fld d .gpioOe 0 7 0 < 2 ^ 8 := Nat.mod_lt _ (by decide)
  rw [bit, bit, fld_gpioIn_aoMsTick, Nat.testBit_mod_two_pow, decide_eq_true hi, Bool.true_and, hlevels, testBit_mix _ _ hlt hen]

/-! ### PPS (R413) -/

/-- The report of a lost or regained PPS writes the device event and the Log Book's place alone. -/
theorem ppsEvent_sameRegs (d : Dev) (v : Nat) : SameRegs [.sboxEvent, .sboxLog] d (ppsEvent d v) := by
  unfold ppsEvent
  split
  · exact .trans (SameRegs.setFld (r := .sboxEvent) (i := 0) 0 0 1 (by decide) (by omega)) (SameRegs.mono (logBook_sameRegs _ _ _ _) (by decide))
  · exact .refl

theorem ppsEvent_pwr (d : Dev) (v : Nat) : (ppsEvent d v).pwr = d.pwr := by
  unfold ppsEvent
  split
  · rw [logBook_frame]; rfl
  · rfl

/-- Where the Signal Box runs, the report raises the device event. -/
theorem ppsEvent_raises {d : Dev} (v : Nat) (h : fwUp d = true) : fld (ppsEvent d v) .sboxEvent 0 0 0 = 1 := by
  unfold ppsEvent
  rw [if_pos h, (logBook_sameRegs _ _ _ _).fld 0 0 (by decide) (by omega)]
  exact fld_setFld_self _ _ _ _ (by decide) (by decide)

/-- The device as a PPS edge leaves it before the ms phase is slewed. -/
def edgeSeen (d : Dev) : Dev :=
  setFld (modPwr d (fun p => { p with
    aoDiv := if fld d .pwrStatus 0 36 36 = 1 ∧ 0 < d.pwr.ppsMs then d.pwr.ppsTicks / 1000 else d.pwr.aoDiv
    ppsMs := 0, ppsTicks := 0, ppsSeen := true
    ppsSkip := p.ppsSkip || (decide (fld d .pwrStatus 0 36 36 = 1) && decide (0 < aoTime d % 1000 ∧ aoTime d % 1000 < 500)) })) .pwrStatus 0 36 36 1

/-- The same with the ms phase slewed. -/
def edgeSlewed (d : Dev) : Dev :=
  if fld d .pwrStatus 0 36 36 = 1 ∧ 500 ≤ aoTime d % 1000 then setAoTime (edgeSeen d) ((aoTime d + 1) % 2 ^ 40) else edgeSeen d

theorem ppsEdge_eq (d : Dev) :
    ppsEdge d = if ¬fld d .pwrStatus 0 36 36 = 1 ∧ d.pwr.ppsSeen = true then ppsEvent (edgeSlewed d) 1 else edgeSlewed d := by
  simp [ppsEdge, edgeSlewed, edgeSeen]

theorem edgeSlewed_shows (d : Dev) : fld (edgeSlewed d) .pwrStatus 0 36 36 = 1 ∧ (edgeSlewed d).pwr.aoDiv = (edgeSeen d).pwr.aoDiv ∧
    (aoTime d % 1000 = 0 → rd (edgeSlewed d) .aoTime 0 = rd d .aoTime 0) := by
  have hseen : fld (edgeSeen d) .pwrStatus 0 36 36 = 1 := fld_setFld_self _ _ _ _ (by decide) (by decide)
  have htime : rd (edgeSeen d) .aoTime 0 = rd d .aoTime 0 := rd_setFld_ne _ _ _ _ (key_ne (by decide) (by omega) (by omega))
  unfold edgeSlewed
  split
  case isTrue h =>
    refine ⟨?_, setAoTime_aoDiv _ _, fun h0 => by omega⟩
    rw [(setAoTime_sameRegs _ _).fld 36 36 (by decide) (by omega), hseen]
  case isFalse => exact ⟨hseen, rfl, fun _ => htime⟩

theorem ppsEdge_shows (d : Dev) : fld (ppsEdge d) .pwrStatus 0 36 36 = 1 ∧ (ppsEdge d).pwr.aoDiv = (edgeSeen d).pwr.aoDiv ∧
    (aoTime d % 1000 = 0 → rd (ppsEdge d) .aoTime 0 = rd d .aoTime 0) := by
  obtain ⟨hfld, hdiv, htime⟩ := edgeSlewed_shows d
  rw [ppsEdge_eq]
  split
  · have hsame := ppsEvent_sameRegs (edgeSlewed d) 1
    exact ⟨(hsame.fld 36 36 (by decide) (by omega)).trans hfld, (congrArg PwrSt.aoDiv (ppsEvent_pwr _ 1)).trans hdiv,
      fun h => (hsame .aoTime 0 (by decide) (by omega)).trans (htime h)⟩
  · exact ⟨hfld, hdiv, htime⟩

/-- The device as a lost PPS leaves it. -/
def ppsLost (d : Dev) : Dev := ppsEvent (setFld d .pwrStatus 0 36 36 0) 0

theorem pps_ppsLost (d : Dev) : fld (ppsLost d) .pwrStatus 0 36 36 = 0 :=
  ((ppsEvent_sameRegs _ 0).fld 36 36 (by decide) (by omega)).trans (fld_setFld_self _ _ _ _ (by decide) (by decide))

/-! ### A write of AO_TIME (R413) -/

/-- A record that joins the Sealed Journal moves SBOX_JOURNAL alone among the registers. -/
theorem appendRecord_sameRegs (d : Dev) (kind p : Nat) (body : List Byte) : SameRegs [.sboxJournal] d (appendRecord d kind p body) := by
  unfold appendRecord
  dsimp only
  refine .trans (.of_regs ?_) (.wr _ (by decide) (by omega))
  split <;> rfl

theorem flushEvents_sameRegs (k : Nat) (d : Dev) : SameRegs [.sboxJournal] d (flushEvents k d) := by
  induction k generalizing d with
  | zero => exact .refl
  | succ k ih =>
    unfold flushEvents
    split
    · exact .refl
    · split
      · exact .refl
      · refine .trans ?_ (ih _)
        exact .trans (.of_regs (by rfl)) (appendRecord_sameRegs _ _ _ _)

theorem journalEvent_sameRegs (d : Dev) (code : Nat) (data : List Nat) : SameRegs [.sboxJournal] d (journalEvent d code data) := by
  unfold journalEvent
  split
  · exact .trans (.of_regs rfl) (flushEvents_sameRegs _ _)
  · exact .refl

theorem engineStart_sameRegs (d : Dev) (req : SignReq) (bs : List Byte) : SameRegs [.cipherSignStatus] d (engineStart d req bs) :=
  .trans (.of_regs rfl) (.setFld _ _ _ (by decide) (by omega))

/-- Handing requests to the signing engine writes CIPHER_SIGN_STATUS alone among the registers. -/
theorem kick_sameRegs (k : Nat) (d : Dev) : SameRegs [.cipherSignStatus] d (kick k d) := by
  induction k generalizing d with
  | zero => exact .refl
  | succ k ih =>
    have hgo (e : Dev) (he : e.regs = d.regs) : SameRegs [.cipherSignStatus] d (kick k e) := .trans (.of_regs he) (ih e)
    have hstart (e : Dev) (he : e.regs = d.regs) (r : SignReq) (bs : List Byte) : SameRegs [.cipherSignStatus] d (engineStart e r bs) :=
      .trans (.of_regs he) (engineStart_sameRegs e r bs)
    unfold kick
    split
    · exact .refl
    · split
      · exact .refl
      · dsimp only
        split
        · split
          · exact hgo _ (by rfl)
          · split
            · exact hstart _ (by rfl) _ _
            · exact hgo _ (by rfl)
        · split
          · exact hstart _ (by rfl) _ _
          · exact hgo _ (by rfl)
        · exact hstart _ (by rfl) _ _
        · split
          · exact hstart _ (by rfl) _ _
          · exact hgo _ (by rfl)
        · split
          · exact hstart _ (by rfl) _ _
          · exact hgo _ (by rfl)
        · exact hgo _ (by rfl)

/-- AO time as the Signal Box has set it, no longer trusted. -/
def timeSet (d : Dev) (v : Word) : Dev := setFld (setAoTime d v.toNat) .pwrStatus 0 14 14 0

/-- What follows the new time, its record and the signing engine's next request, touches neither the time nor its trust. -/
theorem aoTimeWrite_sameRegs (d : Dev) {who : Requester} (v : Word) (h : isSbox who = true) :
    SameRegs [.sboxLog, .sboxJournal, .cipherSignStatus] (timeSet d v) (pump (kickAll (aoTimeWrite d who v))) := by
  have hlog (e : Dev) (data : List Nat) : SameRegs [.sboxLog, .sboxJournal, .cipherSignStatus] e (logBook e 3 0x0080 data) :=
    SameRegs.mono (logBook_sameRegs _ _ _ _) (by decide)
  have hrec (e : Dev) (data : List Nat) : SameRegs [.sboxLog, .sboxJournal, .cipherSignStatus] e (journalEvent e 0x0080 data) :=
    SameRegs.mono (journalEvent_sameRegs _ _ _) (by decide)
  have hkick (e : Dev) : SameRegs [.sboxLog, .sboxJournal, .cipherSignStatus] e (kickAll e) := SameRegs.mono (kick_sameRegs _ e) (by decide)
  unfold aoTimeWrite
  rw [if_pos h]
  exact .trans (.trans (.trans (hlog _ _) (hrec _ _)) (hkick _)) (.of_regs (pump_regs _))

theorem exec_aoTimeWrite {who : Requester} {v : Word} {s : State} (hw : WriteOpen s.dev who 0xF00050) :
    exec (.aoTimeWrite who v) s = .next { s with dev := pump (kickAll (aoTimeWrite s.dev who v)) } := by
  show onDevTx (pathFirst s who) (fun d => viaPath d who 0xF00050 fun d => kickAll (aoTimeWrite d who v)) = _
  rw [pathFirst_open hw, onDevTx_next, viaPath_open hw]

theorem aoTime_aoTimeWrite (d : Dev) {who : Requester} (v : Word) (h : isSbox who = true) :
    rd (pump (kickAll (aoTimeWrite d who v))) .aoTime 0 = v := by
  rw [aoTimeWrite_sameRegs d v h .aoTime 0 (by decide) (by omega), timeSet, rd_setFld_ne _ _ _ _ (key_ne (by decide) (by omega) (by omega)),
    rd_aoTime_setAoTime, BitVec.ofNat_toNat, BitVec.setWidth_eq]

theorem trust_aoTimeWrite (d : Dev) {who : Requester} (v : Word) (h : isSbox who = true) :
    fld (pump (kickAll (aoTimeWrite d who v))) .pwrStatus 0 14 14 = 0 := by
  rw [(aoTimeWrite_sameRegs d v h).fld 14 14 (by decide) (by omega)]
  exact fld_setFld_self _ _ _ _ (by decide) (by decide)

end Sys2Proof.Machine
end

section
/-! ## Rails and resets -/

namespace Sys2Proof.Machine

/-! ### What a filter of a sparse array keeps -/

/-- A filter that keeps a key keeps the value listed at it. -/
theorem mget_filter_of_ne {α : Type} {d : α} {p : Nat × α → Bool} {m : SMap α} {k : Nat} (hp : ∀ v, p (k, v) = true) (h : mget d m k ≠ d) :
    mget d (m.filter p) k = mget d m k := by
  induction m with
  | nil => rfl
  | cons e m ih =>
    obtain ⟨j, v⟩ := e
    rw [mget] at h ⊢
    rcases Nat.lt_trichotomy k j with hlt | rfl | hgt
    · exact absurd (by rw [if_neg (by omega), if_pos hlt]) h
    · rw [List.filter_cons_of_pos (hp v), mget, if_pos rfl, if_pos rfl]
    · rw [if_neg (by omega), if_neg (by omega)] at h ⊢
      cases hj : p (j, v)
      · rw [List.filter_cons_of_neg (by simp [hj]), ih h]
      · rw [List.filter_cons_of_pos hj, mget, if_neg (by omega), if_neg (by omega), ih h]

/-- In an array with rising keys a filter by key keeps what it keeps, and the rest reads the default. -/
theorem mget_filter_key {α : Type} {d : α} {q : Nat → Bool} {m : SMap α} (hm : m.Pairwise (fun x y => x.1 < y.1)) (k : Nat) :
    mget d (m.filter (fun e => q e.1)) k = if q k then mget d m k else d := by
  induction m with
  | nil => simp
  | cons e m ih =>
    obtain ⟨j, v⟩ := e
    obtain ⟨hj, hrest⟩ := List.pairwise_cons.mp hm
    have hlow (hk : k ≤ j) : mget d m k = d := by
      refine mget_of_head_gt d m k fun x hx => ?_
      have := hj x (List.mem_of_mem_head? hx)
      omega
    rcases Nat.lt_trichotomy k j with hlt | rfl | hgt
    · have hne : k ≠ j := Nat.ne_of_lt hlt
      cases hq : q j <;> simp [mget, hq, ih hrest, hne, hlt, hlow (Nat.le_of_lt hlt)]
    · cases hq : q k <;> simp [mget, hq, ih hrest]
    · have hne : k ≠ j := Nat.ne_of_gt hgt
      cases hq : q j <;> simp [mget, hq, ih hrest, hne, Nat.not_lt_of_gt hgt]

/-- The bytes of memory that a filter by address keeps; the others read 0. -/
theorem rawByte_filter {d e : Dev} {q : Nat → Bool} (h : Memory.wf d.mem = true) (he : e.mem = d.mem.filter (fun c => q c.1)) (a : Nat) :
    rawByte e a = if q a then rawByte d a else 0 := by
  rw [rawByte, he, mget_filter_key ((mwf_iff _ _).mp h).1, rawByte]

/-- What a filter of the registers by name keeps of a register that holds another value than its reset value. -/
theorem rd_keepRegs {d e : Dev} {rs : List Reg} (he : e.regs = keepRegs rs d.regs) {r : Reg} (hr : r ∈ rs) {i : Nat} (hi : i < 4096)
    (h : rd d r i ≠ r.resetVal i) : rd e r i = rd d r i := by
  rw [rd, he]
  refine mget_filter_of_ne (fun v => List.any_eq_true.mpr ⟨r, hr, decide_eq_true ?_⟩) h
  unfold Reg.key
  omega

/-! ### What AO keeps -/

/-- A device whose registers are those that a reset leaves. -/
def resetRegs (d : Dev) : Dev := { d with regs := keptRegs d }

theorem resetRegs_sameRegs (d : Dev) : SameRegs [.sboxFw] { d with regs := keepRegs (Reg.sboxPubkey :: aoRegs) d.regs } (resetRegs d) :=
  .trans (.wr (r := .sboxFw) (i := 0) (rd d .sboxFw 0 &&& maskW 23 16) (by decide) (by omega)) (.of_regs rfl)

/-- A register of AO that does not hold its reset value goes through a reset of every other domain (R445). -/
theorem rd_resetRegs {d : Dev} {r : Reg} (hr : r ∈ aoRegs) (h : rd d r 0 ≠ r.resetVal 0) : rd (resetRegs d) r 0 = rd d r 0 := by
  have all : ∀ r ∈ aoRegs, r ∉ [Reg.sboxFw] := by decide
  rw [resetRegs_sameRegs d r 0 (all r hr) (by omega)]
  exact rd_keepRegs rfl (List.mem_cons_of_mem _ hr) (by omega) h

theorem rd_aoTime_resetRegs {d : Dev} (h : mwf (0 : Word) d.regs = true) : rd (resetRegs d) .aoTime 0 = rd d .aoTime 0 := by
  rw [resetRegs_sameRegs d .aoTime 0 (by decide) (by omega)]
  exact (mget_filter_key (q := fun k => (Reg.sboxPubkey :: aoRegs).any fun r => decide (r.ctorIdx = k / 4096)) ((mwf_iff _ _).mp h).1 _).trans
    (if_pos (by decide))

/-- A field that does not read what it reads at reset tells that the register does not hold its reset value. -/
theorem rd_ne_of_fld {d : Dev} {r : Reg} {i hi lo v : Nat} (h : fld d r i hi lo = v) (hv : bitsOf (r.resetVal i).toNat hi lo ≠ v) :
    rd d r i ≠ r.resetVal i := fun he => hv (by rw [← he]; exact h)

/-! ### Rails (R433, R457) -/

theorem pwrEnRaise_next {d : Dev} {k : Nat} (hm : d.pwr.mode = .raising) (hk : firstIdx 4 (fun k => decide (bitOf d.pwr.pwrEn k = 0)) = some k) :
    pwrEnRaise d = modPwr d (fun p => { p with pwrEn := p.pwrEn + 2 ^ k, pwrStep := k }) := by
  rw [pwrEnRaise, if_pos hm, hk]

theorem pwrEnRaise_last {d : Dev} (hm : d.pwr.mode = .raising) (he : d.pwr.pwrEn = 15) :
    pwrEnRaise d = modPwr d (fun p => { p with mode := .running, doms := [], bootDue := true, railFault := false }) := by
  have hk : firstIdx 4 (fun k => decide (bitOf d.pwr.pwrEn k = 0)) = none := by rw [he]; decide
  rw [pwrEnRaise, if_pos hm, hk]

theorem padHold_latchPads (d : Dev) : fld (latchPads d) .padHold 0 9 0 = 0x3FF := fld_setFld_self _ _ _ _ (by decide) (by decide)

theorem latchPads_sameRegs (d : Dev) : SameRegs [.padHold] d (latchPads d) := .trans (.of_regs rfl) (.setFld _ _ _ (by decide) (by omega))

theorem mramLost_regs (d : Dev) : (mramLost d).regs = d.regs := by
  unfold mramLost
  split
  · rfl
  · dsimp only
    split <;> rfl

/-- Beside the registers that a reset leaves, a loss of every other domain's power writes PWR_STATUS alone. -/
theorem allOff_sameRegs (d : Dev) (mode : PowerMode) (en : Nat) : SameRegs [.pwrStatus] (resetRegs d) (allOff d mode en) := by
  have h (e : Dev) (hi lo v : Nat) : SameRegs [.pwrStatus] e (setFld e .pwrStatus 0 hi lo v) := .setFld hi lo v (by decide) (by omega)
  exact .trans (.trans (.trans (.of_regs rfl) (h _ 34 24 0)) (h _ 23 19 0)) (h _ 18 15 0)

/-- The device as lost rails leave it: the pads latched, and power gone from everything but AO. -/
def railsLost (d : Dev) (mode : PowerMode) : Dev := allOff (mramLost (latchPads d)) mode 0

theorem rd_railsLost {d : Dev} {r : Reg} (mode : PowerMode) (hr : r ∈ aoRegs) (hp : r ≠ .pwrStatus) (h : rd (latchPads d) r 0 ≠ r.resetVal 0) :
    rd (railsLost d mode) r 0 = rd (latchPads d) r 0 := by
  have hlost : rd (mramLost (latchPads d)) r 0 = rd (latchPads d) r 0 := rd_congr (mramLost_regs _) r 0
  rw [railsLost, allOff_sameRegs _ mode 0 r 0 (by simpa using hp) (by omega), rd_resetRegs hr (by rwa [hlost]), hlost]

theorem padHold_railsLost (d : Dev) (mode : PowerMode) : fld (railsLost d mode) .padHold 0 9 0 = 0x3FF := by
  have h := padHold_latchPads d
  rw [fld, rd_railsLost mode (by decide) (by decide) (rd_ne_of_fld h (by decide))]
  exact h

/-- An alarm that is not enabled stays so: ALARM_EN is 1 at reset, so a 0 was written. -/
theorem alarmEn_railsLost {d : Dev} (mode : PowerMode) (h : fld d .wakeCtrl 0 4 4 = 0) : fld (railsLost d mode) .wakeCtrl 0 4 4 = 0 := by
  have hl : fld (latchPads d) .wakeCtrl 0 4 4 = 0 := ((latchPads_sameRegs d).fld 4 4 (by decide) (by omega)).trans h
  rw [fld, rd_railsLost mode (by decide) (by decide) (rd_ne_of_fld hl (by decide))]
  exact hl

/-- A rail fault with the alarm not enabled: nothing wakes the device from Laid-up. -/
def faulted (d : Dev) (step : Nat) : Dev :=
  setFld (setFld (modPwr (railsLost d .laidUp) (fun p => { p with railFault := true, fell := fellFrom d.pwr })) .resetCause 0 7 0 9) .resetCause 0 19 16 step

theorem faulted_sameRegs (d : Dev) (step : Nat) : SameRegs [.resetCause] (railsLost d .laidUp) (faulted d step) :=
  .trans (.trans (.of_regs rfl) (.setFld 7 0 9 (by decide) (by omega))) (.setFld 19 16 step (by decide) (by omega))

theorem railFault_eq {d : Dev} (step : Nat) (h : fld d .wakeCtrl 0 4 4 = 0) : railFault d step = faulted d step :=
  alarmWake_disabled (((faulted_sameRegs d step).fld 4 4 (by decide) (by omega)).trans (alarmEn_railsLost .laidUp h))

theorem cause_faulted (d : Dev) (step : Nat) : fld (faulted d step) .resetCause 0 7 0 = 9 := by
  rw [faulted, fld_setFld_apart _ _ _ _ (by decide) (by decide)]
  exact fld_setFld_self _ _ _ _ (by decide) (by decide)

theorem step_faulted (d : Dev) {step : Nat} (h : step < 4) : fld (faulted d step) .resetCause 0 19 16 = step := by
  rw [faulted, fld_setFld_self _ _ _ _ (by decide) (by decide)]
  omega

theorem padHold_faulted (d : Dev) (step : Nat) : fld (faulted d step) .padHold 0 9 0 = 0x3FF :=
  ((faulted_sameRegs d step).fld 9 0 (by decide) (by omega)).trans (padHold_railsLost d .laidUp)

theorem faulted_power (d : Dev) (step : Nat) :
    (faulted d step).pwr.mode = .laidUp ∧ (faulted d step).pwr.pwrEn = 0 ∧ (faulted d step).pwr.railFault = true ∧ (faulted d step).pwr.doms = domsOff :=
  ⟨rfl, rfl, rfl, rfl⟩

theorem dom_domsOff {e : Dev} (h : e.pwr.doms = domsOff) {k : Nat} (h1 : 1 ≤ k) (h2 : k < 24) : (dom e k).st = .off := by
  have all : ∀ k < 24, 1 ≤ k → (mget ({} : Dom) domsOff k).st = .off := by decide
  rw [dom, h]
  exact all k h2 h1

theorem railFault_makes {s : State} (hm : s.dev.pwr.mode = .raising) (h : fld s.dev .wakeCtrl 0 4 4 = 0) :
    Makes .railFault s (faulted s.dev s.dev.pwr.pwrStep) :=
  makes_of_onDev rfl ((if_pos hm).trans (railFault_eq _ h))

theorem pgoodLow_makes {s : State} (he : s.dev.pwr.pwrEn = 15) (h : fld s.dev .wakeCtrl 0 4 4 = 0) : Makes .pgoodLow s (faulted s.dev 3) := by
  have hk : [3, 2, 1, 0].find? (fun k => decide (bitOf s.dev.pwr.pwrEn k = 1)) = some 3 := by rw [he]; decide
  rw [Makes, show exec .pgoodLow s = execPgoodLow s from rfl, execPgoodLow, onDev_next, hk, ← railFault_eq 3 h]

/-! ### RESET_N (R445, R457) -/

/-- The device as RESET_N holds it. -/
def pinHeld (d : Dev) : Dev := modPwr (railsLost d .pinReset) (fun p => { p with railFault := false })

theorem resetNLow_makes {s : State} (h : s.dev.pwr.mode ≠ .pinReset) : Makes .resetNLow s (pinHeld s.dev) := by
  rw [Makes, show exec .resetNLow s = execResetNLow s from rfl, execResetNLow, onDev_next, if_neg h]
  rfl

/-- The device as the release of RESET_N leaves it. -/
def pinReleased (d : Dev) : Dev := setFld (modPwr d (fun p => { p with mode := .raising, pwrEn := 1, pwrStep := 0 })) .resetCause 0 7 0 1

theorem resetNRelease_makes {s : State} (h : s.dev.pwr.mode = .pinReset) : Makes .resetNRelease s (pinReleased s.dev) := makes_of_onDev rfl (if_pos h)

/-! ### Power-on (R397, R445, R457) -/

/-- What power-on leaves before the fuses are shown. -/
def poweredOn (d : Dev) : Dev :=
  { fresh := d.fresh, mem := keepMram d.mem, badUnits := keepMramUnits d.badUnits, softUnits := keepMramUnits d.softUnits, nv := d.nv,
    pwr := { mode := .raising, pwrEn := 1, pwrStep := 0, bootDue := false } }

theorem powerOnReset_eq (o : Otp) (d : Dev) : powerOnReset o d = loadFuses o (poweredOn (mramLost d)) := rfl

theorem aoTime_powerOnReset (o : Otp) (d : Dev) : rd (powerOnReset o d) .aoTime 0 = 0 := by
  rw [powerOnReset_eq, loadFuses_sameRegs _ _ .aoTime 0 (by decide) (by omega)]
  rfl

/-- The debug bit of CHIP_LIFECYCLE is shown by no fuse. -/
theorem debug_powerOnReset (o : Otp) (d : Dev) : fld (powerOnReset o d) .chipLifecycle 0 4 4 = 0 := by
  have hlife (e : Dev) (hi lo v : Nat) (h : hi < 4) : fld (setFld e .chipLifecycle 0 hi lo v) .chipLifecycle 0 4 4 = fld e .chipLifecycle 0 4 4 :=
    fld_setFld_apart _ _ _ _ (by omega) (.inr h)
  have hother (e : Dev) (r : Reg) (hr : Reg.chipLifecycle ∉ [r]) (hi lo v : Nat) :
      fld (setFld e r 0 hi lo v) .chipLifecycle 0 4 4 = fld e .chipLifecycle 0 4 4 :=
    SameRegs.fld (.setFld hi lo v List.mem_cons_self (by omega)) 4 4 hr (by omega)
  rw [powerOnReset_eq]
  unfold loadFuses
  dsimp only
  rw [SameRegs.fld (rs := [.sboxPubkey]) (.foldl _ fun e i hi => .wr _ (by decide) (by have := List.mem_range.mp hi; omega)) 4 4 (by decide) (by omega),
    hother _ .sboxFw (by decide), hlife _ _ _ _ (by decide), hlife _ _ _ _ (by decide), hlife _ _ _ _ (by decide),
    hother _ .chipSerialHi (by decide), hother _ .chipSerialLo (by decide), hother _ .chipId (by decide), hother _ .chipId (by decide),
    hother _ .chipId (by decide)]
  show bitsOf (0#40).toNat 4 4 = 0
  decide

theorem mode_powerOnReset (o : Otp) (d : Dev) : (powerOnReset o d).pwr.mode = .raising := by
  rw [powerOnReset_eq, loadFuses_proj (·.pwr) (fun _ _ _ _ => rfl)]
  rfl

theorem badUnits_powerOnReset (o : Otp) (d : Dev) : (powerOnReset o d).badUnits = keepMramUnits (mramLost d).badUnits := by
  rw [powerOnReset_eq, loadFuses_proj (·.badUnits) (fun _ _ _ _ => rfl)]
  rfl

/-- Power-on keeps the bytes of MRAM alone. -/
theorem rawByte_powerOnReset (o : Otp) {d : Dev} (h : Memory.wf d.mem = true) (a : Nat) :
    rawByte (powerOnReset o d) a = if 0xC000000000 ≤ a ∧ a < 0xC001000000 then rawByte (mramLost d) a else 0 := by
  have hq := rawByte_filter (q := fun a => decide (0xC000000000 ≤ a ∧ a < 0xC001000000)) (mramLost_wf d h) (powerOnReset_mem o d) a
  simpa using hq

theorem mramLost_idle {d : Dev} (h : d.nv.writing = none) : mramLost d = d := by rw [mramLost, h]

/-- A line that was being written when the power was lost holds its old content or its new one, or is uncorrectable (R397). -/
theorem mramLost_cases {d : Dev} {a : Nat} {old : List Byte} (h : d.nv.writing = some (a, old)) :
    (mramLost d).mem = putBytes d.mem a old ∨ (mramLost d).mem = d.mem ∨ a / 16 ∈ (mramLost d).badUnits := by
  unfold mramLost
  rw [h]
  dsimp only
  split
  · exact .inl rfl
  · exact .inr (.inl rfl)
  · exact .inr (.inr (mem_sins _ _))

theorem powerOnReset_torn (o : Otp) {d : Dev} {a : Nat} {old : List Byte} (hc : Memory.wf d.mem = true) (h : d.nv.writing = some (a, old))
    (hl : old.length = 64) (ha : 0xC000000000 ≤ a) (ha' : a + 64 ≤ 0xC001000000) :
    (∀ k b, old[k]? = some b → rawByte (powerOnReset o d) (a + k) = b) ∨
      (∀ k, k < 64 → rawByte (powerOnReset o d) (a + k) = rawByte d (a + k)) ∨ a / 16 ∈ (powerOnReset o d).badUnits := by
  have hline (k : Nat) (hk : k < 64) : rawByte (powerOnReset o d) (a + k) = mget 0 (mramLost d).mem (a + k) := by
    rw [rawByte_powerOnReset o hc, if_pos (by omega), rawByte]
  rcases mramLost_cases h with hold | hnew | hbad
  · refine .inl fun k b hb => ?_
    have hk : k < 64 := hl ▸ (List.getElem?_eq_some_iff.mp hb).1
    rw [hline k hk, hold]
    exact mget_putBytes_in _ _ _ _ _ (by omega) (by rwa [Nat.add_sub_cancel_left])
  · exact .inr (.inl fun k hk => by rw [hline k hk, hnew, rawByte])
  · refine .inr (.inr ?_)
    rw [badUnits_powerOnReset]
    exact List.mem_filter.mpr ⟨hbad, decide_eq_true (by omega)⟩

/-! ### The warm reset (R239, R445) -/

/-- One core joins the kept ones. -/
def keepCore (m : SMap Core) (e : Nat × Core) : SMap Core := mset (coreDefault e.1) m e.1 { coreDefault e.1 with cells := e.2.cells }

theorem mget_keepCore_ne {n : Nat} {d : Core} (m acc : SMap Core) (h : ∀ e ∈ m, n ≠ e.1) : mget d (m.foldl keepCore acc) n = mget d acc n := by
  induction m generalizing acc with
  | nil => rfl
  | cons e m ih =>
    rw [List.foldl_cons, ih _ fun x hx => h x (List.mem_cons_of_mem _ hx)]
    exact mget_mset_ne _ _ _ _ (h e List.mem_cons_self)

theorem mget_keepCore {n : Nat} (m acc : SMap Core) (hm : m.Pairwise (fun x y => x.1 < y.1)) (hacc : mget (coreDefault n) acc n = coreDefault n) :
    mget (coreDefault n) (m.foldl keepCore acc) n = { coreDefault n with cells := (mget (coreDefault n) m n).cells } := by
  induction m generalizing acc with
  | nil => exact hacc
  | cons e m ih =>
    obtain ⟨j, c⟩ := e
    obtain ⟨hj, hm⟩ := List.pairwise_cons.mp hm
    rw [mget]
    rcases Nat.lt_trichotomy n j with hlt | rfl | hgt
    · rw [if_neg (by omega), if_pos hlt, mget_keepCore_ne, hacc]
      rintro x hx rfl
      rcases List.mem_cons.mp hx with rfl | hx
      · omega
      · have := hj x hx
        omega
    · rw [if_pos rfl, List.foldl_cons, mget_keepCore_ne m _ fun x hx => Nat.ne_of_lt (hj x hx)]
      exact mget_mset_self ..
    · rw [if_neg (by omega), if_neg (by omega), List.foldl_cons]
      exact ih _ hm ((mget_mset_ne _ _ _ _ (by omega)).trans hacc)

/-- A reset of the other domains keeps of each core its cells (R239). -/
theorem core_keepCells {d e : Dev} (h : e.cores = keepCells d.cores) (hc : d.cores.Pairwise (fun a b => a.1 < b.1)) (n : Nat) :
    core e n = { coreDefault n with cells := (core d n).cells } := by
  rw [core, h]
  exact mget_keepCore d.cores [] hc rfl

/-- A reset of every domain but AO writes, beside the registers that it leaves, RESET_CAUSE alone. -/
theorem resetDev_sameRegs (d : Dev) (cause : Nat) : SameRegs [.resetCause] (resetRegs d) (resetDev d cause) :=
  .trans (.of_regs rfl) (.setFld 7 0 cause (by decide) (by omega))

theorem cause_resetDev (d : Dev) {cause : Nat} (h : cause < 256) : fld (resetDev d cause) .resetCause 0 7 0 = cause :=
  (fld_setFld_self _ _ _ _ (by decide) (by decide)).trans (Nat.mod_eq_of_lt h)

theorem resetDev_empties (d : Dev) (cause : Nat) : (resetDev d cause).ring = {} ∧ (resetDev d cause).consists = [] := ⟨rfl, rfl⟩

theorem aoTime_resetDev {d : Dev} (cause : Nat) (h : mwf (0 : Word) d.regs = true) : rd (resetDev d cause) .aoTime 0 = rd d .aoTime 0 :=
  (resetDev_sameRegs d cause .aoTime 0 (by decide) (by omega)).trans (rd_aoTime_resetRegs h)

theorem rawByte_resetDev {d : Dev} (cause : Nat) (h : Memory.wf d.mem = true) (a : Nat) :
    rawByte (resetDev d cause) a = if 0x1000000000 ≤ a then rawByte d a else 0 := by
  have hq := rawByte_filter (e := resetDev d cause) (q := fun a => decide (0x1000000000 ≤ a)) h rfl a
  simpa using hq

theorem warm_makes {who : Requester} {s : State} (hw : WriteOpen s.dev who 0xF00038) (v : Word) :
    Makes (.warm who v) s (resetCtrlWrite s.dev v) := by
  show onDev (pathFirst s who) (fun d => viaPath d who 0xF00038 fun d => resetCtrlWrite d v) = _
  rw [pathFirst_open hw, onDev_next, viaPath_open hw]

theorem padHoldRelease_makes {who : Requester} {s : State} (hw : WriteOpen s.dev who 0xF00030) (v : Word) :
    Makes (.padHoldRelease who v) s (padHoldWrite s.dev who v) := by
  show onDev (pathFirst s who) (fun d => viaPath d who 0xF00030 fun d => padHoldWrite d who v) = _
  rw [pathFirst_open hw, onDev_next, viaPath_open hw]

/-! ### The rows together -/

theorem ppsLoss_early {s : State} (h : s.dev.pwr.ppsMs < 3000) : Makes .ppsLoss s s.dev := by
  rw [Makes, show exec .ppsLoss s = execPpsLoss s from rfl, execPpsLoss, onDev_next, if_neg fun hl => Nat.not_lt_of_le hl.2 h]

theorem ppsLoss_makes {s : State} (hp : fld s.dev .pwrStatus 0 36 36 = 1) (h : 3000 ≤ s.dev.pwr.ppsMs) : Makes .ppsLoss s (ppsLost s.dev) := by
  rw [Makes, show exec .ppsLoss s = execPpsLoss s from rfl, execPpsLoss, onDev_next, if_pos ⟨hp, h⟩]
  rfl

/-- Settles O59. -/
theorem timeRailsAndResets : Obligations.TimeRailsAndResets := by
  refine ⟨fun s => ⟨?tick, ?edge, ppsLoss_early, fun hp hm => ?loss, fun who v hs hw => ?setTime, rfl, rfl⟩,
    fun s => ⟨fun k hm hk => ?raise, fun hm he => ?raised, fun hm hw hk => ?fault, fun he hw => ?pgood, fun hm => ?pinLow, fun hm => ?pinHigh, ?powerOn,
      fun who v hw h1 h2 => ?warm, fun who v hw h => ?unconfirmed, fun who v hs hw => ?release⟩⟩
  case tick =>
    refine ⟨_, rfl, rd_aoTime_aoMsTick s.dev, fun c hv => ?_, fun hir hscan hheld i hi hoe => gpioIn_driven hir hscan hheld hi hoe⟩
    rw [consist, aoMsTick_consists]
    exact mget_tickEntry _ hv
  case edge =>
    obtain ⟨hshown, hdiv, htime⟩ := ppsEdge_shows s.dev
    exact ⟨_, rfl, hshown, htime, hdiv⟩
  case loss => exact ⟨_, ppsLoss_makes hp hm, pps_ppsLost s.dev, fun hf => ppsEvent_raises 0 hf⟩
  case setTime => exact ⟨_, exec_aoTimeWrite hw, aoTime_aoTimeWrite s.dev v hs, trust_aoTimeWrite s.dev v hs⟩
  case raise => exact makes_of_onDev rfl (pwrEnRaise_next hm hk)
  case raised => exact makes_of_onDev rfl (pwrEnRaise_last hm he)
  case fault =>
    obtain ⟨hmode, hen, hfault, hdoms⟩ := faulted_power s.dev s.dev.pwr.pwrStep
    exact ⟨_, railFault_makes hm hw, hmode, hen, cause_faulted .., step_faulted _ hk, hfault, padHold_faulted .., fun k h1 h2 => dom_domsOff hdoms h1 h2⟩
  case pgood =>
    obtain ⟨hmode, hen, -, -⟩ := faulted_power s.dev 3
    exact ⟨_, pgoodLow_makes he hw, hmode, hen, cause_faulted .., step_faulted _ (by decide)⟩
  case pinLow => exact ⟨_, resetNLow_makes hm, rfl, rfl, padHold_railsLost s.dev .pinReset⟩
  case pinHigh => exact ⟨_, resetNRelease_makes hm, rfl, rfl, fld_setFld_self _ _ _ _ (by decide) (by decide)⟩
  case powerOn =>
    refine ⟨_, rfl, rfl, aoTime_powerOnReset .., debug_powerOnReset .., mode_powerOnReset .., fun a old hc h hl ha ha' =>
      powerOnReset_torn s.otp hc h hl ha ha', fun hc h a => ?_⟩
    have hkept := rawByte_powerOnReset s.otp hc a
    rwa [mramLost_idle h] at hkept
  case warm =>
    have hmakes := warm_makes hw v
    rw [resetCtrlWrite, if_pos ⟨h1, h2⟩] at hmakes
    obtain ⟨hring, hcons⟩ := resetDev_empties s.dev 2
    exact ⟨_, hmakes, cause_resetDev _ (by decide), hring, hcons, fun hc n => core_keepCells rfl hc n.val, aoTime_resetDev 2, fun hc => rawByte_resetDev 2 hc⟩
  case unconfirmed =>
    have hmakes := warm_makes hw v
    rwa [resetCtrlWrite, if_neg h] at hmakes
  case release =>
    have hmakes := padHoldRelease_makes hw v
    rwa [padHoldWrite, if_pos hs] at hmakes

end Sys2Proof.Machine
end

section
namespace Sys2Proof.Machine

/-! ## The end of a service (R191, R220, R224) -/

theorem dropService_frame (d : Dev) (n : Nat) :
    dropService d n = { d with disp := { d.disp with service := (dropService d n).disp.service } } := by
  unfold dropService
  split <;> rfl

/-- The Wagon that a core served is in service no more. -/
theorem dropService_ends {d : Dev} {n : Nat} {v : Service} (h : serving d n = some v) : v ∉ (dropService d n).disp.service := by
  simp [dropService, h]

theorem core_dropService (d : Dev) (n m : Nat) : core (dropService d n) m = core d m := core_congr (by rw [dropService_frame]) m

theorem consist_dropService (d : Dev) (n c : Nat) : consist (dropService d n) c = consist d c := consist_congr (by rw [dropService_frame]) c

theorem releaseWagon_frame (d : Dev) (n : Nat) :
    releaseWagon d n = { d with disp := { d.disp with
      service := (releaseWagon d n).disp.service, releasing := (releaseWagon d n).disp.releasing } } := by
  unfold releaseWagon
  split
  · rfl
  · split
    · rw [dropService_frame]
    · rfl

theorem core_releaseWagon (d : Dev) (n m : Nat) : core (releaseWagon d n) m = core d m := core_congr (by rw [releaseWagon_frame]) m

/-- A Wagon of a Consist without a terminating event is released. -/
theorem releaseWagon_releases {d : Dev} {n : Nat} {v : Service} (h : serving d n = some v) (hv : (consist d (wConsist v.w)).valid = true)
    (he : (consist d (wConsist v.w)).event = 0) : v ∈ (releaseWagon d n).disp.releasing := by
  simp [releaseWagon, h, hv, he]

theorem toCoreRegs_modCore (d : Dev) (n m : Nat) {f : Core → Core} (hf : ∀ c, (f c).toCoreRegs = c.toCoreRegs) :
    (core (modCore d m f) n).toCoreRegs = (core d n).toCoreRegs := by
  by_cases hn : n = m
  · rw [hn, core_modCore_self, hf]
  · rw [core_modCore_ne d f hn]

/-- Cause 0x12 falls pending without a change to a register of a core (R224). -/
theorem toCoreRegs_abortInterrupts (d : Dev) (c n : Nat) : (core (abortInterrupts d c) n).toCoreRegs = (core d n).toCoreRegs :=
  foldl_proj (fun e : Dev => (core e n).toCoreRegs) _
    (fun e v _ => toCoreRegs_modCore e n v.core (f := fun k => { k with pend := sins k.pend 0x12, abortId := c }) fun _ => rfl) d

theorem toCoreRegs_recordEvent (d : Dev) (c st r n : Nat) : (core (recordEvent d c st r) n).toCoreRegs = (core d n).toCoreRegs := by
  unfold recordEvent
  dsimp only
  split
  · exact toCoreRegs_abortInterrupts ..
  · split <;> rfl

/-! ## An instruction that goes on after its effect on the Dispatcher -/

/-- The instruction of core n retires, and the core goes on after it. -/
def goesOn (d : Dev) (n : Nat) : Dev := retire d n (core d n) ((core d n).pc + 4)

theorem toCoreRegs_goesOn (d : Dev) (n : Nat) : (core (goesOn d n) n).toCoreRegs = (retireTo (core d n) ((core d n).pc + 4)).toCoreRegs :=
  toCoreRegs_retire ..

theorem pc_goesOn {d e : Dev} {n : Nat} (h : (core e n).toCoreRegs = (core d n).toCoreRegs) :
    (core (goesOn e n) n).pc = ((core d n).pc + 4) % 2 ^ 40 := by
  rw [toCoreRegs_goesOn, ← h]
  rfl

theorem x_goesOn (d : Dev) (n : Nat) : (core (goesOn d n) n).x = (core d n).x := by
  rw [toCoreRegs_goesOn]
  rfl

theorem goesOn_disp (d : Dev) (n : Nat) : (goesOn d n).disp = d.disp := by rw [goesOn, retire_frame]

theorem consist_goesOn (d : Dev) (n c : Nat) : consist (goesOn d n) c = consist d c := consist_congr (by rw [goesOn, retire_frame]) c

/-! ## The Wagon instructions of an operator core (R216, R220 to R223) -/

section
variable {n w : Nat} {d : Dev}

theorem wagonRow_core (body : Nat → Nat → Dev → Dev) (h : n < 32) : wagonRow body n w d = body n w d := if_neg (by omega)

theorem wagonRow_sbox (body : Nat → Nat → Dev → Dev) (h : n = 32) : wagonRow body n w d = takeException d n 0x02 (core d n).pc w 0 := if_pos h

theorem afterStores_drained (body : Nat → Nat → Dev → Dev) (hl : (core d n).loads = []) (hs : (core d n).stores = []) :
    afterStores body n w d = body n w d := if_pos (by simp [drained, hl, hs])

theorem atS_privileged (body : Nat → Nat → Dev → Dev) (hp : privOf (core d n) ≠ 0) (hl : (core d n).loads = []) :
    atS (afterLoads body) n w d = body n w d := by
  rw [atS, if_neg hp, afterLoads, if_pos hl]

/-- What EMITW and EMITWK of core n offer for a Consist: X10 to X13 with the Consist's id, and with a key X14 (R178, R190). -/
def emission (c : Core) (n cs : Nat) (key : Bool) : Offer :=
  { prod := .core n, w := wSetConsist { w0 := xget c 10, w1 := xget c 11, w2 := xget c 12, w3 := xget c 13 } cs
    key := if key then some (xget c 14).toNat else none }

/-- Core n has released the Wagon it served and waits for another (R187, R222). -/
def waitsForWagon (d : Dev) (n : Nat) : Dev := becomeWaiting (setCore (releaseWagon d n) n { core d n with st := .waitw }) n

theorem core_waitsForWagon (d : Dev) (n : Nat) : core (waitsForWagon d n) n = { core d n with st := .waitw } := core_setCore_self ..

theorem waitsForWagon_candidate (d : Dev) (n : Nat) : (n, d.cc) ∈ (waitsForWagon d n).disp.waiting := by
  have hcc : (releaseWagon d n).cc = d.cc := by rw [releaseWagon_frame]
  simp [waitsForWagon, becomeWaiting, hcc]

theorem waitsForWagon_releasing (d : Dev) (n : Nat) : (waitsForWagon d n).disp.releasing = (releaseWagon d n).disp.releasing := rfl

theorem waitwBody_waits (h0 : levelOf (core d n) = 0) (hl : (core d n).loads = []) (hs : (core d n).stores = []) :
    waitwBody n w d = waitsForWagon d n := by
  rw [waitwBody, if_neg (not_not.mpr h0), afterStores_drained _ hl hs, waitsForWagon, ← core_releaseWagon d n n]

theorem donewBody_releases (hl : (core d n).loads = []) (hs : (core d n).stores = []) : donewBody n w d = goesOn (releaseWagon d n) n :=
  afterStores_drained _ hl hs

theorem emitBody_offers (key : Bool) {v : Service} (h : serving d n = some v) (hl : (core d n).loads = []) (hs : (core d n).stores = []) :
    emitBody key n w d = setCore (offer d (emission (core d n) n (wConsist v.w) key)) n { core d n with st := .emitw } := by
  unfold emitBody
  rw [h]
  exact afterStores_drained _ hl hs

theorem faultwBody_idle (h : serving d n = none) : faultwBody n w d = goesOn d n := by
  unfold faultwBody
  rw [h]
  rfl

/-- FAULTW ends the service and records DATA_ECC for cause 0x08, KERNEL_FAULT for any other (R223). -/
theorem faultwBody_serving {v : Service} (h : serving d n = some v) : ∃ r, faultwBody n w d =
    goesOn (recordEvent (dropService d n) (wConsist v.w) (if (xget (core d n) (raOf w)).toNat % 256 = 8 then 7 else 0x0C) r) n := by
  unfold faultwBody
  rw [h]
  dsimp only
  split
  · exact ⟨_, rfl⟩
  · exact ⟨_, rfl⟩

theorem pc_faultwBody : (core (faultwBody n w d) n).pc = ((core d n).pc + 4) % 2 ^ 40 := by
  cases h : serving d n with
  | none => rw [faultwBody_idle h, pc_goesOn rfl]
  | some v =>
    obtain ⟨r, hr⟩ := faultwBody_serving (w := w) h
    rw [hr]
    exact pc_goesOn (by rw [toCoreRegs_recordEvent, core_dropService])

theorem faultwBody_ends {v : Service} (h : serving d n = some v) : v ∉ (faultwBody n w d).disp.service := by
  obtain ⟨r, hr⟩ := faultwBody_serving (w := w) h
  rw [hr, goesOn_disp, recordEvent_frame]
  exact dropService_ends h

theorem faultwBody_event {v : Service} (h : serving d n = some v) (hv : (consist d (wConsist v.w)).valid = true)
    (he : (consist d (wConsist v.w)).event = 0) (hp : (consist d (wConsist v.w)).ph ≠ .completing) :
    (consist (faultwBody n w d) (wConsist v.w)).event = if (xget (core d n) (raOf w)).toNat % 256 = 8 then 7 else 0x0C := by
  obtain ⟨r, hr⟩ := faultwBody_serving (w := w) h
  rw [← consist_dropService d n] at hv he hp
  rw [hr, consist_goesOn, recordEvent_first hv he hp]

end

/-! ## Where the Wagon instructions act -/

/-- A word of a Wagon instruction that acts on an operator core has its body's effect. -/
theorem exec_wagon_acts {i : Instr} {fn : Nat} {uses : Nat → Uses} {body : Nat → Nat → Dev → Dev} {n : CoreIx} {w : BitVec 32} {s : State}
    (he : exec i s = onDev s (instr n w (isWagon fn) uses (wagonRow body))) (hn : n.val < 32) (hop : opOf w.toNat = 0x28) (hf : fnA w.toNat = fn)
    (ha : Acts s n w (uses w.toNat)) : exec i s = .next { s with dev := body n.val w.toNat s.dev } := by
  rw [exec_of_acts he (decide_eq_true ⟨hop, hf⟩) ha, wagonRow_core body hn]

section
variable {n : CoreIx} {w : BitVec 32} {s : State} (hn : n.val < 32) (hop : opOf w.toNat = 0x28)
include hn hop

theorem exec_waitw_waits (hf : fnA w.toNat = 0x001) (ha : Acts s n w { xs := [10, 11, 12, 13] }) (h0 : levelOf (core s.dev n.val) = 0)
    (hl : (core s.dev n.val).loads = []) (hs : (core s.dev n.val).stores = []) :
    exec (.waitw n w) s = .next { s with dev := waitsForWagon s.dev n.val } := by
  rw [exec_wagon_acts (i := .waitw n w) (uses := fun _ => { xs := [10, 11, 12, 13] }) (body := waitwBody) rfl hn hop hf ha,
    waitwBody_waits h0 hl hs]

theorem exec_donew_releases (hf : fnA w.toNat = 0x002) (ha : Acts s n w {}) (hl : (core s.dev n.val).loads = [])
    (hs : (core s.dev n.val).stores = []) : exec (.donew n w) s = .next { s with dev := goesOn (releaseWagon s.dev n.val) n.val } := by
  rw [exec_wagon_acts (i := .donew n w) (uses := fun _ => {}) (body := donewBody) rfl hn hop hf ha, donewBody_releases hl hs]

/-- EMITW and EMITWK, by whether a key goes with the Wagon. -/
theorem exec_emit_offers {i : Instr} {fn : Nat} {uses : Nat → Uses} {key : Bool} {v : Service}
    (he : exec i s = onDev s (instr n w (isWagon fn) uses (wagonRow (emitBody key)))) (hv : serving s.dev n.val = some v) (hf : fnA w.toNat = fn)
    (ha : Acts s n w (uses w.toNat)) (hl : (core s.dev n.val).loads = []) (hs : (core s.dev n.val).stores = []) :
    ∃ t, exec i s = .next t ∧
      t.dev.disp.offers = s.dev.disp.offers ++ [{ emission (core s.dev n.val) n.val (wConsist v.w) key with time := s.dev.cc }] ∧
      core t.dev n.val = { core s.dev n.val with st := .emitw } := by
  have hexec := exec_wagon_acts he hn hop hf ha
  rw [emitBody_offers key hv hl hs] at hexec
  exact ⟨_, hexec, rfl, core_setCore_self ..⟩

theorem exec_dropw_drops (hf : fnA w.toNat = 0x010) (ha : Acts s n w {}) (hp : privOf (core s.dev n.val) ≠ 0)
    (hl : (core s.dev n.val).loads = []) : exec (.dropw n w) s = .next { s with dev := goesOn (dropService s.dev n.val) n.val } := by
  rw [exec_wagon_acts (i := .dropw n w) (uses := fun _ => {}) (body := atS (afterLoads dropwBody)) rfl hn hop hf ha, atS_privileged _ hp hl]
  rfl

theorem exec_faultw_body (hf : fnA w.toNat = 0x011) (ha : Acts s n w { xs := [raOf w.toNat, rbOf w.toNat] }) (hp : privOf (core s.dev n.val) ≠ 0)
    (hl : (core s.dev n.val).loads = []) : exec (.faultw n w) s = .next { s with dev := faultwBody n.val w.toNat s.dev } := by
  rw [exec_wagon_acts (i := .faultw n w) (uses := fun w => { xs := [raOf w, rbOf w] }) (body := atS (afterLoads faultwBody)) rfl hn hop hf ha,
    atS_privileged _ hp hl]

end

/-! ## Where the Wagon instructions are refused (R220, R222, R233) -/

/-- The Wagon instructions with their functions and the registers they use. -/
def wagonInstrs : List ((CoreIx → BitVec 32 → Instr) × Nat × (Nat → Uses)) :=
  [(.waitw, 0x001, fun _ => { xs := [10, 11, 12, 13] }), (.donew, 0x002, fun _ => {}), (.emitw, 0x003, fun _ => { xs := [10, 11, 12, 13] }),
   (.emitwk, 0x004, fun _ => { xs := [10, 11, 12, 13, 14] }), (.dropw, 0x010, fun _ => {}), (.faultw, 0x011, fun w => { xs := [raOf w, rbOf w] })]

/-- An operator core may not run function fn now: WAITW above level 0, and an emission with no Wagon in service. -/
def WagonUndefined (d : Dev) (n fn : Nat) : Prop := (fn = 0x001 ∧ levelOf (core d n) ≠ 0) ∨ ((fn = 0x003 ∨ fn = 0x004) ∧ serving d n = none)

/-- What the body of function fn refuses on an operator core. -/
structure BodyRefuses (fn : Nat) (body : Nat → Nat → Dev → Dev) : Prop where
  undefined : ∀ n w d, WagonUndefined d n fn → body n w d = takeException d n 0x02 (core d n).pc w 0
  atU : ∀ n w d, fn = 0x010 ∨ fn = 0x011 → privOf (core d n) = 0 → body n w d = takeException d n 0x03 (core d n).pc w 0

theorem waitwBody_refuses : BodyRefuses 0x001 waitwBody where
  undefined n w d h := if_pos (by simpa [WagonUndefined] using h)
  atU n w d h := absurd h (by decide)

theorem donewBody_refuses : BodyRefuses 0x002 donewBody where
  undefined n w d h := absurd h (by simp [WagonUndefined])
  atU n w d h := absurd h (by decide)

theorem emitBody_refuses (key : Bool) {fn : Nat} (hf : fn = 0x003 ∨ fn = 0x004) : BodyRefuses fn (emitBody key) where
  undefined n w d h := by
    obtain ⟨rfl, -⟩ | ⟨-, hs⟩ := h
    · omega
    · rw [emitBody, hs]
  atU n w d h := by omega

theorem atS_refuses (body : Nat → Nat → Dev → Dev) {fn : Nat} (hf : fn = 0x010 ∨ fn = 0x011) : BodyRefuses fn (atS body) where
  undefined n w d h := by unfold WagonUndefined at h; omega
  atU n w d _ hp := if_pos hp

/-- Each Wagon instruction's row, with what its body refuses. -/
theorem wagonInstrs_rows : ∀ e ∈ wagonInstrs, ∃ body, BodyRefuses e.2.1 body ∧
    ∀ n w s, exec (e.1 n w) s = onDev s (instr n w (isWagon e.2.1) e.2.2 (wagonRow body)) := by
  intro e he
  simp only [wagonInstrs, List.mem_cons, List.not_mem_nil, or_false] at he
  obtain rfl | rfl | rfl | rfl | rfl | rfl := he
  · exact ⟨_, waitwBody_refuses, fun _ _ _ => rfl⟩
  · exact ⟨_, donewBody_refuses, fun _ _ _ => rfl⟩
  · exact ⟨_, emitBody_refuses false (.inl rfl), fun _ _ _ => rfl⟩
  · exact ⟨_, emitBody_refuses true (.inr rfl), fun _ _ _ => rfl⟩
  · exact ⟨_, atS_refuses _ (.inl rfl), fun _ _ _ => rfl⟩
  · exact ⟨_, atS_refuses _ (.inr rfl), fun _ _ _ => rfl⟩

/-- Settles O29, row by row: each effect is that of the row's body, and each body is refused where its row says. -/
theorem wagonInstructions : Obligations.WagonInstructions := by
  refine ⟨fun n w s hn hop => ⟨fun hf ha h0 hl hs => ?waitw, fun hf ha hl hs => ?donew,
    fun v hv hl hs => ⟨fun hf ha => ?emitw, fun hf ha => ?emitwk⟩, fun hf ha hp hl => ?dropw, fun hf ha hp hl => ?faultw⟩,
    fun e he n w s hop hf ha => ?refused⟩
  case waitw =>
    refine ⟨_, exec_waitw_waits hn hop hf ha h0 hl hs, by rw [core_waitsForWagon], by rw [core_waitsForWagon],
      waitsForWagon_candidate .., fun v hv hk hev => ?_⟩
    rw [waitsForWagon_releasing]
    exact releaseWagon_releases hv hk hev
  case donew =>
    refine ⟨_, exec_donew_releases hn hop hf ha hl hs, pc_goesOn (by rw [core_releaseWagon]), by rw [x_goesOn, core_releaseWagon],
      fun v hv hk hev => ?_⟩
    rw [goesOn_disp]
    exact releaseWagon_releases hv hk hev
  case emitw =>
    exact exec_emit_offers (i := .emitw n w) (uses := fun _ => { xs := [10, 11, 12, 13] }) (key := false) hn hop rfl hv hf ha hl hs
  case emitwk =>
    exact exec_emit_offers (i := .emitwk n w) (uses := fun _ => { xs := [10, 11, 12, 13, 14] }) (key := true) hn hop rfl hv hf ha hl hs
  case dropw =>
    refine ⟨_, exec_dropw_drops hn hop hf ha hp hl, fun v hv => ?_, pc_goesOn (by rw [core_dropService])⟩
    rw [goesOn_disp]
    exact dropService_ends hv
  case faultw =>
    exact ⟨_, exec_faultw_body hn hop hf ha hp hl, fun v hv => faultwBody_ends hv, pc_faultwBody, fun v hv => faultwBody_event hv⟩
  case refused =>
    obtain ⟨body, hrefuses, hrow⟩ := wagonInstrs_rows e he
    rw [exec_of_acts (hrow n w s) (decide_eq_true ⟨hop, hf⟩) ha]
    refine ⟨fun h => ?_, fun hn hfn hp => ?_⟩
    · by_cases hn : n.val = 32
      · rw [wagonRow_sbox body hn, Excepted]
      · rw [wagonRow_core body (by omega), hrefuses.undefined _ _ _ (h.resolve_left hn), Excepted]
    · rw [wagonRow_core body hn, hrefuses.atU _ _ _ hfn hp, Excepted]

end Sys2Proof.Machine
end

section
namespace Sys2Proof.Machine

/-! ## Division and the wrap of arithmetic (R211, R212) -/

theorem sdivW_eq (a b : Word) : sdivW a b = if b = 0 then 0xFFFFFFFFFF else BitVec.ofInt 40 (a.toInt.tdiv b.toInt) := rfl

theorem udivW_eq (a b : Word) : udivW a b = if b = 0 then 0xFFFFFFFFFF else BitVec.ofNat 40 (a.toNat / b.toNat) := rfl

/-- The dividend less the divisor times the quotient is the truncated remainder. -/
theorem sremW_eq (a b : Word) : sremW a b = if b = 0 then a else BitVec.ofInt 40 (a.toInt.tmod b.toInt) := by
  unfold sremW sdivW
  by_cases hb : b = 0
  · rw [if_pos hb, if_pos hb]
  · rw [if_neg hb, if_neg hb, if_neg hb, Int.tmod_def, Int.sub_eq_add_neg, BitVec.ofInt_add, BitVec.ofInt_neg,
      BitVec.ofInt_mul, BitVec.ofInt_toInt, BitVec.ofInt_toInt, BitVec.sub_eq_add_neg]

theorem sub_eq_ofInt (a b : Word) : a - b = BitVec.ofInt 40 (a.toInt - b.toInt) := by
  rw [Int.sub_eq_add_neg, BitVec.ofInt_add, BitVec.ofInt_neg, BitVec.ofInt_toInt, BitVec.ofInt_toInt, BitVec.sub_eq_add_neg]

theorem mul_eq_ofNat (a b : Word) : a * b = BitVec.ofNat 40 (a.toNat * b.toNat) := by
  rw [BitVec.ofNat_mul, BitVec.ofNat_toNat, BitVec.ofNat_toNat, BitVec.setWidth_eq, BitVec.setWidth_eq]

theorem add_eq_ofNat (a b : Word) : a + b = BitVec.ofNat 40 (a.toNat + b.toNat) := by
  rw [BitVec.ofNat_add, BitVec.ofNat_toNat, BitVec.ofNat_toNat, BitVec.setWidth_eq, BitVec.setWidth_eq]

/-- What a division row does where its word acts: the ALU function, but for a divisor of zero that STATUS.AT turns into cause 0x0A. -/
theorem divRow_acts {i : Instr} {fn : Nat} {f : Word → Word → Word} {n : CoreIx} {w : BitVec 32} {s : State}
    (he : exec i s = onDev s (instr n w (isAlu fn) usesAbc (divRow f))) (hop : opOf w.toNat = 0x00) (hfn : fnA w.toNat = fn)
    (ha : Acts s n w { xs := [rdOf w.toNat, raOf w.toNat, rbOf w.toNat] }) :
    let c := core s.dev n.val
    let a := xget c (raOf w.toNat)
    let b := xget c (rbOf w.toNat)
    (b ≠ 0 ∨ atOf c = false → exec i s = .next (Retired s n (xset c (rdOf w.toNat) (f a b)) (c.pc + 4))) ∧
      (b = 0 → atOf c = true → exec i s = .next (Excepted s n 0x0A 0 0)) := by
  intro c a b
  have hexec := exec_of_acts he (decide_eq_true ⟨hop, hfn⟩) ha
  constructor
  · intro h
    have hno : ¬(b = 0 ∧ atOf c = true) := by rintro ⟨hb, hat⟩; simp [hb, hat] at h
    rw [hexec, divRow, if_neg hno]
    rfl
  · intro hb hat
    rw [hexec, divRow, if_pos ⟨hb, hat⟩]
    rfl

/-- Settles O9: the sums, differences and products are those of the word, and each division row is `divRow` of its function. -/
theorem divisionResults : Obligations.DivisionResults := by
  refine ⟨fun r hr => ?_, fun e he n w s hop hfn ha => ?_⟩
  · simp only [List.mem_cons, List.not_mem_nil, or_false] at hr
    obtain rfl | rfl | rfl := hr
    · exact aluRowOf_completes (fun _ _ _ => rfl) add_eq_ofNat
    · exact aluRowOf_completes (fun _ _ _ => rfl) sub_eq_ofInt
    · exact aluRowOf_completes (fun _ _ _ => rfl) mul_eq_ofNat
  · simp only [List.mem_cons, List.not_mem_nil, or_false] at he
    obtain rfl | rfl | rfl | rfl := he
    · obtain ⟨hret, hexc⟩ := divRow_acts (i := .div n w) (f := sdivW) rfl hop hfn ha
      refine ⟨hret, fun _ hmin hneg => ⟨fun _ => ?_, fun h => absurd h (by decide)⟩, hexc⟩
      simp only [hmin, hneg]
      decide
    · obtain ⟨hret, hexc⟩ := divRow_acts (i := .divu n w) (f := udivW) rfl hop hfn ha
      exact ⟨hret, fun _ _ _ => ⟨fun h => absurd h (by decide), fun h => absurd h (by decide)⟩, hexc⟩
    · obtain ⟨hret, hexc⟩ := divRow_acts (i := .rem n w) (f := sremW) rfl hop hfn ha
      simp only [sremW_eq] at hret
      refine ⟨hret, fun _ hmin hneg => ⟨fun h => absurd h (by decide), fun _ => ?_⟩, hexc⟩
      simp only [hmin, hneg]
      decide
    · obtain ⟨hret, hexc⟩ := divRow_acts (i := .remu n w) (f := uremW) rfl hop hfn ha
      exact ⟨hret, fun _ _ _ => ⟨fun h => absurd h (by decide), fun h => absurd h (by decide)⟩, hexc⟩

/-! ## Branches and jumps (R210) -/

/-- A sign-extended field of bits is the sign extension of the word cut to it. -/
theorem sextW_eq {k : Nat} (hk : 0 < k) (w : BitVec 32) : sextW k (bitsOf w.toNat (k - 1) 0) = (w.setWidth k).signExtend 40 := by
  have hlow : bitsOf w.toNat (k - 1) 0 = (w.setWidth k).toNat := by
    rw [bitsOf, Nat.shiftRight_zero, BitVec.toNat_setWidth, show k - 1 + 1 - 0 = k by omega]
  have hmsb : bitOf (w.setWidth k).toNat (k - 1) = 1 ↔ 2 ^ k ≤ 2 * (w.setWidth k).toNat := by
    rw [bitOf_eq_toNat_testBit, ← BitVec.getLsbD, ← BitVec.msb_eq_getLsbD_last, BitVec.msb_eq_decide]
    have h2 : 2 ^ k = 2 * 2 ^ (k - 1) := by rw [← pow_succ', Nat.sub_add_cancel hk]
    simp [h2]
  rw [hlow, sextW, Nat.mod_eq_of_lt (w.setWidth k).isLt, BitVec.signExtend, BitVec.toInt_eq_toNat_cond]
  by_cases hneg : bitOf (w.setWidth k).toNat (k - 1) = 1
  · rw [if_pos hneg, if_neg (by have := hmsb.mp hneg; omega)]
  · rw [if_neg hneg, if_pos (by have := mt hmsb.mpr hneg; omega), BitVec.ofInt_natCast]

/-- An offset of a branch counts instructions of 4 bytes. -/
theorem pcPlus_eq (pc : Nat) (off : Word) : pcPlus pc off = (BitVec.ofNat 40 pc + 4 * off).toNat := by
  rw [pcPlus, BitVec.shiftLeft_eq_mul_twoPow, BitVec.mul_comm]
  rfl

/-- A branch whose word acts goes where its test of the two registers says. -/
theorem branch_acts {i : Instr} {op : Nat} {f g : Word → Word → Bool} {n : CoreIx} {w : BitVec 32} {s : State}
    (he : exec i s = onDev s (instr n w (isOp op) usesBr (branchRow f))) (hf : ∀ a b, f a b = g a b) (hop : opOf w.toNat = op)
    (ha : Acts s n w { xs := [rdOf w.toNat, raOf w.toNat] }) :
    let c := core s.dev n.val
    exec i s = .next (Retired s n c (if g (xget c (rdOf w.toNat)) (xget c (raOf w.toNat)) then
      (BitVec.ofNat 40 c.pc + 4 * (w.setWidth 16).signExtend 40).toNat else c.pc + 4)) := by
  intro c
  obtain rfl : f = g := funext₂ hf
  have hexec := exec_of_acts he (decide_eq_true hop) ha
  rw [hexec, branchRow, pcPlus_eq, immS, sextW_eq (k := 16) (by decide)]
  rfl

/-- Settles O10: each branch is its test, and the offsets are the sign-extended fields of the word. -/
theorem branchesAndJumps : Obligations.BranchesAndJumps := by
  refine ⟨fun e he n w s hop ha => ?_, fun n w s hop ha => ?_, fun n w s hop ha => ?_⟩
  · simp only [List.mem_cons, List.not_mem_nil, or_false] at he
    obtain rfl | rfl | rfl | rfl | rfl | rfl := he
    · exact branch_acts (i := .beq n w) rfl (fun a b => (beq_eq_decide a b).symm) hop ha
    · exact branch_acts (i := .bne n w) rfl (fun a b => by rw [decide_not, ← beq_eq_decide]; rfl) hop ha
    · exact branch_acts (i := .blt n w) rfl (fun _ _ => rfl) hop ha
    · exact branch_acts (i := .bge n w) rfl (fun _ _ => rfl) hop ha
    · exact branch_acts (i := .bltu n w) rfl (fun _ _ => rfl) hop ha
    · exact branch_acts (i := .bgeu n w) rfl (fun _ _ => rfl) hop ha
  · have hexec := exec_of_acts (i := .jal n w) (mine := isOp 0x26) (uses := fun w => { xs := [rdOf w] }) (body := jalRow) rfl (decide_eq_true hop) ha
    rw [hexec, jalRow, pcPlus_eq, sextW_eq (k := 21) (by decide)]
    rfl
  · have hexec := exec_of_acts (i := .jalr n w) (mine := isOp 0x27) (uses := usesAb) (body := jalrRow) rfl (decide_eq_true hop) ha
    rw [hexec, jalrRow, immS, sextW_eq (k := 16) (by decide)]
    rfl

end Sys2Proof.Machine
end

section
namespace Sys2Proof.Machine

/-! ## Control registers (R219, R225, R226, R240, R260) -/

theorem privOf_eq (c : Core) : privOf c = (c.status.extractLsb' 0 2).toNat := by
  simp [privOf, bitsOf]

theorem levelOf_eq (c : Core) : levelOf c = (c.status.extractLsb' 4 2).toNat := by
  simp [levelOf, bitsOf]

theorem ieOf_eq (c : Core) : ieOf c = c.status.getLsbD 6 := by
  rw [ieOf, bitsOf_self, bitOf_eq_getLsbD]
  cases c.status.getLsbD 6 <;> rfl

theorem atOf_eq (c : Core) : atOf c = c.status.getLsbD 7 := by
  rw [atOf, bitsOf_self, bitOf_eq_getLsbD]
  cases c.status.getLsbD 7 <;> rfl

/-- The status that a write of STATUS leaves: IE and AT of the value, the rest of the old. -/
def statusWritten (st v : Word) : Word := (st &&& 0x33) ||| (v &&& 0xC0)

theorem statusWritten_priv (st v : Word) : (statusWritten st v).extractLsb' 0 2 = st.extractLsb' 0 2 := by
  refine BitVec.eq_of_getLsbD_eq fun i hi => ?_
  interval_cases i <;> simp [statusWritten]

theorem statusWritten_level (st v : Word) : (statusWritten st v).extractLsb' 4 2 = st.extractLsb' 4 2 := by
  refine BitVec.eq_of_getLsbD_eq fun i hi => ?_
  interval_cases i <;> simp [statusWritten]

theorem statusWritten_ie (st v : Word) : (statusWritten st v).getLsbD 6 = v.getLsbD 6 := by simp [statusWritten]

theorem statusWritten_at (st v : Word) : (statusWritten st v).getLsbD 7 = v.getLsbD 7 := by simp [statusWritten]

theorem csrWrite_status (c : Core) (v : Word) : (csrWrite c 0x000 v).status = statusWritten c.status v := rfl

/-- VL takes seven bits of the value and saturates at 64 (R240). -/
theorem vl_csrWrite (c : Core) (v : Word) : (csrGet (csrWrite c 0x100 v) 0x100).toNat = min 64 (v.toNat % 128) := by
  have hand : (v &&& 0x7F).toNat = v.toNat % 128 := by
    rw [BitVec.toNat_and]
    exact Nat.and_two_pow_sub_one_eq_mod v.toNat 7
  change (csrGet (csrSet c 0x100 (if 64 ≤ v.toNat % 128 then 64 else v &&& 0x7F)) 0x100).toNat = _
  rw [csrGet_csrSet_self]
  split
  · rw [Nat.min_eq_left ‹_›]; rfl
  · rw [hand]; omega

/-- The value below the high part of a qualifier. -/
theorem append_low_eq (q : BitVec 64) (v : Word) : q.extractLsb' 40 24 ++ v = (q &&& 0xFFFFFF0000000000#64) ||| v.setWidth 64 := by
  have hmask : ∀ i < 64, (0xFFFFFF0000000000#64).getLsbD i = decide (40 ≤ i) := by decide
  refine BitVec.eq_of_getLsbD_eq fun i hi => ?_
  rw [BitVec.getLsbD_or, BitVec.getLsbD_and, hmask i hi, BitVec.getLsbD_append, BitVec.getLsbD_setWidth, BitVec.getLsbD_extractLsb']
  by_cases h : i < 40
  · simp [h, hi]
  · simp [h, Nat.le_of_not_lt h, show i - 40 < 24 by omega]

/-- The value above the low part of a qualifier. -/
theorem append_high_eq (q : BitVec 64) (v : Word) :
    v.extractLsb' 0 24 ++ q.extractLsb' 0 40 = (q &&& 0xFFFFFFFFFF#64) ||| (v.setWidth 64 <<< 40) := by
  have hmask : ∀ i < 64, (0xFFFFFFFFFF#64).getLsbD i = decide (i < 40) := by decide
  refine BitVec.eq_of_getLsbD_eq fun i hi => ?_
  rw [BitVec.getLsbD_or, BitVec.getLsbD_and, hmask i hi, BitVec.getLsbD_append, BitVec.getLsbD_shiftLeft, BitVec.getLsbD_setWidth,
    BitVec.getLsbD_extractLsb', BitVec.getLsbD_extractLsb']
  by_cases h : i < 40
  · simp [h]
  · simp [h, show i - 40 < 24 by omega, show i - 40 < 64 by omega, show i < 64 from hi]

/-- The low half of a qualifier is written alone (R226). -/
theorem qual_csrWrite_low (c : Core) (v : Word) {k : Nat} (hk : k < 8) :
    qual (csrWrite c (0x110 + k) v) k = (qual c k &&& 0xFFFFFF0000000000#64) ||| v.setWidth 64 := by
  rw [csrWrite, if_neg (by omega), if_neg (by omega), if_pos (by omega), Nat.add_sub_cancel_left, qual_setQual_self, append_low_eq]

/-- The high half of a qualifier is written alone (R226). -/
theorem qual_csrWrite_high (c : Core) (v : Word) {k : Nat} (hk : k < 8) :
    qual (csrWrite c (0x118 + k) v) k = (qual c k &&& 0xFFFFFFFFFF#64) ||| (v.setWidth 64 <<< 40) := by
  rw [csrWrite, if_neg (by omega), if_neg (by omega), if_neg (by omega), if_pos (by omega), Nat.add_sub_cancel_left, qual_setQual_self,
    append_high_eq]

/-- A register that the core stores as it is takes the bits of its mask (R219, R226, R260). -/
theorem csrGet_csrWrite {k : Nat} (c : Core) (v : Word) (h0 : k ≠ 0x000) (hvl : k ≠ 0x100) (hq : ¬(0x110 ≤ k ∧ k ≤ 0x11F)) :
    csrGet (csrWrite c k v) k = v &&& csrMask k := by
  rw [csrWrite, if_neg h0, if_neg hvl, if_neg (by omega), if_neg (by omega), csrGet_csrSet_self]

/-- Settles O28: STATUS, VL and the halves of the qualifiers have their own rules, and the rest their masks. -/
theorem controlRegisterWrites : Obligations.ControlRegisterWrites := by
  intro c v
  have hm {k : Nat} (h0 : k ≠ 0x000) (hvl : k ≠ 0x100) (hq : ¬(0x110 ≤ k ∧ k ≤ 0x11F)) := csrGet_csrWrite c v h0 hvl hq
  refine ⟨?_, ?_, ?_, ?_, vl_csrWrite c v, fun k hk => ⟨qual_csrWrite_low c v hk, qual_csrWrite_high c v hk⟩,
    hm (by decide) (by decide) (by decide), hm (by decide) (by decide) (by decide), hm (by decide) (by decide) (by decide),
    hm (by decide) (by decide) (by decide), hm (by decide) (by decide) (by decide), hm (by decide) (by decide) (by decide),
    hm (by decide) (by decide) (by decide), hm (by decide) (by decide) (by decide)⟩
  · rw [privOf_eq, privOf_eq, csrWrite_status, statusWritten_priv]
  · rw [levelOf_eq, levelOf_eq, csrWrite_status, statusWritten_level]
  · rw [ieOf_eq, csrWrite_status, statusWritten_ie]
  · rw [atOf_eq, csrWrite_status, statusWritten_at]

/-- A write of a control register leaves the pc. -/
theorem pc_csrWrite (c : Core) (k : Nat) (v : Word) : (csrWrite c k v).pc = c.pc := by
  unfold csrWrite
  repeat' split
  all_goals rfl

/-! ### MFC, MTC, MSET and MCLR -/

section
variable {n w r : Nat} {d : Dev} {upd : Option (Word → Word → Word)}

/-- The core after a row of a control register: rd takes the old value, beside what the write left. -/
def csrDone (d : Dev) (n w : Nat) (c : Core) : Dev := retire d n (xset c (rdOf w) (csrRead d n (csrOf w))) ((core d n).pc + 4)

theorem csrRow_unlisted (h : csrAccess n (csrOf w) = none) : csrRow upd n w d = takeException d n 0x02 (core d n).pc w 0 := by
  simp only [csrRow, h]

theorem csrRow_privilege {wp : Option Nat} (h : csrAccess n (csrOf w) = some (r, wp)) (hr : privOf (core d n) < r) :
    csrRow upd n w d = takeException d n 0x03 (core d n).pc w 0 := by
  simp only [csrRow, h, if_pos hr]

theorem csrRow_reads {wp : Option Nat} (h : csrAccess n (csrOf w) = some (r, wp)) (hr : r ≤ privOf (core d n)) :
    csrRow none n w d = csrDone d n w (core d n) := by
  simp only [csrRow, h, if_neg (Nat.not_lt.mpr hr), csrDone]

theorem csrRow_readOnly {f : Word → Word → Word} (h : csrAccess n (csrOf w) = some (r, none)) (hr : r ≤ privOf (core d n)) :
    csrRow (some f) n w d = takeException d n 0x02 (core d n).pc w 0 := by
  simp only [csrRow, h, if_neg (Nat.not_lt.mpr hr)]

theorem csrRow_writes {f : Word → Word → Word} {p : Nat} (h : csrAccess n (csrOf w) = some (r, some p)) (hr : r ≤ privOf (core d n))
    (hp : p ≤ privOf (core d n)) (hc : csrOf w = 0x028 → (core d n).loads = []) :
    csrRow (some f) n w d = csrDone d n w (csrWrite (core d n) (csrOf w) (f (csrRead d n (csrOf w)) (xget (core d n) (raOf w)))) := by
  have hgo : ¬(csrOf w = 0x028 ∧ (core d n).loads ≠ []) := fun ⟨hcycle, hl⟩ => hl (hc hcycle)
  simp only [csrRow, h, if_neg (Nat.not_lt.mpr hr), if_neg (Nat.not_lt.mpr hp), if_neg hgo, csrDone, pc_csrWrite]

end

/-- A row of a control register that acts has its row's effect. -/
theorem exec_csrRow {i : Instr} {fn : Nat} {upd : Option (Word → Word → Word)} {n : CoreIx} {w : BitVec 32} {s : State}
    (he : exec i s = onDev s (instr n w (isSys fn) usesCsr (csrRow upd))) (hop : opOf w.toNat = 0x2C) (hfn : fn4 w.toNat = fn)
    (ha : Acts s n w (usesCsr w.toNat)) : exec i s = .next { s with dev := csrRow upd n.val w.toNat s.dev } :=
  exec_of_acts he (decide_eq_true ⟨hop, hfn⟩) ha

/-- What a row of a control register refuses, whether it reads or writes (R226). -/
theorem csrRow_refuses {i : Instr} {fn : Nat} {upd : Option (Word → Word → Word)} {n : CoreIx} {w : BitVec 32} {s : State}
    (he : exec i s = onDev s (instr n w (isSys fn) usesCsr (csrRow upd))) (hop : opOf w.toNat = 0x2C) (hfn : fn4 w.toNat = fn)
    (ha : Acts s n w (usesCsr w.toNat)) :
    (csrAccess n.val (csrOf w.toNat) = none → exec i s = .next (Excepted s n 0x02 w.toNat 0)) ∧
      (∀ r wp, csrAccess n.val (csrOf w.toNat) = some (r, wp) → privOf (core s.dev n.val) < r → exec i s = .next (Excepted s n 0x03 w.toNat 0)) := by
  rw [exec_csrRow he hop hfn ha]
  exact ⟨fun h => by rw [csrRow_unlisted h]; rfl, fun r wp h hr => by rw [csrRow_privilege h hr]; rfl⟩

/-- Settles O27: each of the four rows is `csrRow` of what it writes. -/
theorem controlRegisterRows : Obligations.ControlRegisterRows := by
  refine ⟨fun n w s r wp hop ha hacc hr => ⟨fun hfn => ?_, fun p hwp hp hcycle => ⟨fun hfn => ?_, fun hfn => ?_, fun hfn => ?_⟩,
    fun hwp hfn => ?_⟩, fun n w s hop ha e he hfn => ?_⟩
  · rw [exec_csrRow (i := .mfc n w) rfl hop hfn ha, csrRow_reads hacc hr]
    rfl
  · rw [exec_csrRow (i := .mtc n w) rfl hop hfn ha, csrRow_writes (hwp ▸ hacc) hr hp hcycle]
    rfl
  · rw [exec_csrRow (i := .mset n w) rfl hop hfn ha, csrRow_writes (hwp ▸ hacc) hr hp hcycle]
    rfl
  · rw [exec_csrRow (i := .mclr n w) rfl hop hfn ha, csrRow_writes (hwp ▸ hacc) hr hp hcycle]
    rfl
  · rw [exec_csrRow (i := .mtc n w) rfl hop hfn ha, csrRow_readOnly (hwp ▸ hacc) hr]
    rfl
  · simp only [List.mem_cons, List.not_mem_nil, or_false] at he
    obtain rfl | rfl | rfl | rfl := he
    · exact csrRow_refuses (i := .mfc n w) rfl hop hfn ha
    · exact csrRow_refuses (i := .mtc n w) rfl hop hfn ha
    · exact csrRow_refuses (i := .mset n w) rfl hop hfn ha
    · exact csrRow_refuses (i := .mclr n w) rfl hop hfn ha

end Sys2Proof.Machine
end

section
namespace Sys2Proof.Machine

/-! ## What one instruction of a core leaves alone (R205, R227, R234) -/

/-- From d to e core n took one instruction that accesses no memory: the other cores stay, and so do all registers of the device but the core's own
counters. -/
structure CoreStep (d e : Dev) (n : CoreIx) : Prop where
  others : ∀ m : CoreIx, m ≠ n → core e m.val = core d m.val
  regs : ∀ r i, (∀ j, j < 4 → r.key i ≠ Reg.coreCnt.key (4 * n.val + j)) → rd e r i = rd d r i
  frame : e = { d with cores := e.cores, regs := e.regs }

theorem CoreStep.refl (d : Dev) (n : CoreIx) : CoreStep d d n := ⟨fun _ _ => rfl, fun _ _ _ => rfl, rfl⟩

/-- No byte of memory reads otherwise. -/
theorem CoreStep.memByte {d e : Dev} {n : CoreIx} (h : CoreStep d e n) (a : Nat) : memByte e a = memByte d a := by
  refine memByte_congr ?_ ?_ (h.regs _ _ fun j hj => key_ne (by decide) (by omega) (by omega)) a <;> rw [h.frame]

theorem retire_coreStep (d : Dev) (n : CoreIx) (c : Core) (pc : Nat) : CoreStep d (retire d n.val c pc) n where
  others := fun _ hm => retire_core_ne d c pc (Fin.val_ne_of_ne hm)
  regs := fun _ _ h => rd_retire_ne d n.val c pc (by have := h 0 (by decide); rwa [Nat.add_zero, Nat.mul_comm] at this)
  frame := retire_frame d n.val c pc

theorem stallCount_coreStep (d : Dev) (n : CoreIx) : CoreStep d (stallCount d n.val) n where
  others := fun _ hm => core_modCore_ne d _ (Fin.val_ne_of_ne hm)
  regs := fun _ _ _ => rfl
  frame := rfl

/-- Below level 2 an exception writes at most the core's own counter of exceptions among the registers. -/
theorem rd_takeException_ne {d : Dev} {n : Nat} (cause epc eaddr vfidx : Nat) (h : levelOf (core d n) < 2) {r : Reg} {i : Nat}
    (hk : r.key i ≠ Reg.coreCnt.key (n * 4 + 3)) : rd (takeException d n cause epc eaddr vfidx) r i = rd d r i := by
  by_cases hl : (core d n).loads = []
  · unfold takeException
    simp only [hl, ne_eq, not_true_eq_false, if_false]
    rw [if_neg (by omega), rd_congr (setCore_regs ..)]
    split
    · rfl
    · exact rd_bumpN_ne d 1 hk
  · rw [takeException_waits d n _ _ _ _ hl]

theorem takeException_coreStep {d : Dev} {n : CoreIx} (cause epc eaddr vfidx : Nat) (h : levelOf (core d n.val) < 2) :
    CoreStep d (takeException d n.val cause epc eaddr vfidx) n where
  others := fun _ hm => takeException_core_ne d cause epc eaddr vfidx h (Fin.val_ne_of_ne hm)
  regs := fun _ _ hk => rd_takeException_ne cause epc eaddr vfidx h (by have := hk 3 (by decide); rwa [Nat.mul_comm] at this)
  frame := takeException_frame d n.val cause epc eaddr vfidx h

/-! ## The fields of STATUS (R226) -/

@[simp] theorem b2n_false : b2n false = 0 := rfl

@[simp] theorem b2n_true : b2n true = 1 := rfl

theorem mkStatus_toNat (p l : Nat) (ie tr : Bool) : (mkStatus p l ie tr).toNat = p % 4 + l % 4 * 16 + b2n ie * 64 + b2n tr * 128 := by
  have hie : b2n ie ≤ 1 := by cases ie <;> decide
  have htr : b2n tr ≤ 1 := by cases tr <;> decide
  rw [mkStatus, BitVec.toNat_ofNat, Nat.mod_eq_of_lt (by omega)]

section
variable {c : Core} {p l : Nat} {ie tr : Bool} (h : c.status = mkStatus p l ie tr)
include h

theorem privOf_mkStatus : privOf c = p % 4 := by
  rw [privOf, h, mkStatus_toNat, bitsOf, Nat.shiftRight_zero]
  omega

theorem levelOf_mkStatus : levelOf c = l % 4 := by
  rw [levelOf, h, mkStatus_toNat, bitsOf, Nat.shiftRight_eq_div_pow]
  omega

theorem ieOf_mkStatus : ieOf c = ie := by
  have htr : b2n tr ≤ 1 := by cases tr <;> decide
  have hb : (p % 4 + l % 4 * 16 + b2n ie * 64 + b2n tr * 128) / 2 ^ 6 % 2 ^ 1 = b2n ie := by cases ie <;> simp only [b2n_false, b2n_true] <;> omega
  rw [ieOf, h, mkStatus_toNat, bitsOf, Nat.shiftRight_eq_div_pow, hb]
  cases ie <;> rfl

theorem atOf_mkStatus : atOf c = tr := by
  have hie : b2n ie ≤ 1 := by cases ie <;> decide
  have hb : (p % 4 + l % 4 * 16 + b2n ie * 64 + b2n tr * 128) / 2 ^ 7 % 2 ^ 1 = b2n tr := by cases tr <;> simp only [b2n_false, b2n_true] <;> omega
  rw [atOf, h, mkStatus_toNat, bitsOf, Nat.shiftRight_eq_div_pow, hb]
  cases tr <;> rfl

end

/-- The privilege of a core's exceptions is one of U, S and M (R225). -/
theorem ceilingOf_lt (d : Dev) (n : Nat) : ceilingOf d n < 4 := by
  unfold ceilingOf
  split <;> omega

/-! ## Entry into an exception level (R227) -/

/-- Four registers written one after another, and what each of them holds then. -/
theorem csrGet_csrSet_four (c : Core) (k : Nat) (v0 v1 v2 v3 : Word) :
    let c' := csrSet (csrSet (csrSet (csrSet c k v0) (k + 1) v1) (k + 2) v2) (k + 3) v3
    csrGet c' k = v0 ∧ csrGet c' (k + 1) = v1 ∧ csrGet c' (k + 2) = v2 ∧ csrGet c' (k + 3) = v3 ∧
      ∀ j, ¬(k ≤ j ∧ j ≤ k + 3) → csrGet c' j = csrGet c j := by
  refine ⟨?_, ?_, ?_, ?_, fun j hj => ?_⟩
  · rw [csrGet_csrSet_ne _ _ (by omega), csrGet_csrSet_ne _ _ (by omega), csrGet_csrSet_ne _ _ (by omega), csrGet_csrSet_self]
  · rw [csrGet_csrSet_ne _ _ (by omega), csrGet_csrSet_ne _ _ (by omega), csrGet_csrSet_self]
  · rw [csrGet_csrSet_ne _ _ (by omega), csrGet_csrSet_self]
  · rw [csrGet_csrSet_self]
  · rw [csrGet_csrSet_ne _ _ (by omega), csrGet_csrSet_ne _ _ (by omega), csrGet_csrSet_ne _ _ (by omega), csrGet_csrSet_ne _ _ (by omega)]

/-- An exception taken on a device whose core n holds the registers of that of s, and which agrees with it on the other cores, on memory and on
CEILING, enters the next level. -/
theorem takeException_entersFrom {s : State} {d : Dev} {n : CoreIx} (cause epc eaddr vfidx : Nat) (hl : (core d n.val).loads = [])
    (h2 : levelOf (core s.dev n.val) < 2) (hregs : (core d n.val).toCoreRegs = (core s.dev n.val).toCoreRegs)
    (hothers : ∀ m : CoreIx, m ≠ n → core d m.val = core s.dev m.val) (hmem : ∀ a, memByte d a = memByte s.dev a)
    (hceil : ceilingOf d n.val = ceilingOf s.dev n.val) :
    Entered s { s with dev := takeException d n.val cause epc eaddr vfidx } n cause epc eaddr vfidx := by
  have hlev : levelOf (core d n.val) = levelOf (core s.dev n.val) := by rw [levelOf, levelOf, hregs]
  have hlt : levelOf (core d n.val) < 2 := hlev ▸ h2
  have hstep := takeException_coreStep (d := d) (n := n) cause epc eaddr vfidx hlt
  have hcore := takeException_core d n.val cause epc eaddr vfidx hl hlt
  have hcsr (k : Nat) : csrGet (core d n.val) k = csrGet (core s.dev n.val) k := by rw [csrGet, csrGet, hregs]
  have hbase : (if levelOf (core s.dev n.val) + 1 = 1 then 0x010 else 0x018) = if levelOf (core s.dev n.val) = 0 then 0x010 else 0x018 := by
    simp
  have hvec : (if levelOf (core s.dev n.val) + 1 = 1 then 0x008 else 0x009) = if levelOf (core s.dev n.val) = 0 then 0x008 else 0x009 := by
    simp
  dsimp only at hcore
  rw [hlev, hbase, hvec, hceil, hcsr, hregs] at hcore
  obtain ⟨h0, h1, h2', h3, -⟩ := csrGet_csrSet_four (core d n.val) (if levelOf (core s.dev n.val) = 0 then 0x010 else 0x018) (BitVec.ofNat 40 epc)
    (core s.dev n.val).status (BitVec.ofNat 40 eaddr) (BitVec.ofNat 40 (cause + vfidx % 256 * 256))
  have hst : (core (takeException d n.val cause epc eaddr vfidx) n.val).status =
      mkStatus (ceilingOf s.dev n.val) (levelOf (core s.dev n.val) + 1) false false := by rw [hcore]
  refine ⟨?_, ?_, ?_, ?_, ?_, ?_, ieOf_mkStatus hst, atOf_mkStatus hst, ?_, ?_, ?_, ?_, ?_, fun a => (hstep.memByte a).trans (hmem a),
    fun m hm => (hstep.others m hm).trans (hothers m hm)⟩
  · rw [hcore]; exact h0
  · rw [hcore]; exact h1
  · rw [hcore]; exact h2'
  · rw [hcore]; exact h3
  · rw [levelOf_mkStatus hst]; omega
  · rw [privOf_mkStatus hst, Nat.mod_eq_of_lt (ceilingOf_lt ..)]
  · rw [hcore]
  · rw [hcore]; exact (congrArg CoreRegs.x hregs :)
  · rw [hcore]; exact (congrArg CoreRegs.cells hregs :)
  · rw [hcore]; exact (congrArg CoreRegs.q hregs :)
  · rw [hcore]

/-- Below level 2, with no load in flight, an exception enters the next level. -/
theorem takeException_enters (s : State) (n : CoreIx) (cause epc eaddr vfidx : Nat) (hl : (core s.dev n.val).loads = [])
    (h2 : levelOf (core s.dev n.val) < 2) : Entered s { s with dev := takeException s.dev n.val cause epc eaddr vfidx } n cause epc eaddr vfidx :=
  takeException_entersFrom cause epc eaddr vfidx hl h2 rfl (fun _ _ => rfl) (fun _ => rfl) rfl

/-! ## ERET (R229) -/

/-- The core's number in CORE_CTRL and its STATUS alone decide a return, whose core is what `countIssue` leaves of it. -/
theorem returnException_legal {d : Dev} {n w : Nat} (hp : privOf (core d n) ≠ 0) (hl : levelOf (core d n) ≠ 0) :
    let c := core d n
    let base := if levelOf c = 1 then 0x010 else 0x018
    let es := csrGet c (base + 1)
    let p := bitsOf es.toNat 1 0
    (p = 3 ∨ ceilingOf d n < p → returnException d n w = takeException d n 0x09 c.pc p 0) ∧
    (¬(p = 3 ∨ ceilingOf d n < p) → core (returnException d n w) n = csrSet { (countIssue d n c).2 with
      status := mkStatus p (levelOf c - 1) (decide (bitsOf es.toNat 6 6 = 1)) (decide (bitsOf es.toNat 7 7 = 1))
      pc := (csrGet c base).toNat / 4 * 4, oldCode := [] } 0x029 (csrGet c 0x029 + 1)) := by
  intro c base es p
  unfold returnException
  rw [if_neg hp, if_neg hl]
  refine ⟨fun h => if_pos h, fun h => ?_⟩
  dsimp only
  rw [if_neg h]
  exact core_setCore_self _ _ _

/-- Bit k of a register as the model tests it. -/
theorem decide_bitsOf_eq_getLsbD (v : Word) (k : Nat) : decide (bitsOf v.toNat k k = 1) = v.getLsbD k := by
  rw [bitsOf_self, bitOf_eq_getLsbD]
  cases v.getLsbD k <;> rfl

/-- Settles O26: each branch of `returnException`. -/
theorem eretReturns : Obligations.EretReturns := by
  intro n w s hop hfn ha c base es p
  have hexec : exec (.eret n w) s = .next { s with dev := returnException s.dev n.val w.toNat } :=
    exec_of_acts (mine := isSys 4) (uses := fun _ => {}) (body := fun n w d => returnException d n w) rfl (decide_eq_true ⟨hop, hfn⟩) ha
  have hpe : bitsOf es.toNat 1 0 = p := by simp [bitsOf, p]
  refine ⟨fun hpriv hlev h3 hceil => ?_, fun hpriv => ?_, fun hpriv hlev => ?_, fun hpriv hlev hbad => ?_⟩
  · have hcore := (returnException_legal (w := w.toNat) hpriv hlev).2 (by rw [hpe]; omega)
    rw [hpe, decide_bitsOf_eq_getLsbD, decide_bitsOf_eq_getLsbD] at hcore
    have hst : (core (returnException s.dev n.val w.toNat) n.val).status = mkStatus p (levelOf c - 1) (es.getLsbD 6) (es.getLsbD 7) := by
      rw [hcore]; rfl
    refine ⟨_, hexec, ?_, fun hle => ?_, ieOf_mkStatus hst, atOf_mkStatus hst, ?_, ?_, ?_, ?_⟩
    · rw [privOf_mkStatus hst, Nat.mod_eq_of_lt (es.setWidth 2).isLt]
    · rw [levelOf_mkStatus hst]; omega
    · rw [hcore]; rfl
    · rw [hcore]; exact (congrArg CoreRegs.x (countIssue_registers s.dev n.val c) :)
    · rw [hcore]; rfl
    · rw [hcore, csrGet_csrSet_self]
  · rw [hexec, returnException_refused s.dev n.val w.toNat (.inl hpriv), if_pos hpriv]
    rfl
  · rw [hexec, returnException_refused s.dev n.val w.toNat (.inr hlev), if_neg hpriv]
    rfl
  · rw [hexec, (returnException_legal (w := w.toNat) hpriv hlev).1 (by rw [hpe]; exact hbad), hpe]
    rfl

/-! ## Retirement (R205, R234) -/

theorem modify_last {α : Type} (f : α → α) (l : List α) (a : α) {k : Nat} (hk : k = l.length) : (l ++ [a]).modify k f = l ++ [f a] := by
  subst hk
  induction l with
  | nil => rfl
  | cons x l ih => simp [ih]

/-- With loads in flight an instruction retires with the youngest of them. -/
theorem countIssue_inFlight (d : Dev) (n : Nat) {c : Core} {ls : List LoadFly} {l : LoadFly} (h : c.loads = ls ++ [l]) :
    countIssue d n c = (d, { c with loads := ls ++ [{ l with after := l.after + 1 }], stalled := false, inVec := false }) := by
  simp [countIssue, h]

/-- With no load in flight the first CORE_CNT of an operator core counts an instruction. -/
theorem rd_retire_counts (d : Dev) {n : Nat} (hn : n < 32) {c : Core} (pc : Nat) (hl : c.loads = []) :
    rd (retire d n c pc) .coreCnt (4 * n) = rd (bump d .coreCnt (4 * n)) .coreCnt (4 * n) := by
  have h32 : n ≠ 32 := by omega
  rw [retire, rd_congr (setCore_regs ..), countIssue]
  simp [hl, h32, Nat.mul_comm n 4]

/-- Settles O11: an instruction retires now or with the youngest load, and either way writes its core and at most one counter. -/
theorem retirementChangesNothingElse : Obligations.RetirementChangesNothingElse := by
  intro s n c pc t
  have hstep : CoreStep s.dev t.dev n := retire_coreStep s.dev n c pc
  refine ⟨fun hl => ⟨?_, fun hn => rd_retire_counts s.dev hn pc hl⟩, fun hl => ?_, hstep.others,
    fun r i hk => rd_retire_ne s.dev n.val c pc (by rwa [Nat.mul_comm]), hstep.memByte, rfl, rfl, hstep.frame⟩
  · rw [show core t.dev n.val = _ from retire_core_self .., countIssue_core s.dev n.val hl]
    rfl
  · obtain ⟨ls, l, hls⟩ : ∃ ls l, c.loads = ls ++ [l] := ⟨_, _, (List.dropLast_append_getLast hl).symm⟩
    have hcount := countIssue_inFlight s.dev n.val hls
    have hcore : core t.dev n.val = retireTo (countIssue s.dev n.val c).2 pc := retire_core_self ..
    refine ⟨?_, toCoreRegs_retire .., ?_, ?_⟩
    · change (retire s.dev n.val c pc).regs = _
      rw [retire, setCore_regs, hcount]
    · rw [hcore, hcount, hls]
      simp only [retireTo, csrSet, List.map_append, List.map_cons, List.map_nil, List.length_append, List.length_cons, List.length_nil]
      exact (modify_last (fun k => k + 1) _ _ (by simp)).symm
    · rw [hcore, hcount, hls]
      simp [retireTo, csrSet]

end Sys2Proof.Machine
end

section
namespace Sys2Proof.Machine

/-! ## The frame of the scalar rows (R205, R210, R211, R227) -/

/-- From core c to core k a scalar instruction wrote at most X register r, INSTRET, and the registers of the level that it enters from level l. -/
structure ScalarWrites (r l : Nat) (c k : Core) : Prop where
  xs : ∀ i, i ≠ r → xget k i = xget c i
  csrs : ∀ i, i ≠ 0x029 → ¬(l = 0 ∧ 0x010 ≤ i ∧ i ≤ 0x013) → ¬(l = 1 ∧ 0x018 ≤ i ∧ i ≤ 0x01B) → csrGet k i = csrGet c i
  cells : k.cells = c.cells
  q : k.q = c.q

theorem ScalarWrites.refl (r l : Nat) (c : Core) : ScalarWrites r l c c := ⟨fun _ _ => rfl, fun _ _ _ _ => rfl, rfl, rfl⟩

theorem xset_scalarWrites (r l : Nat) (c : Core) (v : Word) : ScalarWrites r l c (xset c r v) where
  xs := fun _ h => xget_xset_ne c v h
  csrs := fun _ _ _ _ => csrGet_xset ..
  cells := by rw [xset]; split <;> rfl
  q := by rw [xset]; split <;> rfl

/-- The registers of a core decide what a scalar instruction wrote. -/
theorem ScalarWrites.congr {r l : Nat} {c k k' : Core} (h : ScalarWrites r l c k) (hx : k'.x = k.x)
    (hcsr : ∀ i, i ≠ 0x029 → csrGet k' i = csrGet k i) (hcells : k'.cells = k.cells) (hq : k'.q = k.q) : ScalarWrites r l c k' where
  xs := fun i hi => by rw [← h.xs i hi, xget, xget, hx]
  csrs := fun i hi h0 h1 => (hcsr i hi).trans (h.csrs i hi h0 h1)
  cells := hcells.trans h.cells
  q := hq.trans h.q

/-- From d to e core n took a scalar instruction whose destination is X register r. -/
structure ScalarStep (r : Nat) (d e : Dev) (n : CoreIx) : Prop where
  step : CoreStep d e n
  writes : ScalarWrites r (levelOf (core d n.val)) (core d n.val) (core e n.val)

/-- A retirement adds INSTRET and the pc to what its instruction wrote. -/
theorem retire_scalarStep {r : Nat} {d : Dev} {n : CoreIx} {c : Core} (pc : Nat)
    (hc : ScalarWrites r (levelOf (core d n.val)) (core d n.val) c) : ScalarStep r d (retire d n.val c pc) n where
  step := retire_coreStep d n c pc
  writes := by
    have h := toCoreRegs_retire d n.val c pc
    refine hc.congr (congrArg CoreRegs.x h :) (fun i hi => ?_) (congrArg CoreRegs.cells h :) (congrArg CoreRegs.q h :)
    rw [csrGet, h]
    exact csrGet_csrSet_ne c _ hi

/-- An exception below level 2 writes the registers of the level that it enters. -/
theorem takeException_scalarStep {d : Dev} {n : CoreIx} (r cause epc eaddr vfidx : Nat) (h2 : levelOf (core d n.val) < 2) :
    ScalarStep r d (takeException d n.val cause epc eaddr vfidx) n := by
  refine ⟨takeException_coreStep cause epc eaddr vfidx h2, ?_⟩
  by_cases hl : (core d n.val).loads = []
  · rw [takeException_core d n.val cause epc eaddr vfidx hl h2]
    dsimp only
    refine ⟨fun _ _ => rfl, fun i _ h0 h1 => ?_, rfl, rfl⟩
    obtain ⟨-, -, -, -, hother⟩ := csrGet_csrSet_four (core d n.val) (if levelOf (core d n.val) + 1 = 1 then 0x010 else 0x018) (BitVec.ofNat 40 epc)
      (core d n.val).status (BitVec.ofNat 40 eaddr) (BitVec.ofNat 40 (cause + vfidx % 256 * 256))
    exact hother i (by split <;> omega)
  · rw [takeException_waits d n.val _ _ _ _ hl]
    exact .refl ..

/-- What every scalar row answers: the device after a scalar instruction, and nothing else. -/
def ScalarFrame (i : CoreIx → BitVec 32 → Instr) : Prop :=
  ∀ (n : CoreIx) (w : BitVec 32) (s t : State), levelOf (core s.dev n.val) < 2 → exec (i n w) s = .next t →
    t = { s with dev := t.dev } ∧ ScalarStep (rdOf w.toNat) s.dev t.dev n

section
variable {i : CoreIx → BitVec 32 → Instr} {mine : Nat → Bool} {uses : Nat → Uses} {body : Nat → Nat → Dev → Dev}

/-- A row has the frame where its body has: a row that stalls or does not issue writes less. -/
theorem scalarFrame_of_body (hbody : ∀ (n : CoreIx) w d, levelOf (core d n.val) < 2 → ScalarStep (rdOf w) d (body n.val w d) n)
    (he : ∀ n w s, exec (i n w) s = onDev s (instr n w mine uses body)) : ScalarFrame i := by
  intro n w s t h2 ht
  rw [he, onDev_next] at ht
  obtain rfl := Host.Outcome.next.inj ht
  refine ⟨rfl, instr_keeps (P := fun e => ScalarStep (rdOf w.toNat) s.dev e n) s.dev n w mine uses body ?_ ?_ (hbody n w.toNat s.dev h2)⟩
  · exact ⟨.refl .., .refl ..⟩
  · refine ⟨stallCount_coreStep .., ?_⟩
    rw [stallCount, core_modCore_self]
    exact (ScalarWrites.refl ..).congr rfl (fun _ _ => rfl) rfl rfl

theorem aluRow_frame {f : Word → Word → Word} (he : ∀ n w s, exec (i n w) s = onDev s (instr n w mine uses (aluRow f))) : ScalarFrame i :=
  scalarFrame_of_body (fun _ _ _ _ => retire_scalarStep _ (xset_scalarWrites ..)) he

theorem unaryRow_frame {f : Word → Word} (he : ∀ n w s, exec (i n w) s = onDev s (instr n w mine uses (unaryRow f))) : ScalarFrame i :=
  scalarFrame_of_body (fun _ _ _ _ => retire_scalarStep _ (xset_scalarWrites ..)) he

theorem immRow_frame {im : Nat → Word} {f : Word → Word → Word} (he : ∀ n w s, exec (i n w) s = onDev s (instr n w mine uses (immRow im f))) :
    ScalarFrame i :=
  scalarFrame_of_body (fun _ _ _ _ => retire_scalarStep _ (xset_scalarWrites ..)) he

theorem divRow_frame {f : Word → Word → Word} (he : ∀ n w s, exec (i n w) s = onDev s (instr n w mine uses (divRow f))) : ScalarFrame i := by
  refine scalarFrame_of_body (fun n w d h2 => ?_) he
  unfold divRow
  dsimp only
  split
  · exact takeException_scalarStep _ _ _ _ _ h2
  · exact retire_scalarStep _ (xset_scalarWrites ..)

theorem branchRow_frame {f : Word → Word → Bool} (he : ∀ n w s, exec (i n w) s = onDev s (instr n w mine uses (branchRow f))) : ScalarFrame i :=
  scalarFrame_of_body (fun _ _ _ _ => retire_scalarStep _ (.refl ..)) he

end

/-- The commands of `aluRow`. -/
def aluInstrs : List (CoreIx → BitVec 32 → Instr) := [.add, .sub, .andd, .orr, .xorr, .sll, .srl, .sra, .slt, .sltu, .min, .max, .minu, .maxu, .mul, .mulh, .mulhu]

theorem aluInstrs_frame : ∀ i ∈ aluInstrs, ScalarFrame i := by
  intro i hi
  simp only [aluInstrs, List.mem_cons, List.not_mem_nil, or_false] at hi
  obtain rfl | rfl | rfl | rfl | rfl | rfl | rfl | rfl | rfl | rfl | rfl | rfl | rfl | rfl | rfl | rfl | rfl := hi <;>
    exact aluRow_frame (fun _ _ _ => rfl)

/-- The commands of `divRow`. -/
def divInstrs : List (CoreIx → BitVec 32 → Instr) := [.div, .divu, .rem, .remu]

theorem divInstrs_frame : ∀ i ∈ divInstrs, ScalarFrame i := by
  intro i hi
  simp only [divInstrs, List.mem_cons, List.not_mem_nil, or_false] at hi
  obtain rfl | rfl | rfl | rfl := hi <;>
    exact divRow_frame (fun _ _ _ => rfl)

/-- The commands of `unaryRow`. -/
def unaryInstrs : List (CoreIx → BitVec 32 → Instr) := [.clz, .ctz, .popc, .h40]

theorem unaryInstrs_frame : ∀ i ∈ unaryInstrs, ScalarFrame i := by
  intro i hi
  simp only [unaryInstrs, List.mem_cons, List.not_mem_nil, or_false] at hi
  obtain rfl | rfl | rfl | rfl := hi <;>
    exact unaryRow_frame (fun _ _ _ => rfl)

/-- The commands of `immRow`. -/
def immInstrs : List (CoreIx → BitVec 32 → Instr) := [.addi, .andi, .ori, .xori, .slti, .sltiu, .slli, .srli, .srai]

theorem immInstrs_frame : ∀ i ∈ immInstrs, ScalarFrame i := by
  intro i hi
  simp only [immInstrs, List.mem_cons, List.not_mem_nil, or_false] at hi
  obtain rfl | rfl | rfl | rfl | rfl | rfl | rfl | rfl | rfl := hi <;>
    exact immRow_frame (fun _ _ _ => rfl)

/-- The commands of `branchRow`. -/
def branchInstrs : List (CoreIx → BitVec 32 → Instr) := [.beq, .bne, .blt, .bge, .bltu, .bgeu]

theorem branchInstrs_frame : ∀ i ∈ branchInstrs, ScalarFrame i := by
  intro i hi
  simp only [branchInstrs, List.mem_cons, List.not_mem_nil, or_false] at hi
  obtain rfl | rfl | rfl | rfl | rfl | rfl := hi <;>
    exact branchRow_frame (fun _ _ _ => rfl)

/-- LUI, ORL, JAL and JALR write rd and retire. -/
theorem linkRows_frame : ScalarFrame .lui ∧ ScalarFrame .orl ∧ ScalarFrame .jal ∧ ScalarFrame .jalr :=
  ⟨scalarFrame_of_body (body := luiRow) (fun _ _ _ _ => retire_scalarStep _ (xset_scalarWrites ..)) (fun _ _ _ => rfl),
    scalarFrame_of_body (body := orlRow) (fun _ _ _ _ => retire_scalarStep _ (xset_scalarWrites ..)) (fun _ _ _ => rfl),
    scalarFrame_of_body (body := jalRow) (fun _ _ _ _ => retire_scalarStep _ (xset_scalarWrites ..)) (fun _ _ _ => rfl),
    scalarFrame_of_body (body := jalrRow) (fun _ _ _ _ => retire_scalarStep _ (xset_scalarWrites ..)) (fun _ _ _ => rfl)⟩

/-- Settles O12: every scalar row retires what its function writes to rd, or enters the next level. -/
theorem scalarRowsFrame : Obligations.ScalarRowsFrame := by
  intro i hi n w s t h2 ht
  have hframe : ScalarFrame i := by
    obtain ⟨hlui, horl, hjal, hjalr⟩ := linkRows_frame
    have hi : i ∈ aluInstrs ++ (divInstrs ++ (unaryInstrs ++ (immInstrs ++ ([.lui, .orl] ++ (branchInstrs ++ [.jal, .jalr]))))) := hi
    simp only [List.mem_append, List.mem_cons, List.not_mem_nil, or_false] at hi
    obtain h | h | h | h | (rfl | rfl) | h | rfl | rfl := hi
    · exact aluInstrs_frame i h
    · exact divInstrs_frame i h
    · exact unaryInstrs_frame i h
    · exact immInstrs_frame i h
    · exact hlui
    · exact horl
    · exact branchInstrs_frame i h
    · exact hjal
    · exact hjalr
  obtain ⟨hs, hstep, hxs, hcsrs, hcells, hq⟩ := hframe n w s t h2 ht
  exact ⟨hxs, rfl, hcsrs, hcells, hq, hstep.others, hstep.regs, hstep.memByte, by rw [hs], hstep.frame⟩

end Sys2Proof.Machine
end

section
namespace Sys2Proof.Machine

/-! ## The frame of the rows of the cell file (R205, R236, R241) -/

/-- From core c to core k an instruction of the cell file left STATUS and every control register but VL and FCSR. -/
structure CellWrites (c k : Core) : Prop where
  csrs : ∀ i, i ≠ 0x100 → i ≠ 0x101 → csrGet k i = csrGet c i
  status : k.status = c.status

theorem CellWrites.refl (c : Core) : CellWrites c c := ⟨fun _ _ _ => rfl, rfl⟩

theorem CellWrites.trans {c k k' : Core} (h : CellWrites c k) (h' : CellWrites k k') : CellWrites c k' :=
  ⟨fun i hvl hfcsr => (h'.csrs i hvl hfcsr).trans (h.csrs i hvl hfcsr), h'.status.trans h.status⟩

theorem xset_cellWrites (c : Core) (i : Nat) (v : Word) : CellWrites c (xset c i v) :=
  ⟨fun _ _ _ => csrGet_xset .., by rw [xset]; split <;> rfl⟩

theorem setQual_cellWrites (c : Core) (k : Nat) (v : BitVec 64) : CellWrites c (setQual c k v) := ⟨fun _ _ _ => rfl, rfl⟩

theorem setF_cellWrites (c : Core) (i v : Nat) : CellWrites c (setF c i v) := ⟨fun _ _ _ => rfl, rfl⟩

theorem setElem_cellWrites (c : Core) (v : Nat) (long : Bool) (e : Nat) (x : Word) : CellWrites c (setElem c v long e x) :=
  ⟨fun _ _ _ => rfl, rfl⟩

theorem setElems_cellWrites (c : Core) (v : Nat) (long : Bool) (xs : List (Nat × Word)) : CellWrites c (setElems c v long xs) := by
  induction xs generalizing c with
  | nil => exact .refl c
  | cons e xs ih => exact (setElem_cellWrites c v long e.1 e.2).trans (ih _)

theorem setFlags_cellWrites (c : Core) (fl : Nat) : CellWrites c (setFlags c fl) :=
  ⟨fun _ _ hfcsr => csrGet_csrSet_ne c _ hfcsr, rfl⟩

theorem setVl_cellWrites (c : Core) (v : Word) : CellWrites c (csrSet c 0x100 v) := ⟨fun _ hvl _ => csrGet_csrSet_ne c v hvl, rfl⟩

/-- A body of the cell file: it retires what it wrote, which is no control register but VL and FCSR. -/
def CellBody (body : Nat → Nat → Dev → Dev) : Prop :=
  ∀ n w d, ∃ c, body n w d = retire d n c ((core d n).pc + 4) ∧ CellWrites (core d n) c

/-- What every row of the cell file answers. -/
def CellFrame (i : CoreIx → BitVec 32 → Instr) : Prop :=
  ∀ (n : CoreIx) (w : BitVec 32) (s t : State), exec (i n w) s = .next t →
    t = { s with dev := t.dev } ∧ CoreStep s.dev t.dev n ∧ (core t.dev n.val).status = (core s.dev n.val).status ∧
      ∀ k, k ≠ 0x029 → k ≠ 0x100 → k ≠ 0x101 → csrGet (core t.dev n.val) k = csrGet (core s.dev n.val) k

/-- A row has the frame where its body writes cells, qualifiers, X registers, VL and FCSR alone. -/
theorem CellBody.frame {i : CoreIx → BitVec 32 → Instr} {mine : Nat → Bool} {uses : Nat → Uses} {body : Nat → Nat → Dev → Dev} (hbody : CellBody body)
    (he : ∀ n w s, exec (i n w) s = onDev s (instr n w mine uses body)) : CellFrame i := by
  intro n w s t ht
  rw [he, onDev_next] at ht
  obtain rfl := Host.Outcome.next.inj ht
  refine ⟨rfl, instr_keeps (P := fun e => CoreStep s.dev e n ∧ (core e n.val).status = (core s.dev n.val).status ∧
    ∀ k, k ≠ 0x029 → k ≠ 0x100 → k ≠ 0x101 → csrGet (core e n.val) k = csrGet (core s.dev n.val) k) s.dev n w mine uses body ?_ ?_ ?_⟩
  · exact ⟨.refl .., rfl, fun _ _ _ _ => rfl⟩
  · refine ⟨stallCount_coreStep .., ?_⟩
    rw [stallCount, core_modCore_self]
    exact ⟨rfl, fun _ _ _ _ => rfl⟩
  · obtain ⟨c, hret, hcsrs, hstatus⟩ := hbody n.val w.toNat s.dev
    have hregs := toCoreRegs_retire s.dev n.val c ((core s.dev n.val).pc + 4)
    rw [hret]
    refine ⟨retire_coreStep .., (congrArg CoreRegs.status hregs :).trans hstatus, fun k hinstret hvl hfcsr => ?_⟩
    rw [csrGet, hregs, ← hcsrs k hvl hfcsr]
    exact csrGet_csrSet_ne c _ hinstret

section
variable (c : Core)

theorem setElems_setFlags_cellWrites (fl v : Nat) (long : Bool) (xs : List (Nat × Word)) : CellWrites c (setElems (setFlags c fl) v long xs) :=
  (setFlags_cellWrites c fl).trans (setElems_cellWrites ..)

theorem setF_setFlags_cellWrites (fl i v : Nat) : CellWrites c (setF (setFlags c fl) i v) :=
  (setFlags_cellWrites c fl).trans (setF_cellWrites ..)

end

/-! ### The bodies -/

theorem vIntRow_cellBody (f : Word → Word → Word) : CellBody (vIntRow f) := fun _ _ _ => ⟨_, rfl, setElems_cellWrites ..⟩
theorem vselRow_cellBody : CellBody vselRow := fun _ _ _ => ⟨_, rfl, setElems_cellWrites ..⟩
theorem cmpRow_cellBody (f : Word → Word → Bool) : CellBody (cmpRow f) := fun _ _ _ => ⟨_, rfl, setQual_cellWrites ..⟩
theorem fcmpRow_cellBody (f : Bool → Nat → Nat → Bool × Nat) : CellBody (fcmpRow f) := fun _ _ _ =>
  ⟨_, rfl, (setFlags_cellWrites ..).trans (setQual_cellWrites ..)⟩
theorem redRow_cellBody (f : Word → Word → Word) : CellBody (redRow f) := fun _ _ _ => ⟨_, rfl, xset_cellWrites ..⟩
theorem fredRow_cellBody (f : Nat → Bool → Nat → Nat → Nat × Nat) : CellBody (fredRow f) := fun _ _ _ => ⟨_, rfl, setF_setFlags_cellWrites ..⟩
theorem compressRow_cellBody : CellBody compressRow := fun _ _ _ => ⟨_, rfl, setElems_cellWrites ..⟩
theorem expandRow_cellBody : CellBody expandRow := fun _ _ _ => ⟨_, rfl, setElems_cellWrites ..⟩
theorem splatRow_cellBody (f : Word → Nat → Word) : CellBody (splatRow f) := fun _ _ _ => ⟨_, rfl, setElems_cellWrites ..⟩
theorem vmovRow_cellBody : CellBody vmovRow := fun _ _ _ => ⟨_, rfl, setElems_cellWrites ..⟩
theorem vextRow_cellBody : CellBody vextRow := fun _ _ _ => ⟨_, rfl, xset_cellWrites ..⟩
theorem qRow_cellBody (f : BitVec 64 → BitVec 64 → BitVec 64) : CellBody (qRow f) := fun _ _ _ => ⟨_, rfl, setQual_cellWrites ..⟩
theorem qxRow_cellBody (f : BitVec 64 → Nat → Nat) : CellBody (qxRow f) := fun _ _ _ => ⟨_, rfl, xset_cellWrites ..⟩
theorem qfromxRow_cellBody : CellBody qfromxRow := fun _ _ _ => ⟨_, rfl, setQual_cellWrites ..⟩
theorem setvlRow_cellBody : CellBody setvlRow := fun _ _ _ => ⟨_, rfl, (xset_cellWrites ..).trans (setVl_cellWrites ..)⟩
theorem qfillRow_cellBody : CellBody qfillRow := fun _ _ _ => ⟨_, rfl, setQual_cellWrites ..⟩
theorem fcvtpRow_cellBody : CellBody fcvtpRow := fun _ _ _ => ⟨_, rfl, setF_setFlags_cellWrites ..⟩
theorem fmvxfRow_cellBody : CellBody fmvxfRow := fun _ _ _ => ⟨_, rfl, xset_cellWrites ..⟩
theorem fmvfxRow_cellBody : CellBody fmvfxRow := fun _ _ _ => ⟨_, rfl, setF_cellWrites ..⟩

theorem vinsRow_cellBody : CellBody vinsRow := fun _ _ _ => ⟨_, rfl, by
  split
  · exact setElem_cellWrites ..
  · exact .refl _⟩

theorem fpRow_cellBody (f : FFmt → Nat → Bool → Nat → Nat → Nat → Nat × Nat) : CellBody (fpRow f) := fun n w d => by
  by_cases h : opOf w = 0x34
  · exact ⟨_, if_pos h, setF_setFlags_cellWrites ..⟩
  · exact ⟨_, if_neg h, setElems_setFlags_cellWrites ..⟩

theorem fcvtfxRow_cellBody : CellBody fcvtfxRow := fun n w d => by
  by_cases h : opOf w = 0x34
  · exact ⟨_, if_pos h, setF_setFlags_cellWrites ..⟩
  · exact ⟨_, if_neg h, setElems_setFlags_cellWrites ..⟩

theorem fcvtxfRow_cellBody : CellBody fcvtxfRow := fun n w d => by
  by_cases h : opOf w = 0x34
  · exact ⟨_, if_pos h, (setFlags_cellWrites ..).trans (xset_cellWrites ..)⟩
  · exact ⟨_, if_neg h, setElems_setFlags_cellWrites ..⟩

/-! ### The rows -/

theorem vecRows_frame : ∀ r ∈ vecRows, CellFrame r.cmd := by
  intro r hr
  simp only [vecRows, List.mem_cons, List.not_mem_nil, or_false] at hr
  obtain rfl | rfl | rfl | rfl | rfl | rfl | rfl | rfl | rfl | rfl | rfl | rfl | rfl | rfl | rfl | rfl := hr
  case inr.inr.inr.inr.inr.inr.inr.inr.inr.inr.inr.inr.inr.inr.inr => exact vselRow_cellBody.frame (fun _ _ _ => rfl)
  all_goals exact (vIntRow_cellBody _).frame (fun _ _ _ => rfl)

theorem compareRows_frame : ∀ r ∈ compareRows, CellFrame r.cmd := by
  intro r hr
  simp only [compareRows, List.mem_cons, List.not_mem_nil, or_false] at hr
  obtain rfl | rfl | rfl | rfl | rfl | rfl | hf := hr
  case inr.inr.inr.inr.inr.inr => obtain rfl | rfl := hf <;> exact (fcmpRow_cellBody _).frame (fun _ _ _ => rfl)
  all_goals exact (cmpRow_cellBody _).frame (fun _ _ _ => rfl)

theorem reductionRows_frame : ∀ r ∈ reductionRows, CellFrame r.cmd := by
  intro r hr
  simp only [reductionRows, List.mem_cons, List.not_mem_nil, or_false] at hr
  obtain rfl | rfl | rfl | rfl | rfl | rfl | rfl | rfl | hf := hr
  case inr.inr.inr.inr.inr.inr.inr.inr => obtain rfl | rfl | rfl := hf <;> exact (fredRow_cellBody _).frame (fun _ _ _ => rfl)
  all_goals exact (redRow_cellBody _).frame (fun _ _ _ => rfl)

theorem moveRows_frame : ∀ r ∈ moveRows, CellFrame r.cmd := by
  intro r hr
  simp only [moveRows, List.mem_cons, List.not_mem_nil, or_false] at hr
  obtain rfl | rfl | rfl | rfl | rfl | rfl | rfl := hr
  · exact compressRow_cellBody.frame (fun _ _ _ => rfl)
  · exact expandRow_cellBody.frame (fun _ _ _ => rfl)
  · exact (splatRow_cellBody _).frame (fun _ _ _ => rfl)
  · exact (splatRow_cellBody _).frame (fun _ _ _ => rfl)
  · exact vmovRow_cellBody.frame (fun _ _ _ => rfl)
  · exact vextRow_cellBody.frame (fun _ _ _ => rfl)
  · exact vinsRow_cellBody.frame (fun _ _ _ => rfl)

theorem qualRows_frame : ∀ r ∈ qualRows, CellFrame r.cmd := by
  intro r hr
  simp only [qualRows, List.mem_cons, List.not_mem_nil, or_false] at hr
  obtain rfl | rfl | rfl | rfl | rfl | rfl | rfl | rfl | rfl | rfl | rfl | rfl := hr
  · exact (qRow_cellBody _).frame (fun _ _ _ => rfl)
  · exact (qRow_cellBody _).frame (fun _ _ _ => rfl)
  · exact (qRow_cellBody _).frame (fun _ _ _ => rfl)
  · exact (qRow_cellBody _).frame (fun _ _ _ => rfl)
  · exact (qRow_cellBody _).frame (fun _ _ _ => rfl)
  · exact (qxRow_cellBody _).frame (fun _ _ _ => rfl)
  · exact qfromxRow_cellBody.frame (fun _ _ _ => rfl)
  · exact (qxRow_cellBody _).frame (fun _ _ _ => rfl)
  · exact (qxRow_cellBody _).frame (fun _ _ _ => rfl)
  · exact (qxRow_cellBody _).frame (fun _ _ _ => rfl)
  · exact setvlRow_cellBody.frame (fun _ _ _ => rfl)
  · exact qfillRow_cellBody.frame (fun _ _ _ => rfl)

theorem floatRows_frame : ∀ r ∈ floatRows, CellFrame r.cmd := by
  intro r hr
  simp only [floatRows, List.mem_cons, List.not_mem_nil, or_false] at hr
  obtain rfl | rfl | rfl | rfl | rfl | rfl | rfl | rfl | rfl | rfl | rfl | rfl | rfl | rfl | rfl := hr
  · exact (fpRow_cellBody _).frame (fun _ _ _ => rfl)
  · exact (fpRow_cellBody _).frame (fun _ _ _ => rfl)
  · exact (fpRow_cellBody _).frame (fun _ _ _ => rfl)
  · exact (fpRow_cellBody _).frame (fun _ _ _ => rfl)
  · exact (fpRow_cellBody _).frame (fun _ _ _ => rfl)
  · exact (fpRow_cellBody _).frame (fun _ _ _ => rfl)
  · exact (fpRow_cellBody _).frame (fun _ _ _ => rfl)
  · exact (fpRow_cellBody _).frame (fun _ _ _ => rfl)
  · exact fcvtfxRow_cellBody.frame (fun _ _ _ => rfl)
  · exact fcvtxfRow_cellBody.frame (fun _ _ _ => rfl)
  · exact (fpRow_cellBody _).frame (fun _ _ _ => rfl)
  · exact (fpRow_cellBody _).frame (fun _ _ _ => rfl)
  · exact fcvtpRow_cellBody.frame (fun _ _ _ => rfl)
  · exact fmvxfRow_cellBody.frame (fun _ _ _ => rfl)
  · exact fmvfxRow_cellBody.frame (fun _ _ _ => rfl)

/-- Settles O17: every row of the cell file retires what its function wrote. -/
theorem cellRowsFrame : Obligations.CellRowsFrame := by
  intro r hr n w s t ht
  have hframe : CellFrame r.cmd := by
    simp only [List.mem_append] at hr
    obtain ((((h | h) | h) | h) | h) | h := hr
    · exact vecRows_frame r h
    · exact compareRows_frame r h
    · exact reductionRows_frame r h
    · exact moveRows_frame r h
    · exact qualRows_frame r h
    · exact floatRows_frame r h
  obtain ⟨hs, hstep, hstatus, hcsrs⟩ := hframe n w s t ht
  exact ⟨hcsrs, hstatus, rfl, hstep.others, hstep.regs, hstep.memByte, by rw [hs], hstep.frame⟩

end Sys2Proof.Machine
end

section
namespace Sys2Proof.Machine

/-! ## Loads that fault and loads that wait for nothing (R213 to R215) -/

section
variable {d : Dev} {n ea fr len : Nat} {aligned store : Bool} {dest : LoadDest}

theorem accessCause_misaligned : accessCause d n ea len false store = some 0x04 := rfl

theorem accessCause_unreached (h : ¬∀ b ∈ accessBytes ea len, byteReach d n b store = true) :
    accessCause d n ea len true store = some (if store then 0x06 else 0x05) := by
  simp only [accessCause, Bool.not_true, Bool.false_eq_true, if_false, List.all_eq_true, if_neg h]

theorem accessCause_reached (h : ∀ b ∈ accessBytes ea len, byteReach d n b store = true) : accessCause d n ea len true store = none := by
  simp only [accessCause, Bool.not_true, Bool.false_eq_true, if_false, List.all_eq_true, if_pos h]

/-- An access with no cause is aligned and reaches every byte. -/
theorem reached_of_accessCause (h : accessCause d n ea len aligned store = none) : ∀ b ∈ accessBytes ea len, byteReach d n b store = true := by
  by_contra hno
  cases aligned with
  | false => simp [accessCause] at h
  | true => simp [accessCause_unreached hno] at h

theorem loadFrom_misaligned : loadFrom d n ea fr len false dest = takeException d n 0x04 (core d n).pc ea 0 := rfl

theorem loadFrom_unreached (h : ¬∀ b ∈ accessBytes fr len, byteReach d n b false = true) :
    loadFrom d n ea fr len true dest = takeException d n 0x05 (core d n).pc ea 0 := by
  simp [loadFrom, accessCause_unreached h]

theorem loadFrom_shut (h : ∀ b ∈ accessBytes fr len, byteReach d n b false = true) (hg : memGate d [fr] = .shut) :
    loadFrom d n ea fr len true dest = takeException d n 0x05 (core d n).pc ea 0 := by
  simp [loadFrom, accessCause_reached h, hg]

theorem storeAt_misaligned {bs : List Byte} {native : Bool} : storeAt d n ea bs false native = takeException d n 0x04 (core d n).pc ea 0 := rfl

theorem storeAt_unreached {bs : List Byte} {native : Bool} (h : ¬∀ b ∈ accessBytes ea bs.length, byteReach d n b true = true) :
    storeAt d n ea bs true native = takeException d n 0x06 (core d n).pc ea 0 := by
  simp [storeAt, accessCause_unreached h]

/-- A store that reaches its bytes is refused by a bell's unit that may not wake, or by a domain that is shut. -/
theorem storeAt_shut {bs : List Byte} {native : Bool} (h : ∀ b ∈ accessBytes ea bs.length, byteReach d n b true = true)
    (hs : (native = true ∧ bellRefused d n ea = true) ∨ memGate d [ea] = .shut) :
    storeAt d n ea bs true native = takeException d n 0x06 (core d n).pc ea 0 := by
  rw [storeAt, accessCause_reached h]
  dsimp only
  by_cases hb : (native && bellRefused d n ea) = true
  · rw [if_pos hb]
  · obtain ⟨hnative, hrefused⟩ | hshut := hs
    · exact absurd (by rw [hnative, hrefused]; rfl) hb
    · rw [if_neg hb, hshut]

/-- A load that reaches its bytes, finds their domains ON and a place among those in flight is launched (R204). -/
theorem loadFrom_launches (hc : accessCause d n fr len aligned false = none) (hg : memGate d [fr] = .open_) (hl : (core d n).loads.length < 8) :
    loadFrom d n ea fr len aligned dest =
      launch d n { dest := dest, elems := [(0, len)], want := (accessBytes fr len).map (knownByte d (core d n))
                   bad := (badAt d (accessBytes fr len)).map (fun l => (l, 0)), addr := ea } [(fr, len)] := by
  simp [loadFrom, hc, hg, Nat.not_le.mpr hl]

end

section
variable {n w : Nat} {d : Dev} {ea : Nat} (hea : effAddr (core d n) (raOf w) (immS w) = ea)
include hea

theorem lnRow_memory (h : regionOf d ea ≠ .regs) : lnRow n w d = loadFrom d n ea ea 5 (nativeOk ea) (.x (rdOf w) false) := by
  subst hea
  exact if_neg h

theorem lnRow_register (h : regionOf d ea = .regs) : lnRow n w d = lnReg d n ea (rdOf w) := by
  subst hea
  exact if_pos h

end

/-- Each scalar load that acts, but for LN of a register, is a load from memory to its row's destination. -/
theorem exec_scalarLoad {e : (CoreIx → BitVec 32 → Instr) × (Nat → Bool) × (Nat → Uses) × (Core → Nat → Nat) × (Nat → Nat) × Nat × (Nat → Bool) ×
      (Nat → Nat → LoadDest)} (he : e ∈ scalarLoads) {n : CoreIx} {w : BitVec 32} {s : State} (hw : e.2.1 w.toNat = true)
    (ha : Acts s n w (e.2.2.1 w.toNat)) :
    let a := e.2.2.2.1 (core s.dev n.val) w.toNat
    (opOf w.toNat = 0x16 → regionOf s.dev a ≠ .regs) →
      exec (e.1 n w) s = .next { s with
        dev := loadFrom s.dev n.val a (e.2.2.2.2.1 a) e.2.2.2.2.2.1 (e.2.2.2.2.2.2.1 a) (e.2.2.2.2.2.2.2 w.toNat a) } := by
  intro a hr
  simp only [scalarLoads, List.mem_cons, List.not_mem_nil, or_false] at he
  obtain rfl | rfl | rfl | rfl | rfl | rfl | rfl | rfl | rfl | rfl | rfl := he
  · exact exec_of_acts (mine := isOp 0x10) (uses := usesAb) (body := loadRow 1 (fun r => .x r true)) rfl hw ha
  · exact exec_of_acts (mine := isOp 0x11) (uses := usesAb) (body := loadRow 1 (fun r => .x r false)) rfl hw ha
  · exact exec_of_acts (mine := isOp 0x12) (uses := usesAb) (body := loadRow 2 (fun r => .x r true)) rfl hw ha
  · exact exec_of_acts (mine := isOp 0x13) (uses := usesAb) (body := loadRow 2 (fun r => .x r false)) rfl hw ha
  · exact exec_of_acts (mine := isOp 0x14) (uses := usesAb) (body := loadRow 4 (fun r => .x r true)) rfl hw ha
  · exact exec_of_acts (mine := isOp 0x15) (uses := usesAb) (body := loadRow 4 (fun r => .x r false)) rfl hw ha
  · have hexec := exec_of_acts (i := .ln n w) (mine := isOp 0x16) (uses := usesAb) (body := lnRow) rfl hw ha
    rw [lnRow_memory rfl (hr (of_decide_eq_true hw))] at hexec
    exact hexec
  · exact exec_of_acts (mine := isOp 0x17) (uses := usesAb) (body := lnfRow) rfl hw ha
  · exact exec_of_acts (mine := isOp 0x3C) (uses := usesF) (body := loadRow 4 (fun r => .f r)) rfl hw ha
  · exact exec_of_acts (mine := isOp 0x3E) (uses := usesF) (body := loadRow 8 (fun r => .f r)) rfl hw ha
  · exact exec_of_acts (mine := isQMem 0) (uses := usesQMem) (body := qldRow) rfl hw ha

/-! ### LN of a register (R214, R486) -/

/-- The load that LN of a register puts in flight. -/
def lnLoad (ea rd : Nat) : LoadFly := { dest := .x rd false, elems := [(0, 5)], reg := some (ea - 0xF000000000), addr := ea }

section
variable {d : Dev} {n ea rd : Nat}

theorem lnReg_refused (h : ea % 8 ≠ 0 ∨ lnGrant d n (ea - 0xF000000000) = false) : lnReg d n ea rd = takeException d n 0x05 (core d n).pc ea 0 := by
  rw [lnReg]
  exact if_pos (by simpa using h)

section
variable (h8 : ea % 8 = 0) (hgrant : lnGrant d n (ea - 0xF000000000) = true) (hl : (core d n).loads.length < 8)
include h8 hgrant hl

theorem lnReg_open (hw : regWay d (ea - 0xF000000000) = .open_) : lnReg d n ea rd = launch d n (lnLoad ea rd) [] := by
  simp [lnReg, h8, hgrant, Nat.not_le.mpr hl, hw, lnLoad]

theorem lnReg_waits {k : Nat} (hw : regWay d (ea - 0xF000000000) = .waits k) : lnReg d n ea rd = launch (wakeDom d k) n (lnLoad ea rd) [] := by
  simp [lnReg, h8, hgrant, Nat.not_le.mpr hl, hw, lnLoad]

theorem lnReg_shut (hn : n ≠ 32) (hw : regWay d (ea - 0xF000000000) = .shut) : lnReg d n ea rd = takeException d n 0x05 (core d n).pc ea 0 := by
  simp [lnReg, h8, hgrant, Nat.not_le.mpr hl, hw, hn]

end

end

/-- LN of a register that acts. -/
theorem exec_lnRegister {n : CoreIx} {w : BitVec 32} {s : State} {ea : Nat}
    (hea : effAddr (core s.dev n.val) (raOf w.toNat) (immS w.toNat) = ea) (hop : opOf w.toNat = 0x16)
    (ha : Acts s n w { xs := [rdOf w.toNat, raOf w.toNat] }) (hr : regionOf s.dev ea = .regs) :
    exec (.ln n w) s = .next { s with dev := lnReg s.dev n.val ea (rdOf w.toNat) } := by
  have hexec := exec_of_acts (i := .ln n w) (mine := isOp 0x16) (uses := usesAb) (body := lnRow) rfl (decide_eq_true hop) ha
  rwa [lnRow_register hea hr] at hexec

/-- Settles O19: the loads and stores of memory by the steps of R215, then LN of a register. -/
theorem scalarAccessFaults : Obligations.ScalarAccessFaults := by
  refine ⟨fun e he n w s hw ha hr => ?_, fun n w s hop ha hr => ?_, fun e he n w s hw ha hr => ?_⟩
  · rw [exec_scalarLoad he hw ha hr]
    refine ⟨fun hal => ?_, fun hal hno => ?_, fun hal hyes hg => ?_⟩
    · rw [hal, loadFrom_misaligned]; rfl
    · rw [hal, loadFrom_unreached hno]; rfl
    · rw [hal, loadFrom_shut hyes hg]; rfl
  · rw [exec_lnRegister rfl hop ha hr]
    refine ⟨fun hbad => ?_, fun hn h8 hgrant hl hway => ?_⟩
    · exact congrArg (fun d => Host.Outcome.next { s with dev := d }) (lnReg_refused hbad)
    · exact congrArg (fun d => Host.Outcome.next { s with dev := d }) (lnReg_shut h8 hgrant hl (by omega) hway)
  · rw [exec_scalarStore he hw ha hr]
    refine ⟨fun hal => ?_, fun hal hno => ?_, fun hal hyes hs => ?_⟩
    · rw [hal, storeAt_misaligned]; rfl
    · rw [hal, storeAt_unreached hno]; rfl
    · rw [hal, storeAt_shut hyes hs]; rfl

end Sys2Proof.Machine
end

section
namespace Sys2Proof.Machine

/-! ## What the launch of a load changes (R204, R205, R216) -/

/-- From d to e, accesses of the Yard counted and took their banks, and reads joined the slices. -/
structure BankStep (d e : Dev) : Prop where
  regs : ∀ r i, (∀ j, j < 2 → r.key i ≠ Reg.yardCnt.key j) → rd e r i = rd d r i
  stale : e.cache.stale = d.cache.stale
  frame : e = { d with cache := e.cache, regs := e.regs }

namespace BankStep
variable {d e f : Dev}

theorem refl : BankStep d d := ⟨fun _ _ _ => rfl, rfl, rfl⟩

theorem trans (h1 : BankStep d e) (h2 : BankStep e f) : BankStep d f where
  regs := fun r i h => (h2.regs r i h).trans (h1.regs r i h)
  stale := h2.stale.trans h1.stale
  frame := by rw [h2.frame, h1.frame]

theorem foldl {α : Type} {g : Dev → α → Dev} (h : ∀ e a, BankStep e (g e a)) (l : List α) : BankStep d (l.foldl g d) := by
  induction l generalizing d with
  | nil => exact refl
  | cons a l ih => exact (h d a).trans ih

theorem cores (h : BankStep d e) : e.cores = d.cores := by rw [h.frame]

theorem memByte (h : BankStep d e) (a : Nat) : memByte e a = memByte d a :=
  memByte_congr (by rw [h.frame]) h.stale (h.regs _ _ fun j hj => key_ne (by decide) (by omega) (by omega)) a

/-- The step, and then a write of one core. -/
theorem frame_setCore (h : BankStep d e) (n : Nat) (c : Core) :
    setCore e n c = { d with cores := (setCore e n c).cores, cache := e.cache, regs := e.regs } :=
  congrArg (fun x : Dev => { x with cores := (setCore e n c).cores }) h.frame

end BankStep

theorem bump_bankStep (d : Dev) {i : Nat} (hi : i < 2) : BankStep d (bump d .yardCnt i) := ⟨fun _ _ h => rd_bumpN_ne d 1 (h i hi), rfl, rfl⟩

theorem bankAccess_bankStep (d : Dev) (u : Nat) : BankStep d (bankAccess d u) := by
  unfold bankAccess
  dsimp only
  split
  · exact (bump_bankStep d (by decide)).trans (bump_bankStep _ (by decide))
  · exact (bump_bankStep d (by decide)).trans ⟨fun _ _ _ => rfl, rfl, rfl⟩

theorem yardTouch_bankStep (d : Dev) (a n : Nat) : BankStep d (yardTouch d a n) := by
  unfold yardTouch
  split
  · exact .refl
  · exact .foldl bankAccess_bankStep _

theorem askLines_bankStep (d : Dev) (own : GOwner) (req port : Nat) (consist : Option Nat) (spans : List (Nat × Nat)) :
    BankStep d (askLines d own req port consist spans) := ⟨fun _ _ _ => rfl, rfl, rfl⟩

/-- Enough pieces cover a run. -/
theorem linePieces_cover {k a n x : Nat} (hk : n + a % 64 ≤ 64 * k) (ha : a ≤ x) (hx : x < a + n) :
    ∃ p ∈ linePieces k a n, p.1 ≤ x ∧ x < p.1 + p.2 := by
  induction k generalizing a n with
  | zero => omega
  | succ k ih =>
    rw [linePieces, if_neg (by omega)]
    by_cases hfirst : x < a + (64 - a % 64)
    · exact ⟨_, List.mem_cons_self, ha, by dsimp only; omega⟩
    · obtain ⟨p, hp, hle, hlt⟩ := ih (a := a + (64 - a % 64)) (n := n - min n (64 - a % 64)) (by omega) (by omega) (by omega)
      exact ⟨p, List.mem_cons_of_mem _ hp, hle, hlt⟩

/-- A byte of GDDR6 of a run that is asked for has its read. -/
theorem askLines_asks (d : Dev) (own : GOwner) (req port : Nat) (consist : Option Nat) {spans : List (Nat × Nat)} {e : Nat × Nat} {a : Nat}
    (he : e ∈ spans) (hgddr : e.1 < 0x1000000000) (hle : e.1 ≤ a) (hlt : a < e.1 + e.2) :
    ∃ g ∈ lineReads (askLines d own req port consist spans) own, g.addr ≤ a ∧ a < g.addr + g.len := by
  obtain ⟨p, hp, hple, hplt⟩ := linePieces_cover (k := e.2 / 64 + 2) (by omega) hle hlt
  refine ⟨{ own := own, req := req, port := port, consist := consist, addr := p.1, len := p.2 }, ?_, hple, hplt⟩
  simp only [lineReads, askLines, List.mem_filter, List.mem_append, List.mem_map, List.mem_flatten, decide_true, and_true]
  exact .inr ⟨p, ⟨_, ⟨e, ⟨he, decide_eq_true hgddr⟩, rfl⟩, hp⟩, rfl⟩

/-- A load that is launched, each of whose unknown bytes lies in GDDR6 and in one of its runs, is in flight as R204 says. -/
theorem launch_launched (s : State) (n : CoreIx) (l : LoadFly) (spans : List (Nat × Nat))
    (hcover : ∀ a, (a, none) ∈ l.want → a < 0x1000000000 ∧ ∃ e ∈ spans, e.1 ≤ a ∧ a < e.1 + e.2) :
    Launched s { s with dev := launch s.dev n.val l spans } n l := by
  have htouch : BankStep s.dev (spans.foldl (fun d (e : Nat × Nat) => yardTouch d e.1 e.2) s.dev) := .foldl (fun d (e : Nat × Nat) => yardTouch_bankStep d e.1 e.2) _
  have hask := htouch.trans (askLines_bankStep _ (.load n.val (core s.dev n.val).nextLoad) (coreReq n.val) (wcPort (core s.dev n.val))
    ((serving s.dev n.val).map (fun s => wConsist s.w))
    (spans.filter (fun e : Nat × Nat => l.want.any (fun w => w.2.isNone && decide (e.1 ≤ w.1 ∧ w.1 < e.1 + e.2)))))
  refine ⟨core_setCore_self .., fun a ha => ?_, fun m hm => ?_, fun a => ?_, fun r i h => hask.regs r i fun j _ => h j, rfl, rfl, ?_⟩
  · obtain ⟨hgddr, e, he, hle, hlt⟩ := hcover a ha
    refine askLines_asks _ _ _ _ _ (e := e) (List.mem_filter.mpr ⟨he, ?_⟩) (by omega) hle hlt
    exact List.any_eq_true.mpr ⟨_, ha, by simp [hle, hlt]⟩
  · exact (core_setCore_ne _ _ (Fin.val_ne_of_ne hm)).trans (core_congr hask.cores m.val)
  · exact hask.memByte a
  · exact hask.frame_setCore n.val _

/-- An access that starts in the 40-bit space and reaches all its bytes does not wrap: its last address is unmapped. -/
theorem accessBytes_nowrap {d : Dev} {n fr len : Nat} {store : Bool} (hfr : fr < 2 ^ 40)
    (h : ∀ b ∈ accessBytes fr len, byteReach d n b store = true) {k : Nat} (hk : k < len) : fr + k < 2 ^ 40 := by
  by_contra hwrap
  have htop : byteReach d n 0xFFFFFFFFFF store = false := by
    have hreg : regionOf d 0xFFFFFFFFFF = .unmapped := by simp [regionOf]
    simp only [byteReach, hreg, ite_self]
  have hmem : 0xFFFFFFFFFF ∈ accessBytes fr len :=
    List.mem_map.mpr ⟨0xFFFFFFFFFF - fr, List.mem_range.mpr (by omega), by rw [Nat.mod_eq_of_lt] <;> omega⟩
  exact Bool.noConfusion (htop.symm.trans (h _ hmem))

/-- The bytes of an access that reaches all of them lie in its run. -/
theorem accessBytes_run {d : Dev} {n fr len : Nat} {store : Bool} (hfr : fr < 2 ^ 40)
    (h : ∀ b ∈ accessBytes fr len, byteReach d n b store = true) {a : Nat} (ha : a ∈ accessBytes fr len) : fr ≤ a ∧ a < fr + len := by
  obtain ⟨k, hk, rfl⟩ := List.mem_map.mp ha
  have hklen := List.mem_range.mp hk
  rw [Nat.mod_eq_of_lt (accessBytes_nowrap hfr h hklen)]
  omega

/-- A byte that a load does not know at issue lies in GDDR6. -/
theorem knownByte_none {d : Dev} {c : Core} {a b : Nat} (h : knownByte d c a = (b, none)) : a = b ∧ b < 0x1000000000 := by
  unfold knownByte at h
  obtain ⟨rfl, hnone⟩ := Prod.mk.inj h
  refine ⟨rfl, ?_⟩
  split at hnone
  · exact absurd hnone (by simp)
  · by_contra hge
    exact absurd hnone (by simp [hge])

/-- To wake a domain touches no core. -/
theorem wakeDom_cores (d : Dev) (k : Nat) : (wakeDom d k).cores = d.cores := by
  unfold wakeDom
  dsimp only
  split
  · split <;> rfl
  · split
    · rfl
    · rfl
    · rfl
    · split <;> rfl

/-- Each row of a scalar load reads from an address of the 40-bit space. -/
theorem scalarLoads_start {e : (CoreIx → BitVec 32 → Instr) × (Nat → Bool) × (Nat → Uses) × (Core → Nat → Nat) × (Nat → Nat) × Nat × (Nat → Bool) ×
      (Nat → Nat → LoadDest)} (he : e ∈ scalarLoads) (c : Core) (w : Nat) : e.2.2.2.2.1 (e.2.2.2.1 c w) < 2 ^ 40 := by
  have hea := (xget c (raOf w) + immS w).isLt
  have heq := (xget c (raV w) + imm8 w).isLt
  simp only [scalarLoads, List.mem_cons, List.not_mem_nil, or_false] at he
  obtain rfl | rfl | rfl | rfl | rfl | rfl | rfl | rfl | rfl | rfl | rfl := he
  case inr.inr.inr.inr.inr.inr.inr.inl => dsimp only; omega
  case inr.inr.inr.inr.inr.inr.inr.inr.inr.inr => exact heq
  all_goals exact hea

/-- Settles O18: a load that nothing holds back is launched, one of a register while its domain wakes too. -/
theorem scalarLoadsIssue : Obligations.ScalarLoadsIssue := by
  refine ⟨fun e he n w s hw ha hr hc hg hl => ?_, fun n w s hop ha hr h8 hgrant hl => ⟨fun hway => ?_, fun k hway => ?_⟩⟩
  · have hexec := exec_scalarLoad he hw ha (fun _ => hr)
    rw [loadFrom_launches hc hg hl] at hexec
    refine ⟨_, hexec, launch_launched s n _ _ fun a hwant => ?_⟩
    obtain ⟨b, hb, hknown⟩ := List.mem_map.mp hwant
    obtain ⟨rfl, hgddr⟩ := knownByte_none hknown
    exact ⟨hgddr, _, List.mem_singleton_self _, accessBytes_run (scalarLoads_start he _ _) (reached_of_accessCause hc) hb⟩
  · have hexec := exec_lnRegister (ea := (xget (core s.dev n.val) (raOf w.toNat) + immS w.toNat).toNat) rfl hop ha hr
    rw [lnReg_open h8 hgrant hl hway] at hexec
    exact ⟨_, hexec, launch_launched s n _ _ fun a hwant => absurd hwant (by simp [lnLoad])⟩
  · have hexec := exec_lnRegister (ea := (xget (core s.dev n.val) (raOf w.toNat) + immS w.toNat).toNat) rfl hop ha hr
    rw [lnReg_waits h8 hgrant hl hway] at hexec
    obtain ⟨hcore, -⟩ := launch_launched { s with dev := wakeDom s.dev k } n (lnLoad (xget (core s.dev n.val) (raOf w.toNat) + immS w.toNat).toNat (rdOf w.toNat)) []
      fun a hwant => absurd hwant (by simp [lnLoad])
    have hwake : core (wakeDom s.dev k) n.val = core s.dev n.val := core_congr (wakeDom_cores ..) _
    dsimp only at hcore
    rw [hwake] at hcore
    exact ⟨_, hexec, congrArg Core.loads hcore, congrArg (fun c : Core => c.pc) hcore⟩

end Sys2Proof.Machine
end

section
namespace Sys2Proof.Machine

/-! ## Vector loads (R252 to R257) -/

section
variable {d : Dev} {n : Nat} {es : List ElemAccess} {dest : LoadDest} {gather : Bool}

/-- The probe finds the first active element that fails (R254). -/
theorem probe_first {store : Bool} {before after : List ElemAccess} {x : ElemAccess}
    (hbefore : ∀ y ∈ before, accessCause d n y.start y.len y.aligned store = none) (hx : accessCause d n x.start x.len x.aligned store ≠ none) :
    probe d n (before ++ x :: after) store = some (x, if regionOf d x.addr = .regs then (if store then 0x06 else 0x05) else 0x07) := by
  have hnone : before.find? (fun e => (accessCause d n e.start e.len e.aligned store).isSome) = none :=
    List.find?_eq_none.mpr fun y hy => by simp [hbefore y hy]
  have hsome : (accessCause d n x.start x.len x.aligned store).isSome = true := Option.isSome_iff_ne_none.mpr hx
  rw [probe, List.find?_append, hnone, Option.none_or, List.find?_cons, hsome]
  rfl

theorem accessCause_of_probe {store : Bool} (h : probe d n es store = none) : ∀ x ∈ es, accessCause d n x.start x.len x.aligned store = none := by
  intro x hx
  have hno := List.find?_eq_none.mp (Option.map_eq_none_iff.mp h) x hx
  simpa using hno

theorem vload_fails {e : ElemAccess × Nat} (h : probe d n es false = some e) : vload d n es dest gather = probeFault d n e := by
  simp only [vload, h]

theorem vload_empty : vload d n [] dest gather = retire d n (deliver (core d n) dest []) ((core d n).pc + 4) := rfl

/-- A gate is open where no domain that is needed is off. -/
theorem memGate_open_iff {as : List Nat} : memGate d as = .open_ ↔ ∀ a ∈ as, ∀ k ∈ needDoms d a, domOn d k = true := by
  have hfilter : (((as.map (needDoms d)).flatten).filter (fun k => !domOn d k) = []) ↔ ∀ a ∈ as, ∀ k ∈ needDoms d a, domOn d k = true := by
    simp only [List.filter_eq_nil_iff, List.mem_flatten, List.mem_map, forall_exists_index, and_imp, forall_apply_eq_imp_iff₂,
      Bool.not_eq_true, Bool.not_eq_false']
    exact ⟨fun h a ha k hk => h k a ha hk, fun h k a ha hk => h a ha k hk⟩
  rw [← hfilter, memGate]
  split
  · simp [*]
  · rename_i hne
    refine iff_of_false ?_ hne
    split <;> simp

/-- Where the gate of each element is open, no element is shut and the gate of all of them is open. -/
theorem gates_open (h : ∀ x ∈ es, memGate d [x.start] = .open_) : shutElem d es = none ∧ memGate d (es.map (fun e => e.start)) = .open_ := by
  refine ⟨List.find?_eq_none.mpr fun x hx => by simp [h x hx], memGate_open_iff.mpr fun a ha => ?_⟩
  obtain ⟨x, hx, rfl⟩ := List.mem_map.mp ha
  exact memGate_open_iff.mp (h x hx) _ (List.mem_singleton_self _)

/-- The load that a vector load puts in flight. -/
def vecFly (d : Dev) (n : Nat) (es : List ElemAccess) (dest : LoadDest) : LoadFly where
  dest := dest
  elems := es.map (fun e => (e.j, e.len))
  want := (es.map (fun e => (accessBytes e.start e.len).map (knownByte d (core d n)))).flatten
  bad := es.findSome? (fun e => (badAt d (accessBytes e.start e.len)).map (fun l => (l, e.j)))
  addr := ((es.head?).map (fun e => e.addr)).getD 0

theorem vecFly_want :
    (vecFly d n es dest).want = ((es.map (fun e => accessBytes e.start e.len)).flatten).map (knownByte d (core d n)) := by
  rw [List.map_flatten, List.map_map]
  rfl

/-- The runs of memory that a vector load touches (R257). -/
def vecRuns (es : List ElemAccess) (gather : Bool) : List (Nat × Nat) :=
  if gather then es.map (fun e => (e.start, e.len)) else lineRuns (es.map (fun e => accessBytes e.start e.len)).flatten

theorem vload_launches (hp : probe d n es false = none) (hne : es ≠ []) (hg : ∀ x ∈ es, memGate d [x.start] = .open_)
    (hl : (core d n).loads.length < 8) : vload d n es dest gather = launch d n (vecFly d n es dest) (vecRuns es gather) := by
  obtain ⟨hshut, hgate⟩ := gates_open hg
  simp only [vload, hp, if_neg hne, hshut, hgate, if_neg (Nat.not_le.mpr hl)]
  rw [← vecFly_want (dest := dest)]
  rfl

end

theorem foldl_min_le (l : List Nat) (a : Nat) : l.foldl min a ≤ a ∧ ∀ x ∈ l, l.foldl min a ≤ x := by
  induction l generalizing a with
  | nil => exact ⟨Nat.le_refl a, fun _ h => absurd h (by simp)⟩
  | cons y l ih =>
    obtain ⟨hacc, hmem⟩ := ih (min a y)
    refine ⟨by simp only [List.foldl_cons]; omega, fun x hx => ?_⟩
    obtain rfl | hx := List.mem_cons.mp hx
    · simp only [List.foldl_cons]; omega
    · exact hmem x hx

theorem le_foldl_max (l : List Nat) (a : Nat) : a ≤ l.foldl max a ∧ ∀ x ∈ l, x ≤ l.foldl max a := by
  induction l generalizing a with
  | nil => exact ⟨Nat.le_refl a, fun _ h => absurd h (by simp)⟩
  | cons y l ih =>
    obtain ⟨hacc, hmem⟩ := ih (max a y)
    refine ⟨by simp only [List.foldl_cons]; omega, fun x hx => ?_⟩
    obtain rfl | hx := List.mem_cons.mp hx
    · simp only [List.foldl_cons]; omega
    · exact hmem x hx

/-- The runs by lines cover every byte that is touched. -/
theorem lineRuns_cover {as : List Nat} {a : Nat} (ha : a ∈ as) : ∃ r ∈ lineRuns as, r.1 ≤ a ∧ a < r.1 + r.2 := by
  have hmine : a ∈ as.filter (fun b => decide (b / 64 = a / 64)) := List.mem_filter.mpr ⟨ha, decide_eq_true rfl⟩
  have hlo := (foldl_min_le _ (64 * (a / 64) + 63)).2 a hmine
  have hhi := (le_foldl_max _ ((as.filter (fun b => decide (b / 64 = a / 64))).foldl min (64 * (a / 64) + 63))).2 a hmine
  exact ⟨_, List.mem_map.mpr ⟨a / 64, List.mem_eraseDups.mpr (List.mem_map.mpr ⟨a, ha, rfl⟩), rfl⟩, hlo, by dsimp only; omega⟩

/-- The runs of a vector load whose elements reach their bytes cover every byte that it does not know. -/
theorem vecRuns_cover {d : Dev} {n : Nat} {es : List ElemAccess} (dest : LoadDest) (gather : Bool) (hp : probe d n es false = none)
    (hstart : ∀ x ∈ es, x.start < 2 ^ 40) {a : Nat} (ha : (a, none) ∈ (vecFly d n es dest).want) :
    a < 0x1000000000 ∧ ∃ r ∈ vecRuns es gather, r.1 ≤ a ∧ a < r.1 + r.2 := by
  rw [vecFly_want] at ha
  obtain ⟨b, hb, hknown⟩ := List.mem_map.mp ha
  obtain ⟨rfl, hgddr⟩ := knownByte_none hknown
  refine ⟨hgddr, ?_⟩
  cases gather with
  | false => exact lineRuns_cover hb
  | true =>
    obtain ⟨bs, hbs, hmem⟩ := List.mem_flatten.mp hb
    obtain ⟨x, hx, rfl⟩ := List.mem_map.mp hbs
    exact ⟨_, List.mem_map.mpr ⟨x, hx, rfl⟩, accessBytes_run (hstart x hx) (reached_of_accessCause (accessCause_of_probe hp x hx)) hmem⟩

/-! ### The rows -/

/-- The type of a row of `vectorLoads`. -/
abbrev VectorLoad : Type :=
  (CoreIx → BitVec 32 → Instr) × (Nat → Bool) × (Nat → Uses) × (Dev → Nat → Nat → List ElemAccess) × (Core → Nat → List ElemAccess → LoadDest)

theorem nativeAt_lt (a j : Nat) : nativeAt a j < 2 ^ 40 := Nat.mod_lt _ (by decide)

theorem gatherAt_lt (b i : Nat) : gatherAt b i < 2 ^ 40 := Nat.mod_lt _ (by decide)

theorem trailerAt_lt {a : Nat} (h : a < 2 ^ 40) : trailerAt a < 2 ^ 40 := by
  unfold trailerAt
  omega

theorem unitElems_start {d : Dev} {n w len : Nat} {at_ : Nat → Nat → Nat} {sub : Nat → Nat} {ok : Nat → Bool}
    (h : ∀ a j, sub (at_ a j) < 2 ^ 40) : ∀ x ∈ unitElems d n w at_ sub len ok, x.start < 2 ^ 40 := by
  intro x hx
  obtain ⟨j, -, rfl⟩ := List.mem_map.mp hx
  exact h _ j

theorem idxElems_start {d : Dev} {n w len : Nat} {at_ : Nat → Nat → Nat} {sub : Nat → Nat} {ok : Nat → Bool}
    (h : ∀ a j, sub (at_ a j) < 2 ^ 40) : ∀ x ∈ idxElems d n w at_ sub len ok, x.start < 2 ^ 40 := by
  intro x hx
  obtain ⟨j, -, rfl⟩ := List.mem_map.mp hx
  exact h _ _

theorem vectorLoads_start {e : VectorLoad} (he : e ∈ vectorLoads) (d : Dev) (n w : Nat) : ∀ x ∈ e.2.2.2.1 d n w, x.start < 2 ^ 40 := by
  simp only [vectorLoads, List.mem_cons, List.not_mem_nil, or_false] at he
  obtain rfl | rfl | rfl | rfl | rfl | rfl | rfl := he
  · exact unitElems_start nativeAt_lt
  · exact unitElems_start fun a j => trailerAt_lt (nativeAt_lt a j)
  · dsimp only
    exact unitElems_start (sub := id) (fun _ _ => Nat.mod_lt _ (Nat.two_pow_pos 40))
  · dsimp only
    exact unitElems_start (sub := id) (fun _ _ => Nat.mod_lt _ (Nat.two_pow_pos 40))
  · exact idxElems_start gatherAt_lt
  · exact idxElems_start fun a j => trailerAt_lt (gatherAt_lt a j)
  · dsimp only
    exact idxElems_start (sub := id) (fun _ _ => Nat.mod_lt _ (Nat.two_pow_pos 40))

/-- Each vector load that acts is `vload` of its row's elements and destination, by elements or by lines. -/
theorem exec_vectorLoad {e : VectorLoad} (he : e ∈ vectorLoads) {n : CoreIx} {w : BitVec 32} {s : State} (hw : e.2.1 w.toNat = true)
    (ha : Acts s n w (e.2.2.1 w.toNat)) :
    ∃ gather, exec (e.1 n w) s = .next { s with
      dev := vload s.dev n.val (e.2.2.2.1 s.dev n.val w.toNat) (e.2.2.2.2 (core s.dev n.val) w.toNat (e.2.2.2.1 s.dev n.val w.toNat)) gather } := by
  simp only [vectorLoads, List.mem_cons, List.not_mem_nil, or_false] at he
  obtain rfl | rfl | rfl | rfl | rfl | rfl | rfl := he
  · exact ⟨false, exec_of_acts (mine := isVM 0) (uses := usesVM) (body := vmLoad nativeAt 5 nativeOk) rfl hw ha⟩
  · exact ⟨false, exec_of_acts (mine := isVM 1) (uses := usesVMQ) (body := vlnqRow) rfl hw ha⟩
  · exact ⟨false, exec_of_acts (mine := isVM 2) (uses := usesVM) (body := vmLoad (strideAt 5) 5 (fun _ => true)) rfl hw ha⟩
  · exact ⟨false, exec_of_acts (mine := isVM 3) (uses := usesVM) (body := vmLoad (strideAt 4) 4 (fun a => decide (a % 4 = 0))) rfl hw ha⟩
  · exact ⟨true, exec_of_acts (mine := isVG 0) (uses := usesVG) (body := vgLoad gatherAt 5 nativeOk) rfl hw ha⟩
  · exact ⟨true, exec_of_acts (mine := isVG 1) (uses := usesVGQ) (body := vgnqRow) rfl hw ha⟩
  · exact ⟨true, exec_of_acts (mine := isVG 2) (uses := usesVG)
      (body := vgLoad (fun b i => (b + 4 * i) % 2 ^ 40) 4 (fun a => decide (a % 4 = 0))) rfl hw ha⟩

/-- With no active element a destination takes none: a qualifier of NULL bits is cleared (R240). -/
theorem deliver_vec_nil (c : Core) (v : Nat) (long : Bool) (width : Nat) : deliver c (.vec v long [] width) [] = c := rfl

theorem deliver_nullQ_nil (c : Core) (k : Nat) : deliver c (.nullQ k []) [] = setQual c k 0 := rfl

theorem vectorLoads_deliver_nil {e : VectorLoad} (he : e ∈ vectorLoads) {d : Dev} {n w : Nat} (hnil : e.2.2.2.1 d n w = []) :
    deliver (core d n) (e.2.2.2.2 (core d n) w (e.2.2.2.1 d n w)) [] =
      match e.2.2.2.2 (core d n) w (e.2.2.2.1 d n w) with | .nullQ k _ => setQual (core d n) k 0 | _ => core d n := by
  simp only [vectorLoads, List.mem_cons, List.not_mem_nil, or_false] at he
  obtain rfl | rfl | rfl | rfl | rfl | rfl | rfl := he
  case inr.inl => simp only at hnil; simp only [hnil]; exact deliver_nullQ_nil ..
  case inr.inr.inr.inr.inr.inl => simp only at hnil; simp only [hnil]; exact deliver_nullQ_nil ..
  all_goals
    have hact := List.map_eq_nil_iff.mp hnil
    simp only [hact]
    exact deliver_vec_nil ..

/-- Settles O21: a vector load is refused by its probe, launched, or retires with no element. -/
theorem vectorLoadsIssue : Obligations.VectorLoadsIssue := by
  refine ⟨fun e he n w s before after x hw ha hes hbefore hx => ?_, fun e he n w s hw ha hp => ⟨fun hne hg hl => ?_, fun hnil => ?_⟩⟩
  · obtain ⟨gather, hexec⟩ := exec_vectorLoad he hw ha
    rw [hexec, hes, vload_fails (probe_first hbefore hx)]
    rfl
  · obtain ⟨gather, hexec⟩ := exec_vectorLoad he hw ha
    rw [vload_launches hp hne hg hl] at hexec
    exact ⟨_, hexec, launch_launched s n (vecFly s.dev n.val (e.2.2.2.1 s.dev n.val w.toNat)
      (e.2.2.2.2 (core s.dev n.val) w.toNat (e.2.2.2.1 s.dev n.val w.toNat))) (vecRuns _ gather)
      fun a hwant => vecRuns_cover _ gather hp (vectorLoads_start he _ _ _) hwant⟩
  · obtain ⟨gather, hexec⟩ := exec_vectorLoad he hw ha
    have hret : vload s.dev n.val (e.2.2.2.1 s.dev n.val w.toNat) (e.2.2.2.2 (core s.dev n.val) w.toNat (e.2.2.2.1 s.dev n.val w.toNat)) gather =
        retire s.dev n.val (deliver (core s.dev n.val) (e.2.2.2.2 (core s.dev n.val) w.toNat (e.2.2.2.1 s.dev n.val w.toNat)) [])
          ((core s.dev n.val).pc + 4) := by
      rw [hnil]
      exact vload_empty
    rw [hexec, hret, vectorLoads_deliver_nil he hnil]
    rfl

end Sys2Proof.Machine
end

section
namespace Sys2Proof.Machine

/-! ## Fetch faults and interrupts (R202, R224, R231) -/

/-- The first element of a rising list that passes a test. -/
theorem find?_rising {p : Nat → Bool} {l : List Nat} {k : Nat} (hl : l.Pairwise (· < ·)) (hk : k ∈ l) (hp : p k = true)
    (hlt : ∀ j ∈ l, j < k → p j = false) : l.find? p = some k := by
  obtain ⟨as, bs, rfl⟩ := List.append_of_mem hk
  refine List.find?_eq_some_iff_append.mpr ⟨hp, as, bs, rfl, fun a ha => ?_⟩
  have hak : a < k := (List.pairwise_append.mp hl).2.2 a ha k List.mem_cons_self
  simp [hlt a (List.mem_append_left _ ha) hak]

/-- Cause k may go at level 0: it is cause 0x12, or IE and IMASK let it go (R224, R231). -/
def causeAdmitted (c : Core) (k : Nat) : Prop := k = 0x12 ∨ (ieOf c = true ∧ (csrGet c 0x002).getLsbD (k - 0x10) = true)

/-- The interrupt that is due is the lowest pending cause that may go. -/
theorem dueInterrupt_lowest {d : Dev} {n k : Nat} (h0 : levelOf (core d n) = 0) (hk : k ∈ [0x10, 0x12, 0x13, 0x14, 0x15, 0x16])
    (hpend : causePending d n k = true) (hadm : causeAdmitted (core d n) k)
    (hlow : ∀ j ∈ [0x10, 0x12, 0x13, 0x14, 0x15, 0x16], j < k → causePending d n j = true → ¬causeAdmitted (core d n) j) :
    dueInterrupt d n = some k := by
  have htest (j : Nat) : (causePending d n j && (decide (j = 0x12) ||
      (ieOf (core d n) && decide (bitOf (csrGet (core d n) 0x002).toNat (j - 0x10) = 1)))) = true ↔
        causePending d n j = true ∧ causeAdmitted (core d n) j := by
    rw [bitOf_eq_getLsbD, causeAdmitted]
    cases (csrGet (core d n) 0x002).getLsbD (j - 0x10) <;> simp
  rw [dueInterrupt, if_pos h0]
  refine find?_rising (by decide) hk ((htest k).mpr ⟨hpend, hadm⟩) fun j hj hlt => ?_
  exact Bool.eq_false_iff.mpr fun h => hlow j hj hlt ((htest j).mp h).1 ((htest j).mp h).2

/-- A core whose interrupt k is taken: the causes 0x12, 0x14 and 0x15 are cleared by it. -/
def pendTaken (k : Nat) (c : Core) : Core := { c with pend := if k = 0x12 ∨ k = 0x14 ∨ k = 0x15 then sdel c.pend k else c.pend }

/-- A running core takes the interrupt that is due as an exception at its pc. -/
theorem takeInterrupt_running {d : Dev} {n k : Nat} (hdue : dueInterrupt d n = some k) (hrun : running d = true)
    (hdom : domOn d (coreDom n) = true) (hst : (core d n).st = .running) (hl : (core d n).loads = []) (hvec : (core d n).inVec = false) :
    takeInterrupt n d = takeException (modCore d n (pendTaken k)) n k (core d n).pc (irqEaddr d n k) 0 := by
  simp only [takeInterrupt, hdue]
  rw [if_pos ⟨hrun, hdom, hl, by simp [hvec]⟩]
  simp only [hst]
  rfl

theorem not_mem_sdel (l : List Nat) (k : Nat) : k ∉ sdel l k := by simp [sdel]

/-- A fetch outside the memory that a core may fetch from takes cause 0x01. -/
theorem fetchFault_unfetchable {d : Dev} {n : Nat} (hrun : running d = true) (hdom : domOn d (coreDom n) = true) (hst : (core d n).st = .running)
    (hl : (core d n).loads = []) (hf : fetchable d n (core d n).pc = false) :
    fetchFault n d = takeException d n 0x01 (core d n).pc (core d n).pc 0 := by
  simp [fetchFault, hrun, hdom, hst, hl, hf]

/-- The interrupt that a running core at level 0 takes enters level 1 and is cleared where taking it clears it. -/
theorem takeInterrupt_enters {s : State} {n : CoreIx} {k : Nat} (hdue : dueInterrupt s.dev n.val = some k) (hrun : running s.dev = true)
    (hdom : domOn s.dev (coreDom n.val) = true) (hst : (core s.dev n.val).st = .running) (hl : (core s.dev n.val).loads = [])
    (hvec : (core s.dev n.val).inVec = false) (h0 : levelOf (core s.dev n.val) = 0) :
    Entered s { s with dev := takeInterrupt n.val s.dev } n k (core s.dev n.val).pc (irqEaddr s.dev n.val k) 0 ∧
      (k = 0x12 ∨ k = 0x14 ∨ k = 0x15 → k ∉ (core (takeInterrupt n.val s.dev) n.val).pend) := by
  have hself : core (modCore s.dev n.val (pendTaken k)) n.val = pendTaken k (core s.dev n.val) := core_modCore_self ..
  have hl' : (core (modCore s.dev n.val (pendTaken k)) n.val).loads = [] := by rw [hself]; exact hl
  have h0' : levelOf (core (modCore s.dev n.val (pendTaken k)) n.val) < 2 := by
    rw [hself]
    exact (Nat.le_of_eq h0).trans_lt (by decide)
  rw [takeInterrupt_running hdue hrun hdom hst hl hvec]
  refine ⟨takeException_entersFrom _ _ _ _ hl' (by omega) (by rw [hself]; rfl) (fun m hm => core_modCore_ne _ _ (Fin.val_ne_of_ne hm))
    (fun _ => rfl) rfl, fun hclear => ?_⟩
  rw [takeException_core _ _ _ _ _ _ hl' h0', hself]
  have hpend : (pendTaken k (core s.dev n.val)).pend = sdel (core s.dev n.val).pend k := if_pos hclear
  change k ∉ (pendTaken k (core s.dev n.val)).pend
  rw [hpend]
  exact not_mem_sdel _ k

/-- Settles O25: a fetch that is not allowed and an interrupt that is due are exceptions at the pc. -/
theorem fetchFaultsAndInterruptsEnter : Obligations.FetchFaultsAndInterruptsEnter := by
  refine ⟨fun n s h2 hrun hdom hst hl hf => ?_, fun n s k hrun hdom hst hl hvec hown h0 hk hpend hadm hlow => ?_⟩
  · refine ⟨{ s with dev := fetchFault n.val s.dev }, rfl, ?_⟩
    rw [fetchFault_unfetchable hrun hdom hst hl hf]
    exact takeException_enters s n _ _ _ _ hl h2
  · have hdue := dueInterrupt_lowest h0 hk hpend hadm fun j hj hlt hp hadm =>
      hadm.elim (hlow j hj hlt hp).1 (hlow j hj hlt hp).2
    have hexec : exec (.interruptEntry n) s = .next { s with dev := takeInterrupt n.val s.dev } := by
      change execInterruptEntry n s = _
      rw [execInterruptEntry, hown]
      rfl
    exact ⟨_, hexec, takeInterrupt_enters hdue hrun hdom hst hl hvec h0⟩

end Sys2Proof.Machine
end

section
namespace Sys2Proof.Machine

/-! ## A triple fault of an operator core (R85, R98, R230, R234) -/

/-- The word of CORE_FAULT that a first fault records. -/
def faultWord (d : Dev) (n cause : Nat) : Nat :=
  2 ^ 39 + b2n (serving d n).isSome * 2 ^ 38 + cause % 256 * 2 ^ 30 + ((serving d n).elim 0 fun v => wConsist v.w) % 1024 * 2 ^ 20 +
    ((serving d n).elim 0 fun v => wStage v.w) % 64 * 2 ^ 14 + min 0x3FFF (fld d .coreFault n 13 0 + 1)

/-- CORE_FAULT and CORE_FAULT_PC after a fault: the first fault is kept, and the count goes on (R234). -/
def faultRecorded (d : Dev) (n cause epc : Nat) : Dev :=
  if fld d .coreFault n 39 39 = 1 then setFld d .coreFault n 13 0 (min 0x3FFF (fld d .coreFault n 13 0 + 1))
  else wr (wr d .coreFault n (BitVec.ofNat 40 (faultWord d n cause))) .coreFaultPc n (BitVec.ofNat 40 epc)

/-- The fault recorded, with its device event and its entry in the Log Book. -/
def faultReported (d : Dev) (n cause epc : Nat) : Dev :=
  let e := faultRecorded d n cause epc
  logBook (sboxEvent e 3) 2 0x0020 [n, (rd e .coreFault n).toNat, (rd e .coreFaultPc n).toNat]

/-- The end of the service of a core that faults, with CORE_TRIPLE_FAULT for its Consist (R98, R230). -/
def faultEnds (e : Dev) (n : Nat) (sv : Option Service) (cause epc : Nat) : Dev :=
  match sv with
  | some v => dropService (recordEvent e (wConsist v.w) 6 (faultResult cause (wStage v.w) n epc)) n
  | none => e

theorem tripleFault_core {d : Dev} {n : Nat} (hn : n < 32) (cause epc : Nat) :
    tripleFault d n cause epc = coreReset (faultEnds (faultReported d n cause epc) n (serving d n) cause epc) n := by
  rw [tripleFault, if_neg (by omega)]
  unfold faultEnds faultReported faultRecorded faultWord
  cases serving d n <;> rfl

/-! ### What the records hold -/

/-- A field of a word made by sums of fields. -/
theorem fld_wr_ofNat (d : Dev) (r : Reg) (i v hi lo : Nat) : fld (wr d r i (BitVec.ofNat 40 v)) r i hi lo = v % 2 ^ 40 / 2 ^ lo % 2 ^ (hi + 1 - lo) := by
  rw [fld, rd_wr_self, BitVec.toNat_ofNat, bitsOf, Nat.shiftRight_eq_div_pow]

section
variable {d : Dev} {n : Nat} (hn : n < 32) (cause epc : Nat)
include hn

/-- A first fault is recorded whole. -/
theorem faultRecorded_first (h : fld d .coreFault n 39 39 ≠ 1) :
    let e := faultRecorded d n cause epc
    fld e .coreFault n 39 39 = 1 ∧ fld e .coreFault n 13 0 = min 0x3FFF (fld d .coreFault n 13 0 + 1) ∧ fld e .coreFault n 37 30 = cause % 256 ∧
      fld e .coreFault n 38 38 = b2n (serving d n).isSome ∧ rd e .coreFaultPc n = BitVec.ofNat 40 epc := by
  have hsome : b2n (serving d n).isSome ≤ 1 := by cases (serving d n).isSome <;> decide
  have hfault (hi lo : Nat) : fld (faultRecorded d n cause epc) .coreFault n hi lo = faultWord d n cause % 2 ^ 40 / 2 ^ lo % 2 ^ (hi + 1 - lo) := by
    rw [faultRecorded, if_neg h, fld, rd_wr_ne _ _ (key_ne (by decide) (by omega) (by omega)), ← fld, fld_wr_ofNat]
  refine ⟨?_, ?_, ?_, ?_, ?_⟩
  · rw [hfault, faultWord]; omega
  · rw [hfault, faultWord]; omega
  · rw [hfault, faultWord]; omega
  · rw [hfault, faultWord]; omega
  · rw [faultRecorded, if_neg h, rd_wr_self]

/-- Where a fault stands, only its count goes on. -/
theorem faultRecorded_again (h : fld d .coreFault n 39 39 = 1) :
    let e := faultRecorded d n cause epc
    fld e .coreFault n 39 39 = 1 ∧ fld e .coreFault n 13 0 = min 0x3FFF (fld d .coreFault n 13 0 + 1) ∧
      fld e .coreFault n 38 14 = fld d .coreFault n 38 14 ∧ rd e .coreFaultPc n = rd d .coreFaultPc n := by
  intro e
  have he : e = setFld d .coreFault n 13 0 (min 0x3FFF (fld d .coreFault n 13 0 + 1)) := if_pos h
  have hapart {hi lo : Nat} (hlo : 13 < lo) : fld e .coreFault n hi lo = fld d .coreFault n hi lo := by
    rw [he, fld, rd_setFld_self, bitsOf_setBitsW_apart _ _ (by decide) (.inr hlo), ← fld]
  refine ⟨(hapart (by decide)).trans h, ?_, hapart (by decide), ?_⟩
  · rw [he, fld_setFld_self _ _ _ _ (by decide) (by decide)]
    omega
  · rw [he, rd_setFld_ne _ _ _ _ (key_ne (by decide) (by omega) (by omega))]

theorem faultRecorded_sameRegs : SameRegs [.coreFault, .coreFaultPc] d (faultRecorded d n cause epc) := by
  unfold faultRecorded
  split
  · exact .setFld _ _ _ (by decide) (by omega)
  · exact .trans (.wr _ (by decide) (by omega)) (.wr _ (by decide) (by omega))

end

section
variable (d : Dev) (n cause epc : Nat)

theorem faultRecorded_frame : faultRecorded d n cause epc = { d with regs := (faultRecorded d n cause epc).regs } := by
  unfold faultRecorded
  split <;> rfl

theorem faultReported_sameRegs : SameRegs [.sboxEvent, .sboxLog] (faultRecorded d n cause epc) (faultReported d n cause epc) :=
  .trans (.setFld 3 3 1 (r := .sboxEvent) (i := 0) (by decide) (by omega)) ((logBook_sameRegs _ _ _ _).mono (by simp))

/-- The Signal Box has its device event. -/
theorem faultReported_event : fld (faultReported d n cause epc) .sboxEvent 0 3 3 = 1 := by
  rw [faultReported, (logBook_sameRegs _ _ _ _).fld 3 3 (by decide) (by omega), sboxEvent, fld_setFld_self _ _ _ _ (by decide) (by decide)]
  rfl

/-- A report leaves the Dispatcher, the Consists and the cores. -/
theorem faultReported_rest : (faultReported d n cause epc).disp = d.disp ∧ (faultReported d n cause epc).consists = d.consists ∧
    (faultReported d n cause epc).cores = d.cores := by
  rw [faultReported, logBook_frame]
  refine ⟨?_, ?_, ?_⟩ <;> rw [sboxEvent, faultRecorded_frame] <;> rfl

end

theorem faultEnds_regs (e : Dev) (n : Nat) (sv : Option Service) (cause epc : Nat) : (faultEnds e n sv cause epc).regs = e.regs := by
  cases sv with
  | none => rfl
  | some v => rw [faultEnds, dropService_frame, recordEvent_regs]

theorem serving_congr {d e : Dev} (h : e.disp = d.disp) (n : Nat) : serving e n = serving d n := by rw [serving, serving, h]

/-- The Wagon of a core that faults leaves, and its Consist takes CORE_TRIPLE_FAULT unless an event stands. -/
theorem faultEnds_serving {e : Dev} {n : Nat} {v : Service} (h : serving e n = some v) (cause epc : Nat) :
    v ∉ (faultEnds e n (some v) cause epc).disp.service ∧
      ((consist e (wConsist v.w)).valid = true → (consist e (wConsist v.w)).event = 0 → (consist e (wConsist v.w)).ph ≠ .completing →
        (consist (faultEnds e n (some v) cause epc) (wConsist v.w)).event = 6) := by
  have hs : serving (recordEvent e (wConsist v.w) 6 (faultResult cause (wStage v.w) n epc)) n = some v :=
    (serving_congr (by rw [recordEvent_frame]) n).trans h
  refine ⟨dropService_ends hs, fun hv he hp => ?_⟩
  rw [faultEnds, consist_dropService, recordEvent_first hv he hp]

theorem coreReset_regs (d : Dev) (n : Nat) : (coreReset d n).regs = d.regs := rfl

theorem coreReset_service (d : Dev) (n : Nat) : (coreReset d n).disp.service = d.disp.service := rfl

theorem consist_coreReset (d : Dev) (n c : Nat) : consist (coreReset d n) c = consist d c := rfl

/-- The registers of a device whose core n takes a triple fault, but for the records of the fault. -/
theorem tripleFault_sameRegs {d : Dev} {n : Nat} (hn : n < 32) (cause epc : Nat) :
    SameRegs [.sboxEvent, .sboxLog] (faultRecorded d n cause epc) (tripleFault d n cause epc) := by
  rw [tripleFault_core hn]
  exact .trans (faultReported_sameRegs d n cause epc) (.of_regs (by rw [coreReset_regs, faultEnds_regs]))

/-- The records of a triple fault: the first fault is kept, the count goes on, and the Signal Box has its event (R234). -/
theorem tripleFault_records {d : Dev} {n : Nat} (hn : n < 32) {cause : Nat} (hc : cause < 256) (epc : Nat) :
    let t := tripleFault d n cause epc
    fld t .coreFault n 39 39 = 1 ∧ fld t .coreFault n 13 0 = min 0x3FFF (fld d .coreFault n 13 0 + 1) ∧
      (fld d .coreFault n 39 39 = 0 → fld t .coreFault n 37 30 = cause ∧ rd t .coreFaultPc n = BitVec.ofNat 40 epc ∧
        fld t .coreFault n 38 38 = if (serving d n).isSome then 1 else 0) ∧
      (fld d .coreFault n 39 39 = 1 → fld t .coreFault n 38 14 = fld d .coreFault n 38 14 ∧ rd t .coreFaultPc n = rd d .coreFaultPc n) ∧
      fld t .sboxEvent 0 3 3 = 1 := by
  intro t
  have hregs : SameRegs [.sboxEvent, .sboxLog] (faultRecorded d n cause epc) t := tripleFault_sameRegs hn cause epc
  have hfault (hi lo : Nat) := hregs.fld (r := .coreFault) (i := n) hi lo (by decide) (by omega)
  have hpc := hregs .coreFaultPc n (by decide) (by omega)
  have hevent : fld t .sboxEvent 0 3 3 = 1 := by
    have ht : t.regs = (faultReported d n cause epc).regs := by
      rw [show t = _ from tripleFault_core hn cause epc, coreReset_regs, faultEnds_regs]
    rw [fld_congr ht, faultReported_event]
  by_cases hstands : fld d .coreFault n 39 39 = 1
  · obtain ⟨hvalid, hcount, hold, holdPc⟩ := faultRecorded_again hn cause epc hstands
    exact ⟨(hfault ..).trans hvalid, (hfault ..).trans hcount, fun h => absurd (h.symm.trans hstands) (by decide),
      fun _ => ⟨(hfault ..).trans hold, hpc.trans holdPc⟩, hevent⟩
  · obtain ⟨hvalid, hcount, hcause, hhad, hpc'⟩ := faultRecorded_first hn cause epc hstands
    exact ⟨(hfault ..).trans hvalid, (hfault ..).trans hcount,
      fun _ => ⟨((hfault ..).trans hcause).trans (Nat.mod_eq_of_lt hc), hpc.trans hpc', (hfault ..).trans hhad⟩, fun h => absurd h hstands, hevent⟩

/-- The end of the service of a core that takes a triple fault. -/
theorem tripleFault_service {d : Dev} {n : Nat} (hn : n < 32) (cause epc : Nat) {v : Service} (h : serving d n = some v) :
    v ∉ (tripleFault d n cause epc).disp.service ∧
      ((consist d (wConsist v.w)).valid = true → (consist d (wConsist v.w)).event = 0 → (consist d (wConsist v.w)).ph ≠ .completing →
        (consist (tripleFault d n cause epc) (wConsist v.w)).event = 6) := by
  obtain ⟨hdisp, hconsists, -⟩ := faultReported_rest d n cause epc
  have hends := faultEnds_serving ((serving_congr hdisp n).trans h) cause epc
  rw [consist_congr hconsists] at hends
  rw [tripleFault_core hn, h, coreReset_service, consist_coreReset]
  exact hends

/-- What a triple fault leaves of an operator core, with CORE_CTRL.RUN and CORE_RESET_PC as they stand (R230, R490). -/
theorem core_tripleFault {d : Dev} {n : Nat} (hn : n < 32) (cause epc : Nat) :
    let k := core (tripleFault d n cause epc) n
    levelOf k = 0 ∧ (∀ i, xget k i = 0) ∧ k.pc = (rd d .coreResetPc n).toNat ∧
      k.st = (if fld d .coreCtrl n 2 2 = 1 then .running else .held) := by
  have hregs : SameRegs [.coreFault, .coreFaultPc, .sboxEvent, .sboxLog] d
      (faultEnds (faultReported d n cause epc) n (serving d n) cause epc) :=
    .trans ((faultRecorded_sameRegs hn cause epc).mono (by simp))
      (.trans ((faultReported_sameRegs d n cause epc).mono (by simp)) (.of_regs (faultEnds_regs ..)))
  have hcore := core_coreReset (faultEnds (faultReported d n cause epc) n (serving d n) cause epc) hn
  rw [hregs.fld 2 2 (by decide) (by omega), hregs _ _ (by decide) (by omega)] at hcore
  rw [tripleFault_core hn]
  intro k
  have hk : k = _ := hcore
  refine ⟨levelOf_mkStatus_zero (by rw [hk]), fun i => ?_, by rw [hk], by rw [hk]⟩
  have hx : k.x = ({} : Core).x := by rw [hk]
  rw [xget, hx]
  exact xget_reset i

/-! ## A triple fault of the Signal Box (R230, R445) -/

/-- What a core holds after a reset of its domain, but for its cells, is what its default holds (R239). -/
theorem keepCore_default {γ : Type} (g : Core → γ) (hg : ∀ k cs, g { coreDefault k with cells := cs } = g (coreDefault k)) (n : Nat) (m acc : SMap Core)
    (hacc : g (mget (coreDefault n) acc n) = g (coreDefault n)) : g (mget (coreDefault n) (m.foldl keepCore acc) n) = g (coreDefault n) := by
  induction m generalizing acc with
  | nil => exact hacc
  | cons e m ih =>
    refine ih _ ?_
    by_cases hn : n = e.1
    · subst hn
      rw [keepCore, mget_mset_self, hg]
    · rw [keepCore, mget_mset_ne _ _ _ _ hn, hacc]

theorem core_resetDev_default {γ : Type} (g : Core → γ) (hg : ∀ k cs, g { coreDefault k with cells := cs } = g (coreDefault k)) (d : Dev)
    (cause n : Nat) : g (core (resetDev d cause) n) = g (coreDefault n) :=
  keepCore_default g hg n d.cores [] rfl

/-- The warm reset of a triple fault, with the fault in RESET_CAUSE and RESET_PC. -/
theorem sboxTriple_leaves (d : Dev) {cause : Nat} (hc : cause < 256) (epc : Nat) :
    let t := sboxTriple d cause epc
    fld t .resetCause 0 7 0 = 6 ∧ fld t .resetCause 0 15 8 = cause ∧ rd t .resetPc 0 = BitVec.ofNat 40 epc ∧ (core t 32).pc = 0xE000000000 ∧
      (∀ m : Fin 32, (core t m.val).st = .held) ∧ t.mem = keepChip d.mem ∧ t.pwr.bootDue = true := by
  intro t
  have hfld (hi lo : Nat) : fld t .resetCause 0 hi lo = fld (setFld (resetDev d 6) .resetCause 0 15 8 cause) .resetCause 0 hi lo :=
    congrArg (fun v : Word => bitsOf v.toNat hi lo) (rd_wr_ne _ _ (key_ne (by decide) (by decide) (by decide)))
  refine ⟨?_, ?_, rd_wr_self .., ?_, fun m => ?_, rfl, rfl⟩
  · rw [hfld, fld, rd_setFld_self, bitsOf_setBitsW_apart _ _ (by decide) (.inl (by decide)), ← fld, cause_resetDev d (by decide)]
  · rw [hfld, fld_setFld_self _ _ _ _ (by decide) (by decide)]
    exact Nat.mod_eq_of_lt hc
  · exact core_resetDev_default (·.pc) (fun _ _ => rfl) d 6 32
  · refine (core_resetDev_default (·.st) (fun _ _ => rfl) d 6 m.val).trans ?_
    rw [coreDefault, if_neg (by omega)]

/-! ## TRAP, BRK and undefined words (R209, R225, R228) -/

/-- The words and causes of the instructions that only take an exception. -/
def trapRows : List ((CoreIx → BitVec 32 → Instr) × (Nat → Bool) × Nat) :=
  [(.trap, fun w => decide (opOf w = 0x2D), 0x0B), (.brk, fun w => decide (opOf w = 0x2C ∧ fn4 w = 5), 0x0C),
    (.undefinedOpcode, fun w => !definedWord w, 0x02)]

section
variable {n : CoreIx} {w : BitVec 32} {s : State} (ha : Acts s n w {})
include ha

theorem exec_trap (hop : opOf w.toNat = 0x2D) :
    exec (.trap n w) s = .next { s with dev := takeException s.dev n.val 0x0B (core s.dev n.val).pc (w.setWidth 16).toNat 0 } := by
  have himm : (w.setWidth 16).toNat = bitsOf w.toNat 15 0 := by simp [bitsOf]
  rw [himm]
  exact exec_of_acts (mine := isOp 0x2D) (uses := fun _ => {}) (body := fun n w d => takeException d n 0x0B (core d n).pc (bitsOf w 15 0) 0) rfl
    (decide_eq_true hop) ha

theorem exec_brk (hop : opOf w.toNat = 0x2C) (hfn : fn4 w.toNat = 5) :
    exec (.brk n w) s = .next { s with dev := takeException s.dev n.val 0x0C (core s.dev n.val).pc 0 0 } :=
  exec_of_acts (mine := isSys 5) (uses := fun _ => {}) (body := fun n _ d => takeException d n 0x0C (core d n).pc 0 0) rfl
    (decide_eq_true ⟨hop, hfn⟩) ha

theorem exec_undefinedOpcode (hw : definedWord w.toNat = false) :
    exec (.undefinedOpcode n w) s = .next { s with dev := takeException s.dev n.val 0x02 (core s.dev n.val).pc w.toNat 0 } :=
  exec_of_acts (mine := fun v => !definedWord v) (uses := fun _ => {}) (body := fun n w d => takeException d n 0x02 (core d n).pc w 0) rfl
    (by rw [hw]; rfl) ha

/-- Each of the three takes its cause at the pc. -/
theorem exec_trapRow {e : (CoreIx → BitVec 32 → Instr) × (Nat → Bool) × Nat} (he : e ∈ trapRows) (hw : e.2.1 w.toNat = true) :
    e.2.2 < 256 ∧ ∃ ea, exec (e.1 n w) s = .next { s with dev := takeException s.dev n.val e.2.2 (core s.dev n.val).pc ea 0 } := by
  simp only [trapRows, List.mem_cons, List.not_mem_nil, or_false] at he
  obtain rfl | rfl | rfl := he
  · exact ⟨by decide, _, exec_trap ha (of_decide_eq_true hw)⟩
  · obtain ⟨hop, hfn⟩ := of_decide_eq_true hw
    exact ⟨by decide, _, exec_brk ha hop hfn⟩
  · exact ⟨by decide, _, exec_undefinedOpcode ha (by simpa using hw)⟩

end

/-- The device on which an operator core's exception of level 2 is a triple fault: the exception is counted (R234). -/
def tripleCounted (d : Dev) (n : Nat) : Dev := bump d .coreCnt (n * 4 + 3)

theorem tripleCounted_sameRegs (d : Dev) {n : Nat} (hn : n < 32) : SameRegs [.coreCnt] d (tripleCounted d n) := .bumpN 1 (by decide) (by omega)

/-- Settles O24: below level 2 each of the three enters the next level, and at level 2 it is the triple fault of its core. -/
theorem trapsAndTripleFaults : Obligations.TrapsAndTripleFaults := by
  refine ⟨fun n w s h2 hl ha => ⟨fun hop => ?_, fun hop hfn => ?_, fun hw => ?_⟩, fun e he n w s hw ha hl h2 => ?_⟩
  · exact ⟨_, exec_trap ha hop, takeException_enters s n _ _ _ _ hl h2⟩
  · exact ⟨_, exec_brk ha hop hfn, takeException_enters s n _ _ _ _ hl h2⟩
  · exact ⟨_, exec_undefinedOpcode ha hw, takeException_enters s n _ _ _ _ hl h2⟩
  · obtain ⟨hc, ea, hexec⟩ := exec_trapRow (e := e) ha he hw
    rw [takeException_triple s.dev n.val _ _ _ _ hl (Nat.le_of_eq h2.symm)] at hexec
    refine ⟨fun hn => ?_, fun hn => ?_⟩
    · rw [if_neg (show n.val ≠ 32 by omega)] at hexec
      have hcount := tripleCounted_sameRegs s.dev hn
      have hfld (hi lo : Nat) := hcount.fld (r := .coreFault) (i := n.val) hi lo (by decide) (by omega)
      obtain ⟨hvalid, hnum, hfirst, hagain, hevent⟩ :=
        tripleFault_records (d := tripleCounted s.dev n.val) hn hc (core s.dev n.val).pc
      have hcore := core_tripleFault (d := tripleCounted s.dev n.val) hn e.2.2 (core s.dev n.val).pc
      rw [hfld] at hnum hfirst hagain
      rw [hfld, hcount .coreFaultPc n.val (by decide) (by omega)] at hagain
      rw [hcount.fld 2 2 (by decide) (by omega), hcount .coreResetPc n.val (by decide) (by omega)] at hcore
      exact ⟨_, hexec, hvalid, hnum, hfirst, hagain, hevent,
        fun v hv => tripleFault_service (d := tripleCounted s.dev n.val) hn _ _ hv, hcore⟩
    · rw [if_pos hn, hn] at hexec
      rw [hn]
      exact ⟨_, hexec, sboxTriple_leaves s.dev hc _⟩

end Sys2Proof.Machine
end

section
namespace Sys2Proof.Machine

/-! ## What a load delivers (R204, R237, R241, R244, R252) -/

theorem range_zip_eq_zipIdx {α : Type} (l : List α) : (List.range l.length).zip l = l.zipIdx.map Prod.swap := by
  rw [List.zipIdx_eq_zip_range', ← List.range_eq_range', List.zip_swap]

/-- The registers of a core with the bytes of a load at a destination, as LOAD_RETURN's statement lists them. -/
theorem deliver_lnf (c : Core) (rd slot : Nat) (bs : List Byte) :
    deliver c (.lnf rd slot) bs = xset c rd (if (ofLE bs).testBit slot then 1 else 0) := by
  rw [deliver, bitOf_eq_toNat_testBit]
  cases (ofLE bs).testBit slot <;> rfl

theorem deliver_vec (c : Core) (v : Nat) (long : Bool) (js : List Nat) (width : Nat) (bs : List Byte) :
    deliver c (.vec v long js width) bs =
      setElems c v long (js.zipIdx.map (fun e => (e.1, BitVec.ofNat 40 (leAt bs (width * e.2) width)))) := by
  simp only [deliver, range_zip_eq_zipIdx, List.map_map]; rfl

theorem deliver_nullQ (c : Core) (k : Nat) (slots : List (Nat × Nat)) (bs : List Byte) :
    deliver c (.nullQ k slots) bs = setQual c k (bitsQ ((slots.zipIdx.filter
      (fun (e : (Nat × Nat) × Nat) => (leAt bs (4 * e.2) 4).testBit e.1.2)).map (fun e => e.1.1))) := by
  simp only [deliver, range_zip_eq_zipIdx, List.filterMap_map]
  congr 2
  rw [← List.filterMap_eq_filter, List.map_filterMap]
  refine List.filterMap_congr fun e _ => ?_
  simp only [Function.comp_apply, Prod.swap, bitOf_eq_toNat_testBit]
  cases h : (leAt bs (4 * e.2) 4).testBit e.1.2 <;> simp [Option.guard, h]

theorem xset_stores (c : Core) (i : Nat) (v : Word) : (xset c i v).stores = c.stores := by
  unfold xset; split <;> rfl

theorem setElems_stores (c : Core) (v : Nat) (long : Bool) (xs : List (Nat × Word)) : (setElems c v long xs).stores = c.stores := by
  induction xs generalizing c with
  | nil => rfl
  | cons e xs ih => exact (ih _).trans rfl

theorem deliver_stores (c : Core) (dest : LoadDest) (bs : List Byte) : (deliver c dest bs).stores = c.stores := by
  cases dest with
  | x rd signed => exact xset_stores ..
  | lnf rd slot => exact xset_stores ..
  | vec v long js width => exact setElems_stores ..
  | f rd => rfl
  | nullQ k slots => rfl
  | q k => rfl

/-! ## A load that returns (R204, R205, R215) -/

/-- The loads in flight once the i-th has left: those older and younger keep their numbers. -/
theorem loadsLeft_nums (ls : List LoadFly) (i : Nat) (f g : LoadFly → LoadFly) (hf : ∀ y, (f y).num = y.num) (hg : ∀ y, (g y).num = y.num) :
    (((ls.take i).dropLast ++ ((ls.take i).getLast?.map f).toList) ++ (ls.drop (i + 1)).map g).map (fun x => x.num) =
      (ls.eraseIdx i).map (fun x => x.num) := by
  have hcomp : (fun x : LoadFly => x.num) ∘ g = fun x => x.num := funext hg
  rw [List.eraseIdx_eq_take_drop_succ, List.map_append, List.map_append (l₁ := ls.take i), List.map_map, hcomp]
  congr 1
  rcases List.eq_nil_or_concat (ls.take i) with h | ⟨m, o, h⟩ <;> simp [h, hf]

theorem core_loadDone (d : Dev) (n : CoreIx) (i : Nat) (l : LoadFly) (bs : List Byte) :
    (core (loadDone d n.val i l bs) n.val).toCoreRegs = (deliver (core d n.val) l.dest bs).toCoreRegs ∧
    (core (loadDone d n.val i l bs) n.val).loads.map (fun x => x.num) = ((core d n.val).loads.eraseIdx i).map (fun x => x.num) ∧
    (core (loadDone d n.val i l bs) n.val).stores = (core d n.val).stores := by
  unfold loadDone
  dsimp only
  rw [core_setCore_self]
  exact ⟨rfl, loadsLeft_nums _ i _ _ (fun _ => rfl) fun _ => rfl, deliver_stores ..⟩

theorem loadDone_other (d : Dev) {n m : CoreIx} (h : m ≠ n) (i : Nat) (l : LoadFly) (bs : List Byte) :
    core (loadDone d n.val i l bs) m.val = core d m.val := by
  unfold loadDone
  dsimp only
  rw [core_setCore_ne _ _ (fun e => h (Fin.ext e))]
  split <;> rfl

theorem memByte_loadDone (d : Dev) (n : CoreIx) (i : Nat) (l : LoadFly) (bs : List Byte) (a : Nat) :
    memByte (loadDone d n.val i l bs) a = memByte d a := by
  have hn := n.isLt
  have hkey : Reg.cacheCtrl.key 0 ≠ Reg.coreCnt.key (n.val * 4) := key_ne (by decide) (by omega) (by omega)
  unfold loadDone
  dsimp only
  split
  · refine memByte_congr ?_ ?_ ?_ a
    · rfl
    · rfl
    · exact rd_bumpN_ne d l.after hkey
  · exact memByte_congr rfl rfl rfl a

/-- The oldest load decides whether a register load is due. -/
theorem regLoadDue_of_oldest {d : Dev} {n : Nat} {l : LoadFly} (h : (core d n).loads[0]? = some l) : regLoadDue d n = l.reg.isSome := by
  obtain ⟨ls, hls⟩ := List.head?_eq_some_iff.mp (List.head?_eq_getElem? ▸ h)
  rw [regLoadDue, hls]

/-- The i-th load returns with its bytes once its reads of GDDR6 have been served and it met no uncorrectable line. -/
theorem execLoadReturn_memory {n : CoreIx} {i : Fin 8} {s : State} {l : LoadFly} (hl : (core s.dev n.val).loads[i.val]? = some l)
    (hrun : running s.dev = true) (hreg : l.reg = none) (hbad : l.bad = none)
    (hs : ∀ g ∈ lineReads s.dev (.load n.val l.num), g.st = .served) :
    exec (.loadReturn n i) s =
      .next { s with dev := loadDone s.dev n.val i.val l (loadBytes (lineReads s.dev (.load n.val l.num)) l) } := by
  have hdue : ¬(i.val = 0 ∧ regLoadDue s.dev n.val = true) := by
    rintro ⟨hi, hd⟩
    rw [regLoadDue_of_oldest (hi ▸ hl), hreg] at hd
    cases hd
  have hwait : (lineReads s.dev (.load n.val l.num)).any (fun g => decide (g.st ≠ .served ∧ g.st ≠ .failed)) = false := by
    rw [List.any_eq_false]; intro g hg; simp [hs g hg]
  have hnone : loadBad (lineReads s.dev (.load n.val l.num)) l = none := by
    have hfail : ∀ a, (lineReads s.dev (.load n.val l.num)).any (fun g => decide (g.st = .failed ∧ g.addr ≤ a ∧ a < g.addr + g.len)) = false := by
      intro a; rw [List.any_eq_false]; intro g hg; simp [hs g hg]
    simp only [loadBad, hbad, hfail, Bool.and_false]
    simp
  show execLoadReturn n i s = _
  rw [execLoadReturn]
  simp only [if_neg hdue]
  simp only [loadReturn, hl, hrun, hwait, hreg, hnone]
  simp

/-- A register load that is due is read, and returns with the word that its register shows (R13, R204, R484). -/
theorem execLoadReturn_register {n : CoreIx} {s : State} {l : LoadFly} {off k : Nat} {r : Reg}
    (hl : (core s.dev n.val).loads[0]? = some l) (hrun : running s.dev = true) (hreg : l.reg = some off)
    (hfirst : FirstOnPath s.dev (coreWho n.val)) (hreads : lineReads s.dev (.load n.val l.num) = []) (hway : regWay s.dev off = .open_)
    (hat : regAt (off / 8 * 8) = some (r, k)) :
    exec (.loadReturn n 0) s =
      .next { s with dev := loadDone (regRead s.dev (coreWho n.val) off).2 n.val 0 l (toLE 5 (regLive s.dev r k).toNat) } := by
  have hval : (regRead s.dev (coreWho n.val) off).1 = regLive s.dev r k := by rw [regRead, hat]
  show execLoadReturn n 0 s = _
  rw [execLoadReturn, pathFirst_first hfirst]
  simp only [ite_self]
  rw [show (0 : Fin 8).val = 0 from rfl, loadReturn]
  simp only [hl, hrun, hreads, hreg, hway, regLoadReturn, hval]
  simp

/-- A register read changes no core. -/
theorem regRead_cores (d : Dev) (who : Requester) (off m : Nat) : core (regRead d who off).2 m = core d m := by
  have hcores : (regRead d who off).2.cores = d.cores := by
    unfold regRead
    split
    · rfl
    · next r i _ =>
      have hfree : (if readsFree r then tookFree d else d).cores = d.cores := by split <;> rfl
      cases who with
      | core m => exact hfree
      | port0 | sbox | dbg => dsimp only; split <;> exact hfree
  exact core_congr hcores m

/-! ## A load that met an uncorrectable line (R205, R215) -/

theorem core_squash (d : Dev) (n : CoreIx) (l : LoadFly) :
    (core (squash d n.val l) n.val).toCoreRegs = { l.saved with csr := mset 0 l.saved.csr 0x028 (csrGet (core d n.val) 0x028) } ∧
      (core (squash d n.val l) n.val).loads = [] := by
  rw [squash, core_setCore_self]
  exact ⟨rfl, rfl⟩

theorem readErr_core (d : Dev) (line m : Nat) : core (readErr d line) m = core d m :=
  core_congr (congrArg Dev.cores (chipErr_step d line).rest :) m

theorem execLoadReturn_uncorrectable {n : CoreIx} {s : State} {l : LoadFly} {line j : Nat}
    (hl : (core s.dev n.val).loads[0]? = some l) (hrun : running s.dev = true) (hreg : l.reg = none)
    (hs : ∀ g ∈ lineReads s.dev (.load n.val l.num), g.st = .served ∨ g.st = .failed)
    (hbad : loadBad (lineReads s.dev (.load n.val l.num)) l = some (line, j)) :
    exec (.loadReturn n 0) s =
      .next { s with dev := takeException (readErr (squash s.dev n.val l) line) n.val 0x08 l.saved.pc line j } := by
  have hdue : regLoadDue s.dev n.val = false := by rw [regLoadDue_of_oldest hl, hreg]; rfl
  have hwait : (lineReads s.dev (.load n.val l.num)).any (fun g => decide (g.st ≠ .served ∧ g.st ≠ .failed)) = false := by
    rw [List.any_eq_false]; intro g hg; rcases hs g hg with h | h <;> simp [h]
  show execLoadReturn n 0 s = _
  rw [execLoadReturn]
  simp only [hdue, Bool.false_eq_true, and_false, if_false]
  rw [show (0 : Fin 8).val = 0 from rfl, loadReturn]
  simp only [hl, hrun, hwait, hreg, hbad]
  simp

/-- Cause 0x08 at level 0 from registers that a squashed load left: EPC, EADDR and ECAUSE name the load and its line, the rest stays. -/
theorem takeException_ofSquash {d : Dev} {n : CoreIx} {saved : CoreRegs} {v : Word} (pc line j : Nat) (hl : (core d n.val).loads = [])
    (hregs : (core d n.val).toCoreRegs = { saved with csr := mset 0 saved.csr 0x028 v }) (hlev : bitsOf saved.status.toNat 5 4 = 0) :
    let c := core (takeException d n.val 0x08 pc line j) n.val
    csrGet c 0x010 = BitVec.ofNat 40 pc ∧ csrGet c 0x012 = BitVec.ofNat 40 line ∧ csrGet c 0x013 = BitVec.ofNat 40 (8 + j % 256 * 256) ∧
      c.x = saved.x ∧ c.cells = saved.cells ∧ c.q = saved.q ∧ c.loads = [] ∧ levelOf c = 1 := by
  have hzero : levelOf (core d n.val) = 0 := by rw [levelOf, hregs]; exact hlev
  have hcore := takeException_core d n.val 0x08 pc line j hl (by omega)
  simp only [hzero, Nat.zero_add, if_true] at hcore
  obtain ⟨hepc, -, headdr, hcause, -⟩ := csrGet_csrSet_four (core d n.val) 0x010 (BitVec.ofNat 40 pc) (core d n.val).status (BitVec.ofNat 40 line)
    (BitVec.ofNat 40 (8 + j % 256 * 256))
  dsimp only
  rw [hcore]
  exact ⟨hepc, headdr, hcause, (congrArg CoreRegs.x hregs :), (congrArg CoreRegs.cells hregs :), (congrArg CoreRegs.q hregs :), hl,
    levelOf_mkStatus (p := ceilingOf d n.val) (l := 1) rfl⟩

theorem ofNat_ofLE_toLE (v : Word) : BitVec.ofNat 40 (ofLE (toLE 5 v.toNat)) = v := by
  have hv := v.isLt
  rw [ofLE_toLE, Nat.mod_eq_of_lt (by omega), BitVec.ofNat_toNat, BitVec.setWidth_eq]

end Sys2Proof.Machine
end

section
namespace Sys2Proof.Machine

/-! ## A write of a run, line by line (R325, R328) -/

/-- Device e reads as d with bytes written from an address. -/
def BytesWritten (d e : Dev) (a : Nat) (bs : List Byte) : Prop :=
  ∀ y, memByte e y = (if a ≤ y then bs[y - a]? else none).getD (memByte d y)

namespace BytesWritten
variable {d e f : Dev} {a : Nat} {bs : List Byte}

theorem nil (h : ∀ y, memByte e y = memByte d y) : BytesWritten d e a [] := fun y => by simp [h]

theorem at_ (h : BytesWritten d e a bs) {y : Nat} {b : Byte} (ha : a ≤ y) (hb : bs[y - a]? = some b) : memByte e y = b := by
  rw [h, if_pos ha, hb]; rfl

theorem outside (h : BytesWritten d e a bs) {y : Nat} (hy : y < a ∨ a + bs.length ≤ y) : memByte e y = memByte d y := by
  rw [h]
  split
  · rw [List.getElem?_eq_none (by omega)]; rfl
  · rfl

/-- Only what bytes read as decides. -/
theorem congr {d' e' : Dev} (h : BytesWritten d e a bs) (hd : ∀ y, memByte d' y = memByte d y) (he : ∀ y, memByte e' y = memByte e y) :
    BytesWritten d' e' a bs := fun y => by rw [he, hd]; exact h y

/-- A run that is written in two parts. -/
theorem append {m : Nat} (h1 : BytesWritten d e a (bs.take m)) (h2 : BytesWritten e f (a + m) (bs.drop m)) :
    BytesWritten d f a bs := fun y => by
  rw [h2, h1]
  rcases Nat.lt_or_ge y (a + m) with hy | hy
  · rw [if_neg (by omega), List.getElem?_take]
    split
    · rw [if_pos (by omega)]; rfl
    · rfl
  · rw [if_pos hy, if_pos (show a ≤ y by omega), if_pos (show a ≤ y by omega), List.getElem?_drop, show m + (y - (a + m)) = y - a by omega,
      List.getElem?_eq_none (l := bs.take m) (by simp; omega)]
    rfl

end BytesWritten

theorem memWrite_bytesWritten (d : Dev) (a : Nat) (bs : List Byte) : BytesWritten d (memWrite d a bs) a bs := fun y => by
  by_cases hy : a ≤ y ∧ y - a < bs.length
  · rw [if_pos hy.1, List.getElem?_eq_getElem hy.2, memByte_memWrite_at d hy.1 (List.getElem?_eq_getElem hy.2)]; rfl
  · rw [memByte_memWrite_outside d (by omega)]
    split
    · rw [List.getElem?_eq_none (by omega)]; rfl
    · rfl

/-- What a slice does with a write that meets no error in its set: memory and the cached bytes are those of the write alone, and no set gains an
error. -/
theorem acceptWrite_ofSound {d : Dev} {a : Nat} (h : SetSound d (a / 64 * 64)) (bs : List Byte) (by_ : Option Nat) :
    (acceptWrite d a bs by_).mem = (memWrite d a bs).mem ∧ (acceptWrite d a bs by_).cache.stale = (memWrite d a bs).cache.stale ∧
      ∀ line, SetSound d line → SetSound (acceptWrite d a bs by_) line := by
  unfold acceptWrite
  dsimp only
  split
  · rw [meetErrors_sound _ _ _ (show SetSound (modFill (memWrite (queueWrite d a bs.length by_) a bs) (a / 64 * 64) _) (a / 64 * 64) from h)]
    split
    · next w hw =>
      refine ⟨rfl, rfl, fun line hl x hx => ?_⟩
      change x ∈ setOf (putSet _ _ _) line at hx
      rw [setOf_putSet] at hx
      split at hx
      · rcases List.mem_cons.mp hx with rfl | hx
        · simp only
          split
          · rfl
          · exact h w (wayOf_mem hw)
        · exact h x (List.mem_filter.mp hx).1
      · exact hl x hx
    · exact ⟨rfl, rfl, fun line hl => hl⟩
  · exact ⟨rfl, rfl, fun line hl => hl⟩

theorem acceptWrite_bytesWritten {d : Dev} {a : Nat} (h : SetSound d (a / 64 * 64)) (bs : List Byte) (by_ : Option Nat) :
    BytesWritten d (acceptWrite d a bs by_) a bs := by
  obtain ⟨hmem, hstale, -⟩ := acceptWrite_ofSound h bs by_
  have hctl : rd (acceptWrite d a bs by_) .cacheCtrl 0 = rd (memWrite d a bs) .cacheCtrl 0 :=
    (acceptWrite_step d a bs by_).regs .cacheCtrl 0 (by decide) (by decide)
  exact (memWrite_bytesWritten d a bs).congr (fun _ => rfl) fun y => memByte_congr hmem hstale hctl y

/-- The slices that take a run line by line write its bytes. -/
theorem acceptParts_bytesWritten (by_ : Option Nat) {k a : Nat} {bs : List Byte} {d : Dev} (hk : bs.length + a % 64 ≤ 64 * k)
    (hs : ∀ i, i < bs.length → SetSound d ((a + i) / 64 * 64)) :
    BytesWritten d ((lineParts k a bs).foldl (fun d p => acceptWrite d p.1 p.2 by_) d) a bs := by
  induction k generalizing a bs d with
  | zero =>
    obtain rfl : bs = [] := List.length_eq_zero_iff.mp (by omega)
    exact .nil fun _ => rfl
  | succ k ih =>
    unfold lineParts
    split
    · next h => subst h; exact .nil fun _ => rfl
    · next h =>
      have hpos : 0 < bs.length := List.length_pos_iff.mpr h
      have hline : SetSound d (a / 64 * 64) := hs 0 hpos
      have hfirst := acceptWrite_bytesWritten hline (bs.take (64 - a % 64)) by_
      obtain ⟨-, -, hkeep⟩ := acceptWrite_ofSound hline (bs.take (64 - a % 64)) by_
      have hrest := ih (a := a + (64 - a % 64)) (bs := bs.drop (64 - a % 64)) (d := acceptWrite d a (bs.take (64 - a % 64)) by_)
        (by rw [List.length_drop]; omega) fun i hi => hkeep _ (by
          rw [List.length_drop] at hi
          rw [Nat.add_assoc]
          exact hs _ (by omega))
      rw [List.foldl_cons]
      exact hfirst.append hrest

/-- A requester's write that no error meets: its bytes stand, and nothing is dropped. -/
theorem devWriteFor_bytesWritten {d : Dev} {a : Nat} {bs : List Byte} (by_ : Option Nat)
    (hchip : a < 0x1000000000 ∨ spoiled d a bs.length = []) (hgddr : a < 0x1000000000 → ∀ k, k < bs.length → SetSound d ((a + k) / 64 * 64)) :
    (devWriteFor by_ d a bs).2 = none ∧ BytesWritten d (devWriteFor by_ d a bs).1 a bs := by
  unfold devWriteFor
  split
  · next ha => exact ⟨rfl, acceptParts_bytesWritten by_ (by omega) (hgddr ha)⟩
  · next ha =>
    have hbank := yardTouch_bankStep d a bs.length
    have hsp : spoiled (yardTouch d a bs.length) a bs.length = [] := by
      rw [spoiled, (congrArg Dev.badUnits hbank.frame :)]
      exact hchip.resolve_left ha
    rw [storeWrite, hsp]
    exact ⟨rfl, (memWrite_bytesWritten (yardTouch d a bs.length) a bs).congr (fun y => (hbank.memByte y).symm) fun _ => rfl⟩


/-! ## Rings that arrive at a unit (R261, R262) -/

/-- From device d to e a ring has arrived at the unit behind a bell of core n, and at no other; none where there is no bell. -/
def RingArrives (d e : Dev) (n : Nat) (bell : Option Nat) (r : Ring) : Prop :=
  (∀ m, (plane e m).arriving = (plane d m).arriving ++ if bell = some 0 ∧ m = n / 2 then [r] else []) ∧
    e.junc.arriving = d.junc.arriving ++ (if bell = some 1 then [r] else []) ∧
    e.hump.arriving = d.hump.arriving ++ (if bell = some 2 then [r] else []) ∧
    e.shunt.arriving = d.shunt.arriving ++ if bell = some 3 then [r] else []

theorem RingArrives.none (d : Dev) (n : Nat) (r : Ring) : RingArrives d d n .none r := by simp [RingArrives]

/-- The units of the device that a ring arrives from decide. -/
theorem RingArrives.from_ {d d' e : Dev} {n : Nat} {bell : Option Nat} {r : Ring} (h : RingArrives d' e n bell r) (hplanes : d'.planes = d.planes)
    (hjunc : d'.junc = d.junc) (hhump : d'.hump = d.hump) (hshunt : d'.shunt = d.shunt) : RingArrives d e n bell r := by
  simpa only [RingArrives, plane, hplanes, hjunc, hhump, hshunt] using h

theorem workMore_frame (d : Dev) (r : Ring) : workMore d r = { d with consists := (workMore d r).consists } := by
  unfold workMore; split <;> rfl

/-- A ring changes the unit that it reaches and a Consist's count. -/
theorem ringBell_frame (d : Dev) (n k v : Nat) : ringBell d n k v =
    { d with consists := (ringBell d n k v).consists, planes := (ringBell d n k v).planes, junc := (ringBell d n k v).junc,
             hump := (ringBell d n k v).hump, shunt := (ringBell d n k v).shunt } := by
  unfold ringBell
  dsimp only
  rw [workMore_frame]
  split <;> rfl

theorem plane_setPlane (d : Dev) (m j : Nat) (v : PlaneSt) : plane (setPlane d m v) j = if j = m then v else plane d j := mget_mset ..

theorem ringBell_arrives (d : Dev) (n v : Nat) {k : Nat} (hk : k < 4) : RingArrives d (ringBell d n k v) n (some k) (ringOf d n v) := by
  have hplanes : (workMore d (ringOf d n v)).planes = d.planes := by rw [workMore_frame]
  have hjunc : (workMore d (ringOf d n v)).junc = d.junc := by rw [workMore_frame]
  have hhump : (workMore d (ringOf d n v)).hump = d.hump := by rw [workMore_frame]
  have hshunt : (workMore d (ringOf d n v)).shunt = d.shunt := by rw [workMore_frame]
  unfold ringBell RingArrives
  dsimp only
  match k, hk with
  | 0, _ =>
    refine ⟨fun m => ?_, by simp [setPlane, hjunc, hhump, hshunt]⟩
    simp only [plane_setPlane]
    split
    · next h => simp [h, plane, hplanes]
    · next h => simp [h, plane, hplanes]
  | 1, _ => simp [plane, hplanes, hjunc, hhump, hshunt]
  | 2, _ => simp [plane, hplanes, hjunc, hhump, hshunt]
  | 3, _ => simp [plane, hplanes, hjunc, hhump, hshunt]

theorem ringOf_congr {d e : Dev} {n : Nat} (v : Nat) (hregs : (core e n).toCoreRegs = (core d n).toCoreRegs) (hdisp : e.disp = d.disp)
    (hcons : e.consists = d.consists) (hcc : e.cc = d.cc) : ringOf e n v = ringOf d n v := by
  have hcsr (i : Nat) : csrGet (core e n) i = csrGet (core d n) i := by rw [csrGet, csrGet, hregs]
  have hconsist : consist e = consist d := funext fun k => by rw [consist, consist, hcons]
  simp only [ringOf, wcPort, ywFirst, ywCount, hcsr]
  rw [serving_congr hdisp, hconsist, hcc]

/-- A bell has one of four slots. -/
theorem bellSlot_lt {d : Dev} {n a k : Nat} (h : bellSlot d n a = some k) : k < 4 := by
  unfold bellSlot at h
  split at h
  · have := List.mem_of_find?_eq_some h
    simp at this; omega
  · cases h

/-! ## A store that makes its next write (R204, R205, R257) -/

/-- The store buffer once the first write of the oldest store has been made. -/
theorem core_storeTaken {d : Dev} {n a num : Nat} {bs : List Byte} {more : List (Nat × List Byte)} {native : Bool} {rest : List StoreBuf}
    (h : (core d n).stores = { parts := (a, bs) :: more, isNat := native, num := num } :: rest) :
    core (storeTaken d n) n =
      { core d n with stores := if more = [] then rest else { parts := more, isNat := native, num := num } :: rest } := by
  rw [storeTaken, core_modCore_self]
  simp only [h]
  cases more with
  | nil => simp
  | cons p ps => simp

theorem storeTaken_ne (d : Dev) {n m : Nat} (h : m ≠ n) : core (storeTaken d n) m = core d m := core_modCore_ne _ _ h

theorem unitWrite_undropped {d : Dev} {c : Option Nat} {a : Nat} {bs : List Byte} (h : (devWriteFor c d a bs).2 = none) :
    unitWrite d c a bs = (devWriteFor c d a bs).1 := by
  unfold unitWrite
  split
  · next heq => rw [heq] at h; cases h
  · next heq => rw [heq]

/-- What the next write of a core's oldest store leaves: its bytes stand, its store buffer is shorter, and the units have what they had. -/
theorem storeBytes_taken {d : Dev} {n : CoreIx} {a : Nat} {bs : List Byte} (hchip : a < 0x1000000000 ∨ spoiled d a bs.length = [])
    (hgddr : a < 0x1000000000 → ∀ k, k < bs.length → SetSound d ((a + k) / 64 * 64)) :
    storeBytes (storeTaken d n.val) n.val a bs = memSide (storeTaken d n.val) (storeBytes (storeTaken d n.val) n.val a bs) ∧
      BytesWritten d (storeBytes (storeTaken d n.val) n.val a bs) a bs := by
  obtain ⟨hnone, hbytes⟩ := devWriteFor_bytesWritten (d := storeTaken d n.val) ((serving (storeTaken d n.val) n.val).map (fun s => wConsist s.w))
    hchip hgddr
  rw [storeBytes, unitWrite_undropped hnone]
  exact ⟨(devWriteFor_step ..).rest, hbytes⟩

/-- A write that rings no bell, once its slice has room (R328). -/
theorem storePart_quiet {d : Dev} {n a : Nat} {bs : List Byte} {native : Bool} (hup : memUp d a = true) (hroom : roomFor d a bs.length = true)
    (hbell : (if native then bellSlot d n a else none) = none) : storePart d n a bs native = storeBytes (storeTaken d n) n a bs := by
  unfold storePart
  rw [hbell]
  simp [hup, hroom]

/-- A native write to a bell's address, once its slice and the bell's unit have room (R262, R328). -/
theorem storePart_rings {d : Dev} {n a k : Nat} {bs : List Byte} {native : Bool} (hup : memUp d a = true) (hroom : roomFor d a bs.length = true)
    (hbell : (if native then bellSlot d n a else none) = some k) (hunit : bellRoom d n k = true) :
    storePart d n a bs native = ringBell (storeBytes (storeTaken d n) n a bs) n k (ofLE bs) := by
  unfold storePart
  rw [hbell]
  simp [hup, hroom, hunit]

/-- Device e is d with one write made and its ring arrived; of the cores only the writing one's store buffer changed. -/
structure StoreMade (d e : Dev) (n : CoreIx) (a : Nat) (bs : List Byte) (bell : Option Nat) : Prop where
  cores : e.cores = (storeTaken d n.val).cores
  bytes : BytesWritten d e a bs
  ring : RingArrives d e n.val bell (ringOf d n.val (ofLE bs))

theorem storePart_made {d : Dev} {n : CoreIx} {a num : Nat} {bs : List Byte} {more : List (Nat × List Byte)} {native : Bool} {rest : List StoreBuf}
    (hst : (core d n.val).stores = { parts := (a, bs) :: more, isNat := native, num := num } :: rest)
    (hup : memUp d a = true) (hroom : roomFor d a bs.length = true) (hchip : a < 0x1000000000 ∨ spoiled d a bs.length = [])
    (hgddr : a < 0x1000000000 → ∀ k, k < bs.length → SetSound d ((a + k) / 64 * 64))
    (hbell : native = true → ∀ k, bellSlot d n.val a = some k → bellRoom d n.val k = true) :
    StoreMade d (storePart d n.val a bs native) n a bs (if native then bellSlot d n.val a else none) := by
  obtain ⟨hframe, hbytes⟩ := storeBytes_taken (n := n) hchip hgddr
  cases hb : (if native then bellSlot d n.val a else none) with
  | none =>
    rw [storePart_quiet hup hroom hb]
    generalize storeBytes (storeTaken d n.val) n.val a bs = e at hframe hbytes ⊢
    refine ⟨by rw [hframe]; rfl, hbytes, ?_⟩
    exact (RingArrives.none e n.val _).from_ (by rw [hframe]; rfl) (by rw [hframe]; rfl) (by rw [hframe]; rfl) (by rw [hframe]; rfl)
  | some k =>
    obtain ⟨hnat, hslot⟩ : native = true ∧ bellSlot d n.val a = some k := by
      cases native with
      | true => exact ⟨rfl, hb⟩
      | false => cases hb
    rw [storePart_rings hup hroom hb (hbell hnat k hslot)]
    generalize storeBytes (storeTaken d n.val) n.val a bs = e at hframe hbytes ⊢
    have hcore : core e n.val = core (storeTaken d n.val) n.val := by rw [hframe]; rfl
    have hring : ringOf e n.val (ofLE bs) = ringOf d n.val (ofLE bs) :=
      ringOf_congr _ (by rw [hcore, core_storeTaken hst]) (by rw [hframe]; rfl) (by rw [hframe]; rfl) (by rw [hframe]; rfl)
    have harr := ringBell_arrives e n.val (ofLE bs) (bellSlot_lt hslot)
    refine ⟨?_, hbytes.congr (fun _ => rfl) fun y => ?_, ?_⟩
    · rw [ringBell_frame, hframe]; rfl
    · rw [ringBell_frame]; rfl
    · exact (hring ▸ harr).from_ (by rw [hframe]; rfl) (by rw [hframe]; rfl) (by rw [hframe]; rfl) (by rw [hframe]; rfl)

/-- STORE_COMPLETION at a memory address, with every earlier load returned (R205, R216). -/
theorem execStoreCompletion_memory {n : CoreIx} {s : State} {a num : Nat} {bs : List Byte} {more : List (Nat × List Byte)} {native : Bool}
    {rest : List StoreBuf} (hst : (core s.dev n.val).stores = { parts := (a, bs) :: more, isNat := native, num := num } :: rest)
    (hrun : running s.dev = true) (hoff : regOff a = none) (hl : ∀ l ∈ (core s.dev n.val).loads, num ≤ l.num) :
    exec (.storeCompletion n) s = .next { s with dev := storePart s.dev n.val a bs native } := by
  have hdue : regStoreDue s.dev n.val = false := by simp [regStoreDue, hst, hoff]
  show execStoreCompletion n s = _
  rw [execStoreCompletion, hdue]
  simp only [Bool.false_eq_true, if_false]
  rw [storeCompletion]
  simp only [hst, hrun, hoff]
  rw [if_pos (by simpa using hl)]

/-! ## The Signal Box's store to a register (R122, R261, R483) -/

/-- STORE_COMPLETION at a register that the Signal Box reaches first: a write by the access codes. -/
theorem execStoreCompletion_register {s : State} {a off k num : Nat} {bs : List Byte} {more : List (Nat × List Byte)} {native : Bool}
    {rest : List StoreBuf} {r : Reg} (hst : (core s.dev 32).stores = { parts := (a, bs) :: more, isNat := native, num := num } :: rest)
    (hrun : running s.dev = true) (hoff : regOff a = some off) (hl : ∀ l ∈ (core s.dev 32).loads, num ≤ l.num) (hfirst : FirstOnPath s.dev .sbox)
    (hway : regWay s.dev off = .open_) (hat : regAt (off / 8 * 8) = some (r, k)) (hr : r ∉ writesAct) :
    exec (.storeCompletion 32) s = .next { s with dev := regStore (storeTaken s.dev 32) r k (BitVec.ofNat 40 (ofLE bs)) } := by
  have hopen : WriteOpen (storeTaken s.dev 32) .sbox off := ⟨rfl, by rw [pathUp, show running (storeTaken s.dev 32) = true from hrun]; rfl, hway, hfirst⟩
  show execStoreCompletion 32 s = _
  rw [execStoreCompletion, show (32 : CoreIx).val = 32 from rfl, show coreWho 32 = .sbox from rfl, pathFirst_first hfirst]
  simp only [ite_self]
  rw [storeCompletion]
  simp only [hst, hrun, hoff, hway]
  rw [if_pos (by simpa using hl), regAccess, viaPathS_open hopen, regWrite_stores hat hr]

end Sys2Proof.Machine
end

section
namespace Sys2Proof.Machine

/-! ## Indices of registers (R20, R469, R470) -/

/-- The index that a unit's table gives lies below the length of its entry, which every entry bounds. -/
theorem unitFind_lt {t : List (Nat × Nat × Reg)} {m o : Nat} {e : Reg × Nat × Nat} (h : unitFind t o = some e) (ht : ∀ x ∈ t, x.2.1 ≤ m) :
    e.2.1 < e.2.2 ∧ e.2.2 ≤ m := by
  unfold unitFind at h
  split at h
  · next x hx =>
    obtain rfl := Option.some.inj h
    have hp := List.find?_some hx
    have hm := ht x (List.mem_of_find?_eq_some hx)
    simp only [decide_eq_true_eq] at hp
    exact ⟨by dsimp only; omega, hm⟩
  · cases h

/-- Place j in unit i of n, whose entries have at most m registers each. -/
theorem unitIndex_lt {i n j c m : Nat} (hi : i < n) (hj : j < c) (hc : c ≤ m) (hnm : n * m ≤ 4096) : i * c + j < 4096 := by
  have h1 : i * c + j < (i + 1) * c := by rw [Nat.succ_mul]; omega
  have h2 : (i + 1) * c ≤ n * m := Nat.mul_le_mul hi hc
  omega

theorem linRegs_lengths : ∀ x ∈ linRegs, 0 < x.2.1 ∧ x.2.2.1 ≤ 4096 := by decide

/-- An index of a register lies below 4096. -/
theorem regAt_index_lt {off k : Nat} {r : Reg} (h : regAt off = some (r, k)) : k < 4096 := by
  unfold regAt at h
  dsimp only at h
  split at h
  · split at h
    · next ho =>
      obtain ⟨e, he, hek⟩ := Option.map_eq_some_iff.mp h
      obtain ⟨hj, hc⟩ := unitFind_lt (m := 4) he (by decide)
      obtain ⟨-, rfl⟩ := Prod.mk.inj hek
      exact unitIndex_lt (n := 36) (by omega) hj hc (by decide)
    · cases h
  split at h
  · split at h
    · next ho =>
      obtain ⟨e, he, hek⟩ := Option.map_eq_some_iff.mp h
      obtain ⟨hj, hc⟩ := unitFind_lt (m := 4) he (by decide)
      obtain ⟨-, rfl⟩ := Prod.mk.inj hek
      exact unitIndex_lt (n := 16) (by omega) hj hc (by decide)
    · cases h
  split at h
  · split at h
    · cases h
    split at h
    · split at h
      · next r' j c he =>
        obtain ⟨hj, hc⟩ := unitFind_lt (m := 1) he (by decide)
        split at h
        · cases h
        · obtain ⟨-, rfl⟩ := Prod.mk.inj (Option.some.inj h)
          exact unitIndex_lt (n := 8) (by omega) hj hc (by decide)
      · cases h
    split at h
    · obtain ⟨e, he, hek⟩ := Option.map_eq_some_iff.mp h
      obtain ⟨hj, hc⟩ := unitFind_lt (m := 31) he (by decide)
      obtain ⟨-, rfl⟩ := Prod.mk.inj hek
      exact unitIndex_lt (n := 18) (by omega) hj hc (by decide)
    · cases h
  · split at h
    · next e he =>
      obtain ⟨-, rfl⟩ := Prod.mk.inj (Option.some.inj h)
      obtain ⟨hpos, hlen⟩ := linRegs_lengths e (List.mem_of_find?_eq_some he)
      have hp := List.find?_some he
      simp only [decide_eq_true_eq] at hp
      obtain ⟨hle, hlt, -⟩ := hp
      have hdiv : (off - e.1) / e.2.1 < e.2.2.1 := Nat.div_lt_of_lt_mul (by omega)
      omega
    · cases h

/-- A register whose write stores by the access codes is not CACHE_CTRL, so that every byte reads as before. -/
theorem memByte_regStore {r : Reg} {off k : Nat} (d : Dev) (hat : regAt off = some (r, k)) (hr : r ∉ writesAct) (v : Word) (y : Nat) :
    memByte (regStore d r k v) y = memByte d y := by
  have hne : Reg.cacheCtrl.ctorIdx ≠ r.ctorIdx := fun h => hr (by rw [← ctorIdx_injective h]; decide)
  have hkey : Reg.cacheCtrl.key 0 ≠ r.key k := key_ne hne (by decide) (regAt_index_lt hat)
  refine memByte_congr ?_ ?_ ?_ y
  · rfl
  · rfl
  · exact rd_wr_ne d _ hkey

/-! ## LOAD_RETURN and STORE_COMPLETION -/

/-- Settles O23, by what each row leaves: a load its delivery or its exception, a store its bytes, its ring or its register. -/
theorem accessesComplete : Obligations.AccessesComplete := by
  unfold Obligations.AccessesComplete
  refine ⟨⟨fun n i s l hl hrun hreg hbad hs => ?_, fun n s l off rd_ k r hl hrun hreg hdest hfirst hreads hway hat => ?_,
    fun n s l line j hl hrun hreg hs hbad hlev => ?_⟩, fun n s a bs more native num rest hst hrun hoff hl hup hroom hchip hgddr hbell => ?_,
    fun s a off k bs more native num rest r hst hrun hoff hl hfirst hway hat hr => ?_⟩
  · obtain ⟨hregs, hnums, hstores⟩ := core_loadDone s.dev n i.val l (loadBytes (lineReads s.dev (.load n.val l.num)) l)
    refine ⟨_, execLoadReturn_memory hl hrun hreg hbad hs, ?_, hnums, hstores, fun m hm => loadDone_other s.dev hm i.val l _,
      memByte_loadDone s.dev n i.val l _⟩
    rw [hregs]
    cases l.dest with
    | x rd signed => rfl
    | lnf rd slot => rw [deliver_lnf]
    | f rd => rfl
    | vec v long js width => rw [deliver_vec]
    | nullQ k slots => rw [deliver_nullQ]
    | q k => rfl
  · refine ⟨_, execLoadReturn_register hl hrun hreg hfirst hreads hway hat, ?_⟩
    rw [(core_loadDone _ n 0 l _).1, hdest, regRead_cores]
    simp [deliver, ofNat_ofLE_toLE]
  · obtain ⟨hregs, hloads⟩ := core_squash s.dev n l
    rw [← readErr_core _ line] at hregs hloads
    exact ⟨_, execLoadReturn_uncorrectable hl hrun hreg hs hbad, takeException_ofSquash l.saved.pc line j hloads hregs hlev⟩
  · have hmade := storePart_made hst hup hroom hchip hgddr hbell
    exact ⟨_, execStoreCompletion_memory hst hrun hoff hl, fun y b => hmade.bytes.at_, fun y => hmade.bytes.outside,
      (core_congr hmade.cores _).trans (core_storeTaken hst),
      fun m hm => (core_congr hmade.cores _).trans (storeTaken_ne s.dev (Fin.val_ne_of_ne hm)), hmade.ring⟩
  · refine ⟨_, execStoreCompletion_register hst hrun hoff hl hfirst hway hat hr, rfl, ?_, memByte_regStore _ hat hr _⟩
    exact core_storeTaken hst

end Sys2Proof.Machine
end
